-- ==== Sys2Proof/Word.lean ====
section
/-! DEFINITION. The byte, and the words the manual forms from bytes. Every multi-byte field of a
structure held in the store, in host memory or in a Cairn frame is little-endian (00_scope.md R8). -/

namespace Sys2Proof

/-- One byte of the store, of a frame or of a buffer. -/
abbrev Byte := BitVec 8

/-- The low byte of a number. -/
def byteOf (n : Nat) : Byte := BitVec.ofNat 8 n

end Sys2Proof
end

