-- ==== Sys2Proof/Machine/Tables.lean ====
section
/-! DEFINITION. Plain-data helpers every chapter uses: tables keyed by a number (sorted by key, one entry a
key), little-endian fields (R8), bit fields, and bounded searches. -/

namespace Sys2Proof.Machine

/-- A table keyed by a number: keys strictly rising. -/
abbrev Tbl (α : Type) := List (Nat × α)

/-- The entry under a key. -/
def tget {α : Type} : Tbl α → Nat → Option α
  | [], _ => none
  | (k, v) :: t, x => if k = x then some v else if x < k then none else tget t x

/-- The entry under a key, or a default. -/
def tgetD {α : Type} (t : Tbl α) (k : Nat) (d : α) : α := (tget t k).getD d

/-- Put an entry in its place, replacing the one under the same key. -/
def tput {α : Type} : Tbl α → Nat → α → Tbl α
  | [], x, v => [(x, v)]
  | (k, w) :: t, x, v =>
    if x < k then (x, v) :: (k, w) :: t else if k = x then (x, v) :: t else (k, w) :: tput t x v

/-- Take an entry out. -/
def tdel {α : Type} : Tbl α → Nat → Tbl α
  | [], _ => []
  | (k, w) :: t, x => if k = x then t else (k, w) :: tdel t x

/-- Change the entry under a key, when there is one. -/
def tmod {α : Type} (t : Tbl α) (k : Nat) (f : α → α) : Tbl α :=
  match tget t k with
  | some v => tput t k (f v)
  | none => t

/-- The keys of a table. -/
def tkeys {α : Type} (t : Tbl α) : List Nat := t.map Prod.fst

/-- The values of a table. -/
def tvals {α : Type} (t : Tbl α) : List α := t.map Prod.snd

/-- Bits [hi:lo] of a number. -/
def bits (n hi lo : Nat) : Nat := (n / 2 ^ lo) % 2 ^ (hi + 1 - lo)

/-- Bit b of a number. -/
def bit (n b : Nat) : Bool := (n / 2 ^ b) % 2 = 1

/-- Bit b of a number set or cleared. -/
def setBit (n b : Nat) (v : Bool) : Nat :=
  if bit n b = v then n else if v then n + 2 ^ b else n - 2 ^ b

/-- A Bool as the number a register shows. -/
def b2n (b : Bool) : Nat := if b then 1 else 0

/-- How many of the low n bits are 1. -/
def popCount : Nat → Nat → Nat
  | 0, _ => 0
  | n + 1, w => w % 2 + popCount n (w / 2)

/-- The number held in little-endian bytes (R8). -/
def leNat : List Byte → Nat
  | [] => 0
  | b :: t => b.toNat + 256 * leNat t

/-- n little-endian bytes of a number (R8). -/
def leBytes : Nat → Nat → List Byte
  | 0, _ => []
  | n + 1, w => byteOf w :: leBytes n (w / 256)

/-- n bytes from an offset of a byte string; bytes beyond its end read 0. -/
def slice (bs : List Byte) (off n : Nat) : List Byte :=
  let t := (bs.drop off).take n
  t ++ List.replicate (n - t.length) 0

/-- The little-endian field of n bytes at an offset. -/
def fld (bs : List Byte) (off n : Nat) : Nat := leNat (slice bs off n)

/-- A byte string with n bytes at an offset replaced. -/
def patch (bs : List Byte) (off : Nat) (new : List Byte) : List Byte :=
  bs.take off ++ new ++ bs.drop (off + new.length)

/-- Whether every byte is 0. -/
def allZero (bs : List Byte) : Bool := bs.all (· == 0)

/-- n zero bytes. -/
def zeros (n : Nat) : List Byte := List.replicate n 0

/-- The two's-complement reading of a w-bit number. -/
def toSigned (w n : Nat) : Int := if n % 2 ^ w < 2 ^ (w - 1) then ((n % 2 ^ w : Nat) : Int) else ((n % 2 ^ w : Nat) : Int) - 2 ^ w

/-- The w-bit two's complement of an integer. -/
def ofSigned (w : Nat) (i : Int) : Nat := (i % 2 ^ w).toNat

/-- ⌈a ÷ b⌉. -/
def ceilDiv (a b : Nat) : Nat := (a + b - 1) / b

/-- The first of lo, lo+1, …, at most n of them, that satisfies a test. -/
def firstFrom : Nat → Nat → (Nat → Bool) → Option Nat
  | 0, _, _ => none
  | n + 1, lo, p => if p lo then some lo else firstFrom n (lo + 1) p

/-- The first element with the least measure. -/
def minBy {α : Type} (f : α → Nat) : List α → Option α
  | [] => none
  | a :: t => match minBy f t with
    | none => some a
    | some b => if f a ≤ f b then some a else some b

/-- Sum of a list of numbers. -/
def sumL (l : List Nat) : Nat := l.foldl (· + ·) 0

/-- Insert a number into a strictly rising list. -/
def insSorted : List Nat → Nat → List Nat
  | [], x => [x]
  | y :: t, x => if x < y then x :: y :: t else if x = y then y :: t else y :: insSorted t x

/-- Remove a number from a list. -/
def remove (l : List Nat) (x : Nat) : List Nat := l.filter (· ≠ x)

/-- Insertion sort by a strict order on elements; equal elements keep their order. -/
def insertBy {α : Type} (lt : α → α → Bool) (x : α) : List α → List α
  | [] => [x]
  | y :: t => if lt x y then x :: y :: t else y :: insertBy lt x t

/-- A list sorted by a strict order on its elements. -/
def sortBy {α : Type} (lt : α → α → Bool) (l : List α) : List α := l.foldl (fun acc x => insertBy lt x acc) []

/-- Split a byte string into pieces of n bytes. -/
def chunksOf (n : Nat) : Nat → List Byte → List (List Byte)
  | 0, _ => []
  | k + 1, bs => if bs.isEmpty then [] else bs.take n :: chunksOf n k (bs.drop n)

/-- Two byte ranges [a, a+n) and [b, b+k) have a byte in common. -/
def overlaps (a n b k : Nat) : Bool := decide (a < b + k) && decide (b < a + n)

end Sys2Proof.Machine
end

