-- ==== Sys2Proof/Terms.lean ====
section
/-! DEFINITION. The operands commands carry: who writes the dictionary, messages of the Col, transfer-frame
requests, results of media and module accesses, SPDM outcomes. -/

namespace Sys2Proof

/-- Who sends a transfer frame (14_cairn.md R390, R399, R400): an SPDM session over Cairn or Ridgeline, an
in-band requester (link 0-15, LD), or a bare KIND 0x01 request on the Cairn port. -/
inductive Requester where
  | session (slot : Nat)
  | inBand (link ld : Nat)
  | bare
  deriving DecidableEq, Repr

/-- The key of a requester's state: a session's slot, 99 for a bare request, 256 + link × 16 + LD in band. -/
def Requester.code : Requester → Nat
  | .session n => n
  | .bare => 99
  | .inBand link ld => 256 + link * 16 + ld

/-- Whether a requester is in band. -/
def Requester.isInBand : Requester → Bool
  | .inBand _ _ => true
  | _ => false

/-- A dictionary write that has a row of its own: its sender, the TRANSACTION its answer copies (R389), and whether it is a
segmented write (R393), whose answer copies OP SEG_WRITE. -/
structure Src where
  q : Requester
  txn : Nat
  seg : Bool
  deriving DecidableEq, Repr

/-- The body of a request (Table 14-7). -/
structure Request where
  txn : Nat
  op : Nat
  flags : Nat
  index : Nat
  sub : Nat
  ty : Nat
  len : Nat
  off : Nat
  data : List Byte
  deriving DecidableEq, Repr

/-- An SPDM message to this device (14_cairn.md R400; 16_security.md R445-R452). `session` is the session it belongs to. A
FINISH carries the requester's leaf key, the public key of the certificate its chain ends in, whether every signature of the
chain is good, and whether every certificate is valid now. -/
inductive SpdmMsg where
  | keyExchange
  | finish (session : Nat) (leaf root : List Byte) (signed inDate : Bool)
  | endSession (session : Nat)
  | heartbeat (session : Nat)
  | getMeasurements
  | setCertificate (session slot : Nat) (chain : List Byte)
  | other
  deriving DecidableEq, Repr

/-- The frame inside a secured message (R389, R390). -/
inductive PlainFrame where
  | request (r : Request)
  | noticeAck (sequence : Nat)
  | other
  deriving DecidableEq, Repr

/-- The frame inside a relay or an MGMT_REQ (R390): an SPDM message, a secured message of a session with what it decrypts to,
or one of a kind that is not accepted there. -/
inductive SealedFrame where
  | spdm (msg : SpdmMsg)
  | secured (session : Nat) (plain : PlainFrame)
  | other
  deriving DecidableEq, Repr

/-- The transport a frame arrives by (Table 14-5). -/
inductive Transport where
  | cairn | mirror (link ld : Nat) | ridgeline (port : Nat)
  deriving DecidableEq, Repr

/-- Col cache states (01_organisation.md Table 01-6); I is absence. -/
inductive LineState where
  | M | E | S
  deriving DecidableEq, Repr

/-- What an SNP_RSP says (Table 01-5): the snooped die holds nothing, holds S, or has sent the data. -/
inductive SnpAnswer where
  | inv | shared | dataSent
  deriving DecidableEq, Repr

/-- A 64 B line as it is delivered: its bytes, poison, or no data at all, the request that needs the line ending
with a status (03_store_tiers.md R90). -/
inductive LineVal where
  | data (bs : List Byte)
  | poison
  | failed (status : Nat)
  deriving DecidableEq, Repr

/-- How a media read ends (03_store_tiers.md R70, R76, R90): the medium's bytes, an uncorrectable error, or the
bytes of the compressed slot that holds the line. -/
inductive MediaResult where
  | ok
  | uncorrectable
  | slot (bytes : List Byte)
  deriving DecidableEq, Repr

/-- The frame a freed or allocated granule names (Table 03-1): a stacked frame or a frame of a DIMM domain. -/
inductive Frame where
  | stack (f : Nat)
  | dimm (domain f : Nat)
  deriving DecidableEq, Repr

/-- An SPDM message's channel: a host LD's DOE mailbox, a Cairn station, a Ridgeline node (R108, R400). -/
inductive SpdmChan where
  | host (link ld : Nat)
  | cairn (address : Nat)
  | ridgeline (node : Nat)
  deriving DecidableEq, Repr

/-- The configuration registers of an LD that the manual names (04_host_ports.md R100, R102, R103, R107;
02_address_spaces.md R45), a control of a feature that is not supported, and any other by its number. -/
inductive CfgReg where
  | vendor | device | classCode | cacheEnable | msixControl | completionTimeout | unsupported
  | other (n : Nat)
  deriving DecidableEq, Repr

/-- A host access of an LD's configuration space, its CDAT or a 32-bit word of its BARs (04_host_ports.md R103, R104). -/
inductive HostAcc where
  | cfgRead (r : CfgReg)
  | cfgWrite (r : CfgReg) (v : Nat)
  | barRead (bar off : Nat)
  | barWrite (bar off v : Nat)
  | cdat
  deriving DecidableEq, Repr

/-- How a CXL.io read ends (02_address_spaces.md R45): its data, Unsupported Request, Completer Abort. -/
inductive Completion where
  | data (bs : List Byte)
  | unsupported
  | abort
  deriving DecidableEq, Repr

/-- A Ridgeline frame (05_ridgeline_links.md Table 05-3): its header fields, header bytes 32-63, and its data flits
joined. -/
structure RFrame where
  dst : Nat
  src : Nat
  cls : Nat
  vc : Nat
  colour : Nat
  epoch : Nat
  opcode : Nat
  len : Nat
  hops : Nat
  detour : Bool
  rerouted : Bool
  mg : Bool
  sequence : Nat
  tag : Nat
  window : Nat
  offset : Nat
  key : Nat
  ext : List Byte
  payload : List Byte
  deriving DecidableEq, Repr

end Sys2Proof
end

