-- ==== Sys2Proof/Machine/HostTypes.lean ====
section
/-! DEFINITION. The state of translation (02_address_spaces.md) and of the host ports (04_host_ports.md). -/

namespace Sys2Proof.Machine

/-- The fields of an ENABLED AST (R41, R42). -/
structure Ast where
  root : Nat
  owner : Nat
  kind : Nat
  keys : Nat
  binding : Nat
  deriving DecidableEq, Repr

/-- A cached leaf translation (R50): its AST, the first DVA of its page, the size of the page in bytes, and the leaf entry. -/
structure Leaf where
  ast : Nat
  base : Nat
  size : Nat
  entry : Nat
  deriving DecidableEq, Repr

/-- A cached table entry of a walk cache: AST, level, the DVA bits above the level's table, the entry. -/
structure WalkEntry where
  ast : Nat
  level : Nat
  prefixBits : Nat
  entry : Nat
  deriving DecidableEq, Repr

/-- A walk in flight (R43, R51): the level whose entry is being read and its table; `slot` is the scoreboard slot
of the command a demand walk serves, none for a prefetch walk. -/
structure Walk where
  die : Nat
  ast : Nat
  dva : Nat
  level : Nat
  table : Nat
  slot : Option Nat
  deriving DecidableEq, Repr

/-- Who is told that an invalidation is acknowledged (R48, R52). -/
inductive InvalReply where
  | dict (s : Src)
  | ats (link ld : Nat)
  | silent
  deriving DecidableEq, Repr

/-- An invalidation in progress (R52-R54): the AST, or none for every AST, and the scoreboard slots whose accesses
under dropped translations are outstanding. -/
structure Inval where
  ast : Option Nat
  reply : InvalReply
  slots : List Nat
  started : Nat
  deriving DecidableEq, Repr

/-- How a read outside the package ended. -/
inductive FetchEnd where
  | ok (bytes : List Byte)
  | failed (status : Nat)
  deriving DecidableEq, Repr

/-- A read that a command has sent outside the package, through a host path (R45) or the fabric: the scoreboard
slot, the HPA or GFA, the length, the path as link × 16 + LD or the TAG, and its end once it has come. What has
come stays until the command ends. -/
structure Fetch where
  slot : Nat
  gfa : Bool
  addr : Nat
  len : Nat
  path : Nat
  ended : Option FetchEnd
  deriving DecidableEq, Repr

/-- MIGRATE between its walk and its swap (R60): the leaves of its range as (entry DPA, entry, page size) in order, and
the writes it holds as (scoreboard slot, DVA, bytes). -/
structure Migration where
  slot : Nat
  ast : Nat
  toHost : Bool
  port : Nat
  dva : Nat
  len : Nat
  dest : Nat
  leaves : List (Nat × Nat × Nat)
  held : List (Nat × Nat × List Byte)
  deriving DecidableEq, Repr

/-- Translation of the package. Micro-caches are keyed die × 64 + engine code. -/
structure Xlate where
  asts : Tbl Ast
  dieCache : Tbl (List Leaf)
  micro : Tbl (List Leaf)
  walkCache : Tbl (List WalkEntry)
  walks : List Walk
  invals : List Inval
  fetches : List Fetch
  migrations : List Migration
  deriving DecidableEq, Repr

/-- An HDM decoder (R39). -/
structure Decoder where
  base : Nat
  size : Nat
  dpa : Nat
  gran : Nat
  ways : Nat
  committed : Bool
  deriving DecidableEq, Repr

/-- A decoder out of reset. -/
def Decoder.reset : Decoder := { base := 0, size := 0, dpa := 0, gran := 8, ways := 0, committed := false }

/-- LD binding states (Table 04-4). -/
inductive Binding where
  | down | unbound | authenticating | bound | refused | teardown
  deriving DecidableEq, Repr

/-- An MSI-X table entry. -/
structure MsixEntry where
  addr : Nat
  data : Nat
  masked : Bool
  pending : Bool
  deriving DecidableEq, Repr

/-- The in-band mirror of an LD (Table 04-9, R123). -/
structure Mirror where
  req : List Byte
  reqLen : Nat
  resp : List Byte
  respLen : Nat
  busy : Bool
  done : Bool
  vector : Nat
  deriving DecidableEq, Repr

/-- The mirror out of reset. -/
def Mirror.reset : Mirror :=
  { req := [], reqLen := 0, resp := [], respLen := 0, busy := false, done := false, vector := 0x7FF }

/-- A logical device (R103): binding, the identity and key slot it is bound with, what reset of the link or of the
function clears, its IDE streams, its mirror, and its other configuration bytes by offset. -/
structure Ld where
  bind : Binding
  ident : Nat
  keySlot : Nat
  decoders : List Decoder
  cacheEnable : Bool
  msixEnable : Bool
  functionMask : Bool
  timeoutRange : Nat
  config : Tbl Nat
  rasLogged : Bool
  msix : Tbl MsixEntry
  ideIo : Bool
  ideMem : Bool
  mirror : Mirror
  lossEvent : Nat
  deriving DecidableEq, Repr

/-- An LD of a link that is down. -/
def Ld.reset : Ld :=
  { bind := .down, ident := 0, keySlot := 0, decoders := List.replicate 4 Decoder.reset, cacheEnable := false
    msixEnable := false, functionMask := false, timeoutRange := 0, config := [], rasLogged := false, msix := []
    ideIo := false, ideMem := false, mirror := Mirror.reset, lossEvent := 0 }

/-- A host filter entry (R113): the line, the link that holds it, the state, the LDs that hold it. -/
structure HostLine where
  line : Nat
  link : Nat
  st : LineState
  lds : List Nat
  deriving DecidableEq, Repr

/-- What a host asks for with a CXL.mem request (Table 04-5). -/
inductive HostAsk where
  | current | shared | exclusive | own
  deriving DecidableEq, Repr

/-- A host request waiting for the Col or for a back-invalidation (R114, R115). `bytes` is none for a read; `off`
is the write's first byte in the line. -/
structure HostReq where
  link : Nat
  ld : Nat
  tag : Nat
  line : Nat
  ask : HostAsk
  off : Nat
  bytes : Option (List Byte)
  deriving DecidableEq, Repr

/-- What a back-invalidation completes (Table 04-6): the answer to a home's snoop, an eviction, a waiting access
that is tried again, or the freeing of a filter entry. -/
inductive BiCause where
  | snpInv (home req : Nat)
  | snpShare (home req : Nat)
  | evict
  | access
  | overflow
  deriving DecidableEq, Repr

/-- An outstanding BISnp. -/
structure BiSnp where
  die : Nat
  link : Nat
  line : Nat
  inv : Bool
  cause : BiCause
  deriving DecidableEq, Repr

/-- Host ports of the package: LDs by link × 16 + LD, host filters by die (most recently used first), outstanding
BISnps, requests waiting, and the lost-path mask as link × 16 + LD (R119). -/
structure HostSide where
  lds : Tbl Ld
  filters : Tbl (List HostLine)
  bis : List BiSnp
  waiting : List HostReq
  lost : List Nat
  deriving DecidableEq, Repr

end Sys2Proof.Machine
end

