-- ==== Sys2Proof/Machine/StoreTypes.lean ====
section
/-! DEFINITION. The state of the Col (01_organisation.md) and of the store (03_store_tiers.md). -/

namespace Sys2Proof.Machine

/-- A line in a Col cache (R18, R19). -/
structure ColLine where
  st : LineState
  val : LineVal
  deriving DecidableEq, Repr

/-- An entry of a Col filter (R21): the package-wide state and the presence vector, as the dies that hold the
line in rising order. -/
structure FilterEntry where
  st : LineState
  dies : List Nat
  deriving DecidableEq, Repr

/-- Col message types (Table 01-5). -/
inductive ColType where
  | rdShared | rdOwn | upgrade | evict | wb | snpShare | snpInv | snpFwd | ack | snpRsp | data
  deriving DecidableEq, Repr

/-- A Col message in flight. `req` is the requester of the transaction it serves, `vc` the virtual channel of
its class (R16), `st` the state a DATA or ACK installs. -/
structure ColMsg where
  ty : ColType
  src : Nat
  dst : Nat
  line : Nat
  req : Nat
  vc : Nat
  ans : SnpAnswer
  val : LineVal
  st : LineState
  deriving DecidableEq, Repr

/-- What a home's transaction on a line is (R20, R22). -/
inductive TxnKind where
  | shared | own | upgrade | recall
  deriving DecidableEq, Repr

/-- A transaction a home has open on a line (R20-R24): its requester, the snooped dies whose SNP_RSP is outstanding,
the line whose recall its allocation waits for; whether the home's own copy of an M holder's DATA is due and has
come; whether a WB has come, or is due, in place of a holder's DATA; whether a holder has sent the requester its
DATA; and the state the requester has installed. -/
structure ColTxn where
  kind : TxnKind
  req : Nat
  home : Nat
  waiting : List Nat
  behind : Option Nat
  copyDue : Bool
  copyIn : Bool
  wbIn : Bool
  wbDue : Bool
  sent : Bool
  done : Option LineState
  deriving DecidableEq, Repr

/-- A REQ waiting in a home's per-line queue (R23). -/
structure ColWait where
  kind : TxnKind
  req : Nat
  home : Nat
  line : Nat
  deriving DecidableEq, Repr

/-- A media read a home has asked a media owner for, and what its DATA installs (R20). -/
structure MediaRead where
  line : Nat
  home : Nat
  req : Nat
  st : LineState
  deriving DecidableEq, Repr

/-- The Col of the package. Caches and filters list their lines most recently used first. -/
structure Col where
  caches : Tbl (List (Nat × ColLine))
  filters : Tbl (List (Nat × FilterEntry))
  txns : Tbl ColTxn
  waits : List ColWait
  reads : List MediaRead
  net : List ColMsg
  deriving DecidableEq, Repr

/-- Where a fencing die stands in Table 01-7. -/
inductive FenceStep where
  | evacuating | draining | writeback | survivors
  deriving DecidableEq, Repr

/-- A fence in progress. -/
structure FenceRun where
  step : FenceStep
  deriving DecidableEq, Repr

/-- LOC of a granule map entry (Table 03-1). -/
inductive Loc where
  | unbacked | stack | dimm | comp | lost
  deriving DecidableEq, Repr

/-- A granule map entry (Tables 03-1 and 03-2). `frame` is the stacked frame for STACK and the frame in the
domain for DIMM and COMP; `chunk` and `chunks` are the slot of COMP. -/
structure Granule where
  loc : Loc
  domain : Nat
  frame : Nat
  chunk : Nat
  chunks : Nat
  moving : Bool
  hint : Nat
  sat : Bool
  last : Nat
  deriving DecidableEq, Repr

/-- The kinds of movement (R82, R83). -/
inductive MoveKind where
  | promote | evict | compress | expand | evacuate
  deriving DecidableEq, Repr

/-- Where a movement puts its granule. -/
inductive MoveDest where
  | stack (f : Nat)
  | dimm (domain f : Nat)
  | slot (domain f chunk chunks : Nat)
  deriving DecidableEq, Repr

/-- A movement in flight (R82, Table 03-5): dirty lines, promote-pending, the final pass, whether a write forced
it, and the evacuation request that a promotion defers. -/
structure Movement where
  kind : MoveKind
  dst : MoveDest
  dirty : List Nat
  promotePending : Bool
  evacPending : Bool
  finalPass : Bool
  forced : Bool
  deriving DecidableEq, Repr

/-- Whom a write is for: nobody who is told, a command by its scoreboard slot, a host's CXL.mem write, a fabric
request that waits at its target by its number, or a queue's completion ring and pointer block. -/
inductive WriteOwner where
  | none
  | cmd (slot : Nat)
  | host (link ld tag : Nat)
  | fabric (id : Nat)
  | queue (q : Nat)
  deriving DecidableEq, Repr

/-- A write as it reaches its granule's map owner: requester die, DPA, bytes, and whom it is for. -/
structure StoreWrite where
  die : Nat
  dpa : Nat
  bytes : List Byte
  owner : WriteOwner
  deriving DecidableEq, Repr

/-- An extent's lease (Table 03-8). -/
structure Lease where
  state : Nat
  holder : Nat
  expiry : Nat
  deriving DecidableEq, Repr

/-- A reshape of the DIMM domains (R96, R97): the channel, whether it joins, and whether its training is still
awaited; `src` is the write that is answered when training ends. -/
structure Reshape where
  channel : Nat
  adding : Bool
  sweeping : Bool
  src : Option Src
  deriving DecidableEq, Repr

/-- The store: contents and poison by DPA, the granule map and Moraine's work. An unlisted byte reads 0 and an
unlisted granule is UNBACKED at its reset word 1 (R66). -/
structure Store where
  mem : List Host.Cell
  poison : List Nat
  gran : Tbl Granule
  moves : Tbl Movement
  gathered : Tbl (List Nat)
  sweep : Nat
  allocWaits : List StoreWrite
  heldWrites : List StoreWrite
  unzeroed : List Frame
  keepPlain : List Nat
  rereads : List Nat
  pins : Tbl Nat
  wmArmed : List Bool
  leases : Tbl Lease
  dimmGiB : Tbl Nat
  members : Tbl (List Nat)
  reshape : Option Reshape
  deriving DecidableEq, Repr

end Sys2Proof.Machine
end

