-- ==== Sys2Proof/Syntax.lean ====
section
/-! DEFINITION. The commands of the block: one constructor for each row of spec/opcode_table.json, in the table's order, with
what the event or message carries. A docstring gives the row's rule and its summary in the table. -/

namespace Sys2Proof
open Machine (StoreWrite HostAsk)

/-- A command: an event on a pin, a message or flit on an interface, an engine's event, a tile instruction reaching its turn, or
a write or read of a register that acts. -/
inductive Instr where
  /-- R20: A REQ RD_SHARED reaches a line's home, which serves it from a sharer, a holder or the media according to its filter. -/
  | colRdShared (home req line : Nat)
  /-- R19: A REQ RD_OWN reaches a line's home, which invalidates the other holders and grants ownership to the requester. -/
  | colRdOwn (home req line : Nat)
  /-- R19: A REQ UPGRADE from a die that holds the line in S reaches the home, which grants ownership without data. -/
  | colUpgrade (home req line : Nat)
  /-- R21: An EVICT notice for a clean line reaches the home, which clears the die's presence bit. -/
  | colEvict (home src line : Nat)
  /-- R21: A WB with its DATA reaches the home, which writes the line to the media and clears the die's presence bit. -/
  | colWb (home src line : Nat)
  /-- R20: An SNP_SHARE reaches an E or M holder, which drops to S and answers, forwarding its data if the line is M. -/
  | colSnpShare (home die line : Nat)
  /-- R22: An SNP_INV reaches a holder, which invalidates the line and returns its data if the line is M. -/
  | colSnpInv (home die line : Nat)
  /-- R20: An SNP_FWD reaches the named responder, which sends DATA to the requester, stays in S and answers data sent. -/
  | colSnpFwd (home die line : Nat)
  /-- R24: An SNP_RSP reaches the home, which completes the snooping transaction or a filter-overflow recall once every answer is in. -/
  | colSnpRsp (home src line : Nat)
  /-- R19: An ACK completes a Col transaction without data at the die that receives it. -/
  | colAck (src die line : Nat)
  /-- R20: A DATA line reaches a requester or home, which installs it in the state of the transaction or writes it to media. -/
  | colData (src die line : Nat)
  /-- R25: A Col link fails to carry traffic within the retrain limit and is declared down, with rerouting and a notice. -/
  | colRetrainLimitExpiry (link : Nat)
  /-- R25: A Steward write of 0x3380.03 retries the named down Col links. -/
  | clearDownLink (sender : Src) (v : Nat)
  /-- R27: A die watchdog expires and the die is fenced abrupt. -/
  | dieWatchdogExpiry (d : Nat)
  /-- R27: A die reports an uncorrectable error in its Col cache, Col filter or mesh and is fenced abrupt. -/
  | dieUncorrectableError (d : Nat)
  /-- R27: A die loses its CORE supply and is fenced abrupt. -/
  | coreSupplyLoss (d : Nat)
  /-- R29: A Steward write of 0x2211.01 with action 0 puts the die in FENCING and starts Moraine's evacuation of its media. -/
  | fenceOrderly (sender : Src) (d : Nat)
  /-- R98: Evacuation of a fencing die's stacks and channels ends and the die's scheduler starts draining its commands. -/
  | fenceEvacuationDone (d : Nat)
  /-- R98: The fence evacuation bound passes and the fence is abandoned, the die returning to ACTIVE. -/
  | fenceEvacuationBoundExpiry (d : Nat)
  /-- R29: The last command of a fencing die completes and the die's Col cache starts writing back its lines. -/
  | fenceDrainDone (d : Nat)
  /-- R29: The command drain bound passes and commands still running on the fencing die end with FENCED_DIE. -/
  | commandDrainBoundExpiry (d : Nat)
  /-- R29: The fencing die's Col cache has written back and evicted every line, so its links are cut and held commands end. -/
  | fenceWritebackDone (d : Nat)
  /-- R30: Surviving dies have dropped every line homed on the fenced die, so the remap table commits and the die goes FENCED. -/
  | fenceSurvivorWritebackDone (d : Nat)
  /-- R33: A Steward write of 0x2211.01 with action 1 resets a fenced die and retrains its Col links. -/
  | dieRejoin (sender : Src) (d : Nat)
  /-- R33: A rejoining die's links have trained, so its resources return to the maps and it becomes ACTIVE. -/
  | dieRejoinDone (d : Nat) (t0 t1 : Bool)
  /-- R34: Every die has dropped the lines whose home a remap commit changes, and the new generation takes effect. -/
  | homeRemapWritebackDone
  /-- R40: A host commits an HDM decoder, which succeeds only if its range lies within the bound identity's grant set. -/
  | hdmDecoderCommit (link ld k base size dpa g ways : Nat)
  /-- R42: A write of 1 to 0x3610.07 checks the selected AST's pending fields and makes it ENABLED. -/
  | astEnable (sender : Src)
  /-- R42: A write of 0 to 0x3610.07 disables the selected AST unless commands are in flight. -/
  | astDisable (sender : Src)
  /-- R42: A write of 0x3610.03 sets the AST owner, forced to the writing host over the in-band mirror. -/
  | astOwnerWrite (sender : Src) (v : Nat)
  /-- R43: A page-table entry read completes and the walker checks it and either reads the next level or delivers the leaf. -/
  | walkStepDone (die ast dva : Nat)
  /-- R51: The walker starts a prefetch walk ahead of a stream command when fewer than 24 slots are busy. -/
  | prefetchWalkStart (die ast dva : Nat)
  /-- R45: A completion of a CXL.io read issued for a HOST-kind access arrives and is delivered or fails the access. -/
  | hostCxlioCompletion (slot hpa : Nat) (c : Completion)
  /-- R45: A CXL.io read to a host receives no completion within the programmed timeout range. -/
  | hostCompletionTimeout (slot hpa : Nat)
  /-- R48: An ATS Invalidation Request arrives and drops the matching host-shared AST's cached translations. -/
  | atsInvalidationRequest (link ld : Nat) (pasid : Option Nat) (lo n : Nat)
  /-- R52: A write of 0x3630.01 drops every cached translation of the AST and restarts its walks. -/
  | invalidateAst (sender : Src) (ast : Nat)
  /-- R52: A write of 1 to 0x3630.02 invalidates every AST. -/
  | invalidateAll (sender : Src)
  /-- R52: The last access issued under a dropped translation completes and the invalidation is acknowledged. -/
  | invalidationAck (ast : Option Nat)
  /-- R53: The invalidation bound passes, outstanding accesses end with TIMEOUT and the invalidation is acknowledged. -/
  | invalidationBoundExpiry (ast : Option Nat)
  /-- R60: A MIGRATE command walks a range, copies its pages to host or device, swaps the leaves and releases held writes. -/
  | migrate (slot : Nat)
  /-- R60: MIGRATE's copy and flush read complete, so it rewrites the leaves and invalidates the AST. -/
  | migrateCopyDone (slot : Nat)
  /-- R63: An ADVISE command walks a range and records the hint for every granule of its LOCAL leaves. -/
  | advise (slot : Nat)
  /-- R66: A media read of a line completes and its data, zeros or poison are delivered. -/
  | mediaReadDone (line : Nat) (r : MediaResult)
  /-- R66: A write or atomic is applied to a granule, replacing or keeping poison and allocating if the granule is UNBACKED. -/
  | mediaWrite (w : StoreWrite)
  /-- R86: No frame comes free within the allocation bound and the waiting write ends with STORE_FULL. -/
  | allocationBoundExpiry (g : Nat)
  /-- R86: Background zeroing of a freed frame ends and the frame becomes available to allocation. -/
  | frameZeroed (f : Frame)
  /-- R89: A read of a latched record in 0x3051 returns and clears it in one step. -/
  | watermarkRecordRead (sender : Src) (k : Nat)
  /-- R68: At every 1 ms tick each die writes LAST into the entries of the granules accessed through it. -/
  | accessFlushTick (die : Nat)
  /-- R68: The background sweep visits a granule entry and sets SAT where its age has reached 255. -/
  | ageSweepVisit
  /-- R79: Free stacked frames fall below the low mark and a Moraine agent starts evicting granules until the high mark. -/
  | evictionStart (die : Nat)
  /-- R80: A domain's free frames fall below the compression mark and Moraine starts compressing its old granules. -/
  | compressionStart (d : Nat)
  /-- R82: A movement's copy ends, so writes are held and the dirty lines are copied again. -/
  | movementCopyDone (g : Nat)
  /-- R83: The final pass ends, the map swaps, the source is freed and a pending promotion starts. -/
  | movementFinalPassDone (g : Nat)
  /-- R83: A movement's source read or destination write fails and the destination is freed, leaving the granule in place. -/
  | movementFailed (g : Nat)
  /-- R90: A DIMM access has no answer within the DIMM access bound and its request ends with LOWER_TIER_FAIL. -/
  | dimmAccessBoundExpiry (line : Nat)
  /-- R90: The background second read after an uncorrectable DIMM error completes, poisoning the line if it also fails. -/
  | dimmRereadDone (line : Nat) (ok : Bool)
  /-- R90: A DIMM channel fails in service, goes DOWN and a notice is raised. -/
  | channelFail (c : Nat)
  /-- R92: Scrubbing of the DPA that a Host Range Table commit removes ends and the new bank takes effect. -/
  | hrtScrubDone
  /-- R93: A write of 0x3421.01 gives the lowest free extent to the holder with a new expiry. -/
  | leaseAcquire (sender : Src) (holder : Nat)
  /-- R93: A write of 0x3421.03 renews one held or grace extent. -/
  | leaseRenew (sender : Src) (k : Nat)
  /-- R93: A write of 0x3421.04 renews every extent of the holder. -/
  | leaseRenewHolder (sender : Src) (holder : Nat)
  /-- R93: A write of 0x3421.05 releases an extent, which leaves the grant set and starts scrubbing. -/
  | leaseRelease (sender : Src) (k : Nat)
  /-- R93: A held extent's expiry passes, so it enters GRACE and a notice is raised. -/
  | leaseExpiry (k : Nat)
  /-- R93: The grace time of an extent ends, so it leaves the holder's grant set and starts scrubbing. -/
  | graceEnd (k : Nat)
  /-- R94: Every granule of a scrubbing extent is UNBACKED and the extent returns to FREE. -/
  | extentScrubDone (k : Nat)
  /-- R95: A write of 0x3026.01 puts a stack in RETIRING and starts moving its granules away. -/
  | stackRetire (sender : Src) (k : Nat)
  /-- R95: A retiring stack is empty and goes RETIRED with a notice. -/
  | stackEvacuationDone (k : Nat)
  /-- R96: A write of 0x3022.01 with action 0 starts the reshape of every domain that holds the channel. -/
  | channelRemove (sender : Src) (c : Nat)
  /-- R97: A write of 0x3022.01 with action 1 trains the channel for addition to its domains. -/
  | channelAdd (sender : Src) (c : Nat)
  /-- R97: A channel being added finishes training and its reshape sweep starts, or it is refused if too small. -/
  | channelTrained (c gib : Nat) (ok : Bool)
  /-- R96: A reshape sweep ends, the channel goes REMOVED or joins, and the physical store changes. -/
  | reshapeSweepDone
  /-- R112: A CXL.mem read arrives, is decoded and checked against the grant set, and is served or answered poisoned. -/
  | hostCxlMemRead (link ld hpa : Nat) (ask : HostAsk) (tag : Nat)
  /-- R112: A CXL.mem write arrives, is decoded and checked, and is applied or discarded. -/
  | hostCxlMemWrite (link ld hpa : Nat) (bs : List Byte) (tag : Nat)
  /-- R121: A host write-back of a line arrives and is applied as snoop data or as an ordinary write. -/
  | hostWriteback (link ld hpa : Nat) (bs : List Byte) (keep : HostAsk) (tag : Nat)
  /-- R115: A host's BIRsp arrives and the die frees the host filter entry and completes the waiting event. -/
  | birsp (link line : Nat)
  /-- R117: A holding path fails to answer a BISnp within the BI bound, so the path is lost and the snoop completes. -/
  | biBoundExpiry (link line : Nat)
  /-- R102: A host-to-device snoop arrives and is answered with RspIHitI. -/
  | hostSnoop (link : Nat)
  /-- R105: A write to BAR 0/1 is checked and, if it qualifies, posts descriptors to the queue. -/
  | doorbellWrite (link ld off width value : Nat)
  /-- R109: A host link trains and its enabled LDs enter UNBOUND. -/
  | hostLinkTrained (link rate lanes : Nat)
  /-- R109: A KEY_EXCHANGE arrives on an LD and starts or restarts authentication, or is answered Busy. -/
  | spdmKeyExchange (chan : SpdmChan)
  /-- R108: The FINISH that completes an exchange arrives and the key is matched, binding or refusing the path. -/
  | spdmFinish (chan : SpdmChan) (session : Nat) (leaf root : List Byte) (signed inDate : Bool)
  /-- R109: An LD's authentication bound passes and the session ends, returning the LD to UNBOUND. -/
  | authenticationBoundExpiry (link ld : Nat)
  /-- R118: An END_SESSION ends an SPDM session and, on a host LD, loses its path. -/
  | spdmEndSession (chan : SpdmChan) (session : Nat)
  /-- R118: An SPDM session has no heartbeat for twice its period and ends. -/
  | spdmHeartbeatTimeout (chan : SpdmChan) (session : Nat)
  /-- R450: A HEARTBEAT message keeps an SPDM session alive. -/
  | spdmHeartbeat (chan : SpdmChan) (session : Nat)
  /-- R445: A GET_MEASUREMENTS request is answered with the signed measurement blocks. -/
  | spdmGetMeasurements (chan : SpdmChan)
  /-- R449: A SET_CERTIFICATE in a Custodian session installs the owner chain in slot 1. -/
  | spdmSetCertificate (chan : SpdmChan) (session slot : Nat) (chain : List Byte)
  /-- R450: Any other supported SPDM request is answered as SPDM 1.3 lays down. -/
  | spdmOtherRequest (chan : SpdmChan)
  /-- R118: A host link goes down, losing every bound path on it and resetting its LDs. -/
  | hostLinkDown (link : Nat)
  /-- R118: PERST_L of a port is asserted, resetting the port and losing its paths. -/
  | perstLAssert (port : Nat)
  /-- R118: A hot reset of a link resets its LDs and loses their paths. -/
  | hotReset (link : Nat)
  /-- R118: A Function Level Reset resets an LD's configuration and MSI-X state and loses its path. -/
  | functionLevelReset (link ld : Nat)
  /-- R122: An IDE integrity failure takes the link out of secure state and is treated as a path loss. -/
  | ideIntegrityFailure (link ld : Nat)
  /-- R118: A Steward write of 0x3432.01 ends every path of the identity. -/
  | unbindIdentity (sender : Src) (ident : Nat)
  /-- R119: The host filter sweep for a lost path ends, notice 0x8041 is raised and the LD goes UNBOUND or DOWN. -/
  | pathTeardownSweepDone (link ld : Nat)
  /-- R103: A host configuration or BAR 2/3 and 4/5 access is served as the LD presents it. -/
  | hostConfigAccess (link ld : Nat) (a : HostAcc)
  /-- R123: A write of GO to the mirror control serves the request buffer as a transfer frame, or is ignored while BUSY. -/
  | mirrorGo (link ld : Nat)
  /-- R123: A write to the mirror request buffer or length is stored, or dropped and counted while BUSY. -/
  | mirrorBufferWrite (link ld off : Nat) (bs : List Byte)
  /-- R123: A mirror request reaches its response bound and is answered with an abort frame. -/
  | mirrorResponseBoundExpiry (link ld : Nat)
  /-- R130: A good HEADER flit is accepted, starting, suspending or refusing a frame and choosing its output port. -/
  | headerFlit (p : Nat) (bs : List Byte)
  /-- R139: A good DATA flit is accepted and counted toward the frame in progress. -/
  | dataFlit (p : Nat) (bs : List Byte)
  /-- R158: A STOMP flit is accepted and voids the frame in progress, which is discarded at its destination. -/
  | stompFlit (p : Nat)
  /-- R129: An IDLE flit is received and changes nothing. -/
  | idleFlit (p : Nat)
  /-- R135: A slot fails its CRC or FEC and the receiver drops it and sends RETRY. -/
  | slotInError (p corrected uncorrectable : Nat)
  /-- R133: An ACK frees the replay buffer up to ACKFN and raises the credit limits. -/
  | ackFlit (p ackfn : Nat) (limits : List Nat)
  /-- R135: A RETRY with a new retry number makes the transmitter send REPLAY_START and resend from EFN. -/
  | retryFlit (p efn num : Nat)
  /-- R135: A REPLAY_START matching the outstanding RETRY lets the receiver accept flits again. -/
  | replayStartFlit (p first num : Nat)
  /-- R141: A HELLO flit gives the peer's identity and lanes, and the width is agreed and the peer checked. -/
  | helloFlit (p node port widths lanes : Nat)
  /-- R356: A DIGEST flit is checked against Table 13-2 and its result recorded. -/
  | digestFlit (p : Nat) (bs : List Byte)
  /-- R133: The ACK interval passes and the receiver sends an ACK. -/
  | ackIntervalExpiry (p : Nat)
  /-- R133: No good CONTROL flit arrives within the keepalive time and the port enters RECOVERY. -/
  | keepaliveExpiry (p : Nat)
  /-- R135: No REPLAY_START arrives within the resend interval and the receiver sends RETRY again. -/
  | resendIntervalExpiry (p : Nat)
  /-- R136: A fast retrain and its HELLO complete, replay starts and the port returns to the state it left. -/
  | fastRetrainDone (p : Nat)
  /-- R136: The recovery bound passes without recovery and the port goes LOST. -/
  | recoveryBoundExpiry (p : Nat)
  /-- R138: A frame with credit starts transmission at a slot boundary, preempting a non-URGENT frame if URGENT. -/
  | frameTransmitStart (p : Nat)
  /-- R144: Signal appears on at least 8 lane pairs and the port starts equalisation. -/
  | laneSignalDetected (p : Nat)
  /-- R144: A second passes in DETECT without signal and cause 1 is recorded. -/
  | detectTimeout (p : Nat)
  /-- R144: Lanes equalise and lock and the port enters ALIGN. -/
  | equaliseDone (p : Nat)
  /-- R144: Equalisation does not finish within 500 ms and the port returns to DETECT. -/
  | equaliseTimeout (p : Nat)
  /-- R140: Lane order and polarity are resolved or found uncorrectable. -/
  | alignDone (p : Nat) (correctable reversed : Bool) (inverted good : Nat)
  /-- R144: No peer HELLO arrives within 1 ms and the port returns to DETECT. -/
  | helloTimeout (p : Nat)
  /-- R144: No digest arrives within 1 ms in DIGEST state and the port is quarantined. -/
  | digestStateTimeout (p : Nat)
  /-- R141: A lane in use loses lock and the link drops into RECOVERY. -/
  | laneLockLoss (p lane : Nat)
  /-- R144: A second passes in LOST with auto restore set and the port returns to DETECT. -/
  | autoRestoreExpiry (p : Nat)
  /-- R144: A write of 1 to 0x4010.02 powers the port's lanes and enters DETECT. -/
  | portEnable (sender : Src)
  /-- R159: A write of 0 to 0x4010.02 drains the port and disables it. -/
  | portDisable (sender : Src)
  /-- R136: A write of 1 to 0x4010.04 starts a fast retrain of an ACTIVE port. -/
  | portFastRetrainRequest (sender : Src)
  /-- R159: A write of 2 to 0x4010.04 drains an ACTIVE port and retrains it from equalisation. -/
  | portFullRetrainRequest (sender : Src)
  /-- R159: Every flit of a draining port is acknowledged and the port goes on to DISABLED or EQUALISE. -/
  | portDrainDone (p : Nat)
  /-- R159: A drain reaches the recovery bound and its unacknowledged frames are treated as on link loss. -/
  | portDrainBoundExpiry (p : Nat)
  /-- R144: A write of 0x4010.05 moves a RESTORED port to ACTIVE. -/
  | portRelease (sender : Src)
  /-- R153: A write of 0x4100.05 fills the route staging bank from the committed topology. -/
  | generateRoutes (sender : Src)
  /-- R165: A READ request reaches its target, passes the target checks and is answered with data. -/
  | frameRead (port : Nat) (f : RFrame)
  /-- R166: A WRITE request is applied in stream order at its target and answered. -/
  | frameWrite (port : Nat) (f : RFrame)
  /-- R167: A WRITE_POSTED is applied, held in the reorder store or treated as a duplicate at its target. -/
  | frameWritePosted (port : Nat) (f : RFrame)
  /-- R176: An ATOMIC frame is performed at the home die of its DPA and answered with the old value. -/
  | frameAtomic (port : Nat) (f : RFrame)
  /-- R172: A FENCE frame is answered once both streams have passed it, with the first failure since the last FENCE. -/
  | frameFence (port : Nat) (f : RFrame)
  /-- R181: A PUBLISH reaches the publisher, which applies it and forwards it to every other replica. -/
  | framePublish (port : Nat) (f : RFrame)
  /-- R181: A PUBLISH_FWD is applied at a replica member and answered. -/
  | framePublishFwd (port : Nat) (f : RFrame)
  /-- R170: A poison marker is applied in the original stream's turn, poisoning the lines of its range. -/
  | framePoisonMark (port : Nat) (f : RFrame)
  /-- R195: A COLL frame of the current group epoch is combined by the reduction unit, or discarded as stale. -/
  | frameColl (port : Nat) (f : RFrame)
  /-- R164: A RESP reaches its requester, which completes the matching request or drops it. -/
  | frameResp (port : Nat) (f : RFrame)
  /-- R171: A SEQ_ACK frees the requester's retention space below the acknowledged sequence. -/
  | frameSeqAck (port : Nat) (f : RFrame)
  /-- R190: A MIRROR_COPY frame reaches the analysis node. -/
  | frameMirrorCopy (port : Nat) (f : RFrame)
  /-- R390: An MGMT_REQ carries a transfer frame to the target's management controller. -/
  | frameMgmtReq (port : Nat) (f : RFrame) (inner : SealedFrame)
  /-- R391: An MGMT_RSP returns a relayed answer to the relaying device. -/
  | frameMgmtRsp (port : Nat) (f : RFrame)
  /-- R163: A frame with an illegal opcode, class or LENGTH is answered INVAL_DESC or discarded. -/
  | frameUnknownOpcode (port : Nat) (f : RFrame)
  /-- R169: A missing sequence passes the gap bound and is declared lost. -/
  | gapBoundExpiry (src : Nat) (bulk : Bool)
  /-- R171: The SEQ_ACK interval passes while N has moved and the target sends a SEQ_ACK. -/
  | seqAckIntervalExpiry
  /-- R171: A BULK frame not covered within the retransmit interval is resent, or its command ends with TIMEOUT. -/
  | bulkRetransmitExpiry (dst sequence : Nat)
  /-- R173: A non-posted request has no response within the response bound and ends with TIMEOUT. -/
  | responseBoundExpiry (tag : Nat)
  /-- R198: The retire bound passes and requests of the previous epoch end with MAPSTALE. -/
  | retireBoundExpiry
  /-- R179: A write of 0x4400.08 adds 1 to a region's key generation at once. -/
  | regionKeyBump (sender : Src) (region : Nat)
  /-- R196: A write of E + 1 to 0x4480.01 adopts the new map epoch. -/
  | epochWrite (sender : Src) (v : Nat)
  /-- R200: A write of 0x4481.01 starts the bulk copy of a window to its destination. -/
  | relocateWindow (sender : Src) (w : Nat)
  /-- R200: A bulk copy or dirty pass ends and the relocation starts another pass, the final pass, or fails. -/
  | relocationCopyDone
  /-- R200: The final pass ends, the window becomes FORWARDED and held requests are answered REDIRECT. -/
  | relocationFinalPassDone
  /-- R200: The final pass exceeds the hold bound and the relocation fails with held requests applied at the source. -/
  | relocationHoldBoundExpiry
  /-- R201: A write of 0x4520.03 removes a node's dead mark. -/
  | clearDeadNode (sender : Src) (node : Nat)
  /-- R202: A write of 0x4521.01 stops the job's queues and ends their commands with TARGET_DEAD. -/
  | jobTeardown (sender : Src) (job : Nat)
  /-- R204: A write of 1 to 0x5401.0F checks a DISABLED queue and starts it with an initialised pointer block. -/
  | queueEnable (sender : Src)
  /-- R209: A write of 0 to 0x5401.0F disables a queue with no commands in flight. -/
  | queueDisable (sender : Src)
  /-- R209: A write of 0x5402.02 stops admission on a RUNNING queue. -/
  | queueStop (sender : Src) (q : Nat)
  /-- R209: A write of 0x5402.01 repeats the grant checks and restarts a STOPPED or ERROR queue. -/
  | queueRestart (sender : Src) (q : Nat)
  /-- R207: A Steward write of 0x5402.03 rings the named queue as a doorbell. -/
  | ringDoorbellRegister (sender : Src) (v : Nat)
  /-- R210: A descriptor read completes and its common header is checked, failing it at once or readying it. -/
  | descriptorFetchDone (q : Nat)
  /-- R216: The scheduler admits one ready head into a scoreboard slot and passes it to its engine. -/
  | commandAdmit (die : Nat)
  /-- R208: A re-read of CQ_HEAD completes and its value is taken or ignored. -/
  | cqHeadReadDone (q : Nat)
  /-- R208: A microsecond passes with the completion ring full or a value ignored, so CQ_HEAD is read again. -/
  | cqHeadPollExpiry (q : Nat)
  /-- R333: A command ends, writing its record, pointer block, signal, interrupt and notification line in order. -/
  | commandEnd (slot : Nat)
  /-- R212: The coalescing time ends and the vector is raised once if any IRQ record was written meanwhile. -/
  | coalescingExpiry (q : Nat)
  /-- R227: A write of 0x5410.04 sets an event's count as a SIGNAL SET. -/
  | eventCountWrite (sender : Src) (v : Nat)
  /-- R313: A COPY command moves L bytes from source to destination on a Couloir channel. -/
  | copy (slot : Nat)
  /-- R314: A TRANSFORM command runs a chain of transfer elements on a Couloir channel. -/
  | transform (slot : Nat)
  /-- R266: A GATHER command copies the rows named by an index list to its destination and may prefetch a next list. -/
  | gather (slot : Nat)
  /-- R275: A SCATTER command writes or adds source rows into the rows named by an index list. -/
  | scatter (slot : Nat)
  /-- R273: A POOL command sums weighted bags of table rows in list order. -/
  | pool (slot : Nat)
  /-- R295: A SEARCH command probes lists and the side list, keeps each query's top-k and writes the results. -/
  | search (slot : Nat)
  /-- R302: An INSERT command encodes vectors and appends them to the side list under the index lock. -/
  | insert (slot : Nat)
  /-- R302: A DELETE command appends tombstones to the side list under the index lock. -/
  | delete (slot : Nat)
  /-- R303: A MERGE command folds the side list into rewritten lists and a new directory. -/
  | merge (slot : Nat)
  /-- R243: A KERNEL command loads a tile program onto its crags and runs it to END. -/
  | kernel (slot : Nat)
  /-- R251: An OPTIM command updates parameters and optimizer state chunk by chunk on crag vector units. -/
  | optim (slot : Nat)
  /-- R177: An ATOMIC command performs an atomic at its target and writes the old value to the result DVA. -/
  | atomic (slot : Nat)
  /-- R183: A PUBLISH command sends data in frames to a replica set's publisher and ends when all are answered. -/
  | publish (slot : Nat)
  /-- R194: A COLLECTIVE command runs an allreduce, reduce-scatter, allgather or broadcast over its group. -/
  | collective (slot : Nat)
  /-- R337: A QUEUE fence ends with OK once every earlier command of its queue has ended. -/
  | fenceQueue (slot : Nat)
  /-- R338: An ACQUIRE fence retires the AST's prefetch sets and drops its Cirque structure cache entries on every die. -/
  | fenceAcquire (slot : Nat)
  /-- R339: An OWNER fence waits for every earlier command of queues with the same owner. -/
  | fenceOwner (slot : Nat)
  /-- R339: An OWNER fence's timeout passes and it ends with TIMEOUT. -/
  | fenceOwnerTimeout (slot : Nat)
  /-- R217: A SIGNAL command adds to or sets an event after every earlier command of its queue has ended. -/
  | signal (slot : Nat)
  /-- R218: A WAIT command of kind EVENT holds its queue until the event is reached. -/
  | waitEvent (slot : Nat)
  /-- R218: A WAIT command of kind MEMORY polls a word until its condition holds. -/
  | waitMemory (slot : Nat)
  /-- R218: A poll interval passes and a MEMORY wait reads its word again. -/
  | waitPollExpiry (slot : Nat)
  /-- R218: A WAIT command's timeout passes first and it ends with TIMEOUT. -/
  | waitTimeout (slot : Nat)
  /-- R332: The zero-length flush read to a host port completes, letting the command write its record. -/
  | hostFlushReadDone (slot path : Nat) (ok : Bool)
  /-- R222: A BACKOFF input's wait of b cycles ends and it presents its request again. -/
  | passBackoffExpiry (die crag bank input : Nat)
  /-- R223: One request's wait passes the starvation report level and notice 0x8072 is raised. -/
  | starvationReport (die crag bank input : Nat)
  /-- R224: A bank is granted without moving a beat for the watchdog limit and resets, ending its commands with BANKHANG. -/
  | bankWatchdogBite (die crag bank : Nat)
  /-- R224: A bitten bank's reset ends after 2,048 CCLK and it grants again. -/
  | bankResetDone (die crag bank : Nat)
  /-- R242: The crag allocator grants a waiting request its crags once they are free and no earlier request names them. -/
  | cragGrant (slot : Nat)
  /-- R243: The program and arguments are loaded and the state cleared, so the first instruction issues on every crag. -/
  | programLoadDone (slot : Nat)
  /-- R237: A NOP instruction does nothing. -/
  | nop (die n : Nat)
  /-- R244: An END instruction ends the program on its crag once its asynchronous instructions complete. -/
  | endProgram (die n : Nat)
  /-- R254: A TRAP instruction ends the command with fault code 7 and keeps its code. -/
  | trap (die n : Nat)
  /-- R240: A BR instruction branches on a scalar comparison. -/
  | br (die n : Nat)
  /-- R240: A LOOP instruction pushes a loop that runs its body a count of times. -/
  | loop (die n : Nat)
  /-- R237: A tile WAIT instruction waits for its token mask or for every asynchronous instruction. -/
  | wait (die n : Nat)
  /-- R237: SMOV loads a sign-extended immediate into a scalar register. -/
  | smov (die n : Nat)
  /-- R237: SMOVH loads the high 32 bits of a scalar register. -/
  | smovh (die n : Nat)
  /-- R237: SADD adds to a scalar register, wrapping. -/
  | sadd (die n : Nat)
  /-- R237: SSUB subtracts from a scalar register, wrapping. -/
  | ssub (die n : Nat)
  /-- R237: SMUL multiplies scalar registers keeping the low 64 bits. -/
  | smul (die n : Nat)
  /-- R237: SAND ands scalar values. -/
  | sand (die n : Nat)
  /-- R237: SOR ors scalar values. -/
  | sor (die n : Nat)
  /-- R237: SSHL shifts a scalar register left. -/
  | sshl (die n : Nat)
  /-- R237: SSHR shifts a scalar register right, logical. -/
  | sshr (die n : Nat)
  /-- R237: SLD loads 8 bytes of scratchpad into a scalar register. -/
  | sld (die n : Nat)
  /-- R237: SST stores a scalar register to 8 bytes of scratchpad. -/
  | sst (die n : Nat)
  /-- R244: TLOAD issues store rows into the scratchpad as an asynchronous transfer. -/
  | tload (die n : Nat)
  /-- R246: TLOADX reads ridge-coded tiles and expands them into the scratchpad. -/
  | tloadx (die n : Nat)
  /-- R244: TSTORE writes scratchpad rows to the store as an asynchronous transfer. -/
  | tstore (die n : Nat)
  /-- R237: TCOPY copies scratchpad bytes within the crag. -/
  | tcopy (die n : Nat)
  /-- R237: TFILL fills scratchpad bytes with a 32-bit pattern. -/
  | tfill (die n : Nat)
  /-- R238: WLOAD loads a weight tile into a slot of each masked array. -/
  | wload (die n : Nat)
  /-- R233: MMA streams operand rows through the masked arrays and adds the products into their accumulators. -/
  | mma (die n : Nat)
  /-- R237: ACCZ zeroes accumulator rows. -/
  | accz (die n : Nat)
  /-- R239: ACCRD converts accumulator rows to a format and writes them to the scratchpad. -/
  | accrd (die n : Nat)
  /-- R239: ACCWR loads accumulator rows from FP32 scratchpad rows. -/
  | accwr (die n : Nat)
  /-- R237: VLD loads 256 B of scratchpad into a vector register. -/
  | vld (die n : Nat)
  /-- R237: VST stores a vector register to the scratchpad. -/
  | vst (die n : Nat)
  /-- R247: VSPLAT copies a scalar's FP32 bits into every lane. -/
  | vsplat (die n : Nat)
  /-- R247: VADD adds vector lanes. -/
  | vadd (die n : Nat)
  /-- R247: VSUB subtracts vector lanes. -/
  | vsub (die n : Nat)
  /-- R247: VMUL multiplies vector lanes. -/
  | vmul (die n : Nat)
  /-- R247: VFMA computes a fused multiply-add per lane. -/
  | vfma (die n : Nat)
  /-- R247: VMIN takes the lane minimum. -/
  | vmin (die n : Nat)
  /-- R247: VMAX takes the lane maximum. -/
  | vmax (die n : Nat)
  /-- R247: VDIV divides vector lanes, correctly rounded. -/
  | vdiv (die n : Nat)
  /-- R247: VSQRT takes the square root of each lane, correctly rounded. -/
  | vsqrt (die n : Nat)
  /-- R247: VEXP computes 2 to the power of each lane. -/
  | vexp (die n : Nat)
  /-- R248: VCVT converts lanes between FP32 and a packed format. -/
  | vcvt (die n : Nat)
  /-- R248: VRED reduces the lanes in a fixed tree and writes the result to every lane. -/
  | vred (die n : Nat)
  /-- R237: VSGN gives the sign of each lane as ±1.0 or +0.0. -/
  | vsgn (die n : Nat)
  /-- R236: An asynchronous tile instruction completes and its token count falls by 1. -/
  | asyncComplete (die n idx : Nat)
  /-- R254: A running command passes its time bound and ends with TIMEOUT. -/
  | commandTimeBoundExpiry (slot : Nat)
  /-- R252: Every read of an OPTIM chunk succeeds and its writes are issued. -/
  | optimChunkReadsDone (slot j : Nat)
  /-- R266: A Talus row read completes and the row is written out, pooled, or marked failed. -/
  | rowReadDone (slot pos : Nat)
  /-- R268: A next-list prefetch read completes and its row joins the prefetch set or is left out. -/
  | prefetchReadDone (q idx : Nat)
  /-- R263: A write of 0x5110.46 sets the selected slot's counters to 0. -/
  | clearSlotCounters (sender : Src)
  /-- R300: A poll interval passes and a command waiting for an index lock tries its compare-and-swap again. -/
  | indexLockRetry (slot : Nat)
  /-- R307: A bell atomic wakes a member's Cirque, which serves each new request in its slots. -/
  | fanoutBell
  /-- R308: A counter atomic wakes the origin, which accepts each member whose status line carries the request number. -/
  | fanoutCounter
  /-- R308: The fan-out response bound passes and unaccepted members end with TIMEOUT before the merge. -/
  | fanoutResponseBoundExpiry
  /-- R315: A transfer element read completes and is checked before any of its bytes move. -/
  | elementReadDone (die ch : Nat)
  /-- R321: A channel's slice ends on 256 steps or a stall and the engine passes to the next ready channel. -/
  | sliceEnd (die ch steps : Nat)
  /-- R323: A channel access fails, halting the channel with a latch or ending the command under NOHALT. -/
  | channelAccessFailed (die ch : Nat)
  /-- R322: A channel stays HALTED for the halt bound and is aborted. -/
  | haltBoundExpiry (die ch : Nat)
  /-- R322: A START control lets a STOPPED channel run again. -/
  | channelStart (sender : Src)
  /-- R322: A STOP control stops a RUNNING channel from beginning steps. -/
  | channelStop (sender : Src)
  /-- R322: A CLEAR control skips the rest of a HALTED channel's element. -/
  | channelClear (sender : Src)
  /-- R324: A RESUME control reissues a HALTED channel's accesses from the latched point. -/
  | channelResume (sender : Src)
  /-- R322: An ABORT control ends a channel's command with BUSERR. -/
  | channelAbort (sender : Src)
  /-- R355: 100 ms pass and a port sends a DIGEST flit. -/
  | digestPeriodExpiry (p : Nat)
  /-- R356: 300 ms pass without a good DIGEST and the missing check fails. -/
  | digestMissingExpiry (p : Nat)
  /-- R358: A write of 0x4501.03 moves a quarantined port to ACTIVE when its latest digest agreed. -/
  | clearQuarantine (sender : Src) (p : Nat)
  /-- R366: A BEACON arrives and the port computes link delay and peer offset and updates the root choice. -/
  | beacon (p : Nat) (f : RFrame)
  /-- R366: A beacon interval passes and each torus port sends a BEACON. -/
  | beaconIntervalExpiry
  /-- R362: A FAULT flood is accepted, acted on and forwarded, possibly naming a node dead. -/
  | floodFault (p : Nat) (f : RFrame)
  /-- R372: A COLL_ABORT flood is accepted and ends the group's COLLECTIVE and advances its epoch. -/
  | floodCollAbort (p : Nat) (f : RFrame)
  /-- R360: A WARN flood is accepted and forwarded. -/
  | floodWarn (p : Nat) (f : RFrame)
  /-- R360: A kept flood number reaches 10 ms and is forgotten. -/
  | floodRecordExpiry (origin number : Nat)
  /-- R365: A PTP message arrives on the Cairn port and updates the PTP error and the time root's steering. -/
  | ptpMessage (domain : Nat) (announce : Option (Option Int)) (err : Option Int)
  /-- R364: No PTP Sync or usable parent arrives within its interval and the timebase goes FREERUN. -/
  | timebaseReferenceLoss
  /-- R364: The error stays within 1 ms for the holdover exit time and the timebase returns to LOCKED. -/
  | holdoverExitExpiry
  /-- R364: A write of 0x1320.0D moves a timebase in HOLDOVER to LOCKED. -/
  | resynchronise (sender : Src)
  /-- R370: A group's settle time passes with no further change and it becomes READY. -/
  | groupSettleExpiry (g : Nat)
  /-- R371: A member waits for a COLL frame beyond the progress bound and aborts the group. -/
  | progressBoundExpiry (g : Nat)
  /-- R373: A Steward write of 0x4510.09 sets the epoch, ends the local COLLECTIVE and puts the group in SETTLING. -/
  | groupEpochWrite (sender : Src) (v : Nat)
  /-- R379: Every 10 ms the margin sources are evaluated against their warn and act levels. -/
  | marginEvaluation (rails : List (Nat × Int × Nat)) (slacks : List (Nat × Int))
  /-- R392: A transfer-frame READ returns an entry's value, or an abort. -/
  | cairnRequestRead (q : Requester) (r : Request)
  /-- R395: A transfer-frame WRITE to an entry with no row of its own is checked and applied under its change class. -/
  | cairnRequestWrite (q : Requester) (r : Request)
  /-- R393: A SEG_READ takes or continues a session copy of a long entry and returns a segment. -/
  | cairnRequestSegRead (q : Requester) (r : Request)
  /-- R393: A SEG_WRITE starts, continues or applies a segmented write. -/
  | cairnRequestSegWrite (q : Requester) (r : Request)
  /-- R396: A write to an RWS entry is recorded in the session's staging set. -/
  | stagedWrite (q : Requester) (r : Request)
  /-- R396: A write of 1 to 0x1110.01 checks every touched table and switches them to new generations together. -/
  | commit (sender : Src) (failAt : Option Nat)
  /-- R396: A write of 1 to 0x1110.02 empties the staging set. -/
  | discard (sender : Src)
  /-- R400: A KIND 0x05 frame carries an SPDM message that opens, keeps or ends a management session. -/
  | cairnSpdmMessage (address : Nat) (msg : SpdmMsg)
  /-- R390: A KIND 0x06 secured message is decrypted and its inner frame served. -/
  | cairnSecuredMessage (session : Nat) (p : PlainFrame)
  /-- R391: A KIND 0x07 frame is served locally or relayed to its node by MGMT_REQ. -/
  | cairnRelay (address txn node : Nat) (bs : List Byte) (f : SealedFrame)
  /-- R389: A malformed frame or one of a kind its transport refuses is discarded and counted. -/
  | cairnFrameDiscard (t : Transport) (txn : Nat)
  /-- R404: A KIND 0x04 acknowledgement frees every notice up to its sequence. -/
  | noticeAck (session sequence : Nat)
  /-- R404: A write of 0x1121.03 acknowledges in-band notices up to a sequence. -/
  | noticeAckInBand (sender : Src) (sequence : Nat)
  /-- R404: A notice unacknowledged for 100 ms is sent again or discarded, dropping the subscription after three discards. -/
  | noticeRetransmitExpiry (slot sequence : Nat)
  /-- R403: A write of 0x1121.01 takes a subscriber slot or replaces the writer's subscription. -/
  | subscribe (sender : Src) (bs : List Byte)
  /-- R403: A write of 0x1121.02 ends a subscription. -/
  | unsubscribe (sender : Src) (slot : Nat)
  /-- R393: A segmented read copy or write lies idle for 10 s and is discarded. -/
  | segmentLapseExpiry (q : Requester) (write : Bool)
  /-- R387: A valid position pulse arrives on ENUM_IN_L and may assign the node ID. -/
  | enumPulse (k : Nat)
  /-- R387: A second passes in WAITING without a valid pulse and the state becomes NO_UPSTREAM. -/
  | enumPulseTimeout
  /-- R386: Each 1 ms a device with a node ID drives its position pulse on ENUM_OUT_L. -/
  | enumPulsePeriod
  /-- R388: A Steward write of 0x1100.07 over the mirror sets the node ID and starts PLCA and DAD. -/
  | nodeIdSetInBand (sender : Src) (v : Nat)
  /-- R385: Duplicate Address Detection ends without a duplicate and Cairn frames are accepted and sent. -/
  | dadComplete
  /-- R385: DAD finds the address in use and the port stops transmitting in DUPLICATE. -/
  | dadConflict
  /-- R408: A write of 0x1300.01 sets the calendar date and steps the calendar offset. -/
  | dateWrite (sender : Src) (v : Nat)
  /-- R408: A write of 0x1300.02 sets the time of day and steps the calendar offset. -/
  | timeOfDayWrite (sender : Src) (v : Nat)
  /-- R408: A write of 0x1300.03 sets date and time in one step. -/
  | dateAndTimeWrite (sender : Src) (bs : List Byte)
  /-- R408: A write of 0 to 0x1300.05 returns the calendar offset to 0. -/
  | calendarSourceWrite (sender : Src) (v : Nat)
  /-- R411: An input's edge detector reports it absent, dropping its qualification and switching away if active. -/
  | referenceAbsent (pos : Nat)
  /-- R411: A present input completes its qualification delay and may be selected or end a coast. -/
  | referenceQualified (pos : Nat)
  /-- R412: Every 10 ms the two qualified inputs are compared and a disagreeing inactive one is refused. -/
  | referenceCompare (countA countB : Nat)
  /-- R413: A write of 0x2000.01 names the preferred input and may start a switch. -/
  | preferredReferenceWrite (sender : Src) (v : Nat)
  /-- R415: A CCLK step's dwell of 4,096 cycles ends and the next step, switch or coast begins. -/
  | cclkDwellEnd
  /-- R417: The Summit PLL locks to its new reference and CCLK ramps back up. -/
  | pllLocked
  /-- R415: A write of 0x2001.01 sets the ceiling and may start a ramp. -/
  | divisorCeilingWrite (sender : Src) (v : Nat)
  /-- R420: A modulation period ends and a change of spread depth or rate moves toward its new value. -/
  | spreadPeriodEnd
  /-- R423: A write of 1 to 0x2010.04 starts the frequency counter at the next gate edge. -/
  | frequencyCountStart (sender : Src)
  /-- R423: The gate of G cycles ends and the count and frequency are written. -/
  | frequencyGateEnd (count : Nat)
  /-- R423: A count not ended within 10 s ends FAILED. -/
  | frequencyCountTimeout
  /-- R491: RESET_IN_L held low for at least 1 µs starts a cold reset. -/
  | resetInLAssert (ns : Nat)
  /-- R499: RESET_IN_L rises, the straps are sampled and their open checks begin. -/
  | resetInLRelease (segid refqual : Nat)
  /-- R499: The pull-up and pull-down reads of the straps are compared and open straps recorded. -/
  | strapCheckDone (up down : Nat)
  /-- R426: A write of 1 to 0x2200.01 starts the warm-reset entry. -/
  | warmResetRequest (sender : Src)
  /-- R424: A write of 2 to 0x2200.01 resets the whole package. -/
  | coldResetRequest (sender : Src)
  /-- R429: A write of 3 to 0x2200.01 floods NODE_LEAVE, drains and powers down to OFF_READY. -/
  | shutdownRequest (sender : Src)
  /-- R426: Accesses have settled, host filters swept and caches written back, so media enter self-refresh and dies reset. -/
  | warmResetEntryDone
  /-- R426: Dies, media and CCLK are back and the device is ready with notice 0x8125. -/
  | warmResetExitDone
  /-- R427: A write of 0x2201.03 ends every command of the selected engine with DOMAINDOWN and resets it. -/
  | engineReset (sender : Src)
  /-- R427: An engine reset ends after 2,048 CCLK. -/
  | engineResetDone (die eng : Nat)
  /-- R428: Both supplies come into range and power-up begins. -/
  | suppliesInRange
  /-- R428: A power-up stage ends and the next of Table 15-8 begins, up to device ready. -/
  | powerUpStageDone
  /-- R430: VIN stays below 10.8 V for 5 µs and every domain but ALWAYS is powered off. -/
  | vinUndervoltage
  /-- R430: VIN has been back in range for 10 ms and a cold reset follows. -/
  | vinReturnExpiry
  /-- R430: VAUX falls below 2.9 V and the ALWAYS domain stops. -/
  | vauxUndervoltage
  /-- R432: A write of 0 to 0x2220.04 stops a domain taking work and waits for its transfers. -/
  | domainPowerDownRequest (sender : Src)
  /-- R432: A write of 1 to 0x2220.04 brings a domain up. -/
  | domainPowerUpRequest (sender : Src)
  /-- R432: A domain's outstanding transfers reach 0 and it goes OFF. -/
  | domainTransfersDrained (die dom : Nat)
  /-- R432: The domain-down bound passes and outstanding transfers end with DOMAINDOWN. -/
  | domainDownBoundExpiry (die dom : Nat)
  /-- R432: A domain finishes coming up and goes ON. -/
  | domainUpDone (die dom : Nat)
  /-- R435: Every 100 µs the power controller compares the mean power and temperatures and moves a level. -/
  | powerEvaluation (watts mA vin vaux vauxMa : Nat)
  /-- R438: 12 V current above the limit for 20 µs cuts array duty to 8/16 for 1 ms. -/
  | currentCut
  /-- R438: A current cut's 1 ms ends and the controller resumes. -/
  | currentCutEnd
  /-- R440: Junction and stack sensors are read and throttle, critical and trip limits act. -/
  | thermalSample (stack : Bool) (n : Nat) (readings : List Int)
  /-- R444: The boot ROM chooses and verifies an image slot, updates the boot record and starts the image. -/
  | bootChoose (recordOk : Bool)
  /-- R444: With no valid image, the slot choice is tried again every 10 s. -/
  | bootRetryExpiry (recordOk : Bool)
  /-- R446: A segmented write of 0x6010.03 writes an image into the slot not running. -/
  | imageUpload (q : Requester) (r : Request)
  /-- R447: A write of 1 to 0x6010.04 starts a live handover to the uploaded image. -/
  | activateLive (sender : Src)
  /-- R446: A write of 2 to 0x6010.04 marks the slot preferred in trial for the next cold reset. -/
  | activateAtColdReset (sender : Src)
  /-- R447: The standby controller takes over as active and the former active reloads as standby. -/
  | handoverDone
  /-- R447: The standby has not taken over within 5 s and the update fails back to the old slot. -/
  | handoverTimeout
  /-- R452: 600 s pass without a claim and the claim window closes until cold reset. -/
  | claimWindowExpiry
  /-- R457: A write of 1 to 0x6020.05 checks the tenant and starts confidential entry. -/
  | confidentialEnter (sender : Src)
  /-- R463: A write of 1 to 0x6020.06 starts confidential exit. -/
  | confidentialExit (sender : Src)
  /-- R457: The entry bound passes and commands of other owners still in flight end with TENANT_BUSY. -/
  | confidentialEntryBoundExpiry
  /-- R457: Engines are cleared, the sealed region scrubbed and the keys made, so the mode goes ON. -/
  | confidentialEntryDone (key : List Byte)
  /-- R463: The sealed region is scrubbed and keys destroyed, so the mode goes OFF. -/
  | confidentialExitDone
  /-- R456: The tenant has had no bound path for the path-loss exit time and exit starts. -/
  | pathLossExitExpiry
  /-- R465: A write of 1 to 0x6031.06 registers a region and starts checking its binding package. -/
  | weightBind (sender : Src)
  /-- R465: A write of 2 to 0x6031.06 destroys the content key and frees the slot. -/
  | weightUnbind (sender : Src)
  /-- R465: A binding package check ends and the slot becomes BOUND or REFUSED. -/
  | bindingDecision (slot : Nat)
  /-- R468: An audit entry's flash write completes, or fails and is retried or reported. -/
  | auditFlashWriteDone (ok : Bool)
  /-- R472: A write of 1 to 0x7000.01 captures the counters into the session's snapshot bank. -/
  | snapshot (sender : Src)
  /-- R473: A Steward write of 1 to 0x7000.03 sets the clearable counters to 0. -/
  | clearCounters (sender : Src)
  /-- R475: A write of 1 to 0x7140.05 arms a span unit. -/
  | spanArm (sender : Src)
  /-- R475: A write of 0 to 0x7140.05 disarms a span unit and discards its open start. -/
  | spanDisarm (sender : Src)
  /-- R474: A write of 0x7140.06 makes a software start event and a trace trigger. -/
  | softwareStart (sender : Src)
  /-- R474: A write of 0x7140.07 makes a software stop event. -/
  | softwareStop (sender : Src)
  /-- R474: A span event's settle window ends and it is applied to the units in stamp order. -/
  | spanSettleExpiry
  /-- R488: A write of 0x7140.13 returns the selected unit's statistics to their defaults. -/
  | clearSpan (sender : Src)
  /-- R477: A lane's eye measurement ends and the next lane in use is measured. -/
  | eyeMeasurementDone (p height width : Nat)
  /-- R479: MODPRS_L goes low and the module is released from reset to initialise. -/
  | moduleInserted (pos : Nat)
  /-- R479: MODPRS_L goes high and the position returns to ABSENT. -/
  | moduleRemoved (pos : Nat)
  /-- R479: A module reports ModuleReady and is selected for the Ridgeline rate, or left UNSUITABLE. -/
  | moduleReady (pos app rxWarn rxAlarm txWarn txAlarm : Nat)
  /-- R479: A module is not ready within 2 s and goes to FAULT. -/
  | moduleInitTimeout (pos : Nat)
  /-- R479: A second in FAULT passes and the module is released to initialise again. -/
  | moduleFaultRetryExpiry (pos : Nat)
  /-- R479: Every 10 ms, or on MODINT_L falling, a READY module's monitors and flags are read. -/
  | modulePoll (pos : Nat) (got : Option (List (Nat × Nat) × Bool))
  /-- R481: A read of 0x7150.0B transfers bytes from the module's memory map. -/
  | moduleMapRead (sender : Src) (got : Option (List Byte))
  /-- R481: A Steward write of 0x7150.0B writes bytes into the module's memory map. -/
  | moduleMapWrite (sender : Src) (bs : List Byte) (ok : Bool)
  /-- R483: A write of 1 to 0x9000.07 starts trace capture into the ring. -/
  | traceStart (sender : Src)
  /-- R483: A write of 2 to 0x9000.07 stops the trace and raises notice 0x8141. -/
  | traceStop (sender : Src)
  /-- R483: The post-trigger count of records is written and the trace stops. -/
  | tracePostTriggerDone
  /-- R485: A TAP instruction is loaded, or replaced by BYPASS when not allowed. -/
  | tapInstructionUpdate (code : Nat)
  /-- R486: A read of 0x9010.05 reads scratchpad bytes at arbiter input 0. -/
  | debugScratchRead (sender : Src)
  /-- R486: A write of 0x9010.05 writes scratchpad bytes at arbiter input 0. -/
  | debugScratchWrite (sender : Src) (bs : List Byte)
  /-- R486: A debug scratchpad access is not granted within 10 ms and is refused with Busy. -/
  | debugScratchGrantTimeout
  /-- R501: A read-back sideband line is found normal, low while released or high while driven, and its state changes. -/
  | sidebandLineCheck (line st : Nat)
  /-- R411: A reference input's edge detector begins to see rising edges, so the input reads present and its qualification count starts from 0. -/
  | referencePresent (pos : Nat)
  /-- R25: A Col link detects a link-level error, retries as UCIe provides, counts the retry and shows state 2, retraining. -/
  | colLinkError (link : Nat)
  /-- R25: A retraining or retried Col link carries traffic again within the retrain limit and returns to state 1, up. -/
  | colLinkRetrainDone (link : Nat)
  /-- R424: PERST_L of a host port is deasserted, so the port leaves reset and its links begin training. -/
  | perstLRelease (port : Nat)
  /-- R122: An IDE key-management message on an LD's DOE mailbox sets keys and makes the LD's CXL.io or CXL.cachemem stream active. -/
  | ideKeyManagement (link ld : Nat) (io mem : Bool)
  /-- R384: PLCA beacons from the segment coordinator start or stop arriving, so PLCA status changes and the port switches between PLCA and CSMA/CD access. -/
  | plcaStatusChange (ok : Bool)
  /-- R385: An ICMPv6 Echo or Neighbor Discovery message arrives on the Cairn port and is answered for the link-local address. -/
  | icmpv6Message (kind target : Nat)
  deriving DecidableEq, Repr

end Sys2Proof
end

