-- ==== Sys2Proof/Config.lean ====
section
/-! DEFINITION. What the manual names and does not compute (published standards), and what it leaves open.
Each constant here has no body: nothing can be proved of its value. notes/assumptions names each one. -/

namespace Sys2Proof.Config

/-- SHA-384 (FIPS 180-4), named by 04_host_ports.md, 13_acting_as_one.md R354 and 16_security.md; its value is not given. -/
opaque sha384 : List Byte → List Byte

/-- The length in bytes of the tokens Moraine's encoder makes of a 4 KiB sub-block (03_store_tiers.md R77: any
token sequence that decodes is valid). -/
opaque encodedLen : List Byte → Nat

/-- A value the manual leaves open, one for each value of the state's counter `freeCtr`. -/
opaque freeValue : Nat → Nat

/-- What a part is given at manufacture (19_object_index.md R515; 16_security.md R443, R448): stepping code, Krestad's PCI-SIG
vendor ID and JEP106 code, MAC address, serial number, the four firmware key hashes. -/
opaque steppingCode : Nat
/-- Krestad's PCI-SIG vendor ID. -/
opaque vendorId : Nat
/-- Krestad's JEP106 code. -/
opaque jep106 : Nat
/-- The MAC address. -/
opaque macAddress : List Byte
/-- The serial number. -/
opaque serialNumber : List Byte
/-- The fused hash of a firmware key slot. -/
opaque keyHash : Nat → List Byte
/-- The public part of the DeviceID key at an identity generation: 96 bytes. -/
opaque deviceKey : Nat → List Byte

/-- AES-256-GCM (16_security.md R459): ciphertext and tag of a key, nonce, additional data and plaintext. -/
opaque gcmSeal : List Byte → List Byte → List Byte → List Byte → List Byte × List Byte
/-- AES-256-GCM: the plaintext of a key, nonce, additional data, ciphertext and tag, none when the tag does not verify. -/
opaque gcmOpen : List Byte → List Byte → List Byte → List Byte → List Byte → Option (List Byte)
/-- AES-256-XTS (R461, R466): a 64 B line decrypted with a 64 B key and a tweak. -/
opaque xtsOpen : List Byte → Nat → List Byte → List Byte
/-- ECDSA P-384 verification of a signature over a digest by a public key (R443, R464). -/
opaque ecdsaVerify : List Byte → List Byte → List Byte → Bool
/-- The content key that a device of an identity unwraps from a package's owner key, ephemeral key and wrapped key; none when
the integrity check fails (R464, R465). -/
opaque unwrapKey : List Byte → List Byte → List Byte → Option (List Byte)
/-- An alias-key signature, 96 bytes (R469). -/
opaque aliasSign : List Byte → List Byte

/-- The digest of a measurement of Table 16-3 over what it measures; how that is laid out is not given (R445). -/
opaque measurement : Nat → List Byte → List Byte
/-- The bytes of an SPDM or secured frame that this device sends, which keys that the manual does not give decide. -/
opaque cipherFrame : Nat → List Byte

end Sys2Proof.Config
end

