-- ==== Sys2Proof/Machine/DictTable.lean ====
section
/-! DEFINITION. The object dictionary's entries as the chapters' tables give them (14_cairn.md R394; Tables
01-10, 02-11, 03-10, 04-10, 05-17, 06-12, 07-12, 08-16, 09-6, 10-6, 11-8, 12-10, 13-10, 14-13, 15-12,
16-12, 17-9, 18-13, 19-2): type, access, change class, write role, default, range and reserved bits.
Indices 0x7050 to 0x7057 share one row group (the port is the row), and so do the notices 0x8000 to 0x8FFF. -/

namespace Sys2Proof.Machine

/-- Table 14-8: the type of an entry. -/
inductive DType where
  | bool | u8 | u16 | u32 | u64 | s32 | s64 | date | tod | timebase | octets | string | domain
  deriving DecidableEq, Repr

/-- Table 14-9: the access code of an entry. -/
inductive Access where
  | ro | const | wo | rw | rws | tal
  deriving DecidableEq, Repr

/-- R395: the change class of an entry. -/
inductive ChangeClass where
  | none | live | next | quiesce | staged
  deriving DecidableEq, Repr

/-- R399: the four roles. -/
inductive Role where
  | observer | operator | steward | custodian
  deriving DecidableEq, Repr

/-- One line of a dictionary table: n entries from subindex sub on. `dflt` lists their defaults (the last one
stands for the rest), `lo`, `hi` and `mult` the range, `mask` the bits that are not reserved (R9), `len` the
bytes of an OCTETS or STRING entry. -/
structure DEntry where
  sub : Nat
  n : Nat
  ty : DType
  len : Nat
  acc : Access
  cls : ChangeClass
  role : Role
  dflt : List Nat
  lo : Nat
  hi : Nat
  mult : Nat
  mask : Nat
  deriving DecidableEq, Repr

/-- A dictionary line whose values are any of its type. -/
def de (sub n : Nat) (ty : DType) (len : Nat) (acc : Access) (cls : ChangeClass) (role : Role) (dflt : List Nat)
    (lo hi mult mask : Nat) : DEntry := ⟨sub, n, ty, len, acc, cls, role, dflt, lo, hi, mult, mask⟩

/-- 0x1000, 19_object_index.md R515. -/
def dict1000 : List DEntry := [
  de 0x00 1 .u8 0 .const .none .steward [13] 0 255 1 0xff,
  de 0x01 1 .string 16 .const .none .steward [0] 0 0 1 0x0,
  de 0x02 1 .string 16 .const .none .steward [0] 0 0 1 0x0,
  de 0x03 1 .u8 0 .const .none .steward [0] 0 255 1 0xff,
  de 0x04 1 .string 2 .const .none .steward [0] 0 0 1 0x0,
  de 0x05 1 .u8 0 .const .none .steward [0] 0 255 1 0xff,
  de 0x06 1 .u16 0 .const .none .steward [0] 0 65535 1 0xffff,
  de 0x07 1 .u16 0 .const .none .steward [0] 0 65535 1 0xffff,
  de 0x08 1 .u16 0 .const .none .steward [0] 0 65535 1 0xffff,
  de 0x09 1 .octets 6 .const .none .steward [0] 0 0 1 0x0,
  de 0x0A 1 .string 32 .const .none .steward [0] 0 0 1 0x0,
  de 0x0B 1 .u32 0 .ro .none .steward [0] 0 4294967295 1 0xffffffff,
  de 0x0C 1 .octets 48 .ro .none .steward [0] 0 0 1 0x0,
  de 0x0D 1 .u16 0 .ro .none .steward [0] 0 65535 1 0xffff]

/-- 0x1080, 19_object_index.md R515. -/
def dict1080 : List DEntry := [
  de 0x00 1 .u8 0 .const .none .steward [4] 0 255 1 0xff,
  de 0x01 1 .u16 0 .const .none .steward [256] 0 65535 1 0xffff,
  de 0x02 1 .u64 0 .const .none .steward [8191] 0 18446744073709551615 1 0xffffffffffffffff,
  de 0x03 1 .u16 0 .const .none .steward [256] 0 65535 1 0xffff,
  de 0x04 1 .u8 0 .const .none .steward [1] 0 255 1 0xff]

/-- 0x1100, 14_cairn.md R409. -/
def dict1100 : List DEntry := [
  de 0x00 1 .u8 0 .const .none .steward [12] 0 255 1 0xff,
  de 0x01 1 .u8 0 .ro .none .steward [255] 0 255 1 0xff,
  de 0x02 1 .u8 0 .ro .none .steward [0] 0 255 1 0xff,
  de 0x03 1 .u16 0 .rw .next .steward [30510] 1024 65535 1 0xffff,
  de 0x04 1 .u8 0 .rw .next .steward [0] 0 255 1 0xff,
  de 0x05 1 .u8 0 .rw .next .steward [128] 1 255 1 0xff,
  de 0x06 1 .u8 0 .ro .none .steward [0] 0 255 1 0xff,
  de 0x07 1 .u8 0 .rw .live .steward [255] 1 31 1 0xff,
  de 0x08 1 .octets 16 .ro .none .steward [0] 0 0 1 0x0,
  de 0x09 1 .u8 0 .rw .next .steward [10] 1 60 1 0xff,
  de 0x0A 1 .u8 0 .ro .none .steward [0] 0 255 1 0xff,
  de 0x0B 1 .u8 0 .ro .none .steward [8] 0 255 1 0xff,
  de 0x0C 1 .bool 0 .ro .none .steward [0] 0 1 1 0x1]

/-- 0x1110, 14_cairn.md R409. -/
def dict1110 : List DEntry := [
  de 0x00 1 .u8 0 .const .none .observer [5] 0 255 1 0xff,
  de 0x01 1 .bool 0 .wo .live .observer [0] 0 1 1 0x1,
  de 0x02 1 .bool 0 .wo .live .observer [0] 0 1 1 0x1,
  de 0x03 1 .u16 0 .ro .none .observer [0] 0 65535 1 0xffff,
  de 0x04 1 .u32 0 .ro .none .observer [0] 0 4294967295 1 0xffffffff,
  de 0x05 1 .u32 0 .ro .none .observer [0] 0 4294967295 1 0xffffffff]

/-- 0x1120, 14_cairn.md R409. -/
def dict1120 : List DEntry := [
  de 0x00 1 .u8 0 .const .none .steward [7] 0 255 1 0xff,
  de 0x01 1 .u8 0 .rw .live .observer [0] 0 3 1 0xff,
  de 0x02 1 .u8 0 .ro .none .steward [0] 0 255 1 0xff,
  de 0x03 1 .octets 16 .ro .none .steward [0] 0 0 1 0x0,
  de 0x04 1 .u8 0 .ro .none .steward [255] 0 255 1 0xff,
  de 0x05 1 .octets 32 .ro .none .steward [0] 0 0 1 0x0,
  de 0x06 1 .u8 0 .ro .none .steward [0] 0 255 1 0xff,
  de 0x07 1 .u32 0 .ro .none .steward [0] 0 4294967295 1 0xffffffff]

/-- 0x1121, 14_cairn.md R409. -/
def dict1121 : List DEntry := [
  de 0x00 1 .u8 0 .const .none .observer [3] 0 255 1 0xff,
  de 0x01 1 .octets 48 .wo .live .observer [0] 0 0 1 0x0,
  de 0x02 1 .u8 0 .wo .live .observer [0] 0 3 1 0xff,
  de 0x03 1 .u32 0 .wo .live .observer [0] 0 4294967295 1 0xffffffff]

/-- 0x1200, 14_cairn.md R409. -/
def dict1200 : List DEntry := [
  de 0x00 1 .u8 0 .const .none .custodian [4] 0 255 1 0xff,
  de 0x01 1 .u8 0 .rw .live .observer [0] 0 15 1 0xff,
  de 0x02 1 .octets 48 .rws .staged .custodian [0] 0 0 1 0x0,
  de 0x03 1 .u8 0 .rws .staged .custodian [0] 0 255 1 0xf,
  de 0x04 1 .u32 0 .ro .none .custodian [0] 0 4294967295 1 0xffffffff]

/-- 0x1210, 16_security.md R470. -/
def dict1210 : List DEntry := [
  de 0x00 1 .u8 0 .const .none .steward [6] 0 255 1 0xff,
  de 0x01 1 .u64 0 .ro .none .steward [0] 0 18446744073709551615 1 0xffffffffffffffff,
  de 0x02 1 .u64 0 .ro .none .steward [0] 0 18446744073709551615 1 0xffffffffffffffff,
  de 0x03 1 .u64 0 .rw .live .observer [0] 0 18446744073709551615 1 0xffffffffffffffff,
  de 0x04 1 .octets 128 .ro .none .steward [0] 0 0 1 0x0,
  de 0x05 1 .octets 152 .ro .none .steward [0] 0 0 1 0x0,
  de 0x06 1 .octets 48 .ro .none .steward [0] 0 0 1 0x0]

/-- 0x1300, 14_cairn.md R409. -/
def dict1300 : List DEntry := [
  de 0x00 1 .u8 0 .const .none .steward [10] 0 255 1 0xff,
  de 0x01 1 .date 0 .rw .live .steward [0] 0 4294967295 1 0xffffffff,
  de 0x02 1 .tod 0 .rw .live .steward [0] 0 18446744073709551615 1 0xffffffffffffffff,
  de 0x03 1 .octets 12 .rw .live .steward [0] 0 0 1 0x0,
  de 0x04 1 .s32 0 .rw .live .steward [37] 0 255 1 0xffffffff,
  de 0x05 1 .u8 0 .rw .live .steward [0] 0 0 1 0xff,
  de 0x06 1 .s64 0 .ro .none .steward [0] 0 18446744073709551615 1 0xffffffffffffffff,
  de 0x07 1 .bool 0 .ro .none .steward [0] 0 1 1 0x1,
  de 0x08 1 .s64 0 .ro .none .steward [0] 0 18446744073709551615 1 0xffffffffffffffff,
  de 0x09 1 .u8 0 .ro .none .steward [0] 0 255 1 0xff,
  de 0x0A 1 .u8 0 .ro .none .steward [0] 0 255 1 0xff]

/-- 0x1320, 13_acting_as_one.md R383. -/
def dict1320 : List DEntry := [
  de 0x00 1 .u8 0 .const .none .steward [14] 0 255 1 0xff,
  de 0x01 1 .u8 0 .rw .live .steward [0] 0 2 1 0xff,
  de 0x02 1 .u8 0 .rw .quiesce .steward [0] 0 127 1 0xff,
  de 0x03 1 .bool 0 .rw .live .steward [1] 0 1 1 0x1,
  de 0x04 1 .u8 0 .rw .live .steward [10] 1 100 1 0xff,
  de 0x05 1 .u8 0 .ro .none .steward [0] 0 255 1 0xff,
  de 0x06 1 .u16 0 .ro .none .steward [65535] 0 65535 1 0xffff,
  de 0x07 1 .u8 0 .ro .none .steward [255] 0 255 1 0xff,
  de 0x08 1 .u8 0 .ro .none .steward [255] 0 255 1 0xff,
  de 0x09 1 .s64 0 .ro .none .steward [0] 0 18446744073709551615 1 0xffffffffffffffff,
  de 0x0A 1 .s64 0 .ro .none .steward [0] 0 18446744073709551615 1 0xffffffffffffffff,
  de 0x0B 1 .s32 0 .ro .none .steward [0] 0 4294967295 1 0xffffffff,
  de 0x0C 1 .u32 0 .ro .none .steward [1000] 0 4294967295 1 0xffffffff,
  de 0x0D 1 .bool 0 .wo .live .steward [0] 0 1 1 0x1,
  de 0x0E 1 .u32 0 .rw .live .steward [10] 1 3600 1 0xffffffff]

/-- 0x2000, 15_clocks_power.md R441. -/
def dict2000 : List DEntry := [
  de 0x00 1 .u8 0 .const .none .steward [10] 0 255 1 0xff,
  de 0x01 1 .u8 0 .rw .live .steward [0] 0 1 1 0xff,
  de 0x02 1 .bool 0 .rw .live .steward [1] 0 1 1 0x1,
  de 0x03 1 .u8 0 .ro .none .steward [255] 0 255 1 0xff,
  de 0x04 1 .u8 0 .ro .none .steward [0] 0 255 1 0xff,
  de 0x05 1 .u8 0 .ro .none .steward [0] 0 255 1 0xff,
  de 0x06 1 .u32 0 .ro .none .steward [0] 0 4294967295 1 0xffffffff,
  de 0x07 1 .u8 0 .rw .live .steward [0] 0 50 1 0xff,
  de 0x08 1 .u8 0 .rw .live .steward [0] 0 50 1 0xff,
  de 0x09 1 .u16 0 .rw .live .steward [1000] 100 10000 1 0xffff,
  de 0x0A 1 .bool 0 .ro .none .steward [0] 0 1 1 0x1]

/-- 0x2001, 15_clocks_power.md R441. -/
def dict2001 : List DEntry := [
  de 0x00 1 .u8 0 .const .none .steward [4] 0 255 1 0xff,
  de 0x01 1 .u8 0 .rw .live .steward [4] 0 255 1 0xff,
  de 0x02 1 .u8 0 .ro .none .steward [8] 0 255 1 0xff,
  de 0x03 1 .u8 0 .ro .none .steward [0] 0 255 1 0xff,
  de 0x04 1 .u16 0 .ro .none .steward [4096] 0 65535 1 0xffff]

/-- 0x2002, 15_clocks_power.md R441. -/
def dict2002 : List DEntry := [
  de 0x00 1 .u8 0 .const .none .steward [6] 0 255 1 0xff,
  de 0x01 1 .u8 0 .rw .next .steward [0] 0 50 1 0xff,
  de 0x02 1 .u16 0 .rw .next .steward [31500] 30000 33000 1 0xffff,
  de 0x03 1 .u8 0 .ro .none .steward [0] 0 255 1 0xff,
  de 0x04 1 .u8 0 .rw .live .steward [255] 0 255 1 0xff,
  de 0x05 1 .u8 0 .rw .next .steward [0] 0 50 1 0xff,
  de 0x06 1 .u16 0 .rw .next .steward [31500] 30000 33000 1 0xffff]

/-- 0x2010, 15_clocks_power.md R441. -/
def dict2010 : List DEntry := [
  de 0x00 1 .u8 0 .const .none .operator [7] 0 255 1 0xff,
  de 0x01 1 .u8 0 .rw .live .operator [1] 0 255 1 0xff,
  de 0x02 1 .u8 0 .rw .live .operator [0] 0 255 1 0xff,
  de 0x03 1 .u32 0 .rw .live .operator [1000000] 1000 2147483648 1 0xffffffff,
  de 0x04 1 .bool 0 .wo .live .operator [0] 0 1 1 0x1,
  de 0x05 1 .u8 0 .ro .none .operator [0] 0 255 1 0xff,
  de 0x06 1 .u64 0 .ro .none .operator [0] 0 18446744073709551615 1 0xffffffffffffffff,
  de 0x07 1 .u64 0 .ro .none .operator [0] 0 18446744073709551615 1 0xffffffffffffffff]

/-- 0x2100, 15_clocks_power.md R441. -/
def dict2100 : List DEntry := [
  de 0x00 1 .u8 0 .const .none .steward [13] 0 255 1 0xff,
  de 0x01 1 .u16 0 .rw .live .steward [0] 0 65535 1 0xffff,
  de 0x02 1 .u16 0 .ro .none .steward [10] 0 65535 1 0xffff,
  de 0x03 1 .u32 0 .ro .none .steward [0] 0 4294967295 1 0xffffffff,
  de 0x04 1 .u32 0 .ro .none .steward [0] 0 4294967295 1 0xffffffff,
  de 0x05 1 .u8 0 .ro .none .steward [0] 0 255 1 0xff,
  de 0x06 1 .u8 0 .ro .none .steward [16] 0 255 1 0xff,
  de 0x07 1 .u8 0 .ro .none .steward [0] 0 255 1 0xff,
  de 0x08 1 .u8 0 .rw .live .steward [95] 70 105 1 0xff,
  de 0x09 1 .u8 0 .const .none .steward [105] 0 255 1 0xff,
  de 0x0A 1 .u8 0 .const .none .steward [115] 0 255 1 0xff,
  de 0x0B 1 .s32 0 .ro .none .steward [0] 0 4294967295 1 0xffffffff,
  de 0x0C 1 .s32 0 .ro .none .steward [0] 0 4294967295 1 0xffffffff,
  de 0x0D 1 .u8 0 .rw .live .steward [90] 70 95 1 0xff]

/-- 0x2101, 15_clocks_power.md R441. -/
def dict2101 : List DEntry := [
  de 0x00 1 .u8 0 .const .none .steward [5] 0 255 1 0xff,
  de 0x01 1 .u8 0 .rw .live .observer [0] 0 255 1 0xff,
  de 0x02 1 .s32 0 .ro .none .steward [0] 0 4294967295 1 0xffffffff,
  de 0x03 1 .s32 0 .ro .none .steward [0] 0 4294967295 1 0xffffffff,
  de 0x04 1 .s32 0 .ro .none .steward [0] 0 4294967295 1 0xffffffff,
  de 0x05 1 .u16 0 .ro .none .steward [0] 0 65535 1 0xffff]

/-- 0x2200, 15_clocks_power.md R441. -/
def dict2200 : List DEntry := [
  de 0x00 1 .u8 0 .const .none .steward [4] 0 255 1 0xff,
  de 0x01 1 .u8 0 .wo .live .steward [0] 1 3 1 0xff,
  de 0x02 1 .u8 0 .ro .none .steward [0] 0 255 1 0xff,
  de 0x03 1 .u8 0 .ro .none .steward [0] 0 255 1 0xff,
  de 0x04 1 .u32 0 .ro .none .steward [0] 0 4294967295 1 0xffffffff]

/-- 0x2201, 15_clocks_power.md R441. -/
def dict2201 : List DEntry := [
  de 0x00 1 .u8 0 .const .none .steward [3] 0 255 1 0xff,
  de 0x01 1 .u8 0 .rw .live .observer [0] 0 255 1 0xff,
  de 0x02 1 .u8 0 .rw .live .steward [0] 0 255 1 0xff,
  de 0x03 1 .bool 0 .wo .live .steward [0] 0 1 1 0x1]

/-- 0x2210, 01_organisation.md R37. -/
def dict2210 : List DEntry := [
  de 0x00 1 .u8 0 .const .none .steward [8] 0 255 1 0xff,
  de 0x01 8 .u8 0 .ro .none .steward [0] 0 255 1 0xff]

/-- 0x2211, 01_organisation.md R37. -/
def dict2211 : List DEntry := [
  de 0x00 1 .u8 0 .const .none .steward [2] 0 255 1 0xff,
  de 0x01 1 .u8 0 .wo .live .steward [0] 0 255 1 0xff,
  de 0x02 1 .u8 0 .rw .live .steward [0] 0 1 1 0xff]

/-- 0x2212, 01_organisation.md R37. -/
def dict2212 : List DEntry := [
  de 0x00 1 .u8 0 .const .none .steward [1] 0 255 1 0xff,
  de 0x01 1 .u32 0 .rw .live .steward [1000] 10 100000 1 0xffffffff]

/-- 0x2220, 15_clocks_power.md R441. -/
def dict2220 : List DEntry := [
  de 0x00 1 .u8 0 .const .none .steward [5] 0 255 1 0xff,
  de 0x01 1 .u8 0 .rw .live .observer [0] 0 255 1 0xff,
  de 0x02 1 .u8 0 .rw .live .observer [0] 0 255 1 0xff,
  de 0x03 1 .u8 0 .ro .none .steward [0] 0 255 1 0xff,
  de 0x04 1 .u8 0 .wo .live .steward [0] 0 1 1 0xff,
  de 0x05 1 .u32 0 .ro .none .steward [0] 0 4294967295 1 0xffffffff]

/-- 0x2221, 15_clocks_power.md R441. -/
def dict2221 : List DEntry := [
  de 0x00 1 .u8 0 .const .none .steward [1] 0 255 1 0xff,
  de 0x01 1 .u32 0 .rw .live .steward [100] 10 100000 1 0xffffffff]

/-- 0x2230, 18_electrical.md R511. -/
def dict2230 : List DEntry := [
  de 0x00 1 .u8 0 .const .none .steward [3] 0 255 1 0xff,
  de 0x01 1 .u8 0 .ro .none .steward [0] 0 255 1 0xff,
  de 0x02 1 .u8 0 .ro .none .steward [0] 0 255 1 0xff,
  de 0x03 1 .u8 0 .ro .none .steward [0] 0 255 1 0xff]

/-- 0x2231, 18_electrical.md R511. -/
def dict2231 : List DEntry := [
  de 0x00 1 .u8 0 .const .none .steward [5] 0 255 1 0xff,
  de 0x01 1 .u8 0 .ro .none .steward [0] 0 255 1 0xff,
  de 0x02 1 .u8 0 .ro .none .steward [0] 0 255 1 0xff,
  de 0x03 1 .u8 0 .ro .none .steward [0] 0 255 1 0xff,
  de 0x04 1 .u32 0 .ro .none .steward [0] 0 4294967295 1 0xffffffff,
  de 0x05 1 .u32 0 .ro .none .steward [0] 0 4294967295 1 0xffffffff]

/-- 0x2232, 18_electrical.md R511. -/
def dict2232 : List DEntry := [
  de 0x00 1 .u8 0 .const .none .steward [3] 0 255 1 0xff,
  de 0x01 1 .u16 0 .ro .none .steward [0] 0 65535 1 0xffff,
  de 0x02 1 .u16 0 .ro .none .steward [0] 0 65535 1 0xffff,
  de 0x03 1 .u16 0 .ro .none .steward [0] 0 65535 1 0xffff]

/-- 0x3000, 03_store_tiers.md R99. -/
def dict3000 : List DEntry := [
  de 0x00 1 .u8 0 .const .none .steward [6] 0 255 1 0xff,
  de 0x01 1 .u64 0 .rws .staged .steward [0] 0 18446744073709551615 1 0xffffffffffffffff,
  de 0x02 1 .u64 0 .ro .none .steward [0] 0 18446744073709551615 1 0xffffffffffffffff,
  de 0x03 1 .u64 0 .ro .none .steward [0] 0 18446744073709551615 1 0xffffffffffffffff,
  de 0x04 1 .u64 0 .ro .none .steward [0] 0 18446744073709551615 1 0xffffffffffffffff,
  de 0x05 1 .u32 0 .rw .live .steward [100] 10 10000 1 0xffffffff,
  de 0x06 1 .u32 0 .rw .live .steward [20] 2 1000 1 0xffffffff]

/-- 0x3001, 03_store_tiers.md R99. -/
def dict3001 : List DEntry := [
  de 0x00 1 .u8 0 .const .none .steward [5] 0 255 1 0xff,
  de 0x01 1 .u32 0 .ro .none .steward [0] 0 4294967295 1 0xffffffff,
  de 0x02 1 .u32 0 .ro .none .steward [0] 0 4294967295 1 0xffffffff,
  de 0x03 1 .u32 0 .ro .none .steward [0] 0 4294967295 1 0xffffffff,
  de 0x04 1 .u32 0 .ro .none .steward [0] 0 4294967295 1 0xffffffff,
  de 0x05 1 .u32 0 .ro .none .steward [0] 0 4294967295 1 0xffffffff]

/-- 0x3010, 03_store_tiers.md R99. -/
def dict3010 : List DEntry := [
  de 0x00 1 .u8 0 .const .none .steward [8] 0 255 1 0xff,
  de 0x01 1 .u8 0 .rw .live .steward [8] 0 255 1 0xff,
  de 0x02 1 .u16 0 .rw .live .steward [20] 5 500 1 0xffff,
  de 0x03 1 .u16 0 .rw .live .steward [40] 0 600 1 0xffff,
  de 0x04 1 .u8 0 .rw .live .steward [96] 8 96 1 0xff,
  de 0x05 1 .u16 0 .rw .live .steward [50] 0 65535 1 0xffff,
  de 0x06 1 .u16 0 .rw .live .steward [100] 10 400 1 0xffff,
  de 0x07 1 .u32 0 .rw .live .steward [0] 0 4294967295 1 0xffffffff,
  de 0x08 1 .u32 0 .rw .live .steward [600] 10 86400 1 0xffffffff]

/-- 0x3020, 03_store_tiers.md R99. -/
def dict3020 : List DEntry := [
  de 0x00 1 .u8 0 .const .none .steward [1] 0 255 1 0xff,
  de 0x01 1 .u32 0 .rws .staged .steward [0] 0 4294967295 1 0xffffffff]

/-- 0x3021, 03_store_tiers.md R99. -/
def dict3021 : List DEntry := [
  de 0x00 1 .u8 0 .const .none .steward [16] 0 255 1 0xff,
  de 0x01 16 .u8 0 .ro .none .steward [0] 0 255 1 0xff]

/-- 0x3022, 03_store_tiers.md R99. -/
def dict3022 : List DEntry := [
  de 0x00 1 .u8 0 .const .none .steward [3] 0 255 1 0xff,
  de 0x01 1 .u8 0 .wo .live .steward [0] 0 255 1 0xff,
  de 0x02 1 .u8 0 .rw .live .steward [0] 0 1 1 0xff,
  de 0x03 1 .u16 0 .ro .none .steward [0] 0 65535 1 0xffff]

/-- 0x3025, 03_store_tiers.md R99. -/
def dict3025 : List DEntry := [
  de 0x00 1 .u8 0 .const .none .steward [16] 0 255 1 0xff,
  de 0x01 16 .u8 0 .ro .none .steward [0] 0 255 1 0xff]

/-- 0x3026, 03_store_tiers.md R99. -/
def dict3026 : List DEntry := [
  de 0x00 1 .u8 0 .const .none .steward [1] 0 255 1 0xff,
  de 0x01 1 .u8 0 .wo .live .steward [0] 0 255 1 0xff]

/-- 0x3030, 03_store_tiers.md R99. -/
def dict3030 : List DEntry := [
  de 0x00 1 .u8 0 .const .none .steward [4] 0 255 1 0xff,
  de 0x01 1 .u64 0 .rw .live .operator [0] 0 18446744073709551615 1 0xffffffffffffffff,
  de 0x02 1 .u64 0 .ro .none .steward [0] 0 18446744073709551615 1 0xffffffffffffffff,
  de 0x03 1 .u64 0 .ro .none .steward [0] 0 18446744073709551615 1 0xffffffffffffffff,
  de 0x04 1 .u8 0 .ro .none .steward [0] 0 255 1 0xff]

/-- 0x3040, 03_store_tiers.md R99. -/
def dict3040 : List DEntry := [
  de 0x00 1 .u8 0 .const .none .steward [7] 0 255 1 0xff,
  de 0x01 1 .u8 0 .rw .live .observer [0] 0 63 1 0xff,
  de 0x02 1 .u64 0 .rws .staged .steward [0] 0 18446744073709551615 1 0xffffffffffffffff,
  de 0x03 1 .u64 0 .rws .staged .steward [0] 0 18446744073709551615 1 0xffffffffffffffff,
  de 0x04 1 .u8 0 .rws .staged .steward [0] 0 1 1 0xff,
  de 0x05 1 .u8 0 .rws .staged .steward [0] 0 255 1 0xff,
  de 0x06 1 .bool 0 .rws .staged .steward [0] 0 1 1 0x1,
  de 0x07 1 .u32 0 .ro .none .steward [0] 0 4294967295 1 0xffffffff]

/-- 0x3050, 03_store_tiers.md R99. -/
def dict3050 : List DEntry := [
  de 0x00 1 .u8 0 .const .none .steward [8] 0 255 1 0xff,
  de 0x01 4 .u16 0 .rw .live .steward [950, 900, 900, 900] 0 65535 1 0xffff,
  de 0x05 4 .u16 0 .rw .live .steward [20] 1 200 1 0xffff]

/-- 0x3051, 03_store_tiers.md R99. -/
def dict3051 : List DEntry := [
  de 0x00 1 .u8 0 .const .none .steward [4] 0 255 1 0xff,
  de 0x01 4 .octets 16 .ro .none .steward [0] 0 0 1 0x0]

/-- 0x3380, 01_organisation.md R37. -/
def dict3380 : List DEntry := [
  de 0x00 1 .u8 0 .const .none .steward [3] 0 255 1 0xff,
  de 0x01 1 .bool 0 .rw .quiesce .steward [1] 0 1 1 0x1,
  de 0x02 1 .u32 0 .rw .live .steward [10] 1 1000 1 0xffffffff,
  de 0x03 1 .u16 0 .wo .live .steward [0] 0 65535 1 0x3ff]

/-- 0x3381, 01_organisation.md R37. -/
def dict3381 : List DEntry := [
  de 0x00 1 .u8 0 .const .none .steward [9] 0 255 1 0xff,
  de 0x01 8 .u8 0 .rws .staged .steward [0, 1, 2, 3, 4, 5, 6, 7] 0 7 1 0xff,
  de 0x09 1 .u32 0 .ro .none .steward [0] 0 4294967295 1 0xffffffff]

/-- 0x3400, 04_host_ports.md R125. -/
def dict3400 : List DEntry := [
  de 0x00 1 .u8 0 .const .none .steward [6] 0 255 1 0xff,
  de 0x01 1 .u8 0 .rw .live .observer [0] 0 255 1 0xff,
  de 0x02 1 .u8 0 .rw .quiesce .steward [0] 0 1 1 0xff,
  de 0x03 1 .u8 0 .rw .quiesce .steward [1] 1 16 1 0xff,
  de 0x04 1 .u8 0 .rw .quiesce .steward [6] 1 6 1 0xff,
  de 0x05 1 .bool 0 .rw .quiesce .steward [1] 0 1 1 0x1,
  de 0x06 1 .bool 0 .rw .quiesce .steward [0] 0 1 1 0x1]

/-- 0x3401, 04_host_ports.md R125. -/
def dict3401 : List DEntry := [
  de 0x00 1 .u8 0 .const .none .steward [32] 0 255 1 0xff,
  de 0x01 16 .u8 0 .ro .none .steward [0] 0 255 1 0xff,
  de 0x11 16 .u16 0 .ro .none .steward [0] 0 65535 1 0xffff]

/-- 0x3402, 04_host_ports.md R125. -/
def dict3402 : List DEntry := [
  de 0x00 1 .u8 0 .const .none .steward [2] 0 255 1 0xff,
  de 0x01 1 .u8 0 .rw .live .observer [0] 0 255 1 0x1f,
  de 0x02 1 .u16 0 .rw .quiesce .steward [0] 1 2048 1 0xffff]

/-- 0x3410, 03_store_tiers.md R99. -/
def dict3410 : List DEntry := [
  de 0x00 1 .u8 0 .const .none .steward [6] 0 255 1 0xff,
  de 0x01 1 .u8 0 .rw .live .observer [0] 0 63 1 0xff,
  de 0x02 1 .u8 0 .rws .staged .steward [0] 0 63 1 0xff,
  de 0x03 1 .u64 0 .rws .staged .steward [0] 0 18446744073709551615 1 0xffffffffffffffff,
  de 0x04 1 .u64 0 .rws .staged .steward [0] 0 18446744073709551615 1 0xffffffffffffffff,
  de 0x05 1 .u8 0 .rws .staged .steward [0] 0 255 1 0x3,
  de 0x06 1 .u32 0 .ro .none .steward [0] 0 4294967295 1 0xffffffff]

/-- 0x3415, 03_store_tiers.md R99. -/
def dict3415 : List DEntry := [
  de 0x00 1 .u8 0 .const .none .steward [64] 0 255 1 0xff,
  de 0x01 64 .u32 0 .rw .live .steward [0] 0 4294967295 1 0xffffffff]

/-- 0x3420, 03_store_tiers.md R99. -/
def dict3420 : List DEntry := [
  de 0x00 1 .u8 0 .const .none .steward [6] 0 255 1 0xff,
  de 0x01 1 .u64 0 .rws .staged .steward [0] 0 18446744073709551615 1 0xffffffffffffffff,
  de 0x02 1 .u64 0 .rws .staged .steward [0] 0 18446744073709551615 1 0xffffffffffffffff,
  de 0x03 1 .u32 0 .rw .live .steward [10000] 1000 600000 1 0xffffffff,
  de 0x04 1 .u32 0 .rw .live .steward [2000] 500 60000 1 0xffffffff,
  de 0x05 1 .u32 0 .ro .none .steward [0] 0 4294967295 1 0xffffffff,
  de 0x06 1 .u32 0 .ro .none .steward [0] 0 4294967295 1 0xffffffff]

/-- 0x3421, 03_store_tiers.md R99. -/
def dict3421 : List DEntry := [
  de 0x00 1 .u8 0 .const .none .operator [5] 0 255 1 0xff,
  de 0x01 1 .u16 0 .wo .live .operator [0] 0 65535 1 0x8fff,
  de 0x02 1 .u32 0 .ro .none .operator [4294967295] 0 4294967295 1 0xffffffff,
  de 0x03 1 .u32 0 .wo .live .operator [0] 0 4294967295 1 0xffffffff,
  de 0x04 1 .u16 0 .wo .live .operator [0] 0 65535 1 0x8fff,
  de 0x05 1 .u32 0 .wo .live .operator [0] 0 4294967295 1 0xffffffff]

/-- 0x3422, 03_store_tiers.md R99. -/
def dict3422 : List DEntry := [
  de 0x00 1 .u8 0 .const .none .steward [4] 0 255 1 0xff,
  de 0x01 1 .u32 0 .rw .live .observer [0] 0 4294967295 1 0xffffffff,
  de 0x02 1 .u8 0 .ro .none .steward [0] 0 255 1 0xff,
  de 0x03 1 .u16 0 .ro .none .steward [0] 0 65535 1 0xffff,
  de 0x04 1 .timebase 0 .ro .none .steward [0] 0 18446744073709551615 1 0xffffffffffffffff]

/-- 0x3430, 04_host_ports.md R125. -/
def dict3430 : List DEntry := [
  de 0x00 1 .u8 0 .const .none .custodian [6] 0 255 1 0xff,
  de 0x01 1 .u8 0 .rw .live .observer [0] 0 63 1 0xff,
  de 0x02 1 .octets 48 .rws .staged .custodian [0] 0 0 1 0x0,
  de 0x03 1 .octets 48 .rws .staged .custodian [0] 0 0 1 0x0,
  de 0x04 1 .u8 0 .rws .staged .custodian [1] 0 255 1 0x7,
  de 0x05 1 .bool 0 .rws .staged .custodian [0] 0 1 1 0x1,
  de 0x06 1 .u32 0 .ro .none .custodian [0] 0 4294967295 1 0xffffffff]

/-- 0x3431, 04_host_ports.md R125. -/
def dict3431 : List DEntry := [
  de 0x00 1 .u8 0 .const .none .steward [4] 0 255 1 0xff,
  de 0x01 1 .u8 0 .rw .live .observer [0] 0 63 1 0xff,
  de 0x02 1 .u8 0 .ro .none .steward [0] 0 255 1 0xff,
  de 0x03 1 .u16 0 .ro .none .steward [65535] 0 65535 1 0xffff,
  de 0x04 1 .u16 0 .ro .none .steward [65535] 0 65535 1 0xffff]

/-- 0x3432, 04_host_ports.md R125. -/
def dict3432 : List DEntry := [
  de 0x00 1 .u8 0 .const .none .steward [1] 0 255 1 0xff,
  de 0x01 1 .u8 0 .wo .live .steward [0] 0 63 1 0xff]

/-- 0x3440, 04_host_ports.md R125. -/
def dict3440 : List DEntry := [
  de 0x00 1 .u8 0 .const .none .steward [3] 0 255 1 0xff,
  de 0x01 1 .u32 0 .rw .live .steward [100] 10 10000 1 0xffffffff,
  de 0x02 1 .u8 0 .rw .next .steward [1] 1 60 1 0xff,
  de 0x03 1 .u32 0 .rw .live .steward [5000] 500 60000 1 0xffffffff]

/-- 0x3450, 04_host_ports.md R125. -/
def dict3450 : List DEntry := [
  de 0x00 1 .u8 0 .const .none .steward [2] 0 255 1 0xff,
  de 0x01 1 .bool 0 .rw .live .steward [1] 0 1 1 0x1,
  de 0x02 1 .u32 0 .rw .live .steward [1000] 100 100000 1 0xffffffff]

/-- 0x3600, 02_address_spaces.md R65. -/
def dict3600 : List DEntry := [
  de 0x00 1 .u8 0 .const .none .steward [3] 0 255 1 0xff,
  de 0x01 1 .u8 0 .rw .live .steward [4] 1 16 1 0xff,
  de 0x02 1 .u8 0 .ro .none .steward [0] 0 255 1 0xff,
  de 0x03 1 .u16 0 .ro .none .steward [0] 0 65535 1 0xffff]

/-- 0x3610, 02_address_spaces.md R65. -/
def dict3610 : List DEntry := [
  de 0x00 1 .u8 0 .const .none .operator [8] 0 255 1 0xff,
  de 0x01 1 .u16 0 .rw .live .observer [0] 0 4095 1 0xffff,
  de 0x02 1 .u64 0 .rw .live .operator [0] 0 18446744073709551615 1 0xffffffffffffffff,
  de 0x03 1 .u8 0 .rw .live .operator [255] 0 255 1 0xff,
  de 0x04 1 .u8 0 .rw .live .operator [0] 0 1 1 0xff,
  de 0x05 1 .u64 0 .rw .live .operator [0] 0 18446744073709551615 1 0xffffffffffffffff,
  de 0x06 1 .u32 0 .rw .live .operator [0] 0 4294967295 1 0x8fffffff,
  de 0x07 1 .u8 0 .rw .live .operator [0] 0 1 1 0xff,
  de 0x08 1 .u32 0 .ro .none .operator [0] 0 4294967295 1 0xffffffff]

/-- 0x3630, 02_address_spaces.md R65. -/
def dict3630 : List DEntry := [
  de 0x00 1 .u8 0 .const .none .steward [4] 0 255 1 0xff,
  de 0x01 1 .u16 0 .wo .live .operator [0] 0 4095 1 0xffff,
  de 0x02 1 .bool 0 .wo .live .steward [0] 0 1 1 0x1,
  de 0x03 1 .u32 0 .rw .live .steward [1000] 10 100000 1 0xffffffff,
  de 0x04 1 .u32 0 .ro .none .steward [0] 0 4294967295 1 0xffffffff]

/-- 0x3640, 02_address_spaces.md R65. -/
def dict3640 : List DEntry := [
  de 0x00 1 .u8 0 .const .none .steward [5] 0 255 1 0xff,
  de 0x01 1 .u16 0 .ro .none .steward [0] 0 65535 1 0xffff,
  de 0x02 1 .u64 0 .ro .none .steward [0] 0 18446744073709551615 1 0xffffffffffffffff,
  de 0x03 1 .u8 0 .ro .none .steward [0] 0 255 1 0xff,
  de 0x04 1 .u8 0 .ro .none .steward [0] 0 255 1 0xff,
  de 0x05 1 .u8 0 .ro .none .steward [0] 0 255 1 0xff]

/-- 0x4000, 05_ridgeline_links.md R160. -/
def dict4000 : List DEntry := [
  de 0x00 1 .u8 0 .const .none .steward [9] 0 255 1 0xff,
  de 0x01 1 .u8 0 .rw .quiesce .steward [0] 0 255 1 0xff,
  de 0x02 1 .u8 0 .rw .quiesce .steward [1] 0 255 1 0xff,
  de 0x03 1 .u8 0 .rw .quiesce .steward [1] 0 255 1 0xff,
  de 0x04 1 .u8 0 .rw .quiesce .steward [1] 0 255 1 0xff,
  de 0x05 1 .u16 0 .rw .quiesce .steward [0] 0 511 1 0xffff,
  de 0x06 1 .u8 0 .rw .quiesce .steward [0] 0 255 1 0xff,
  de 0x07 1 .bool 0 .rw .quiesce .steward [0] 0 1 1 0x1,
  de 0x08 1 .bool 0 .rw .quiesce .steward [0] 0 1 1 0x1,
  de 0x09 1 .u8 0 .rw .live .steward [40] 16 63 1 0xff]

/-- 0x4010, 05_ridgeline_links.md R160. -/
def dict4010 : List DEntry := [
  de 0x00 1 .u8 0 .const .none .steward [7] 0 255 1 0xff,
  de 0x01 1 .u8 0 .rw .live .observer [0] 0 7 1 0xff,
  de 0x02 1 .bool 0 .rw .live .steward [0] 0 1 1 0x1,
  de 0x03 1 .u8 0 .rw .next .steward [7] 1 255 1 0x7,
  de 0x04 1 .u8 0 .wo .live .steward [0] 1 2 1 0xff,
  de 0x05 1 .bool 0 .wo .live .steward [0] 0 1 1 0x1,
  de 0x06 1 .bool 0 .rw .live .steward [1] 0 1 1 0x1,
  de 0x07 1 .bool 0 .rw .next .steward [1] 0 1 1 0x1]

/-- 0x4011, 05_ridgeline_links.md R160. -/
def dict4011 : List DEntry := [
  de 0x00 1 .u8 0 .const .none .steward [10] 0 255 1 0xff,
  de 0x01 1 .u8 0 .ro .none .steward [0] 0 255 1 0xff,
  de 0x02 1 .u8 0 .ro .none .steward [0] 0 255 1 0xff,
  de 0x03 1 .u32 0 .ro .none .steward [0] 0 4294967295 1 0xffffffff,
  de 0x04 1 .bool 0 .ro .none .steward [0] 0 1 1 0x1,
  de 0x05 1 .u32 0 .ro .none .steward [0] 0 4294967295 1 0xffffffff,
  de 0x06 1 .u16 0 .ro .none .steward [65535] 0 65535 1 0xffff,
  de 0x07 1 .u8 0 .ro .none .steward [255] 0 255 1 0xff,
  de 0x08 1 .u8 0 .ro .none .steward [0] 0 255 1 0xff,
  de 0x09 1 .bool 0 .ro .none .steward [0] 0 1 1 0x1,
  de 0x0A 1 .u32 0 .ro .none .steward [0] 0 4294967295 1 0xffffffff]

/-- 0x4020, 05_ridgeline_links.md R160. -/
def dict4020 : List DEntry := [
  de 0x00 1 .u8 0 .const .none .steward [4] 0 255 1 0xff,
  de 0x01 1 .u8 0 .rw .live .steward [4] 1 16 1 0xff,
  de 0x02 1 .u32 0 .rw .live .steward [50] 20 500 1 0xffffffff,
  de 0x03 1 .u32 0 .rw .live .steward [10] 2 1000 1 0xffffffff,
  de 0x04 1 .u8 0 .rw .live .steward [1] 1 10 1 0xff]

/-- 0x4100, 05_ridgeline_links.md R160. -/
def dict4100 : List DEntry := [
  de 0x00 1 .u8 0 .const .none .steward [6] 0 255 1 0xff,
  de 0x01 1 .u16 0 .rw .live .observer [0] 0 511 1 0xffff,
  de 0x02 1 .u8 0 .rws .staged .steward [15] 0 255 1 0xff,
  de 0x03 1 .u8 0 .rws .staged .steward [15] 0 255 1 0xff,
  de 0x04 1 .bool 0 .rws .staged .steward [0] 0 1 1 0x1,
  de 0x05 1 .bool 0 .wo .live .steward [0] 0 1 1 0x1,
  de 0x06 1 .u32 0 .ro .none .steward [0] 0 4294967295 1 0xffffffff]

/-- 0x4101, 05_ridgeline_links.md R160. -/
def dict4101 : List DEntry := [
  de 0x00 1 .u8 0 .const .none .steward [4] 0 255 1 0xff,
  de 0x01 1 .u16 0 .rw .live .observer [0] 0 511 1 0xffff,
  de 0x02 1 .u8 0 .rws .staged .steward [15] 0 255 1 0xff,
  de 0x03 1 .bool 0 .rws .staged .steward [0] 0 1 1 0x1,
  de 0x04 1 .u32 0 .ro .none .steward [0] 0 4294967295 1 0xffffffff]

/-- 0x4200, 06_ridgeline_memory.md R203. -/
def dict4200 : List DEntry := [
  de 0x00 1 .u8 0 .const .none .steward [6] 0 255 1 0xff,
  de 0x01 1 .u32 0 .rw .live .steward [1000] 100 100000 1 0xffffffff,
  de 0x02 1 .u32 0 .rw .live .steward [20] 5 1000 1 0xffffffff,
  de 0x03 1 .u8 0 .rw .live .steward [8] 1 32 1 0xff,
  de 0x04 1 .u32 0 .rw .live .steward [500] 50 10000 1 0xffffffff,
  de 0x05 1 .u8 0 .rw .live .steward [1] 1 100 1 0xff,
  de 0x06 1 .u32 0 .ro .none .steward [33554432] 0 4294967295 1 0xffffffff]

/-- 0x4201, 06_ridgeline_memory.md R203. -/
def dict4201 : List DEntry := [
  de 0x00 1 .u8 0 .const .none .steward [15] 0 255 1 0xff,
  de 0x01 5 .u16 0 .rw .quiesce .steward [128, 520, 520, 0, 0] 0 4096 1 0xffff,
  de 0x06 5 .s32 0 .rw .live .steward [1, 1, 0, 4294967295, 4294967293] 0 4294967295 1 0xffffffff,
  de 0x0B 4 .u8 0 .rw .live .steward [8, 4, 2, 1] 1 64 1 0xff,
  de 0x0F 1 .u8 0 .rw .live .steward [9] 1 15 1 0xff]

/-- 0x4210, 06_ridgeline_memory.md R203. -/
def dict4210 : List DEntry := [
  de 0x00 1 .u8 0 .const .none .steward [4] 0 255 1 0xff,
  de 0x01 1 .u8 0 .rw .live .observer [0] 0 255 1 0xff,
  de 0x02 1 .u32 0 .rw .live .steward [0] 0 4294967295 1 0xffffffff,
  de 0x03 1 .u32 0 .rw .live .steward [0] 0 4294967295 1 0xffffffff,
  de 0x04 1 .u16 0 .rw .live .steward [0] 0 65535 1 0xffff]

/-- 0x4230, 06_ridgeline_memory.md R203. -/
def dict4230 : List DEntry := [
  de 0x00 1 .u8 0 .const .none .steward [10] 0 255 1 0xff,
  de 0x01 1 .u8 0 .rw .live .observer [0] 0 3 1 0xff,
  de 0x02 1 .u8 0 .rw .live .steward [0] 0 2 1 0xff,
  de 0x03 1 .u8 0 .rw .live .steward [0] 0 255 1 0x3f,
  de 0x04 1 .u16 0 .rw .live .steward [65535] 0 65535 1 0xffff,
  de 0x05 1 .u32 0 .rw .live .steward [4294967295] 0 4294967295 1 0xffffffff,
  de 0x06 1 .u8 0 .rw .live .steward [31] 0 255 1 0x1f,
  de 0x07 1 .u8 0 .rw .live .steward [255] 0 255 1 0xff,
  de 0x08 1 .u16 0 .rw .live .steward [0] 0 65535 1 0xffff,
  de 0x09 1 .u8 0 .rw .live .steward [63] 0 63 1 0xff,
  de 0x0A 1 .bool 0 .rw .live .steward [0] 0 1 1 0x1]

/-- 0x4231, 06_ridgeline_memory.md R203. -/
def dict4231 : List DEntry := [
  de 0x00 1 .u8 0 .const .none .steward [3] 0 255 1 0xff,
  de 0x01 1 .u64 0 .rw .quiesce .steward [0] 0 18446744073709551615 4096 0xffffffffffffffff,
  de 0x02 1 .u32 0 .rw .quiesce .steward [0] 0 4294967295 1 0xffffffff,
  de 0x03 1 .u64 0 .rw .quiesce .steward [0] 0 18446744073709551615 8 0xffffffffffffffff]

/-- 0x4400, 06_ridgeline_memory.md R203. -/
def dict4400 : List DEntry := [
  de 0x00 1 .u8 0 .const .none .steward [9] 0 255 1 0xff,
  de 0x01 1 .u16 0 .rw .live .observer [0] 0 65535 1 0xffff,
  de 0x02 1 .u64 0 .rws .staged .steward [0] 0 18446744073709551615 1 0xffffffffffffffff,
  de 0x03 1 .u64 0 .rws .staged .steward [0] 0 18446744073709551615 1 0xffffffffffffffff,
  de 0x04 1 .u64 0 .rws .staged .steward [0] 0 18446744073709551615 1 0xffffffffffff,
  de 0x05 1 .u16 0 .ro .none .steward [0] 0 65535 1 0xffff,
  de 0x06 1 .u8 0 .rws .staged .steward [0] 0 255 1 0x3,
  de 0x07 1 .u16 0 .rws .staged .steward [0] 0 1023 1 0xffff,
  de 0x08 1 .u16 0 .wo .live .steward [0] 0 65535 1 0xffff,
  de 0x09 1 .u32 0 .ro .none .steward [0] 0 4294967295 1 0xffffffff]

/-- 0x4410, 02_address_spaces.md R65. -/
def dict4410 : List DEntry := [
  de 0x00 1 .u8 0 .const .none .steward [7] 0 255 1 0xff,
  de 0x01 1 .u16 0 .rw .live .observer [0] 0 4095 1 0xffff,
  de 0x02 1 .u64 0 .rws .staged .steward [0] 0 18446744073709551615 1 0xffffffffffffffff,
  de 0x03 1 .u64 0 .rws .staged .steward [0] 0 18446744073709551615 1 0xffffffffffffffff,
  de 0x04 1 .u16 0 .rws .staged .steward [0] 0 65535 1 0xffff,
  de 0x05 1 .u8 0 .rws .staged .steward [0] 0 255 1 0x7,
  de 0x06 1 .bool 0 .rws .staged .steward [0] 0 1 1 0x1,
  de 0x07 1 .u32 0 .ro .none .steward [0] 0 4294967295 1 0xffffffff]

/-- 0x4411, 06_ridgeline_memory.md R203. -/
def dict4411 : List DEntry := [
  de 0x00 1 .u8 0 .const .none .steward [3] 0 255 1 0xff,
  de 0x01 1 .u8 0 .ro .none .steward [0] 0 255 1 0xff,
  de 0x02 1 .u16 0 .ro .none .steward [65535] 0 65535 1 0xffff,
  de 0x03 1 .u16 0 .ro .none .steward [65535] 0 65535 1 0xffff]

/-- 0x4440, 06_ridgeline_memory.md R203. -/
def dict4440 : List DEntry := [
  de 0x00 1 .u8 0 .const .none .steward [6] 0 255 1 0xff,
  de 0x01 1 .u16 0 .rw .live .observer [0] 0 1023 1 0xffff,
  de 0x02 4 .u32 0 .rws .staged .steward [0] 0 4294967295 1 0x81ff0fff,
  de 0x06 1 .u32 0 .ro .none .steward [0] 0 4294967295 1 0xffffffff]

/-- 0x4480, 06_ridgeline_memory.md R203. -/
def dict4480 : List DEntry := [
  de 0x00 1 .u8 0 .const .none .steward [5] 0 255 1 0xff,
  de 0x01 1 .u8 0 .rw .live .steward [0] 0 255 1 0xff,
  de 0x02 1 .u32 0 .ro .none .steward [0] 0 4294967295 1 0xffffffff,
  de 0x03 1 .u32 0 .rw .live .steward [2000] 500 100000 1 0xffffffff,
  de 0x04 1 .u8 0 .ro .none .steward [0] 0 255 1 0xff,
  de 0x05 1 .timebase 0 .ro .none .steward [0] 0 18446744073709551615 1 0xffffffffffffffff]

/-- 0x4481, 06_ridgeline_memory.md R203. -/
def dict4481 : List DEntry := [
  de 0x00 1 .u8 0 .const .none .steward [7] 0 255 1 0xff,
  de 0x01 1 .u16 0 .wo .live .steward [0] 0 4095 1 0xffff,
  de 0x02 1 .u16 0 .rw .live .steward [0] 0 511 1 0xffff,
  de 0x03 1 .u16 0 .rw .live .steward [0] 0 4095 1 0xffff,
  de 0x04 1 .u16 0 .rw .live .steward [100] 10 400 1 0xffff,
  de 0x05 1 .u32 0 .rw .live .steward [200] 50 10000 1 0xffffffff,
  de 0x06 1 .u16 0 .ro .none .steward [0] 0 65535 1 0xffff,
  de 0x07 1 .u8 0 .ro .none .steward [0] 0 255 1 0xff]

/-- 0x4490, 06_ridgeline_memory.md R203. -/
def dict4490 : List DEntry := [
  de 0x00 1 .u8 0 .const .none .steward [5] 0 255 1 0xff,
  de 0x01 1 .u64 0 .ro .none .steward [0] 0 18446744073709551615 1 0xffffffffffffffff,
  de 0x02 1 .u64 0 .ro .none .steward [0] 0 18446744073709551615 1 0xffffffffffffffff,
  de 0x03 1 .u16 0 .ro .none .steward [0] 0 65535 1 0xffff,
  de 0x04 1 .u16 0 .ro .none .steward [65535] 0 65535 1 0xffff,
  de 0x05 1 .u16 0 .ro .none .steward [65535] 0 65535 1 0xffff]

/-- 0x4500, 13_acting_as_one.md R383. -/
def dict4500 : List DEntry := [
  de 0x00 1 .u8 0 .const .none .steward [5] 0 255 1 0xff,
  de 0x01 1 .u64 0 .rws .staged .steward [0] 0 18446744073709551615 1 0xffffffffffffffff,
  de 0x02 1 .u64 0 .ro .none .steward [0] 0 18446744073709551615 1 0xffffffffffffffff,
  de 0x03 1 .bool 0 .rw .live .steward [1] 0 1 1 0x1,
  de 0x04 1 .u16 0 .ro .none .steward [100] 0 65535 1 0xffff,
  de 0x05 1 .u16 0 .ro .none .steward [1000] 0 65535 1 0xffff]

/-- 0x4501, 13_acting_as_one.md R383. -/
def dict4501 : List DEntry := [
  de 0x00 1 .u8 0 .const .none .steward [9] 0 255 1 0xff,
  de 0x01 1 .u8 0 .rw .live .observer [0] 0 7 1 0xff,
  de 0x02 1 .u8 0 .ro .none .steward [0] 0 255 1 0xff,
  de 0x03 1 .u8 0 .wo .live .steward [0] 0 7 1 0xff,
  de 0x04 1 .octets 62 .ro .none .steward [0] 0 0 1 0x0,
  de 0x05 1 .s32 0 .ro .none .steward [0] 0 4294967295 1 0xffffffff,
  de 0x06 1 .s32 0 .ro .none .steward [0] 0 4294967295 1 0xffffffff,
  de 0x07 1 .u8 0 .ro .none .steward [0] 0 255 1 0xff,
  de 0x08 1 .bool 0 .ro .none .steward [0] 0 1 1 0x1,
  de 0x09 1 .u64 0 .ro .none .steward [0] 0 18446744073709551615 1 0xffffffffffffffff]

/-- 0x4502, 13_acting_as_one.md R383. -/
def dict4502 : List DEntry := [
  de 0x00 1 .u8 0 .const .none .steward [1] 0 255 1 0xff,
  de 0x01 1 .octets 64 .ro .none .steward [0] 0 0 1 0x0]

/-- 0x4510, 13_acting_as_one.md R383. -/
def dict4510 : List DEntry := [
  de 0x00 1 .u8 0 .const .none .steward [13] 0 255 1 0xff,
  de 0x01 1 .u16 0 .rw .live .observer [0] 0 1023 1 0xffff,
  de 0x02 1 .u8 0 .rws .staged .steward [0] 0 1 1 0xff,
  de 0x03 1 .u16 0 .rws .staged .steward [0] 0 511 1 0xffff,
  de 0x04 1 .u32 0 .rws .staged .steward [0] 0 4294967295 1 0xffffff,
  de 0x05 1 .octets 64 .rws .staged .steward [0] 0 0 1 0x0,
  de 0x06 1 .u16 0 .rws .staged .steward [65535] 0 65535 1 0xffff,
  de 0x07 1 .bool 0 .rws .staged .steward [0] 0 1 1 0x1,
  de 0x08 1 .bool 0 .rws .staged .steward [0] 0 1 1 0x1,
  de 0x09 1 .u8 0 .rw .live .steward [0] 0 255 1 0xff,
  de 0x0A 1 .u8 0 .ro .none .steward [0] 0 255 1 0xff,
  de 0x0B 1 .u16 0 .ro .none .steward [0] 0 65535 1 0xffff,
  de 0x0C 1 .u16 0 .ro .none .steward [65535] 0 65535 1 0xffff,
  de 0x0D 1 .u32 0 .ro .none .steward [0] 0 4294967295 1 0xffffffff]

/-- 0x4511, 13_acting_as_one.md R383. -/
def dict4511 : List DEntry := [
  de 0x00 1 .u8 0 .const .none .steward [2] 0 255 1 0xff,
  de 0x01 1 .u32 0 .rw .live .steward [1000] 10 1000000 1 0xffffffff,
  de 0x02 1 .u32 0 .rw .live .steward [200] 150 100000 1 0xffffffff]

/-- 0x4520, 06_ridgeline_memory.md R203. -/
def dict4520 : List DEntry := [
  de 0x00 1 .u8 0 .const .none .steward [3] 0 255 1 0xff,
  de 0x01 1 .u16 0 .rw .live .observer [0] 0 511 1 0xffff,
  de 0x02 1 .bool 0 .ro .none .steward [0] 0 1 1 0x1,
  de 0x03 1 .u16 0 .wo .live .steward [0] 0 511 1 0xffff]

/-- 0x4521, 06_ridgeline_memory.md R203. -/
def dict4521 : List DEntry := [
  de 0x00 1 .u8 0 .const .none .steward [2] 0 255 1 0xff,
  de 0x01 1 .u16 0 .wo .live .steward [0] 0 4095 1 0xffff,
  de 0x02 1 .u16 0 .ro .none .steward [65535] 0 65535 1 0xffff]

/-- 0x4530, 13_acting_as_one.md R383. -/
def dict4530 : List DEntry := [
  de 0x00 1 .u8 0 .const .none .steward [4] 0 255 1 0xff,
  de 0x01 1 .u16 0 .rw .live .observer [0] 0 4095 1 0xffff,
  de 0x02 1 .octets 64 .rws .staged .steward [0] 0 0 1 0x0,
  de 0x03 1 .u8 0 .rws .staged .steward [0] 0 2 1 0xff,
  de 0x04 1 .u8 0 .ro .none .steward [0] 0 255 1 0xff]

/-- 0x5000, 08_crag_arrays.md R256. -/
def dict5000 : List DEntry := [
  de 0x00 1 .u8 0 .const .none .steward [2] 0 255 1 0xff,
  de 0x01 1 .u32 0 .rw .next .steward [60000000] 0 4294967295 1 0xffffffff,
  de 0x02 1 .bool 0 .rw .next .steward [1] 0 1 1 0x1]

/-- 0x5001, 08_crag_arrays.md R256. -/
def dict5001 : List DEntry := [
  de 0x00 1 .u8 0 .const .none .steward [3] 0 255 1 0xff,
  de 0x01 1 .u8 0 .rw .live .observer [0] 0 255 1 0xff,
  de 0x02 1 .u64 0 .ro .none .steward [0] 0 18446744073709551615 1 0xffffffffffffffff,
  de 0x03 1 .u16 0 .ro .none .steward [0] 0 65535 1 0xffff]

/-- 0x5010, 08_crag_arrays.md R256. -/
def dict5010 : List DEntry := [
  de 0x00 1 .u8 0 .const .none .steward [8] 0 255 1 0xff,
  de 0x01 1 .u8 0 .ro .none .steward [0] 0 255 1 0xff,
  de 0x02 1 .u8 0 .ro .none .steward [0] 0 255 1 0xff,
  de 0x03 1 .u8 0 .ro .none .steward [0] 0 255 1 0xff,
  de 0x04 1 .u16 0 .ro .none .steward [65535] 0 65535 1 0xffff,
  de 0x05 1 .u16 0 .ro .none .steward [65535] 0 65535 1 0xffff,
  de 0x06 1 .u16 0 .ro .none .steward [0] 0 65535 1 0xffff,
  de 0x07 1 .timebase 0 .ro .none .steward [0] 0 18446744073709551615 1 0xffffffffffffffff,
  de 0x08 1 .u16 0 .ro .none .steward [0] 0 65535 1 0xffff]

/-- 0x5100, 09_talus.md R280. -/
def dict5100 : List DEntry := [
  de 0x00 1 .u8 0 .const .none .steward [2] 0 255 1 0xff,
  de 0x01 1 .u32 0 .rw .live .steward [1048576] 65536 8388608 1 0xffffffff,
  de 0x02 1 .u32 0 .ro .none .steward [8388608] 0 4294967295 1 0xffffffff]

/-- 0x5101, 09_talus.md R280. -/
def dict5101 : List DEntry := [
  de 0x00 1 .u8 0 .const .none .steward [2] 0 255 1 0xff,
  de 0x01 1 .u8 0 .rw .live .observer [0] 0 255 1 0xff,
  de 0x02 1 .u8 0 .rw .live .steward [255] 0 255 1 0xff]

/-- 0x5110, 09_talus.md R280. -/
def dict5110 : List DEntry := [
  de 0x00 1 .u8 0 .const .none .steward [70] 0 255 1 0xff,
  de 0x01 1 .u8 0 .rw .live .operator [0] 0 255 1 0xff,
  de 0x02 64 .u64 0 .ro .none .steward [0] 0 18446744073709551615 1 0xffffffffffffffff,
  de 0x42 1 .u64 0 .ro .none .steward [0] 0 18446744073709551615 1 0xffffffffffffffff,
  de 0x43 1 .u64 0 .ro .none .steward [0] 0 18446744073709551615 1 0xffffffffffffffff,
  de 0x44 1 .u64 0 .ro .none .steward [0] 0 18446744073709551615 1 0xffffffffffffffff,
  de 0x45 1 .u64 0 .ro .none .steward [0] 0 18446744073709551615 1 0xffffffffffffffff,
  de 0x46 1 .bool 0 .wo .live .operator [0] 0 1 1 0x1]

/-- 0x5200, 10_cirque.md R310. -/
def dict5200 : List DEntry := [
  de 0x00 1 .u8 0 .const .none .steward [4] 0 255 1 0xff,
  de 0x01 1 .u32 0 .rw .live .steward [10000] 100 1000000 1 0xffffffff,
  de 0x02 1 .u8 0 .ro .none .steward [8] 0 255 1 0xff,
  de 0x03 1 .u32 0 .ro .none .steward [1048576] 0 4294967295 1 0xffffffff,
  de 0x04 1 .u32 0 .ro .none .steward [524288] 0 4294967295 1 0xffffffff]

/-- 0x5210, 10_cirque.md R310. -/
def dict5210 : List DEntry := [
  de 0x00 1 .u8 0 .const .none .steward [8] 0 255 1 0xff,
  de 0x01 1 .u8 0 .rw .live .observer [0] 0 255 1 0xff,
  de 0x02 1 .u64 0 .rws .staged .steward [0] 0 18446744073709551615 1 0xffffffffffffffff,
  de 0x03 1 .u16 0 .rws .staged .steward [0] 0 4095 1 0xffff,
  de 0x04 1 .u8 0 .rws .staged .steward [0] 0 255 1 0xff,
  de 0x05 1 .u8 0 .rws .staged .steward [0] 0 39 1 0xff,
  de 0x06 1 .u8 0 .rws .staged .steward [1] 1 40 1 0xff,
  de 0x07 1 .bool 0 .rws .staged .steward [0] 0 1 1 0x1,
  de 0x08 1 .u32 0 .ro .none .steward [0] 0 4294967295 1 0xffffffff]

/-- 0x5220, 10_cirque.md R310. -/
def dict5220 : List DEntry := [
  de 0x00 1 .u8 0 .const .none .steward [6] 0 255 1 0xff,
  de 0x01 1 .u16 0 .rws .staged .steward [65535] 0 65535 1 0xffff,
  de 0x02 1 .u64 0 .rws .staged .steward [0] 0 18446744073709551615 1 0xffffffffffffffff,
  de 0x03 1 .u32 0 .rws .staged .steward [1048576] 65536 67108864 65536 0xffffffff,
  de 0x04 1 .u16 0 .rws .staged .steward [65535] 0 65535 1 0xffff,
  de 0x05 1 .u64 0 .rws .staged .steward [0] 0 18446744073709551615 1 0xffffffffffffffff,
  de 0x06 1 .bool 0 .rws .staged .steward [0] 0 1 1 0x1]

/-- 0x5230, 10_cirque.md R310. -/
def dict5230 : List DEntry := [
  de 0x00 1 .u8 0 .const .none .steward [5] 0 255 1 0xff,
  de 0x01 1 .u8 0 .rw .live .observer [0] 0 63 1 0xff,
  de 0x02 1 .u16 0 .rws .staged .steward [32] 0 65535 1 0xffff,
  de 0x03 1 .u8 0 .rws .staged .steward [5] 0 255 1 0xff,
  de 0x04 1 .u8 0 .rws .staged .steward [0] 0 255 1 0xff,
  de 0x05 1 .u32 0 .ro .none .steward [0] 0 4294967295 1 0xffffffff]

/-- 0x5231, 10_cirque.md R310. -/
def dict5231 : List DEntry := [
  de 0x00 1 .u8 0 .const .none .steward [64] 0 255 1 0xff,
  de 0x01 64 .u32 0 .rws .staged .steward [0] 0 4294967295 1 0x81ff00ff]

/-- 0x5300, 11_couloir.md R328. -/
def dict5300 : List DEntry := [
  de 0x00 1 .u8 0 .const .none .steward [4] 0 255 1 0xff,
  de 0x01 1 .u32 0 .rw .next .steward [60000000] 0 4294967295 1 0xffffffff,
  de 0x02 1 .u32 0 .rw .live .steward [0] 0 4294967295 1 0xffffffff,
  de 0x03 1 .u16 0 .ro .none .steward [256] 0 65535 1 0xffff,
  de 0x04 1 .u32 0 .ro .none .steward [16384] 0 4294967295 1 0xffffffff]

/-- 0x5301, 11_couloir.md R328. -/
def dict5301 : List DEntry := [
  de 0x00 1 .u8 0 .const .none .steward [8] 0 255 1 0xff,
  de 0x01 1 .u8 0 .rw .live .observer [0] 0 255 1 0xff,
  de 0x02 1 .u8 0 .rw .live .observer [0] 0 63 1 0xff,
  de 0x03 1 .u8 0 .ro .none .steward [0] 0 255 1 0xff,
  de 0x04 1 .u8 0 .wo .live .operator [0] 1 5 1 0xff,
  de 0x05 1 .u16 0 .ro .none .steward [65535] 0 65535 1 0xffff,
  de 0x06 1 .u32 0 .ro .none .steward [0] 0 4294967295 1 0xffffffff,
  de 0x07 1 .u64 0 .ro .none .steward [0] 0 18446744073709551615 1 0xffffffffffffffff,
  de 0x08 1 .u32 0 .ro .none .steward [0] 0 4294967295 1 0xffffffff]

/-- 0x5302, 11_couloir.md R328. -/
def dict5302 : List DEntry := [
  de 0x00 1 .u8 0 .const .none .steward [6] 0 255 1 0xff,
  de 0x01 1 .u64 0 .ro .none .steward [0] 0 18446744073709551615 1 0xffffffffffffffff,
  de 0x02 1 .u8 0 .ro .none .steward [0] 0 255 1 0xff,
  de 0x03 1 .u16 0 .ro .none .steward [0] 0 65535 1 0xffff,
  de 0x04 1 .u32 0 .ro .none .steward [0] 0 4294967295 1 0xffffffff,
  de 0x05 1 .u64 0 .ro .none .steward [0] 0 18446744073709551615 1 0xffffffffffffffff,
  de 0x06 1 .timebase 0 .ro .none .steward [0] 0 18446744073709551615 1 0xffffffffffffffff]

/-- 0x5400, 07_command_queues.md R227. -/
def dict5400 : List DEntry := [
  de 0x00 1 .u8 0 .const .none .steward [3] 0 255 1 0xff,
  de 0x01 1 .u32 0 .rw .live .steward [1000] 0 4294967295 1 0xffffffff,
  de 0x02 1 .u32 0 .rw .live .steward [1000] 100 1000000 1 0xffffffff,
  de 0x03 1 .u32 0 .ro .none .steward [0] 0 4294967295 1 0xffffffff]

/-- 0x5401, 07_command_queues.md R227. -/
def dict5401 : List DEntry := [
  de 0x00 1 .u8 0 .const .none .operator [16] 0 255 1 0xff,
  de 0x01 1 .u16 0 .rw .live .observer [0] 0 65535 1 0xffff,
  de 0x02 1 .u8 0 .ro .none .operator [0] 0 255 1 0xff,
  de 0x03 1 .u8 0 .rw .quiesce .operator [255] 0 255 1 0xff,
  de 0x04 1 .u16 0 .rw .quiesce .operator [65535] 0 65535 1 0xffff,
  de 0x05 1 .u8 0 .rw .quiesce .operator [0] 0 7 1 0xff,
  de 0x06 1 .u64 0 .rw .quiesce .operator [0] 0 18446744073709551615 1 0xffffffffffffffff,
  de 0x07 1 .u8 0 .rw .quiesce .operator [4] 4 16 1 0xff,
  de 0x08 1 .u64 0 .rw .quiesce .operator [0] 0 18446744073709551615 1 0xffffffffffffffff,
  de 0x09 1 .u8 0 .rw .quiesce .operator [4] 4 16 1 0xff,
  de 0x0A 1 .u64 0 .rw .quiesce .operator [0] 0 18446744073709551615 64 0xffffffffffffffff,
  de 0x0B 1 .u16 0 .rw .next .operator [65535] 0 65535 1 0xffff,
  de 0x0C 1 .u64 0 .rw .quiesce .operator [0] 0 18446744073709551615 64 0xffffffffffffffff,
  de 0x0D 1 .u32 0 .rw .next .operator [0] 0 1000000 1 0xffffffff,
  de 0x0E 1 .u16 0 .rw .next .operator [64] 1 1024 1 0xffff,
  de 0x0F 1 .bool 0 .rw .live .operator [0] 0 1 1 0x1,
  de 0x10 1 .u16 0 .ro .none .operator [0] 0 65535 1 0xffff]

/-- 0x5402, 07_command_queues.md R227. -/
def dict5402 : List DEntry := [
  de 0x00 1 .u8 0 .const .none .steward [3] 0 255 1 0xff,
  de 0x01 1 .u16 0 .wo .live .operator [0] 0 65535 1 0xffff,
  de 0x02 1 .u16 0 .wo .live .operator [0] 0 65535 1 0xffff,
  de 0x03 1 .u32 0 .wo .live .steward [0] 0 4294967295 1 0xfffffff]

/-- 0x5410, 07_command_queues.md R227. -/
def dict5410 : List DEntry := [
  de 0x00 1 .u8 0 .const .none .steward [4] 0 255 1 0xff,
  de 0x01 1 .u8 0 .rw .live .observer [0] 0 255 1 0xff,
  de 0x02 1 .u8 0 .rw .live .steward [255] 0 255 1 0xff,
  de 0x03 1 .u16 0 .rw .live .observer [0] 0 65535 1 0xffff,
  de 0x04 1 .u32 0 .rw .live .operator [0] 0 4294967295 1 0xffffffff]

/-- 0x5420, 12_visibility.md R352. -/
def dict5420 : List DEntry := [
  de 0x00 1 .u8 0 .const .none .steward [6] 0 255 1 0xff,
  de 0x01 1 .u32 0 .rw .live .steward [1000000] 10 4000000000 1 0xffffffff,
  de 0x02 1 .bool 0 .rw .next .steward [1] 0 1 1 0x1,
  de 0x03 1 .u32 0 .ro .none .steward [4194304] 0 4294967295 1 0xffffffff,
  de 0x04 1 .u16 0 .ro .none .steward [32] 0 65535 1 0xffff,
  de 0x05 1 .u16 0 .ro .none .steward [64] 0 65535 1 0xffff,
  de 0x06 1 .u16 0 .ro .none .steward [256] 0 65535 1 0xffff]

/-- 0x5440, 07_command_queues.md R227. -/
def dict5440 : List DEntry := [
  de 0x00 1 .u8 0 .const .none .steward [3] 0 255 1 0xff,
  de 0x01 1 .u32 0 .rw .live .steward [65536] 1024 16777216 1 0xffffffff,
  de 0x02 1 .u16 0 .rw .next .steward [0] 0 65535 1 0xffff,
  de 0x03 1 .u32 0 .rw .live .steward [1048576] 1024 2147483648 1 0xffffffff]

/-- 0x6000, 16_security.md R470. -/
def dict6000 : List DEntry := [
  de 0x00 1 .u8 0 .const .none .custodian [3] 0 255 1 0xff,
  de 0x01 1 .u8 0 .rw .live .observer [0] 0 7 1 0xff,
  de 0x02 1 .octets 48 .tal .staged .custodian [0] 0 0 1 0x0,
  de 0x03 1 .bool 0 .tal .staged .custodian [0] 0 1 1 0x1]

/-- 0x6001, 16_security.md R470. -/
def dict6001 : List DEntry := [
  de 0x00 1 .u8 0 .const .none .custodian [4] 0 255 1 0xff,
  de 0x01 1 .u8 0 .tal .staged .custodian [0] 0 1 1 0xff,
  de 0x02 1 .bool 0 .tal .staged .custodian [1] 0 1 1 0x1,
  de 0x03 1 .bool 0 .tal .staged .custodian [0] 0 1 1 0x1,
  de 0x04 1 .bool 0 .tal .staged .custodian [0] 0 1 1 0x1]

/-- 0x6002, 16_security.md R470. -/
def dict6002 : List DEntry := [
  de 0x00 1 .u8 0 .const .none .custodian [2] 0 255 1 0xff,
  de 0x01 1 .bool 0 .tal .staged .custodian [0] 0 1 1 0x1,
  de 0x02 1 .u8 0 .ro .none .custodian [0] 0 255 1 0xff]

/-- 0x6003, 16_security.md R470. -/
def dict6003 : List DEntry := [
  de 0x00 1 .u8 0 .const .none .custodian [6] 0 255 1 0xff,
  de 0x01 1 .octets 48 .ro .none .custodian [0] 0 0 1 0x0,
  de 0x02 1 .u8 0 .tal .staged .custodian [0] 0 12 1 0xff,
  de 0x03 4 .octets 48 .const .none .custodian [0] 0 0 1 0x0]

/-- 0x6010, 16_security.md R470. -/
def dict6010 : List DEntry := [
  de 0x00 1 .u8 0 .const .none .custodian [6] 0 255 1 0xff,
  de 0x01 1 .u8 0 .ro .none .custodian [0] 0 255 1 0xff,
  de 0x02 1 .u32 0 .ro .none .custodian [0] 0 4294967295 1 0xffffffff,
  de 0x03 1 .domain 0 .wo .live .custodian [0] 0 0 1 0x0,
  de 0x04 1 .u8 0 .wo .live .custodian [0] 1 2 1 0xff,
  de 0x05 1 .u8 0 .ro .none .custodian [0] 0 255 1 0xff,
  de 0x06 1 .u8 0 .ro .none .custodian [0] 0 255 1 0xff]

/-- 0x6011, 16_security.md R470. -/
def dict6011 : List DEntry := [
  de 0x00 1 .u8 0 .const .none .custodian [1] 0 255 1 0xff,
  de 0x01 1 .u16 0 .tal .staged .custodian [0] 0 65535 1 0xffff]

/-- 0x6012, 16_security.md R470. -/
def dict6012 : List DEntry := [
  de 0x00 1 .u8 0 .const .none .custodian [4] 0 255 1 0xff,
  de 0x01 4 .bool 0 .tal .staged .custodian [0] 0 1 1 0x1]

/-- 0x6020, 16_security.md R470. -/
def dict6020 : List DEntry := [
  de 0x00 1 .u8 0 .const .none .custodian [10] 0 255 1 0xff,
  de 0x01 1 .u8 0 .rw .quiesce .custodian [0] 0 63 1 0xff,
  de 0x02 1 .u64 0 .rw .quiesce .custodian [0] 0 18446744073709551615 2097152 0xffffffffffffffff,
  de 0x03 1 .u64 0 .rw .quiesce .custodian [0] 0 18446744073709551615 2097152 0xffffffffffffffff,
  de 0x04 1 .u32 0 .rw .live .custodian [100] 1 10000 1 0xffffffff,
  de 0x05 1 .bool 0 .wo .live .custodian [0] 0 1 1 0x1,
  de 0x06 1 .bool 0 .wo .live .custodian [0] 0 1 1 0x1,
  de 0x07 1 .u8 0 .ro .none .custodian [0] 0 255 1 0xff,
  de 0x08 1 .u32 0 .rw .live .custodian [10000] 0 4294967295 1 0xffffffff,
  de 0x09 1 .u64 0 .ro .none .custodian [0] 0 18446744073709551615 1 0xffffffffffffffff,
  de 0x0A 1 .u64 0 .ro .none .custodian [0] 0 18446744073709551615 1 0xffffffffffffffff]

/-- 0x6030, 16_security.md R470. -/
def dict6030 : List DEntry := [
  de 0x00 1 .u8 0 .const .none .custodian [4] 0 255 1 0xff,
  de 0x01 4 .octets 48 .tal .staged .custodian [0] 0 0 1 0x0]

/-- 0x6031, 16_security.md R470. -/
def dict6031 : List DEntry := [
  de 0x00 1 .u8 0 .const .none .operator [9] 0 255 1 0xff,
  de 0x01 1 .u8 0 .rw .live .observer [0] 0 15 1 0xff,
  de 0x02 1 .u64 0 .rw .live .operator [0] 0 18446744073709551615 64 0xffffffffffffffff,
  de 0x03 1 .u32 0 .rw .live .operator [0] 480 65888 1 0xffffffff,
  de 0x04 1 .u64 0 .rw .live .operator [0] 0 18446744073709551615 2097152 0xffffffffffffffff,
  de 0x05 1 .u64 0 .rw .live .operator [0] 0 18446744073709551615 2097152 0xffffffffffffffff,
  de 0x06 1 .u8 0 .wo .live .operator [0] 1 2 1 0xff,
  de 0x07 1 .u8 0 .ro .none .operator [0] 0 255 1 0xff,
  de 0x08 1 .u8 0 .ro .none .operator [0] 0 255 1 0xff,
  de 0x09 1 .u8 0 .ro .none .operator [255] 0 255 1 0xff]

/-- 0x6100, 16_security.md R470. -/
def dict6100 : List DEntry := [
  de 0x00 1 .u8 0 .const .none .custodian [10] 0 255 1 0xff,
  de 0x01 9 .u16 0 .ro .none .custodian [256, 4, 12, 64, 64, 32, 256, 128, 208] 0 65535 1 0xffff,
  de 0x0A 1 .u16 0 .ro .none .custodian [1024] 0 65535 1 0xffff]

/-- 0x7000, 17_telemetry.md R488. -/
def dict7000 : List DEntry := [
  de 0x00 1 .u8 0 .const .none .steward [4] 0 255 1 0xff,
  de 0x01 1 .bool 0 .wo .live .observer [0] 0 1 1 0x1,
  de 0x02 1 .bool 0 .rw .live .observer [0] 0 1 1 0x1,
  de 0x03 1 .bool 0 .wo .live .steward [0] 0 1 1 0x1,
  de 0x04 1 .timebase 0 .ro .none .steward [0] 0 18446744073709551615 1 0xffffffffffffffff]

/-- 0x7010, 01_organisation.md R37. -/
def dict7010 : List DEntry := [
  de 0x00 1 .u8 0 .const .none .steward [5] 0 255 1 0xff,
  de 0x01 1 .u64 0 .ro .none .steward [0] 0 18446744073709551615 1 0xffffffffffffffff,
  de 0x02 1 .u64 0 .ro .none .steward [0] 0 18446744073709551615 1 0xffffffffffffffff,
  de 0x03 1 .u64 0 .ro .none .steward [0] 0 18446744073709551615 1 0xffffffffffffffff,
  de 0x04 1 .u64 0 .ro .none .steward [0] 0 18446744073709551615 1 0xffffffffffffffff,
  de 0x05 1 .u64 0 .ro .none .steward [0] 0 18446744073709551615 1 0xffffffffffffffff]

/-- 0x7011, 01_organisation.md R37. -/
def dict7011 : List DEntry := [
  de 0x00 1 .u8 0 .const .none .steward [10] 0 255 1 0xff,
  de 0x01 4 .u8 0 .ro .none .steward [0] 0 255 1 0xff,
  de 0x05 6 .u8 0 .ro .none .steward [0] 0 255 1 0xff]

/-- 0x7020, 02_address_spaces.md R65. -/
def dict7020 : List DEntry := [
  de 0x00 1 .u8 0 .const .none .steward [5] 0 255 1 0xff,
  de 0x01 1 .u64 0 .ro .none .steward [0] 0 18446744073709551615 1 0xffffffffffffffff,
  de 0x02 1 .u64 0 .ro .none .steward [0] 0 18446744073709551615 1 0xffffffffffffffff,
  de 0x03 1 .u64 0 .ro .none .steward [0] 0 18446744073709551615 1 0xffffffffffffffff,
  de 0x04 1 .u64 0 .ro .none .steward [0] 0 18446744073709551615 1 0xffffffffffffffff,
  de 0x05 1 .u64 0 .ro .none .steward [0] 0 18446744073709551615 1 0xffffffffffffffff]

/-- 0x7030, 03_store_tiers.md R99. -/
def dict7030 : List DEntry := [
  de 0x00 1 .u8 0 .const .none .steward [9] 0 255 1 0xff,
  de 0x01 1 .u64 0 .ro .none .steward [0] 0 18446744073709551615 1 0xffffffffffffffff,
  de 0x02 1 .u64 0 .ro .none .steward [0] 0 18446744073709551615 1 0xffffffffffffffff,
  de 0x03 1 .u64 0 .ro .none .steward [0] 0 18446744073709551615 1 0xffffffffffffffff,
  de 0x04 1 .u64 0 .ro .none .steward [0] 0 18446744073709551615 1 0xffffffffffffffff,
  de 0x05 1 .u64 0 .ro .none .steward [0] 0 18446744073709551615 1 0xffffffffffffffff,
  de 0x06 1 .u64 0 .ro .none .steward [0] 0 18446744073709551615 1 0xffffffffffffffff,
  de 0x07 1 .u64 0 .ro .none .steward [0] 0 18446744073709551615 1 0xffffffffffffffff,
  de 0x08 1 .u64 0 .ro .none .steward [0] 0 18446744073709551615 1 0xffffffffffffffff,
  de 0x09 1 .u64 0 .ro .none .steward [0] 0 18446744073709551615 1 0xffffffffffffffff]

/-- 0x7040, 04_host_ports.md R125. -/
def dict7040 : List DEntry := [
  de 0x00 1 .u8 0 .const .none .steward [11] 0 255 1 0xff,
  de 0x01 1 .u64 0 .ro .none .steward [0] 0 18446744073709551615 1 0xffffffffffffffff,
  de 0x02 1 .u64 0 .ro .none .steward [0] 0 18446744073709551615 1 0xffffffffffffffff,
  de 0x03 1 .u64 0 .ro .none .steward [0] 0 18446744073709551615 1 0xffffffffffffffff,
  de 0x04 1 .u64 0 .ro .none .steward [0] 0 18446744073709551615 1 0xffffffffffffffff,
  de 0x05 1 .u64 0 .ro .none .steward [0] 0 18446744073709551615 1 0xffffffffffffffff,
  de 0x06 1 .u64 0 .ro .none .steward [0] 0 18446744073709551615 1 0xffffffffffffffff,
  de 0x07 1 .u64 0 .ro .none .steward [0] 0 18446744073709551615 1 0xffffffffffffffff,
  de 0x08 1 .u64 0 .ro .none .steward [0] 0 18446744073709551615 1 0xffffffffffffffff,
  de 0x09 1 .u64 0 .ro .none .steward [0] 0 18446744073709551615 1 0xffffffffffffffff,
  de 0x0A 1 .u64 0 .ro .none .steward [0] 0 18446744073709551615 1 0xffffffffffffffff,
  de 0x0B 1 .u64 0 .ro .none .steward [0] 0 18446744073709551615 1 0xffffffffffffffff]

/-- 0x7050, 05_ridgeline_links.md R160. -/
def dict7050 : List DEntry := [
  de 0x00 1 .u8 0 .const .none .steward [14] 0 255 1 0xff,
  de 0x01 1 .u64 0 .ro .none .steward [0] 0 18446744073709551615 1 0xffffffffffffffff,
  de 0x02 1 .u64 0 .ro .none .steward [0] 0 18446744073709551615 1 0xffffffffffffffff,
  de 0x03 1 .u64 0 .ro .none .steward [0] 0 18446744073709551615 1 0xffffffffffffffff,
  de 0x04 1 .u64 0 .ro .none .steward [0] 0 18446744073709551615 1 0xffffffffffffffff,
  de 0x05 1 .u64 0 .ro .none .steward [0] 0 18446744073709551615 1 0xffffffffffffffff,
  de 0x06 1 .u64 0 .ro .none .steward [0] 0 18446744073709551615 1 0xffffffffffffffff,
  de 0x07 1 .u64 0 .ro .none .steward [0] 0 18446744073709551615 1 0xffffffffffffffff,
  de 0x08 1 .u64 0 .ro .none .steward [0] 0 18446744073709551615 1 0xffffffffffffffff,
  de 0x09 1 .u64 0 .ro .none .steward [0] 0 18446744073709551615 1 0xffffffffffffffff,
  de 0x0A 1 .u64 0 .ro .none .steward [0] 0 18446744073709551615 1 0xffffffffffffffff,
  de 0x0B 1 .u64 0 .ro .none .steward [0] 0 18446744073709551615 1 0xffffffffffffffff,
  de 0x0C 1 .u64 0 .ro .none .steward [0] 0 18446744073709551615 1 0xffffffffffffffff,
  de 0x0D 1 .u64 0 .ro .none .steward [0] 0 18446744073709551615 1 0xffffffffffffffff,
  de 0x0E 1 .u64 0 .ro .none .steward [0] 0 18446744073709551615 1 0xffffffffffffffff]

/-- 0x7060, 06_ridgeline_memory.md R203. -/
def dict7060 : List DEntry := [
  de 0x00 1 .u8 0 .const .none .steward [16] 0 255 1 0xff,
  de 0x01 1 .u64 0 .ro .none .steward [0] 0 18446744073709551615 1 0xffffffffffffffff,
  de 0x02 1 .u64 0 .ro .none .steward [0] 0 18446744073709551615 1 0xffffffffffffffff,
  de 0x03 1 .u64 0 .ro .none .steward [0] 0 18446744073709551615 1 0xffffffffffffffff,
  de 0x04 1 .u64 0 .ro .none .steward [0] 0 18446744073709551615 1 0xffffffffffffffff,
  de 0x05 1 .u64 0 .ro .none .steward [0] 0 18446744073709551615 1 0xffffffffffffffff,
  de 0x06 1 .u64 0 .ro .none .steward [0] 0 18446744073709551615 1 0xffffffffffffffff,
  de 0x07 1 .u64 0 .ro .none .steward [0] 0 18446744073709551615 1 0xffffffffffffffff,
  de 0x08 1 .u64 0 .ro .none .steward [0] 0 18446744073709551615 1 0xffffffffffffffff,
  de 0x09 1 .u64 0 .ro .none .steward [0] 0 18446744073709551615 1 0xffffffffffffffff,
  de 0x0A 1 .u64 0 .ro .none .steward [0] 0 18446744073709551615 1 0xffffffffffffffff,
  de 0x0B 1 .u64 0 .ro .none .steward [0] 0 18446744073709551615 1 0xffffffffffffffff,
  de 0x0C 1 .u64 0 .ro .none .steward [0] 0 18446744073709551615 1 0xffffffffffffffff,
  de 0x0D 1 .u64 0 .ro .none .steward [0] 0 18446744073709551615 1 0xffffffffffffffff,
  de 0x0E 1 .u64 0 .ro .none .steward [0] 0 18446744073709551615 1 0xffffffffffffffff,
  de 0x0F 1 .u64 0 .ro .none .steward [0] 0 18446744073709551615 1 0xffffffffffffffff,
  de 0x10 1 .u64 0 .ro .none .steward [0] 0 18446744073709551615 1 0xffffffffffffffff]

/-- 0x7070, 07_command_queues.md R227. -/
def dict7070 : List DEntry := [
  de 0x00 1 .u8 0 .const .none .steward [15] 0 255 1 0xff,
  de 0x01 1 .u64 0 .ro .none .steward [0] 0 18446744073709551615 1 0xffffffffffffffff,
  de 0x02 1 .u64 0 .ro .none .steward [0] 0 18446744073709551615 1 0xffffffffffffffff,
  de 0x03 1 .u64 0 .ro .none .steward [0] 0 18446744073709551615 1 0xffffffffffffffff,
  de 0x04 1 .u64 0 .ro .none .steward [0] 0 18446744073709551615 1 0xffffffffffffffff,
  de 0x05 1 .u64 0 .ro .none .steward [0] 0 18446744073709551615 1 0xffffffffffffffff,
  de 0x06 1 .u64 0 .ro .none .steward [0] 0 18446744073709551615 1 0xffffffffffffffff,
  de 0x07 1 .u64 0 .ro .none .steward [0] 0 18446744073709551615 1 0xffffffffffffffff,
  de 0x08 1 .u64 0 .ro .none .steward [0] 0 18446744073709551615 1 0xffffffffffffffff,
  de 0x09 1 .u32 0 .ro .none .steward [0] 0 4294967295 1 0xffffffff,
  de 0x0A 1 .u64 0 .ro .none .steward [0] 0 18446744073709551615 1 0xffffffffffffffff,
  de 0x0B 1 .u64 0 .ro .none .steward [0] 0 18446744073709551615 1 0xffffffffffffffff,
  de 0x0C 1 .u64 0 .ro .none .steward [0] 0 18446744073709551615 1 0xffffffffffffffff,
  de 0x0D 1 .u64 0 .ro .none .steward [0] 0 18446744073709551615 1 0xffffffffffffffff,
  de 0x0E 1 .u64 0 .ro .none .steward [0] 0 18446744073709551615 1 0xffffffffffffffff,
  de 0x0F 1 .u64 0 .ro .none .steward [0] 0 18446744073709551615 1 0xffffffffffffffff]

/-- 0x7080, 08_crag_arrays.md R256. -/
def dict7080 : List DEntry := [
  de 0x00 1 .u8 0 .const .none .steward [8] 0 255 1 0xff,
  de 0x01 1 .u64 0 .ro .none .steward [0] 0 18446744073709551615 1 0xffffffffffffffff,
  de 0x02 1 .u64 0 .ro .none .steward [0] 0 18446744073709551615 1 0xffffffffffffffff,
  de 0x03 1 .u64 0 .ro .none .steward [0] 0 18446744073709551615 1 0xffffffffffffffff,
  de 0x04 1 .u64 0 .ro .none .steward [0] 0 18446744073709551615 1 0xffffffffffffffff,
  de 0x05 1 .u64 0 .ro .none .steward [0] 0 18446744073709551615 1 0xffffffffffffffff,
  de 0x06 1 .u64 0 .ro .none .steward [0] 0 18446744073709551615 1 0xffffffffffffffff,
  de 0x07 1 .u64 0 .ro .none .steward [0] 0 18446744073709551615 1 0xffffffffffffffff,
  de 0x08 1 .u64 0 .ro .none .steward [0] 0 18446744073709551615 1 0xffffffffffffffff]

/-- 0x7090, 09_talus.md R280. -/
def dict7090 : List DEntry := [
  de 0x00 1 .u8 0 .const .none .steward [8] 0 255 1 0xff,
  de 0x01 1 .u64 0 .ro .none .steward [0] 0 18446744073709551615 1 0xffffffffffffffff,
  de 0x02 1 .u64 0 .ro .none .steward [0] 0 18446744073709551615 1 0xffffffffffffffff,
  de 0x03 1 .u64 0 .ro .none .steward [0] 0 18446744073709551615 1 0xffffffffffffffff,
  de 0x04 1 .u64 0 .ro .none .steward [0] 0 18446744073709551615 1 0xffffffffffffffff,
  de 0x05 1 .u64 0 .ro .none .steward [0] 0 18446744073709551615 1 0xffffffffffffffff,
  de 0x06 1 .u64 0 .ro .none .steward [0] 0 18446744073709551615 1 0xffffffffffffffff,
  de 0x07 1 .u64 0 .ro .none .steward [0] 0 18446744073709551615 1 0xffffffffffffffff,
  de 0x08 1 .u64 0 .ro .none .steward [0] 0 18446744073709551615 1 0xffffffffffffffff]

/-- 0x70A0, 10_cirque.md R310. -/
def dict70A0 : List DEntry := [
  de 0x00 1 .u8 0 .const .none .steward [11] 0 255 1 0xff,
  de 0x01 1 .u64 0 .ro .none .steward [0] 0 18446744073709551615 1 0xffffffffffffffff,
  de 0x02 1 .u64 0 .ro .none .steward [0] 0 18446744073709551615 1 0xffffffffffffffff,
  de 0x03 1 .u64 0 .ro .none .steward [0] 0 18446744073709551615 1 0xffffffffffffffff,
  de 0x04 1 .u64 0 .ro .none .steward [0] 0 18446744073709551615 1 0xffffffffffffffff,
  de 0x05 1 .u64 0 .ro .none .steward [0] 0 18446744073709551615 1 0xffffffffffffffff,
  de 0x06 1 .u64 0 .ro .none .steward [0] 0 18446744073709551615 1 0xffffffffffffffff,
  de 0x07 1 .u64 0 .ro .none .steward [0] 0 18446744073709551615 1 0xffffffffffffffff,
  de 0x08 1 .u64 0 .ro .none .steward [0] 0 18446744073709551615 1 0xffffffffffffffff,
  de 0x09 1 .u64 0 .ro .none .steward [0] 0 18446744073709551615 1 0xffffffffffffffff,
  de 0x0A 1 .u64 0 .ro .none .steward [0] 0 18446744073709551615 1 0xffffffffffffffff,
  de 0x0B 1 .u64 0 .ro .none .steward [0] 0 18446744073709551615 1 0xffffffffffffffff]

/-- 0x70B0, 11_couloir.md R328. -/
def dict70B0 : List DEntry := [
  de 0x00 1 .u8 0 .const .none .steward [12] 0 255 1 0xff,
  de 0x01 1 .u64 0 .ro .none .steward [0] 0 18446744073709551615 1 0xffffffffffffffff,
  de 0x02 1 .u64 0 .ro .none .steward [0] 0 18446744073709551615 1 0xffffffffffffffff,
  de 0x03 1 .u64 0 .ro .none .steward [0] 0 18446744073709551615 1 0xffffffffffffffff,
  de 0x04 1 .u64 0 .ro .none .steward [0] 0 18446744073709551615 1 0xffffffffffffffff,
  de 0x05 1 .u64 0 .ro .none .steward [0] 0 18446744073709551615 1 0xffffffffffffffff,
  de 0x06 1 .u64 0 .ro .none .steward [0] 0 18446744073709551615 1 0xffffffffffffffff,
  de 0x07 1 .u64 0 .ro .none .steward [0] 0 18446744073709551615 1 0xffffffffffffffff,
  de 0x08 1 .u64 0 .ro .none .steward [0] 0 18446744073709551615 1 0xffffffffffffffff,
  de 0x09 1 .u64 0 .ro .none .steward [0] 0 18446744073709551615 1 0xffffffffffffffff,
  de 0x0A 1 .u64 0 .ro .none .steward [0] 0 18446744073709551615 1 0xffffffffffffffff,
  de 0x0B 1 .u64 0 .ro .none .steward [0] 0 18446744073709551615 1 0xffffffffffffffff,
  de 0x0C 1 .u64 0 .ro .none .steward [0] 0 18446744073709551615 1 0xffffffffffffffff]

/-- 0x70C0, 12_visibility.md R352. -/
def dict70C0 : List DEntry := [
  de 0x00 1 .u8 0 .const .none .steward [9] 0 255 1 0xff,
  de 0x01 1 .u64 0 .ro .none .steward [0] 0 18446744073709551615 1 0xffffffffffffffff,
  de 0x02 1 .u64 0 .ro .none .steward [0] 0 18446744073709551615 1 0xffffffffffffffff,
  de 0x03 1 .u64 0 .ro .none .steward [0] 0 18446744073709551615 1 0xffffffffffffffff,
  de 0x04 1 .u64 0 .ro .none .steward [0] 0 18446744073709551615 1 0xffffffffffffffff,
  de 0x05 1 .u64 0 .ro .none .steward [0] 0 18446744073709551615 1 0xffffffffffffffff,
  de 0x06 1 .u64 0 .ro .none .steward [0] 0 18446744073709551615 1 0xffffffffffffffff,
  de 0x07 1 .u64 0 .ro .none .steward [0] 0 18446744073709551615 1 0xffffffffffffffff,
  de 0x08 1 .u64 0 .ro .none .steward [0] 0 18446744073709551615 1 0xffffffffffffffff,
  de 0x09 1 .u64 0 .ro .none .steward [0] 0 18446744073709551615 1 0xffffffffffffffff]

/-- 0x70D0, 13_acting_as_one.md R383. -/
def dict70D0 : List DEntry := [
  de 0x00 1 .u8 0 .const .none .steward [13] 0 255 1 0xff,
  de 0x01 1 .u64 0 .ro .none .steward [0] 0 18446744073709551615 1 0xffffffffffffffff,
  de 0x02 1 .u64 0 .ro .none .steward [0] 0 18446744073709551615 1 0xffffffffffffffff,
  de 0x03 1 .u64 0 .ro .none .steward [0] 0 18446744073709551615 1 0xffffffffffffffff,
  de 0x04 1 .u64 0 .ro .none .steward [0] 0 18446744073709551615 1 0xffffffffffffffff,
  de 0x05 1 .u64 0 .ro .none .steward [0] 0 18446744073709551615 1 0xffffffffffffffff,
  de 0x06 1 .u64 0 .ro .none .steward [0] 0 18446744073709551615 1 0xffffffffffffffff,
  de 0x07 1 .u64 0 .ro .none .steward [0] 0 18446744073709551615 1 0xffffffffffffffff,
  de 0x08 1 .u64 0 .ro .none .steward [0] 0 18446744073709551615 1 0xffffffffffffffff,
  de 0x09 1 .u64 0 .ro .none .steward [0] 0 18446744073709551615 1 0xffffffffffffffff,
  de 0x0A 1 .u64 0 .ro .none .steward [0] 0 18446744073709551615 1 0xffffffffffffffff,
  de 0x0B 1 .u64 0 .ro .none .steward [0] 0 18446744073709551615 1 0xffffffffffffffff,
  de 0x0C 1 .u64 0 .ro .none .steward [0] 0 18446744073709551615 1 0xffffffffffffffff,
  de 0x0D 1 .u64 0 .ro .none .steward [0] 0 18446744073709551615 1 0xffffffffffffffff]

/-- 0x7100, 17_telemetry.md R488. -/
def dict7100 : List DEntry := [
  de 0x00 1 .u8 0 .const .none .steward [8] 0 255 1 0xff,
  de 0x01 1 .u8 0 .rw .live .observer [0] 0 255 1 0xff,
  de 0x02 1 .u8 0 .rw .live .observer [0] 0 7 1 0xff,
  de 0x03 1 .s32 0 .ro .none .steward [2147483647] 0 4294967295 1 0xffffffff,
  de 0x04 1 .u16 0 .ro .none .steward [0] 0 65535 1 0xffff,
  de 0x05 1 .u8 0 .rw .live .observer [0] 0 15 1 0xff,
  de 0x06 1 .s32 0 .ro .none .steward [2147483647] 0 4294967295 1 0xffffffff,
  de 0x07 1 .s32 0 .ro .none .steward [2147483647] 0 4294967295 1 0xffffffff,
  de 0x08 1 .s32 0 .ro .none .steward [2147483647] 0 4294967295 1 0xffffffff]

/-- 0x7101, 13_acting_as_one.md R383. -/
def dict7101 : List DEntry := [
  de 0x00 1 .u8 0 .const .none .steward [5] 0 255 1 0xff,
  de 0x01 1 .u16 0 .rw .live .observer [0] 0 65535 1 0xffff,
  de 0x02 1 .s32 0 .rw .live .steward [0] 0 4294967295 1 0xffffffff,
  de 0x03 1 .s32 0 .rw .live .steward [0] 0 4294967295 1 0xffffffff,
  de 0x04 1 .u8 0 .rw .live .steward [1] 0 255 1 0xff,
  de 0x05 1 .octets 16 .ro .none .steward [0] 0 0 1 0x0]

/-- 0x7102, 17_telemetry.md R488. -/
def dict7102 : List DEntry := [
  de 0x00 1 .u8 0 .const .none .steward [7] 0 255 1 0xff,
  de 0x01 1 .u8 0 .rw .live .observer [0] 0 7 1 0xff,
  de 0x02 1 .u8 0 .rw .live .observer [0] 0 31 1 0xff,
  de 0x03 1 .u16 0 .ro .none .steward [0] 0 65535 1 0xffff,
  de 0x04 1 .u16 0 .ro .none .steward [0] 0 65535 1 0xffff,
  de 0x05 1 .u32 0 .ro .none .steward [4294967295] 0 4294967295 1 0xffffffff,
  de 0x06 1 .u16 0 .ro .none .steward [65535] 0 65535 1 0xffff,
  de 0x07 1 .u32 0 .ro .none .steward [0] 0 4294967295 1 0xffffffff]

/-- 0x7110, 14_cairn.md R409. -/
def dict7110 : List DEntry := [
  de 0x00 1 .u8 0 .const .none .steward [10] 0 255 1 0xff,
  de 0x01 1 .u64 0 .ro .none .steward [0] 0 18446744073709551615 1 0xffffffffffffffff,
  de 0x02 1 .u64 0 .ro .none .steward [0] 0 18446744073709551615 1 0xffffffffffffffff,
  de 0x03 1 .u64 0 .ro .none .steward [0] 0 18446744073709551615 1 0xffffffffffffffff,
  de 0x04 1 .u64 0 .ro .none .steward [0] 0 18446744073709551615 1 0xffffffffffffffff,
  de 0x05 1 .u64 0 .ro .none .steward [0] 0 18446744073709551615 1 0xffffffffffffffff,
  de 0x06 1 .u64 0 .ro .none .steward [0] 0 18446744073709551615 1 0xffffffffffffffff,
  de 0x07 1 .u64 0 .ro .none .steward [0] 0 18446744073709551615 1 0xffffffffffffffff,
  de 0x08 1 .u64 0 .ro .none .steward [0] 0 18446744073709551615 1 0xffffffffffffffff,
  de 0x09 1 .u64 0 .ro .none .steward [0] 0 18446744073709551615 1 0xffffffffffffffff,
  de 0x0A 1 .u64 0 .ro .none .steward [0] 0 18446744073709551615 1 0xffffffffffffffff]

/-- 0x7120, 15_clocks_power.md R441. -/
def dict7120 : List DEntry := [
  de 0x00 1 .u8 0 .const .none .steward [10] 0 255 1 0xff,
  de 0x01 1 .u64 0 .ro .none .steward [0] 0 18446744073709551615 1 0xffffffffffffffff,
  de 0x02 1 .u64 0 .ro .none .steward [0] 0 18446744073709551615 1 0xffffffffffffffff,
  de 0x03 1 .u64 0 .ro .none .steward [0] 0 18446744073709551615 1 0xffffffffffffffff,
  de 0x04 1 .u64 0 .ro .none .steward [0] 0 18446744073709551615 1 0xffffffffffffffff,
  de 0x05 1 .u64 0 .ro .none .steward [0] 0 18446744073709551615 1 0xffffffffffffffff,
  de 0x06 1 .u64 0 .ro .none .steward [0] 0 18446744073709551615 1 0xffffffffffffffff,
  de 0x07 1 .u64 0 .ro .none .steward [0] 0 18446744073709551615 1 0xffffffffffffffff,
  de 0x08 1 .u64 0 .ro .none .steward [0] 0 18446744073709551615 1 0xffffffffffffffff,
  de 0x09 1 .u64 0 .ro .none .steward [0] 0 18446744073709551615 1 0xffffffffffffffff,
  de 0x0A 1 .u64 0 .ro .none .steward [0] 0 18446744073709551615 1 0xffffffffffffffff]

/-- 0x7130, 16_security.md R470. -/
def dict7130 : List DEntry := [
  de 0x00 1 .u8 0 .const .none .steward [10] 0 255 1 0xff,
  de 0x01 1 .u64 0 .ro .none .steward [0] 0 18446744073709551615 1 0xffffffffffffffff,
  de 0x02 1 .u64 0 .ro .none .steward [0] 0 18446744073709551615 1 0xffffffffffffffff,
  de 0x03 1 .u64 0 .ro .none .steward [0] 0 18446744073709551615 1 0xffffffffffffffff,
  de 0x04 1 .u64 0 .ro .none .steward [0] 0 18446744073709551615 1 0xffffffffffffffff,
  de 0x05 1 .u64 0 .ro .none .steward [0] 0 18446744073709551615 1 0xffffffffffffffff,
  de 0x06 1 .u64 0 .ro .none .steward [0] 0 18446744073709551615 1 0xffffffffffffffff,
  de 0x07 1 .u64 0 .ro .none .steward [0] 0 18446744073709551615 1 0xffffffffffffffff,
  de 0x08 1 .u64 0 .ro .none .steward [0] 0 18446744073709551615 1 0xffffffffffffffff,
  de 0x09 1 .u64 0 .ro .none .steward [0] 0 18446744073709551615 1 0xffffffffffffffff,
  de 0x0A 1 .u64 0 .ro .none .steward [0] 0 18446744073709551615 1 0xffffffffffffffff]

/-- 0x7140, 17_telemetry.md R488. -/
def dict7140 : List DEntry := [
  de 0x00 1 .u8 0 .const .none .operator [19] 0 255 1 0xff,
  de 0x01 1 .u8 0 .rw .live .observer [0] 0 15 1 0xff,
  de 0x02 1 .u32 0 .rw .live .operator [0] 0 4294967295 1 0xff00ffff,
  de 0x03 1 .u32 0 .rw .live .operator [0] 0 4294967295 1 0xff00ffff,
  de 0x04 1 .bool 0 .rw .live .operator [0] 0 1 1 0x1,
  de 0x05 1 .bool 0 .rw .live .operator [0] 0 1 1 0x1,
  de 0x06 1 .bool 0 .wo .live .operator [0] 0 1 1 0x1,
  de 0x07 1 .bool 0 .wo .live .operator [0] 0 1 1 0x1,
  de 0x08 1 .u8 0 .ro .none .operator [0] 0 255 1 0xff,
  de 0x09 1 .u64 0 .ro .none .operator [0] 0 18446744073709551615 1 0xffffffffffffffff,
  de 0x0A 1 .u64 0 .ro .none .operator [0] 0 18446744073709551615 1 0xffffffffffffffff,
  de 0x0B 1 .u64 0 .ro .none .operator [18446744073709551615] 0 18446744073709551615 1 0xffffffffffffffff,
  de 0x0C 1 .u64 0 .ro .none .operator [0] 0 18446744073709551615 1 0xffffffffffffffff,
  de 0x0D 1 .u64 0 .ro .none .operator [0] 0 18446744073709551615 1 0xffffffffffffffff,
  de 0x0E 1 .u64 0 .ro .none .operator [0] 0 18446744073709551615 1 0xffffffffffffffff,
  de 0x0F 1 .u64 0 .ro .none .operator [0] 0 18446744073709551615 1 0xffffffffffffffff,
  de 0x10 1 .u64 0 .ro .none .operator [0] 0 18446744073709551615 1 0xffffffffffffffff,
  de 0x11 1 .timebase 0 .ro .none .operator [0] 0 18446744073709551615 1 0xffffffffffffffff,
  de 0x12 1 .timebase 0 .ro .none .operator [0] 0 18446744073709551615 1 0xffffffffffffffff,
  de 0x13 1 .bool 0 .wo .live .operator [0] 0 1 1 0x1]

/-- 0x7150, 17_telemetry.md R488. -/
def dict7150 : List DEntry := [
  de 0x00 1 .u8 0 .const .none .steward [12] 0 255 1 0xff,
  de 0x01 1 .u8 0 .rw .live .observer [0] 0 31 1 0xff,
  de 0x02 1 .u8 0 .ro .none .steward [0] 0 255 1 0xff,
  de 0x03 1 .u8 0 .ro .none .steward [0] 0 255 1 0xff,
  de 0x04 1 .u8 0 .rw .live .observer [0] 0 7 1 0xff,
  de 0x05 1 .s32 0 .ro .none .steward [4294963296] 0 4294967295 1 0xffffffff,
  de 0x06 1 .s32 0 .ro .none .steward [4294963296] 0 4294967295 1 0xffffffff,
  de 0x07 1 .u8 0 .rw .live .observer [0] 0 0 1 0xff,
  de 0x08 1 .u8 0 .rw .live .observer [0] 0 255 1 0xff,
  de 0x09 1 .u8 0 .rw .live .observer [0] 0 255 1 0xff,
  de 0x0A 1 .u8 0 .rw .live .observer [1] 1 128 1 0xff,
  de 0x0B 1 .octets 128 .rw .live .steward [0] 0 0 1 0x0,
  de 0x0C 1 .u64 0 .ro .none .steward [0] 0 18446744073709551615 1 0xffffffffffffffff]

/-- 0x8000, 14_cairn.md R409. -/
def dict8000 : List DEntry := [
  de 0x00 1 .u8 0 .const .none .steward [3] 0 255 1 0xff,
  de 0x01 1 .octets 48 .ro .none .steward [0] 0 0 1 0x0,
  de 0x02 1 .u64 0 .ro .none .steward [0] 0 18446744073709551615 1 0xffffffffffffffff,
  de 0x03 1 .timebase 0 .ro .none .steward [0] 0 18446744073709551615 1 0xffffffffffffffff]

/-- 0x9000, 17_telemetry.md R488. -/
def dict9000 : List DEntry := [
  de 0x00 1 .u8 0 .const .none .steward [12] 0 255 1 0xff,
  de 0x01 1 .u8 0 .rws .staged .steward [255] 0 255 1 0xff,
  de 0x02 1 .u8 0 .rws .staged .steward [0] 0 255 1 0x3f,
  de 0x03 1 .u64 0 .rws .staged .steward [0] 0 18446744073709551615 1 0xffffffffffffffff,
  de 0x04 1 .u64 0 .rws .staged .steward [0] 0 18446744073709551615 1 0xffffffffffffffff,
  de 0x05 1 .u32 0 .rws .staged .steward [4294967295] 0 4294967295 1 0xffffffff,
  de 0x06 1 .u32 0 .rws .staged .steward [0] 0 2147483648 1 0xffffffff,
  de 0x07 1 .u8 0 .wo .live .steward [0] 1 2 1 0xff,
  de 0x08 1 .u8 0 .ro .none .steward [0] 0 255 1 0xff,
  de 0x09 1 .u64 0 .ro .none .steward [0] 0 18446744073709551615 1 0xffffffffffffffff,
  de 0x0A 1 .u64 0 .ro .none .steward [0] 0 18446744073709551615 1 0xffffffffffffffff,
  de 0x0B 1 .u64 0 .ro .none .steward [0] 0 18446744073709551615 1 0xffffffffffffffff,
  de 0x0C 1 .u64 0 .ro .none .steward [18446744073709551615] 0 18446744073709551615 1 0xffffffffffffffff]

/-- 0x9010, 17_telemetry.md R488. -/
def dict9010 : List DEntry := [
  de 0x00 1 .u8 0 .const .none .steward [5] 0 255 1 0xff,
  de 0x01 1 .u8 0 .rw .live .steward [0] 0 255 1 0xff,
  de 0x02 1 .u8 0 .rw .live .steward [0] 0 39 1 0xff,
  de 0x03 1 .u32 0 .rw .live .steward [0] 0 2097151 64 0xffffffff,
  de 0x04 1 .u16 0 .rw .live .steward [64] 64 960 64 0xffff,
  de 0x05 1 .octets 960 .rw .live .steward [0] 0 0 1 0x0]

/-- 0x9020, 17_telemetry.md R488. -/
def dict9020 : List DEntry := [
  de 0x00 1 .u8 0 .const .none .steward [2] 0 255 1 0xff,
  de 0x01 1 .u32 0 .const .none .steward [0] 0 4294967295 1 0xffffffff,
  de 0x02 1 .bool 0 .ro .none .steward [0] 0 1 1 0x1]

/-- Every index that exists, with its lines (Table 19-1). -/
def dictTable : Tbl (List DEntry) :=
  [(0x1000, dict1000), (0x1080, dict1080), (0x1100, dict1100), (0x1110, dict1110), (0x1120, dict1120), (0x1121, dict1121), (0x1200, dict1200), (0x1210, dict1210), (0x1300, dict1300), (0x1320, dict1320), (0x2000, dict2000), (0x2001, dict2001), (0x2002, dict2002), (0x2010, dict2010), (0x2100, dict2100), (0x2101, dict2101), (0x2200, dict2200), (0x2201, dict2201), (0x2210, dict2210), (0x2211, dict2211), (0x2212, dict2212), (0x2220, dict2220), (0x2221, dict2221), (0x2230, dict2230), (0x2231, dict2231), (0x2232, dict2232), (0x3000, dict3000), (0x3001, dict3001), (0x3010, dict3010), (0x3020, dict3020), (0x3021, dict3021), (0x3022, dict3022), (0x3025, dict3025), (0x3026, dict3026), (0x3030, dict3030), (0x3040, dict3040), (0x3050, dict3050), (0x3051, dict3051), (0x3380, dict3380), (0x3381, dict3381)] ++
  [(0x3400, dict3400), (0x3401, dict3401), (0x3402, dict3402), (0x3410, dict3410), (0x3415, dict3415), (0x3420, dict3420), (0x3421, dict3421), (0x3422, dict3422), (0x3430, dict3430), (0x3431, dict3431), (0x3432, dict3432), (0x3440, dict3440), (0x3450, dict3450), (0x3600, dict3600), (0x3610, dict3610), (0x3630, dict3630), (0x3640, dict3640), (0x4000, dict4000), (0x4010, dict4010), (0x4011, dict4011), (0x4020, dict4020), (0x4100, dict4100), (0x4101, dict4101), (0x4200, dict4200), (0x4201, dict4201), (0x4210, dict4210), (0x4230, dict4230), (0x4231, dict4231), (0x4400, dict4400), (0x4410, dict4410), (0x4411, dict4411), (0x4440, dict4440), (0x4480, dict4480), (0x4481, dict4481), (0x4490, dict4490), (0x4500, dict4500), (0x4501, dict4501), (0x4502, dict4502), (0x4510, dict4510), (0x4511, dict4511)] ++
  [(0x4520, dict4520), (0x4521, dict4521), (0x4530, dict4530), (0x5000, dict5000), (0x5001, dict5001), (0x5010, dict5010), (0x5100, dict5100), (0x5101, dict5101), (0x5110, dict5110), (0x5200, dict5200), (0x5210, dict5210), (0x5220, dict5220), (0x5230, dict5230), (0x5231, dict5231), (0x5300, dict5300), (0x5301, dict5301), (0x5302, dict5302), (0x5400, dict5400), (0x5401, dict5401), (0x5402, dict5402), (0x5410, dict5410), (0x5420, dict5420), (0x5440, dict5440), (0x6000, dict6000), (0x6001, dict6001), (0x6002, dict6002), (0x6003, dict6003), (0x6010, dict6010), (0x6011, dict6011), (0x6012, dict6012), (0x6020, dict6020), (0x6030, dict6030), (0x6031, dict6031), (0x6100, dict6100), (0x7000, dict7000), (0x7010, dict7010), (0x7011, dict7011), (0x7020, dict7020), (0x7030, dict7030), (0x7040, dict7040)] ++
  [(0x7050, dict7050), (0x7060, dict7060), (0x7070, dict7070), (0x7080, dict7080), (0x7090, dict7090), (0x70A0, dict70A0), (0x70B0, dict70B0), (0x70C0, dict70C0), (0x70D0, dict70D0), (0x7100, dict7100), (0x7101, dict7101), (0x7102, dict7102), (0x7110, dict7110), (0x7120, dict7120), (0x7130, dict7130), (0x7140, dict7140), (0x7150, dict7150), (0x8000, dict8000), (0x9000, dict9000), (0x9010, dict9010), (0x9020, dict9020)]

end Sys2Proof.Machine
end

