-- ==== Sys2Proof/Machine/CairnTypes.lean ====
section
/-! DEFINITION. The state of the management port and of the object dictionary (14_cairn.md), of telemetry
(17_telemetry.md) and of the strap and sideband lines (18_electrical.md). -/

namespace Sys2Proof.Machine

/-- A dictionary value: a number (two's complement for signed types) or bytes (OCTETS, STRING, DOMAIN). -/
inductive DVal where
  | num (n : Nat)
  | oct (bs : List Byte)
  deriving DecidableEq, Repr

/-- A key of a staging set (R396): index, subindex and the value of the table selection, with the value. -/
structure Staged where
  index : Nat
  sub : Nat
  row : Nat
  val : DVal
  deriving DecidableEq, Repr

/-- A segmented read's copy (R393). -/
structure SegRead where
  index : Nat
  sub : Nat
  bytes : List Byte
  deriving DecidableEq, Repr

/-- A segmented write in progress (R393). -/
structure SegWrite where
  index : Nat
  sub : Nat
  bytes : List Byte
  deriving DecidableEq, Repr

/-- A response (Table 14-7). -/
structure Response where
  txn : Nat
  op : Nat
  index : Nat
  sub : Nat
  ty : Nat
  abort : Nat
  total : Nat
  data : List Byte
  deriving DecidableEq, Repr

/-- What the device keeps for one session or one in-band requester (R392, R393, R396, R400, R513, R472). For a
session `owner` is its credential and `addr` its IPv6 address (or node over Ridgeline); for an in-band requester
`owner` is 0x40 + identity. `hashes` of SPDM are in 16_security. -/
structure ReqState where
  owner : Nat
  roles : Nat
  addr : Nat
  ridgeline : Bool
  period : Nat
  stage : List Staged
  sels : Tbl Nat
  segRead : Option SegRead
  segWrite : Option SegWrite
  kept : List Response
  snap : Tbl Nat
  snapView : Bool
  snapTime : Nat
  acquired : Nat
  lastAbort : Nat
  lastEntry : Nat
  deriving DecidableEq, Repr

/-- A requester as its connection opens. -/
def ReqState.fresh (owner roles addr : Nat) (ridgeline : Bool) (period : Nat) : ReqState :=
  { owner, roles, addr, ridgeline, period, stage := [], sels := [], segRead := none, segWrite := none, kept := []
    snap := [], snapView := false, snapTime := 0, acquired := 0xFFFFFFFF, lastAbort := 0, lastEntry := 0 }

/-- A notice in a subscriber's queue (R404): its sequence, number, body, time, the sends so far, and the lost
count to report with it. -/
structure QueuedNotice where
  sequence : Nat
  number : Nat
  body : List Byte
  time : Nat
  sends : Nat
  lost : Nat
  deriving DecidableEq, Repr

/-- A subscriber slot that is taken (R403, R404). `owner` is the credential, or 0x40 + identity in band. -/
structure Subscriber where
  inBand : Bool
  owner : Nat
  addr : Nat
  port : Nat
  ring : Nat
  filter : Nat
  queue : List QueuedNotice
  next : Nat
  lost : Nat
  lostReported : Nat
  discards : Nat
  deriving DecidableEq, Repr

/-- Enumeration (R386, R387): the last valid pulse, and the last different valid pulses in a row once an ID is
held. -/
structure Enumeration where
  lastPulse : Option Nat
  wrongPulse : Option Nat
  wrongCount : Nat
  dadRunning : Bool
  dadDone : Bool
  drives : Bool
  deriving DecidableEq, Repr

/-- A commit accepted whose switch waits (R396): who asked, the set, and whether Col caches have still to write back lines
whose home changes (01_organisation.md R34) or DPA has still to be scrubbed (03_store_tiers.md R92). -/
structure PendingCommit where
  src : Src
  stage : List Staged
  remap : Bool
  scrub : List (Nat × Nat)
  deriving DecidableEq, Repr

/-- The management port's state. `handshakes` are the sessions whose FINISH is still to come, by slot, with their peer.
`regs` and `octs` are the values of the dictionary entries: an entry not listed
holds its table's default (R394). Keys are `regKey`. -/
structure Cairn where
  regs : Tbl Nat
  octs : Tbl (List Byte)
  reqs : Tbl ReqState
  subs : Tbl Subscriber
  enum : Enumeration
  handshakes : Tbl SpdmChan
  commit : Option PendingCommit
  deriving DecidableEq, Repr

/-- A span event in its settle window (R474). -/
structure SpanEvent where
  stamp : Nat
  code : Nat
  param : Nat
  deriving DecidableEq, Repr

/-- The trace unit as it was configured at its start (R482, R483). -/
structure Trace where
  dieMask : Nat
  srcMask : Nat
  ring : Nat
  length : Nat
  trigger : Nat
  postLeft : Nat
  sequence : Tbl Nat
  deriving DecidableEq, Repr

/-- A module position: transfers failed in a row; whether a module is seated; whether MODRST_L is driven; its low warning and
low alarm of receive and of transmit power, in 0.1 µW (page 02h). -/
structure Module where
  busFails : Nat
  present : Bool
  resetAsserted : Bool
  rxWarn : Nat
  rxAlarm : Nat
  txWarn : Nat
  txAlarm : Nat
  deriving DecidableEq, Repr

/-- A position without a module. -/
def Module.absent : Module :=
  { busFails := 0, present := false, resetAsserted := true, rxWarn := 0, rxAlarm := 0, txWarn := 0, txAlarm := 0 }

/-- A scratchpad access through 0x9010 waiting for its grant (R486). -/
structure DebugAccess where
  req : Nat
  txn : Nat
  write : Bool
  deriving DecidableEq, Repr

/-- Telemetry: span events, and the open starts of span units (R475); trace; by port the lane whose eye is being measured, the readings of lanes (height,
width, time) by port × 32 + lane, and the samples of uncorrectable codewords of the last second, newest first; rails (headroom
in mV as 32 bits, voltage) by die × 8 + rail; slack in ps by die × 16 + monitor; optical power (receive, transmit, as 32 bits)
by position × 8 + lane; module positions; the TAP's instruction, and whether bit 2 of the next capture is set; a scratchpad
access that waits. -/
structure Telemetry where
  events : List SpanEvent
  starts : Tbl Nat
  trace : Trace
  eyeLane : Tbl Nat
  eyes : Tbl (Nat × Nat × Nat)
  codewords : Tbl (List Nat)
  rails : Tbl (Nat × Nat)
  slack : Tbl Nat
  power : Tbl (Nat × Nat)
  modules : Tbl Module
  tapInstr : Nat
  tapRefused : Bool
  scratchAsk : Option DebugAccess
  deriving DecidableEq, Repr

/-- RESET_IN_L, the straps as they were sampled and whether their open check is still to be read, and the supplies
(18_electrical.md R491, R492, R499, R501). -/
structure Electrical where
  resetLow : Bool
  segid : Nat
  refqual : Nat
  strapCheck : Bool
  suppliesOk : Bool
  vauxOk : Bool
  vinLow : Bool
  deriving DecidableEq, Repr

end Sys2Proof.Machine
end

