-- ==== Sys2Proof/Machine/ClockTypes.lean ====
section
/-! DEFINITION. The state of clocks, resets, power and temperature (15_clocks_power.md) that is not a dictionary entry. -/

namespace Sys2Proof.Machine

/-- What is under way of clocks and resets: the last step of Table 15-8 done; a dwell of CCLK; the reference that a switch
goes to; whether the loop is locking; whether a coast follows the ramp down; the cause of the reset in progress, whether its
entry is over, and whether it shuts down; engines in reset as (die, engine); evaluations in a row below 98% of the cap; since
when the mean has been above the cap at level 10, and whether that was reported; whether dies or stacks throttle, and whether a
critical temperature holds the controller; a current cut; whether THERMTRIP_L is held; whether an image runs, and whether the
boot ROM has found none. -/
structure Clocks where
  stage : Nat
  dwelling : Bool
  switchTo : Option Nat
  locking : Bool
  coastNext : Bool
  cause : Nat
  entered : Bool
  engReset : List (Nat × Nat)
  below : Nat
  overSince : Option Nat
  capAlert : Bool
  hotDie : Bool
  hotStack : Bool
  critical : Bool
  cut : Bool
  tripped : Bool
  booted : Bool
  noImage : Bool
  deriving DecidableEq, Repr

/-- Clocks and power at the start of a cold reset. -/
def Clocks.reset : Clocks :=
  { stage := 0, dwelling := false, switchTo := none, locking := false, coastNext := false, cause := 0, entered := false
    engReset := [], below := 0, overSince := none, capAlert := false, hotDie := false, hotStack := false
    critical := false, cut := false, tripped := false, booted := false, noImage := false }

end Sys2Proof.Machine
end

