-- ==== Sys2Proof/Machine/EngineTypes.lean ====
section
/-! DEFINITION. The state of the engines: crags (08_crag_arrays.md), Talus (09_talus.md), Cirque (10_cirque.md) and Couloir
(11_couloir.md). -/

namespace Sys2Proof.Machine

/-! ## Crags -/

/-- An asynchronous instruction in flight (R236): its opcode and words, the token it counts, the scalars it read when
it issued, and its index in the program. -/
structure AsyncOp where
  op : Nat
  a : Nat
  b : Nat
  c : Nat
  tok : Option Nat
  x : Nat
  y : Nat
  z : Nat
  pc : Nat
  deriving DecidableEq, Repr

/-- An active LOOP (R240). -/
structure LoopEntry where
  first : Nat
  last : Nat
  left : Nat
  deriving DecidableEq, Repr

/-- Where a crag's program stands: no program, running, past END with instructions in flight, ended, or stopped by a
fault of its command. -/
inductive CragPhase where
  | idle | running | ending | ended | stopped
  deriving DecidableEq, Repr

/-- A crag (R228): the command it holds, the owner of the previous command's queue (256 none) and whether confidential
mode has changed since; the program and its index; scalars, vector registers (64 FP32 lanes), accumulator rows by
array × 512 + row (32 FP32 values), weight slots by array × 2 + slot (format, bytes); instructions in flight, oldest
first; loops, innermost first; and the scratchpad's bytes, an unlisted byte being 0. Unlisted registers are zero. -/
structure Crag where
  slot : Option Nat
  lastOwner : Nat
  confChanged : Bool
  phase : CragPhase
  prog : List Byte
  pc : Nat
  sregs : Tbl Nat
  vregs : Tbl (List Nat)
  acc : Tbl (List Nat)
  weights : Tbl (Nat × List Byte)
  asyncs : List AsyncOp
  loops : List LoopEntry
  scratch : List Host.Cell
  deriving DecidableEq, Repr

/-- A crag out of reset. -/
def Crag.reset : Crag :=
  { slot := none, lastOwner := 256, confChanged := false, phase := .idle, prog := [], pc := 0, sregs := [], vregs := []
    acc := [], weights := [], asyncs := [], loops := [], scratch := [] }

/-- A request at a die's crag allocator (R242): scoreboard slot (or service number), first crag and count. -/
structure CragReq where
  slot : Nat
  die : Nat
  first : Nat
  count : Nat
  deriving DecidableEq, Repr

/-- An OPTIM under way (R252): its hyperparameter block, the chunks in flight, and elements written. -/
structure OptimRun where
  hyper : List Byte
  started : List Nat
  written : Nat
  deriving DecidableEq, Repr

/-- Crags of the package by die × 40 + crag, requests at the allocators in admission order, what each slot holds, and
OPTIMs by slot. -/
structure Crags where
  crags : Tbl Crag
  reqs : List CragReq
  granted : Tbl CragReq
  optims : Tbl OptimRun
  deriving DecidableEq, Repr

/-! ## Talus -/

/-- Where a row is read or written (R259, R261): its position in the list, its index, its DVA, the shard counted. -/
structure RowRef where
  pos : Nat
  idx : Nat
  dva : Nat
  shard : Nat
  deriving DecidableEq, Repr

/-- A Talus command under way: its table descriptor and the remap bank it pinned (R258, R261), rows yet to come, dropped
positions whose zeros are yet to be written, the failure the list ends with, the dropped-index counts; and a pool's
bag, its end, the next position, accumulator and whether a row of the bag has failed (R273). `begun` says that the list
has been read; `next` tells whether the next list is still to be read. -/
structure TalusRun where
  table : List Byte
  begun : Bool
  todo : List RowRef
  dropped : List Nat
  stop : Option Nat
  nulls : Nat
  negs : Nat
  oors : Nat
  bag : Nat
  hi : Nat
  next : Nat
  acc : List Nat
  bagFailed : Bool
  waiting : Option RowRef
  deriving DecidableEq, Repr

/-- A prefetch set (R268-R270): its key, rows that have arrived, rows still to come, its size when full, the slot that
uses it, and whether an ACQUIRE retired it (R338). -/
structure PrefetchSet where
  queue : Nat
  ast : Nat
  desc : Nat
  rows : List (Nat × List Byte)
  todo : List RowRef
  rowBytes : Nat
  count : Nat
  user : Option Nat
  retired : Bool
  deriving DecidableEq, Repr

/-- Talus of every die: commands by slot, prefetch sets oldest first. -/
structure Talus where
  runs : Tbl TalusRun
  sets : List PrefetchSet
  deriving DecidableEq, Repr

/-! ## Cirque -/

/-- An entry of the structure cache (R335): its die and key, line 0, the centroids and the codebooks. -/
structure StructEntry where
  die : Nat
  ast : Nat
  desc : Nat
  line0 : List Byte
  cents : List Byte
  books : List Byte
  deriving DecidableEq, Repr

/-- A running SEARCH in the package-wide table (R304): the index descriptor's DPA, the pinned state line. -/
structure SearchPin where
  slot : Nat
  dpa : Nat
  state : List Byte
  deriving DecidableEq, Repr

/-- A Cirque command under way: the DPA of the lock word it holds, whether an append
wait was counted, whether what it writes before the state line is written, whether the state line is, the state line that it
publishes, and what its record will carry. -/
structure CirqueRun where
  lockDpa : Option Nat
  waited : Bool
  wrote : Bool
  published : Bool
  state : List Byte
  detail : Nat
  result : Nat
  deriving DecidableEq, Repr

/-- A fan-out SEARCH at its origin (R305-R308): request number, members as (index, node, shard), where the members' results
areas begin in the window and how far apart they lie, those accepted with their status, the results of the members that
answered OK, and the candidates that they scored. -/
structure Fanout where
  slot : Nat
  number : Nat
  members : List (Nat × Nat × Nat)
  resultsAt : Nat
  each : Nat
  accepted : Tbl Nat
  results : Tbl (List Byte)
  scored : Nat
  deriving DecidableEq, Repr

/-- A fan-out request being served by a member (R307): the origin, the shard's die, the request, and, once it is decided,
the status with the results and the candidates scored. -/
structure FanService where
  origin : Nat
  die : Nat
  request : List Byte
  status : Option Nat
  results : List Byte
  scored : Nat
  deriving DecidableEq, Repr

/-- Cirque of every die. `served` is the last request number served from each origin's slot. -/
structure Cirque where
  runs : Tbl CirqueRun
  cache : List StructEntry
  pins : List SearchPin
  fan : Option Fanout
  fanNumber : Nat
  served : Tbl Nat
  services : List FanService
  deriving DecidableEq, Repr

/-! ## Couloir -/

/-- A channel's command (R311-R326): the element in progress (none while it is to be read) and its DVA, its index, the
output beats of it that are done, bytes written, elements skipped, the latched status of the last ABORT or CLEAR, whether it
began running and when, and the ticks that it ran before. -/
structure ChanRun where
  slot : Nat
  elem : Option (List Byte)
  elemDva : Nat
  index : Nat
  beat : Nat
  written : Nat
  skipped : Nat
  last : Nat
  since : Option Nat
  ran : Nat
  deriving DecidableEq, Repr

/-- Couloir of the package: commands by channel (die × 64 + channel), and commands waiting for one as (slot, channel or
0xFF), in admission order. -/
structure Couloir where
  chans : Tbl ChanRun
  waits : List (Nat × Nat)
  deriving DecidableEq, Repr

/-- The engines. -/
structure Engines where
  crag : Crags
  talus : Talus
  cirque : Cirque
  couloir : Couloir
  deriving DecidableEq, Repr

/-- The engines out of reset. -/
def Engines.reset : Engines :=
  { crag := { crags := [], reqs := [], granted := [], optims := [] }
    talus := { runs := [], sets := [] }
    cirque := { runs := [], cache := [], pins := [], fan := none, fanNumber := 0, served := [], services := [] }
    couloir := { chans := [], waits := [] } }

end Sys2Proof.Machine
end

