-- ==== Sys2Proof/Machine/FabricTypes.lean ====
section
/-! DEFINITION. The state of memory semantics, the switch cores and composition (06_ridgeline_memory.md). -/

namespace Sys2Proof.Machine

/-- A stream frame that waits for its predecessors (R167): the frame, the port it came by, and what the checks of
Table 06-4 gave at its arrival, 0 for none; with the DPA its offset names. -/
structure HeldFrame where
  frame : RFrame
  port : Nat
  status : Nat
  dpa : Nat
  deriving DecidableEq, Repr

/-- A stream of one source at this target (R167-R172): N, the frames held, the answers kept, frames applied since
the last SEQ_ACK, and whether N has moved since. -/
structure Stream where
  n : Nat
  held : Tbl HeldFrame
  answers : List (Nat × Nat)
  since : Nat
  deriving DecidableEq, Repr

/-- A source as this target knows it: its first failed posted write since its last FENCE, a sequence declared lost
since then, the FENCEs that wait, and the results of its SEQCHK atomics (R172, R176). -/
structure SourceState where
  fail : Nat
  lost : Bool
  fences : List HeldFrame
  results : List (Nat × List Byte)
  deriving DecidableEq, Repr

/-- A source nothing has come from. -/
def SourceState.fresh : SourceState := { fail := 0, lost := false, fences := [], results := [] }

/-- A posted write kept in the retention buffer (R166, R171). -/
structure Retained where
  frame : RFrame
  slot : Nat
  resends : Nat
  deriving DecidableEq, Repr

/-- What a non-posted request of this device is for. -/
inductive Purpose where
  | read (slot addr : Nat)
  | fence (slot : Nat)
  | atomic (slot : Nat)
  | publish (slot : Nat)
  | forward (pub : Nat)
  | relocate
  | relay (address txn : Nat)
  | fanout (slot : Nat) (member : Nat)
  | coll (slot : Nat)
  deriving DecidableEq, Repr

/-- A non-posted request in flight (R164, R198, R199). -/
structure OutReq where
  frame : RFrame
  purpose : Purpose
  redirects : Nat
  original : Nat
  deriving DecidableEq, Repr

/-- A PUBLISH at its publisher that waits for the other members (R181, R182). -/
structure Publication where
  id : Nat
  request : RFrame
  waiting : Nat
  status : Nat
  deriving DecidableEq, Repr

/-- A relocation in progress (R200): its window, the offset the bulk copy has come to, the lines of the pass not yet
sent, the dirty lines as numbers from the window's base, the passes done, the copies not yet answered, and the status
of the first copy that failed. -/
structure Relocation where
  window : Nat
  next : Nat
  todo : List Nat
  dirty : List Nat
  passes : Nat
  outstanding : Nat
  failed : Nat
  deriving DecidableEq, Repr

/-- A fabric write whose lines still wait at the media: the frame, its port, the lines still waiting, the status. -/
structure WaitingWrite where
  frame : RFrame
  port : Nat
  lines : Nat
  status : Nat
  deriving DecidableEq, Repr

/-- Fabric state of the device. Streams are keyed by source × 2 + (1 for BULK), requester streams by destination × 2 +
(1 for BULK); requests by TAG; `arrived` are the frames that have come whole for this device, with their port (8 for
its own); `ackSeq` is the N that the last SEQ_ACK of a requester stream gave, and `unsent` the stream frames that wait
for it or for retention space (R166, R167); `tearing` are the jobs whose teardown has commands left (R202). -/
structure Fabric where
  tearing : List Nat
  ackSeq : Tbl Nat
  unsent : List Retained
  arrived : List (Nat × RFrame)
  streams : Tbl Stream
  sources : Tbl SourceState
  nextSeq : Tbl Nat
  retained : List Retained
  reqs : Tbl OutReq
  pubs : List Publication
  nextPub : Nat
  writes : Tbl WaitingWrite
  nextWrite : Nat
  reloc : Option Relocation
  redAvg : Tbl Nat
  ringCount : Nat
  deriving DecidableEq, Repr

end Sys2Proof.Machine
end

