-- ==== Sys2Proof/Machine/HallTypes.lean ====
section
/-! DEFINITION. The state of membership, time, groups and margins (13_acting_as_one.md). -/

namespace Sys2Proof.Machine

/-- A beacon as it arrived (Table 13-6): its number, arrival in 1/65,536 ticks, ROOTDIST, ROOT and its flags. -/
structure BeaconIn where
  number : Nat
  arrived : Nat
  dist : Nat
  root : Nat
  forced : Bool
  locked : Bool
  synced : Bool
  deriving DecidableEq, Repr

/-- What a port keeps of its neighbour (R355-R358, R366): the last beacon received, the number of its next beacon and
the departures of those sent in 1/65,536 ticks, its own flag [2], and whether a margin's action 2 or 3 holds it disabled (R381, R382). -/
structure PortHall where
  beacon : Option BeaconIn
  nextBeacon : Nat
  sentAt : List (Nat × Nat)
  flag : Bool
  drainAct : Bool
  deriving DecidableEq, Repr

/-- A port with no neighbour yet. -/
def PortHall.fresh : PortHall :=
  { beacon := none, nextBeacon := 0, sentAt := [], flag := false, drainAct := false }

/-- One ring of a collective (R193): the phase of its frames, its size, the own index, the node after the own, the part
of the vector it works on as first element and length, and the number of its first step. -/
structure CollStage where
  phase : Nat
  k : Nat
  i : Nat
  next : Nat
  lo : Nat
  len : Nat
  base : Nat
  deriving DecidableEq, Repr

/-- A COLL frame that has come (Table 06-3): phase, step, chunk, element offset, elements. -/
structure CollIn where
  phase : Nat
  step : Nat
  chunk : Nat
  off : Nat
  elems : List Nat
  deriving DecidableEq, Repr

/-- A COLLECTIVE that runs: its command, group and epoch, its fields, the TAG of its frames, its rings and where it
stands in them, the vector, the frames not yet consumed, and for BROADCAST the nodes it passes the data on to. -/
structure Coll where
  slot : Nat
  group : Nat
  epoch : Nat
  kind : Nat
  op : Nat
  dtype : Nat
  tag : Nat
  stages : List CollStage
  stage : Nat
  step : Nat
  got : Nat
  vec : List Nat
  inbox : List CollIn
  passOn : List (Nat × Nat)
  ended : Bool
  deriving DecidableEq, Repr

/-- Membership of the device: neighbours by port, its next flood number, floods held as (origin, number, time), torus
links reported lost as (node, port), whether it advertises itself for an interval, collectives running, margins that
are disarmed as (source and port, level), the start of the span in which HOLDOVER's error has been small, whether a
resynchronisation is steering (R364), whether the notice of a reference that lies behind has been raised, and whether PTP is
locked (R365). -/
structure Hall where
  ports : Tbl PortHall
  nextFlood : Nat
  seen : List (Nat × Nat × Nat)
  lostLinks : List (Nat × Nat)
  selfRoot : Bool
  colls : List Coll
  disarmed : List (Nat × Nat)
  smallSince : Option Nat
  resync : Bool
  behindNoticed : Bool
  ptpLocked : Bool
  deriving DecidableEq, Repr

/-- Membership out of a cold reset. -/
def Hall.reset : Hall :=
  { ports := [], nextFlood := 0, seen := [], lostLinks := [], selfRoot := false, colls := [], disarmed := [], smallSince := none
    resync := false, behindNoticed := false, ptpLocked := false }

end Sys2Proof.Machine
end

