-- ==== Sys2Proof/Machine/OutTypes.lean ====
section
/-! DEFINITION. What the package sends outside, as its rules say it does: answers, messages of the host ports, and
lines it drives. -/

namespace Sys2Proof.Machine

/-- An answer to an SPDM message; MEASUREMENTS carries the digests of Table 16-3. -/
inductive SpdmAnswer where
  | keyExchange (session : Nat)
  | finished
  | endSession
  | heartbeat
  | measurements (digests : List (List Byte))
  | certificateSet
  | answered
  | errorBusy
  | errorInvalidRequest
  deriving DecidableEq, Repr

/-- One thing the package has sent. -/
inductive Out where
  | response (q : Requester) (r : Response)
  | noticeFrame (slot : Nat) (n : QueuedNotice)
  | relayed (address txn node : Nat) (inner : List Byte)
  | spdm (chan : SpdmChan) (answer : SpdmAnswer)
  | icmp (kind : Nat)
  | position (width : Nat)
  | moduleWrite (position page offset : Nat) (bytes : List Byte)
  | configRetry (link ld : Nat)
  | msix (link ld vector : Nat)
  | cxlWrite (link ld hpa : Nat) (bytes : List Byte)
  | cxlPoisoned (link ld hpa len : Nat)
  | cxlRead (link ld hpa len slot : Nat)
  | cacheWrite (link ld hpa : Nat) (bytes : List Byte)
  | memData (link ld tag : Nat) (v : LineVal)
  | memDone (link ld tag : Nat)
  | biSnp (link line : Nat) (inv : Bool)
  | snoopAnswer (link : Nat)
  | atsCompletion (link ld : Nat)
  | decoder (link ld k : Nat) (committed : Bool)
  | aer (link ld : Nat)
  | config (link ld value : Nat)
  | cdat (link ld base len : Nat)
  | frame (port : Nat) (f : RFrame)
  | ack (port ackfn : Nat) (limits : List Nat)
  | retry (port efn num : Nat)
  | replayStart (port first num : Nat)
  | resent (port skipped : Nat) (f : RFrame)
  | hello (port node variant topology widths lanes : Nat)
  | digest (port : Nat) (body : List Byte)
  deriving DecidableEq, Repr

end Sys2Proof.Machine
end

