-- ==== Sys2Proof/Machine/PortTypes.lean ====
section
/-! DEFINITION. The state of the Ridgeline ports (05_ridgeline_links.md). -/

namespace Sys2Proof.Machine

/-- Where a frame goes from the switch core (R150): to this device, to a port, or nowhere. -/
inductive FrameOut where
  | here
  | port (p : Nat)
  | drop
  deriving DecidableEq, Repr

/-- A frame in reception (R139): what has come of it, its data flits so far, whether one was a STOMP, and the output
decided at its header. -/
structure RxFrame where
  frame : RFrame
  got : Nat
  stomped : Bool
  out : FrameOut
  deriving DecidableEq, Repr

/-- A frame in the switch core that waits for an output port: its input (8 for this device), whether it is stomped,
and when it entered. -/
structure QFrame where
  frame : RFrame
  input : Nat
  stomped : Bool
  since : Nat
  deriving DecidableEq, Repr

/-- A frame in the replay buffer with the number of its HEADER flit and when it was sent (R134). -/
structure SentFrame where
  first : Nat
  frame : QFrame
  time : Nat
  deriving DecidableEq, Repr

/-- A port's own state; its state, width, lanes, peer and cause are the entries 0x4011. `left` is the state RECOVERY
was entered from, `drainTo` the state a drain ends in; then the receiver (R133-R139), the transmitter (R133-R138),
the credits of the six (class, VC) in Table 05-4's order, and the frames waiting for the port. -/
structure Port where
  left : Nat
  fromLost : Bool
  signalNoticed : Bool
  drainTo : Option Nat
  numbered : Bool
  efn : Nat
  accepted : Bool
  retryNum : Nat
  awaiting : Bool
  retries : Nat
  errEfn : Nat
  rx : Option RxFrame
  suspended : Option RxFrame
  rxUsed : List Nat
  rxLimit : List Nat
  nextNum : Nat
  unacked : List SentFrame
  ackedTo : Nat
  lastAnswered : Option Nat
  limit : List Nat
  sent : List Nat
  queue : List QFrame
  deriving DecidableEq, Repr

/-- A port out of reset or before its first HELLO. -/
def Port.fresh : Port :=
  { left := 0, fromLost := false, signalNoticed := false, drainTo := none, numbered := false, efn := 0
    accepted := false, retryNum := 0, awaiting := false, retries := 0, errEfn := 0, rx := none, suspended := none
    rxUsed := List.replicate 6 0, rxLimit := List.replicate 6 65, nextNum := 0, unacked := [], ackedTo := 0
    lastAnswered := none, limit := List.replicate 6 0, sent := List.replicate 6 0, queue := [] }

end Sys2Proof.Machine
end

