-- ==== Sys2Proof/Machine/QueueTypes.lean ====
section
/-! DEFINITION. The state of queues, scoreboards, events and Pass arbiters (07_command_queues.md). -/

namespace Sys2Proof.Machine

/-- A descriptor that has been fetched and waits for admission (R206, R210, R214, R216): its ring index, the time
since which it is ready, whether its header WAIT has been found reached, and the status it ends with when it does
not pass R210. -/
structure Head where
  index : Nat
  desc : List Byte
  readyAt : Nat
  eligible : Bool
  fail : Option Nat
  deriving DecidableEq, Repr

/-- A queue's own copies: last TAIL, SQ_HEAD, CQ_TAIL, the last CQ_HEAD taken, COMPLETED, fetched heads, commands
in flight, and coalescing (R204-R212). Its configuration and state are 0x5401. -/
structure Queue where
  tail : Nat
  sqHead : Nat
  sqWritten : Nat
  cqTail : Nat
  cqHead : Nat
  completed : Nat
  heads : List Head
  coalescing : Bool
  raisePending : Bool
  deriving DecidableEq, Repr

/-- A queue at enable (R204). -/
def Queue.fresh : Queue :=
  { tail := 0, sqHead := 0, sqWritten := 0, cqTail := 0, cqHead := 0, completed := 0, heads := []
    coalescing := false, raisePending := false }

/-- A command on a scoreboard (R218): its queue, submission index and descriptor, its order of admission in the
package, the status of the first failure it met (R12), what its record will carry, whether its engine work is over
and has begun; the last posted write to each host path, as (link × 16 + LD, HPA), the flush reads it still waits
for (R332); the nodes it posted writes to, with a GFA and a key for the FENCE to each, whether those FENCEs have
gone, and the fabric answers it still waits for (R172, R331); the owner fence's set of slots (R339); and the
engine's own progress. -/
structure Cmd where
  queue : Nat
  sqIndex : Nat
  desc : List Byte
  order : Nat
  fail : Option Nat
  detail : Nat
  result : Nat
  done : Bool
  started : Bool
  hostWrites : Tbl Nat
  flushOut : List Nat
  fabricDests : Tbl (Nat × Nat)
  fencesSent : Bool
  fabricOut : Nat
  waitsFor : List Nat
  progress : Nat
  deriving DecidableEq, Repr

/-- A request at a Pass arbiter (R220-R222): input, beats in all and done, and the scoreboard slot it serves. -/
structure BankReq where
  input : Nat
  beats : Nat
  done : Nat
  slot : Nat
  deriving DecidableEq, Repr

/-- A scratchpad bank: the burst it is granted to, parked, stalled and backing-off requests, the back-off of each
input (1 when unlisted), reset in progress, and whether a starvation was reported (R221-R224). -/
structure Bank where
  holder : Option BankReq
  parked : List BankReq
  stalled : List BankReq
  backing : List BankReq
  b : Tbl Nat
  resetting : Bool
  starved : Bool
  deriving DecidableEq, Repr

/-- An idle bank. -/
def Bank.idle : Bank :=
  { holder := none, parked := [], stalled := [], backing := [], b := [], resetting := false, starved := false }

/-- Schedulers of every die. Keys: queues and events by number, scoreboard slots by die × 1024 + slot, banks by
(die × 40 + crag) × 16 + bank; `rr` is the round-robin pointer of (die × 8 + priority). -/
structure Sched where
  queues : Tbl Queue
  slots : Tbl Cmd
  events : Tbl Nat
  rr : Tbl Nat
  nextOrder : Nat
  banks : Tbl Bank
  deriving DecidableEq, Repr

end Sys2Proof.Machine
end

