-- ==== Sys2Proof/Machine/SecTypes.lean ====
section
/-! DEFINITION. The state of security, confidential mode, tallies and audit (16_security.md). -/

namespace Sys2Proof.Machine

/-- An audit entry (Table 16-10). -/
structure AuditEntry where
  sequence : Nat
  time : Nat
  utc : Nat
  code : Nat
  actorKind : Nat
  actor : Nat
  detail : List Byte
  chain : List Byte
  deriving DecidableEq, Repr

/-- A boot record (R442): preferred slot, TRIAL, tries, update number, boots from slots A and B. -/
structure BootRecord where
  preferred : Nat
  trial : Bool
  tries : Nat
  update : Nat
  bootsA : Nat
  bootsB : Nat
  deriving DecidableEq, Repr

/-- An image slot's content as the boot ROM reads it (Table 16-2): whether magic and version are right, key slot, security
version, release and build, whether key hash, body digest and signature check, and what measurement 2 covers. -/
structure Image where
  magic : Bool
  keySlot : Nat
  version : Nat
  release : Nat
  signed : Bool
  measured : List Byte
  deriving DecidableEq, Repr

/-- The flash and the fuses (R442-R455): image slots A and B, the boot record, none when neither copy is good, the fuses
burnt of each tally and the counts that the tally record carries (R455), a trip record, the owner's chain of certificate slot 1. -/
structure Flash where
  slotA : Option Image
  slotB : Option Image
  boot : Option BootRecord
  burnt : Tbl Nat
  recorded : Tbl Nat
  trip : Bool
  ownerChain : List Byte
  deriving DecidableEq, Repr

/-- A registered region of a binding slot (R465, R466): its base and length as they were at the bind, and its content key, empty
until it is BOUND. -/
structure BoundRegion where
  base : Nat
  len : Nat
  key : List Byte
  deriving DecidableEq, Repr

/-- Security state that is not a dictionary entry: the audit log's entries, next sequence, chain hash and anchor, the sequences
still to be written to flash, those that flash has refused, and whether the first of them has been retried; the flash;
the tallies whose notice 0x8135 has been raised; the claim window; the identity generation that the DeviceID key was derived at
(R449); the bounce key; the registered regions of binding slots; what measurement 5 covered at the last change of 0x6020.07
(R445). -/
structure Security where
  audit : List AuditEntry
  auditNext : Nat
  auditChain : List Byte
  auditAnchor : List Byte
  auditUnwritten : List Nat
  auditLost : List Nat
  auditRetried : Bool
  flash : Flash
  lowNoticed : List Nat
  claimable : Bool
  generation : Nat
  bounceKey : List Byte
  bound : Tbl BoundRegion
  measured5 : List Byte
  deriving DecidableEq, Repr

end Sys2Proof.Machine
end

