-- ==== Sys2Proof/Machine/Mach.lean ====
section
/-! DEFINITION. The machine without its command queue: one structure for each chapter's state. -/

namespace Sys2Proof.Machine

/-- The timebase of the package (13_acting_as_one.md R363), shared by every die: count in ticks of 1.25 ns, whether
it counts, and whether it has made its one step. -/
structure TimeBase where
  count : Nat
  running : Bool
  stepped : Bool
  deriving DecidableEq, Repr

/-- Everything the manual gives the package, its command queue apart. `dies` is D of Table 00-1, `freeCtr` the
argument of the next free value, `out` what has been sent, oldest first. -/
structure Mach where
  dies : Nat
  cairn : Cairn
  tele : Telemetry
  elec : Electrical
  time : TimeBase
  col : Col
  fences : Tbl FenceRun
  store : Store
  sched : Sched
  eng : Engines
  xl : Xlate
  host : HostSide
  ports : Tbl Port
  fab : Fabric
  hall : Hall
  sec : Security
  clk : Clocks
  out : List Out
  freeCtr : Nat
  deriving DecidableEq, Repr

end Sys2Proof.Machine
end

