-- ==== Sys2Proof/Machine/Ops.lean ====
section
/-! DEFINITION. Named operations every family uses: dictionary registers and counters, outputs, the store's bytes,
span events, trace records, notices, the audit log. -/

namespace Sys2Proof.Machine

/-! ## Dictionary registers (14_cairn.md R394) -/

/-- The index whose table lines describe an index: ports L1-L7 share L0's counters, notices share one line. -/
def dictIndex (idx : Nat) : Nat :=
  if 0x7050 ≤ idx ∧ idx ≤ 0x7057 then 0x7050 else if 0x8000 ≤ idx ∧ idx ≤ 0x8FFF then 0x8000 else idx

/-- The row an index stands for by itself. -/
def indexRow (idx : Nat) : Nat :=
  if 0x7050 ≤ idx ∧ idx ≤ 0x7057 then idx - 0x7050 else if 0x8000 ≤ idx ∧ idx ≤ 0x8FFF then idx - 0x8000 else 0

/-- The table line of an entry. -/
def dictLine (idx sub : Nat) : Option DEntry :=
  match tget dictTable (dictIndex idx) with
  | none => none
  | some ls => ls.find? (fun e => decide (e.sub ≤ sub) && decide (sub < e.sub + e.n))

/-- The default of a table line at a subindex. -/
def DEntry.defaultAt (e : DEntry) (sub : Nat) : Nat :=
  match e.dflt[sub - e.sub]? with
  | some v => v
  | none => e.dflt.getLastD 0

/-- The default of an entry (the tables' Default column). -/
def dictDefault (idx sub : Nat) : Nat :=
  match dictLine idx sub with
  | some e => e.defaultAt sub
  | none => 0

/-- The key of an entry's value: index, subindex and row. -/
def regKey (idx sub row : Nat) : Nat := (idx * 256 + sub) * 2 ^ 32 + row

/-- The value of a dictionary entry. -/
def Mach.reg (m : Mach) (idx sub row : Nat) : Nat :=
  (tget m.cairn.regs (regKey (dictIndex idx) sub row)).getD (dictDefault idx sub)

/-- A dictionary entry given a value. -/
def Mach.setReg (m : Mach) (idx sub row v : Nat) : Mach :=
  { m with cairn := { m.cairn with regs := tput m.cairn.regs (regKey (dictIndex idx) sub row) v } }

/-- The bytes of an OCTETS entry. -/
def Mach.oct (m : Mach) (idx sub row : Nat) : List Byte :=
  (tget m.cairn.octs (regKey (dictIndex idx) sub row)).getD
    (zeros (match dictLine idx sub with | some e => e.len | none => 0))

/-- An OCTETS entry given its bytes. -/
def Mach.setOct (m : Mach) (idx sub row : Nat) (v : List Byte) : Mach :=
  { m with cairn := { m.cairn with octs := tput m.cairn.octs (regKey (dictIndex idx) sub row) v } }

/-- n added to a counter, modulo 2^64 (17_telemetry.md R471). -/
def Mach.bumpBy (m : Mach) (idx sub row n : Nat) : Mach :=
  m.setReg idx sub row ((m.reg idx sub row + n) % 2 ^ 64)

/-- 1 added to a counter. -/
def Mach.bump (m : Mach) (idx sub : Nat) : Mach := m.bumpBy idx sub 0 1

/-- A generation number advanced (U32). -/
def Mach.nextGen (m : Mach) (idx sub : Nat) : Mach := m.setReg idx sub 0 ((m.reg idx sub 0 + 1) % 2 ^ 32)

/-- Something sent outside. -/
def Mach.emit (m : Mach) (o : Out) : Mach := { m with out := m.out ++ [o] }

/-- The next free value, modulo a bound: a value the manual leaves open. -/
def Mach.fresh (m : Mach) (bound : Nat) : Nat × Mach :=
  (Config.freeValue m.freeCtr % bound, { m with freeCtr := m.freeCtr + 1 })

/-- TIMEBASE now, in ticks of 1.25 ns. -/
def Mach.now (m : Mach) : Nat := m.time.count

/-- Ticks of the timebase in a microsecond, and in a millisecond. -/
def ticksPerUs : Nat := 800
/-- Ticks of the timebase in a millisecond. -/
def ticksPerMs : Nat := 800000

/-! ## Dies, ports and their states -/

/-- 0x2210: the state of a die. -/
def Mach.dieState (m : Mach) (d : Nat) : Nat := m.reg 0x2210 (1 + d) 0
/-- A die in service: ACTIVE, or FENCING and still before its Col links are cut (01_organisation.md Table 01-7). -/
def Mach.dieActive (m : Mach) (d : Nat) : Bool :=
  decide (d < m.dies) && (m.dieState d == 1 || (m.dieState d == 2 && (tget m.fences d).any fun r => r.step != .survivors))
/-- A die whose scheduler takes new descriptors: in service, and not past step 2 of an orderly fence. -/
def Mach.dieTakes (m : Mach) (d : Nat) : Bool := m.dieActive d && (tget m.fences d).all fun r => r.step == .evacuating
/-- The dies that are ACTIVE, in order. -/
def Mach.activeDies (m : Mach) : List Nat := (List.range m.dies).filter m.dieActive
/-- log2 of D. -/
def Mach.dLog2 (m : Mach) : Nat := if m.dies = 8 then 3 else if m.dies = 4 then 2 else 1

/-! ## Bytes of the store -/

/-- The byte at an address of a memory in canonical form; an unlisted address reads 0 (R66). -/
def Memory.read : List Host.Cell → Nat → Byte
  | [], _ => 0
  | (a, b) :: t, x => if x = a then b else if x < a then 0 else Memory.read t x

/-- A byte written, keeping the canonical form: addresses strictly rising and no byte 0 listed. -/
def Memory.write : List Host.Cell → Nat → Byte → List Host.Cell
  | [], x, v => if v = 0 then [] else [(x, v)]
  | (a, b) :: t, x, v =>
    if x < a then (if v = 0 then (a, b) :: t else (x, v) :: (a, b) :: t)
    else if x = a then (if v = 0 then t else (x, v) :: t)
    else (a, b) :: Memory.write t x v

/-- Bytes written from an address upward. -/
def Memory.writeAll (mem : List Host.Cell) (a : Nat) : List Byte → List Host.Cell
  | [] => mem
  | b :: t => Memory.writeAll (Memory.write mem a b) (a + 1) t

/-- n bytes read from an address upward. -/
def Memory.readAll (mem : List Host.Cell) (a n : Nat) : List Byte :=
  (List.range n).map fun i => Memory.read mem (a + i)

/-- Every byte in [lo, hi) made 0. -/
def Memory.clear (mem : List Host.Cell) (lo hi : Nat) : List Host.Cell :=
  mem.filter fun c => !(decide (lo ≤ c.1) && decide (c.1 < hi))

/-- The canonical form: addresses strictly rising from a bound on, and no byte 0 listed. -/
def Memory.wfFrom : Nat → List Host.Cell → Bool
  | _, [] => true
  | lo, (a, b) :: t => decide (lo ≤ a) && b != 0 && Memory.wfFrom (a + 1) t

/-- The canonical form of the store's contents. -/
def Memory.wf (mem : List Host.Cell) : Bool := Memory.wfFrom 0 mem

/-- n bytes of the store's contents. -/
def Mach.bytes (m : Mach) (dpa n : Nat) : List Byte := Memory.readAll m.store.mem dpa n

/-- Bytes of the store's contents replaced; no other rule of the store applied. -/
def Mach.setBytes (m : Mach) (dpa : Nat) (bs : List Byte) : Mach :=
  { m with store := { m.store with mem := Memory.writeAll m.store.mem dpa bs } }

/-- A granule's map entry; an unlisted granule is UNBACKED with word 1 at reset (R66). -/
def Granule.reset : Granule :=
  { loc := .unbacked, domain := 0, frame := 0, chunk := 0, chunks := 0, moving := false, hint := 0, sat := true
    last := 0 }

/-- The map entry of granule g. -/
def Mach.gran (m : Mach) (g : Nat) : Granule := tgetD m.store.gran g Granule.reset

/-- The map entry of granule g replaced; an entry at its reset values is not listed. -/
def Mach.setGran (m : Mach) (g : Nat) (e : Granule) : Mach :=
  { m with store := { m.store with gran := if e = Granule.reset then tdel m.store.gran g else tput m.store.gran g e } }

/-- The line of a DPA. -/
def lineOf (dpa : Nat) : Nat := dpa / 64
/-- The granule of a DPA. -/
def granuleOf (dpa : Nat) : Nat := dpa / 65536
/-- The granule of a line. -/
def granuleOfLine (line : Nat) : Nat := line / 1024

/-- A line marked poisoned in its medium (R66). -/
def Mach.poisonLine (m : Mach) (line : Nat) : Mach :=
  { m with store := { m.store with poison := insSorted m.store.poison line } }

/-- A line's poison replaced by data. -/
def Mach.unpoison (m : Mach) (line : Nat) : Mach :=
  { m with store := { m.store with poison := remove m.store.poison line } }

/-- A written-back line that waits for its granule's frame (R81, R82, R86): it already is the line's value in the store. -/
def Mach.heldBack (m : Mach) (line : Nat) : Option (List Byte) :=
  ((m.store.heldWrites ++ m.store.allocWaits).filter fun w =>
    w.owner == .none && w.dpa == line * 64 && w.bytes.length == 64).getLast?.map (·.bytes)

/-- A line's value in the store: poison for a line that is marked or whose granule is LOST; an UNBACKED granule reads zero (R66). -/
def Mach.mediaLine (m : Mach) (line : Nat) : LineVal :=
  match m.heldBack line with
  | some bs => .data bs
  | none =>
    if (m.gran (granuleOfLine line)).loc = .lost ∨ line ∈ m.store.poison then .poison
    else .data (m.bytes (line * 64) 64)

/-! ## Span events, trace records, notices (17_telemetry.md R474, R482; 14_cairn.md R402-R404) -/

/-- A span event detected now (Table 17-1): it enters its settle window. -/
def Mach.spanEvent (m : Mach) (code param : Nat) : Mach :=
  { m with tele := { m.tele with events := m.tele.events ++ [⟨m.now, code, param⟩] } }

/-- A trace record of 32 bytes (Table 17-5). -/
def traceRecord (time src die sequence : Nat) (fields : List Byte) : List Byte :=
  leBytes 8 time ++ [byteOf src, byteOf die] ++ leBytes 2 sequence ++ zeros 4 ++ slice fields 0 16

/-- Whether the trace writes records: RUNNING or TRIGGERED (0x9000.08). -/
def Mach.tracing (m : Mach) : Bool := m.reg 0x9000 0x08 0 == 1 || m.reg 0x9000 0x08 0 == 2

/-- A trace record of a source on a die, when the trace is on and takes it: written at the write position of the
ring, which wraps (R482). -/
def Mach.trace (m : Mach) (src die : Nat) (fields : List Byte) : Mach :=
  let t := m.tele.trace
  if m.tracing && bit t.srcMask src && bit t.dieMask die && decide (0 < t.length) then
    let sq := tgetD t.sequence die 0
    let pos := m.reg 0x9000 0x0B 0
    let m := m.setBytes (t.ring + pos) (traceRecord m.now src die sq fields)
    let m := { m with tele := { m.tele with trace :=
      { t with sequence := tput t.sequence die ((sq + 1) % 65536), postLeft := t.postLeft - 1 } } }
    (m.setReg 0x9000 0x0B 0 ((pos + 32) % t.length)).bump 0x9000 0x09
  else m

/-- The trigger of the trace (R483): the first event that matches latches the position of the next record and moves
RUNNING to TRIGGERED. -/
def Mach.traceTrigger (m : Mach) (code param : Nat) : Mach :=
  if m.reg 0x9000 0x08 0 = 1 ∧ m.tele.trace.trigger = code * 2 ^ 24 + param then
    let m := (m.setReg 0x9000 0x08 0 2).setReg 0x9000 0x0C 0 (m.reg 0x9000 0x0B 0)
    { m with tele := { m.tele with trace := { m.tele.trace with postLeft := m.reg 0x9000 0x06 0 } } }
  else m

/-- An event that both the span units and the trace's trigger watch (Table 17-1). -/
def Mach.event (m : Mach) (code param : Nat) : Mach := (m.spanEvent code param).traceTrigger code param

/-- Pad a notice body to a multiple of 4 bytes (R402). -/
def padBody (b : List Byte) : List Byte := b ++ zeros ((4 - b.length % 4) % 4)

/-- A notice queued to a subscriber whose filter selects it, or counted as lost when its 64 places are taken (R404). -/
def Subscriber.take (s : Subscriber) (number : Nat) (body : List Byte) (time : Nat) : Subscriber :=
  if bit s.filter (number / 16 % 256) then
    if s.queue.length < 64 then
      { s with
        queue := s.queue ++ [⟨s.next, number, body, time, 0, s.lost - s.lostReported⟩]
        next := (s.next + 1) % 2 ^ 32
        lostReported := s.lost }
    else { s with lost := (s.lost + 1) % 2 ^ 32 }
  else s

/-- Whether a subscriber loses a notice raised now. -/
def Subscriber.loses (s : Subscriber) (number : Nat) : Bool :=
  bit s.filter (number / 16 % 256) && decide (64 ≤ s.queue.length)

/-- A notice raised (R402, R404): its entry updated, queued to each subscriber, and a span event of code 5. -/
def Mach.notice (m : Mach) (number : Nat) (body : List Byte) : Mach :=
  let b := padBody body
  let lost := (m.cairn.subs.filter fun (p : Nat × Subscriber) => p.2.loses number).length
  let m := { m with cairn := { m.cairn with subs := m.cairn.subs.map fun (p : Nat × Subscriber) => (p.1, p.2.take number b m.now) } }
  let m := m.bumpBy 0x7110 0x08 0 lost
  let m := m.setOct 0x8000 1 (number - 0x8000) b
  let m := m.bumpBy 0x8000 2 (number - 0x8000) 1
  let m := m.setReg 0x8000 3 (number - 0x8000) m.now
  let m := m.trace 5 (if m.dieActive 0 then 0 else 1) (leBytes 2 number ++ zeros 6 ++ slice b 0 8)
  m.event 5 number

/-! ## Audit log (16_security.md R467) -/

/-- The UTC offset in force (14_cairn.md R406): PTP's, kept as row 1, while it gives one, else the last one written. -/
def Mach.utcOffset (m : Mach) : Int := toSigned 32 (m.reg 0x1300 4 (m.reg 0x1300 0x0A 0))

/-- UTC seconds of the calendar (14_cairn.md R406). -/
def Mach.utcSeconds (m : Mach) : Int :=
  (((m.now : Int) + toSigned 64 (m.reg 0x1300 6 0)) / 800000000) - m.utcOffset

/-- Who an audit entry names: kind 0 the device, 1 a Cairn credential, 2 an in-band identity, 3 a relayed
credential (Table 16-10). -/
def Mach.actorOf (m : Mach) (code : Nat) : Nat × Nat :=
  if 256 ≤ code then (2, ((tget m.host.lds (code - 256)).map (·.ident)).getD 0)
  else match tget m.cairn.reqs code with
  | none => (0, 0)
  | some s => (if s.ridgeline then 3 else 1, s.owner)

/-- An audit entry appended, its chain hash SHA-384 of the previous hash and bytes 0-79 (R467). The newest 4,096
are kept; the hash of the last one dropped is the anchor. -/
def Mach.auditBy (m : Mach) (actor : Nat × Nat) (code : Nat) (detail : List Byte) : Mach :=
  let s := m.sec
  let utc := if m.reg 0x1300 7 0 = 0 then 0 else m.utcSeconds.toNat
  let d := slice (padBody detail) 0 48
  let body := leBytes 8 s.auditNext ++ leBytes 8 m.now ++ leBytes 8 utc ++ leBytes 2 code ++
    [byteOf actor.1, byteOf actor.2] ++ zeros 4 ++ d
  let h := Config.sha384 (s.auditChain ++ body)
  let e : AuditEntry := ⟨s.auditNext, m.now, utc, code, actor.1, actor.2, d, h⟩
  let drop := decide (4096 ≤ s.audit.length)
  let m := { m with sec := { s with
    audit := (if drop then s.audit.tail else s.audit) ++ [e]
    auditNext := s.auditNext + 1
    auditChain := h
    auditAnchor := if drop then (match s.audit with | a :: _ => a.chain | [] => s.auditAnchor) else s.auditAnchor
    auditUnwritten := s.auditUnwritten ++ [s.auditNext] } }
  m.bump 0x7130 0x09

/-- An audit entry of the device itself. -/
def Mach.audit (m : Mach) (code : Nat) (detail : List Byte) : Mach := m.auditBy (0, 0) code detail

/-! ## The calendar's steps (14_cairn.md R408) -/

/-- A step of the calendar that has been made, by ns: recorded, logged, notified with the old and the new calendar offset and
UTC offset. -/
def Mach.calendarStepped (m : Mach) (actor : Nat × Nat) (ns oldOff oldUtc : Int) : Mach :=
  let m := m.setReg 0x1300 8 0 (ofSigned 64 ns)
  let m := m.auditBy actor 0x0034 (leBytes 8 (ofSigned 64 ns))
  m.notice 0x8111 (leBytes 8 (ofSigned 64 oldOff) ++ leBytes 8 (m.reg 0x1300 6 0) ++ leBytes 4 (ofSigned 32 oldUtc) ++
    leBytes 4 (ofSigned 32 m.utcOffset))

/-- The calendar offset changed to a value in ticks. -/
def Mach.setCalendar (m : Mach) (actor : Nat × Nat) (off : Int) : Mach :=
  let old := toSigned 64 (m.reg 0x1300 6 0)
  if off = old then m
  else (m.setReg 0x1300 6 0 (ofSigned 64 off)).calendarStepped actor ((off - old) * 5 / 4) old m.utcOffset

/-- The UTC offset in force changed by `f`. -/
def Mach.setUtc (m : Mach) (actor : Nat × Nat) (f : Mach → Mach) : Mach :=
  let old := m.utcOffset
  let m := f m
  if m.utcOffset = old then m
  else m.calendarStepped actor ((old - m.utcOffset) * 1000000000) (toSigned 64 (m.reg 0x1300 6 0)) old

end Sys2Proof.Machine
end

