-- ==== Sys2Proof/Machine/Access.lean ====
section
/-! DEFINITION. Who may do what in the dictionary: requesters, their selections and roles, grant sets, abort codes
and their precedence (14_cairn.md R394-R401; 02_address_spaces.md R41; 16_security.md R458). -/

namespace Sys2Proof.Machine

/-! ## Abort codes (Table 14-10) -/
/-- "No object". -/
def abNoObject : Nat := 0x01000001
/-- "No subindex". -/
def abNoSubindex : Nat := 0x01000002
/-- "Read-only". -/
def abReadOnly : Nat := 0x02000001
/-- "Write-only". -/
def abWriteOnly : Nat := 0x02000002
/-- "Role insufficient". -/
def abRole : Nat := 0x02000003
/-- "Locked by confidential mode". -/
def abLocked : Nat := 0x05000002
/-- "Type or length mismatch". -/
def abType : Nat := 0x03000003
/-- "Invalid date". -/
def abDate : Nat := 0x03000002
/-- "Out of range". -/
def abRange : Nat := 0x03000001
/-- "Busy". -/
def abBusy : Nat := 0x04000001
/-- "Staging conflict". -/
def abConflict : Nat := 0x04000002
/-- "Tally exhausted". -/
def abTally : Nat := 0x05000001
/-- "General". -/
def abGeneral : Nat := 0x06000001

/-- The place of an abort in the order of Table 14-10. -/
def abortOrder (a : Nat) : Nat :=
  ([abNoObject, abNoSubindex, abReadOnly, abWriteOnly, abRole, abLocked, abType, abDate, abRange, abBusy, abConflict,
    abTally, abGeneral].findIdx? (· == a)).getD 13

/-! ## Requesters -/

/-- The LD of a link. -/
def Mach.ld? (m : Mach) (link ld : Nat) : Option Ld := tget m.host.lds (link * 16 + ld)

/-- The identity an LD is bound to. -/
def Mach.boundIdent (m : Mach) (link ld : Nat) : Option Nat :=
  match m.ld? link ld with
  | some l => if l.bind = .bound then some l.ident else none
  | none => none

/-- The identity of an in-band requester. -/
def Mach.identOf (m : Mach) : Requester → Option Nat
  | .inBand link ld => m.boundIdent link ld
  | _ => none

/-- R122: whether a host port requires IDE: its entry says so, or every port must (16_security.md, 0x6001.03). -/
def Mach.ideRequired (m : Mach) (port : Nat) : Bool := m.reg 0x3400 6 port == 1 || m.reg 0x6001 3 0 == 1

/-- The role bits of a requester: a session's credential's, an identity's in-band roles (0x3430.04) with Steward
withheld while 0x6001.04 caps it and Custodian never (04_host_ports.md R124); none while a port that requires IDE has no
CXL.cachemem stream (R122). -/
def Mach.roles (m : Mach) (q : Requester) : Nat :=
  match q with
  | .session n => (tget m.cairn.reqs n).elim 0 (·.roles)
  | .bare => 0
  | .inBand link ld =>
    match m.boundIdent link ld with
    | none => 0
    | some i =>
      if m.ideRequired (link / 2) ∧ !((m.ld? link ld).any (·.ideMem)) then 0 else
      let r := m.reg 0x3430 4 i % 8
      if m.reg 0x6001 4 0 = 1 then setBit r 2 false else r

/-- Whether Cairn frames are accepted and sent (R385, Table 14-3): a node ID held, and DAD passed. -/
def Mach.cairnUp (m : Mach) : Bool :=
  m.cairn.enum.dadDone && (m.reg 0x1100 6 0 == 1 || m.reg 0x1100 6 0 == 3)

/-- Whether a requester's frames reach the dictionary: its session is open, over Ridgeline or a Cairn port that is up; an LD
that is bound; the Cairn port for a bare request. -/
def Mach.reaches (m : Mach) : Requester → Bool
  | .session n => (tget m.cairn.reqs n).any fun s => s.ridgeline || m.cairnUp
  | .bare => m.cairnUp
  | .inBand link ld => (m.boundIdent link ld).isSome

/-- Whether role bits give a role's rights (R399): Steward includes Operator, every role includes Observer,
Custodian includes neither Operator nor Steward. -/
def hasRole (roles : Nat) : Role → Bool
  | .observer => roles != 0
  | .operator => bit roles 1 || bit roles 2
  | .steward => bit roles 2
  | .custodian => bit roles 3

/-- A requester's state, or the one it starts with. -/
def Mach.req (m : Mach) (q : Requester) : ReqState :=
  tgetD m.cairn.reqs q.code (ReqState.fresh 0xFF 0 0 false 0)

/-- A requester's state changed. -/
def Mach.setReq (m : Mach) (q : Requester) (s : ReqState) : Mach :=
  { m with cairn := { m.cairn with reqs := tput m.cairn.reqs q.code s } }

/-- A requester's selection (R513). -/
def Mach.sel (m : Mach) (q : Requester) (idx sub : Nat) : Nat :=
  (tget (m.req q).sels (idx * 256 + sub)).getD (dictDefault idx sub)

/-- A requester's selection set. -/
def Mach.setSel (m : Mach) (q : Requester) (idx sub v : Nat) : Mach :=
  m.setReq q { m.req q with sels := tput (m.req q).sels (idx * 256 + sub) v }

/-- The row of an entry that a requester's selections pick (R513). -/
def Mach.rowOf (m : Mach) (q : Requester) (idx sub : Nat) : Nat :=
  let s := m.sel q
  match dictIndex idx with
  | 0x3610 => s 0x3610 1
  | 0x4410 => s 0x4410 1
  | 0x4411 => s 0x4410 1
  | 0x3040 => if sub = 7 then 0 else s 0x3040 1
  | 0x3410 => if sub = 6 then 0 else s 0x3410 1
  | 0x3422 => s 0x3422 1
  | 0x3400 => s 0x3400 1
  | 0x3402 => s 0x3400 1 * 32 + s 0x3402 1
  | 0x3430 => if sub = 6 then 0 else s 0x3430 1
  | 0x3431 => s 0x3431 1
  | 0x4010 => s 0x4010 1
  | 0x4011 => s 0x4010 1
  | 0x4100 => if sub = 6 then 0 else s 0x4100 1
  | 0x4101 => if sub = 4 then 0 else s 0x4101 1
  | 0x4210 => s 0x4210 1
  | 0x4230 => s 0x4230 1
  | 0x4400 => if sub = 9 then 0 else s 0x4400 1
  | 0x4440 => if sub = 6 then 0 else s 0x4440 1
  | 0x4501 => s 0x4501 1
  | 0x4510 => if sub = 0x0D then 0 else s 0x4510 1
  | 0x4520 => s 0x4520 1
  | 0x4530 => s 0x4530 1
  | 0x5001 => s 0x5001 1
  | 0x5101 => s 0x5101 1
  | 0x5110 => s 0x5110 1
  | 0x5210 => if sub = 8 then 0 else s 0x5210 1
  | 0x5230 => if sub = 5 then 0 else s 0x5230 1
  | 0x5231 => s 0x5230 1
  | 0x5301 => s 0x5301 1 * 64 + s 0x5301 2
  | 0x5302 => s 0x5301 1 * 64 + s 0x5301 2
  | 0x5401 => s 0x5401 1
  | 0x5410 => if sub = 2 then s 0x5410 1 else s 0x5410 3
  | 0x1120 => s 0x1120 1
  | 0x1200 => if sub = 4 then 0 else s 0x1200 1
  | 0x1210 => s 0x1210 3
  | 0x2101 => s 0x2101 1
  | 0x2220 => s 0x2220 1 * 16 + s 0x2220 2
  | 0x6000 => s 0x6000 1
  | 0x6031 => s 0x6031 1
  | 0x7100 => if sub ≤ 4 then s 0x7100 1 * 8 + s 0x7100 2 else if sub = 6 then s 0x7100 1 * 16 + s 0x7100 5 else s 0x7100 1
  | 0x7101 => s 0x7101 1
  | 0x7102 => if sub ≤ 5 then s 0x7102 1 * 32 + s 0x7102 2 else s 0x7102 1
  | 0x7140 => s 0x7140 1
  | 0x7150 => if sub = 5 ∨ sub = 6 then s 0x7150 1 * 8 + s 0x7150 4 else s 0x7150 1
  | _ => indexRow idx

/-! ## Grant sets (02_address_spaces.md R41) -/

/-- Whether an extent held by a host identity covers a DPA range: HELD or GRACE (03_store_tiers.md R93). -/
def Mach.extentBase (m : Mach) (k : Nat) : Nat := m.reg 0x3420 1 0 + k * 2 ^ 30

/-- The DPA ranges of an owner's grant set: for a host identity its valid HRT entries and held extents; for 0xFF
the whole device address space. -/
def Mach.grants (m : Mach) (owner : Nat) : List (Nat × Nat) :=
  if owner = 0xFF then [(0, m.reg 0x3000 1 0)]
  else
    ((List.range 64).filterMap fun r =>
      if bit (m.reg 0x3410 5 r) 0 && m.reg 0x3410 2 r == owner then some (m.reg 0x3410 3 r, m.reg 0x3410 4 r) else none)
    ++ (m.store.leases.filterMap fun (p : Nat × Lease) =>
      if (p.2.state == 1 || p.2.state == 2) && p.2.holder == owner then some (m.extentBase p.1, 2 ^ 30) else none)

/-- Whether a DPA range of n bytes lies within ranges, walking upward through them. -/
def coveredBy (rs : List (Nat × Nat)) : Nat → Nat → Nat → Bool
  | 0, _, n => n == 0
  | k + 1, a, n =>
    n == 0 || (match rs.find? (fun r => decide (r.1 ≤ a) && decide (a < r.1 + r.2)) with
      | none => false
      | some r => let step := min n (r.1 + r.2 - a); coveredBy rs k (a + step) (n - step))

/-- Whether a DPA range lies within an owner's grant set. -/
def Mach.inGrant (m : Mach) (owner dpa n : Nat) : Bool :=
  let rs := m.grants owner
  coveredBy rs (rs.length + 1) dpa n

/-! ## Confidential mode's locks (Table 16-8) -/

/-- 0x6020.07: 0 OFF, 1 ENTERING, 2 ON, 3 EXITING. -/
def Mach.confState (m : Mach) : Nat := m.reg 0x6020 7 0
/-- 0x6020.01: the tenant identity. -/
def Mach.tenant (m : Mach) : Nat := m.reg 0x6020 1 0

/-- Whether confidential mode locks a write (R458, R487): debug entries while the mode is not OFF; while ON, others'
writes to the tenant's HRT entries, ASTs, queues or event blocks, to 0x6020.01-.03, and to a mirror session that
names the tenant's port. -/
def Mach.confLocked (m : Mach) (q : Requester) (idx sub : Nat) : Bool :=
  let row := m.rowOf q idx sub
  let mine := m.identOf q == some m.tenant
  if 0x9000 ≤ idx ∧ idx ≤ 0x9FFF then m.confState != 0
  else if m.confState = 2 ∧ !mine then
    (idx == 0x3410 && m.reg 0x3410 2 row == m.tenant) ||
    (idx == 0x3610 && decide (2 ≤ sub) && m.reg 0x3610 3 row == m.tenant) ||
    (idx == 0x5401 && decide (2 ≤ sub) && m.reg 0x5401 3 row == m.tenant) ||
    (idx == 0x5410 && sub == 2 && m.reg 0x5410 2 row == m.tenant) ||
    (idx == 0x5410 && sub == 4 && m.reg 0x5410 2 (row / 256) == m.tenant) ||
    (idx == 0x6020 && decide (sub ≤ 3)) ||
    (idx == 0x4230 && decide (2 ≤ sub) && m.host.lds.any fun (p : Nat × Ld) =>
      p.2.bind = .bound && p.2.ident == m.tenant && m.reg 0x4230 3 row % 16 == 8 + p.1 / 32)
  else false

/-! ## The gate of a write, and its answer -/

/-- Whether writes of an entry carry a selection. -/
def isSelection (idx sub : Nat) : Bool :=
  [(0x3610, 1), (0x4410, 1), (0x3040, 1), (0x3410, 1), (0x3422, 1), (0x3400, 1), (0x3402, 1), (0x3430, 1), (0x3431, 1),
   (0x3030, 1), (0x4010, 1), (0x4100, 1), (0x4101, 1), (0x4210, 1), (0x4230, 1), (0x4400, 1), (0x4440, 1), (0x4501, 1),
   (0x4510, 1), (0x4520, 1), (0x4530, 1), (0x5001, 1), (0x5101, 1), (0x5110, 1), (0x5210, 1), (0x5230, 1), (0x5301, 1),
   (0x5301, 2), (0x5401, 1), (0x5410, 1), (0x5410, 3), (0x1120, 1), (0x1200, 1), (0x1210, 3), (0x2101, 1), (0x2201, 1),
   (0x2220, 1), (0x2220, 2), (0x6000, 1), (0x6031, 1), (0x7100, 1), (0x7100, 2), (0x7100, 5), (0x7101, 1), (0x7102, 1),
   (0x7102, 2), (0x7140, 1), (0x7150, 1), (0x7150, 4), (0x7150, 7), (0x7150, 8), (0x7150, 9), (0x7150, 0x0A),
   (0x9010, 1), (0x9010, 2), (0x9010, 3), (0x9010, 4)].contains (idx, sub)

/-- The owner rules of the chapters for an Operator in band (R65, R227, R280, R470): it acts only on what its own
identity owns. The pending owner of a disabled AST or queue is its field of that name. -/
def Mach.ownerOk (m : Mach) (q : Requester) (idx sub : Nat) : Bool :=
  match m.identOf q with
  | none => true
  | some i =>
    if hasRole (m.roles q) .steward then true else
    let row := m.rowOf q idx sub
    if idx = 0x3610 ∧ 2 ≤ sub ∧ sub ≠ 3 then m.reg 0x3610 3 row == i
    else if idx = 0x5401 ∧ 3 < sub then m.reg 0x5401 3 row == i
    else if idx = 0x5410 ∧ sub = 4 then m.reg 0x5410 2 (row / 256) == i
    else if idx = 0x5110 ∧ sub = 0x46 then m.reg 0x5101 2 row == i
    else if idx = 0x6031 ∧ 2 ≤ sub ∧ (tget m.sec.bound row).isSome then m.reg 0x6031 9 row == i
    else true

/-- Whether a writer is the tenant with Operator in band, which may write 0x6020.06 (R456, R470). -/
def Mach.tenantExit (m : Mach) (q : Requester) (idx sub : Nat) : Bool :=
  idx == 0x6020 && sub == 6 && m.identOf q == some m.tenant && hasRole (m.roles q) .operator

/-- The checks of Table 14-10 up to "Locked by confidential mode" for a write of a numeric entry: that the entry
exists and is writable, the role, the owner rules, the debug policy, the locks. -/
def Mach.gate (m : Mach) (q : Requester) (idx sub : Nat) : Option Nat :=
  match tget dictTable (dictIndex idx) with
  | none => some abNoObject
  | some _ =>
    match dictLine idx sub with
    | none => some abNoSubindex
    | some e =>
      if e.acc = .ro ∨ e.acc = .const then some abReadOnly
      else if (!hasRole (m.roles q) e.role && !m.tenantExit q idx sub) || !m.ownerOk q idx sub then some abRole
      else if 0x9000 ≤ idx ∧ idx ≤ 0x9FFF ∧ m.reg 0x6001 1 0 = 1 then some abRole
      else if idx = 0x3610 ∧ sub = 3 ∧ !q.isInBand ∧ !hasRole (m.roles q) .steward then some abRole
      else if q.isInBand && m.reg 0x3450 1 0 == 0 then some abRole
      else if m.confLocked q idx sub then some abLocked
      else none

/-- The type code of Table 14-8. -/
def DType.code : DType → Nat
  | .bool => 1 | .u8 => 2 | .u16 => 3 | .u32 => 4 | .u64 => 5 | .s32 => 6 | .s64 => 7
  | .date => 9 | .tod => 0x0A | .timebase => 0x0B | .octets => 0x0C | .string => 0x0D | .domain => 0x0E

/-- The bytes of a type of fixed size. -/
def DType.size : DType → Nat
  | .bool => 1 | .u8 => 1 | .u16 => 2 | .u32 => 4 | .u64 => 8 | .s32 => 4 | .s64 => 8
  | .date => 4 | .tod => 8 | .timebase => 8 | .octets => 0 | .string => 0 | .domain => 0

/-- The type code of an entry, 0 when it does not exist. -/
def typeCode (idx sub : Nat) : Nat := match dictLine idx sub with | some e => e.ty.code | none => 0

/-! ## Interrupts of an LD and its mirror (04_host_ports.md R107, R123) -/

/-- An LD changed. -/
def Mach.setLd (m : Mach) (link ld : Nat) (l : Ld) : Mach :=
  { m with host := { m.host with lds := tput m.host.lds (link * 16 + ld) l } }

/-- An LD's MSI-X vectors (R107): those allocated, or by default 2,048 shared among the enabled LDs of the port,
rounded down to a power of two. -/
def Mach.vectors (m : Mach) (link ld : Nat) : Nat :=
  let port := link / 2
  match tget m.cairn.regs (regKey 0x3402 2 (port * 32 + link % 2 * 16 + ld)) with
  | some v => v
  | none =>
    let n := m.reg 0x3400 3 port * (if m.reg 0x3400 2 port = 1 then 2 else 1)
    2 ^ Nat.log2 (2048 / max n 1)

/-- R107: an MSI-X vector raised for an LD: dropped and counted, made pending, or sent. -/
def Mach.msix (m : Mach) (link ld vector : Nat) : Mach :=
  match m.ld? link ld with
  | none => m.bump 0x7040 8
  | some l =>
    if l.bind ≠ .bound ∨ m.vectors link ld ≤ vector ∨ !l.msixEnable then m.bump 0x7040 8
    else
      let e := tgetD l.msix vector ⟨0, 0, true, false⟩
      if l.functionMask ∨ e.masked then m.setLd link ld { l with msix := tput l.msix vector { e with pending := true } }
      else m.emit (.msix link ld vector)

/-- A response as the frame that carries it (Tables 14-4 and 14-7). -/
def Response.bytes (r : Response) : List Byte :=
  [1, 2] ++ leBytes 2 (32 + r.data.length) ++ leBytes 4 r.txn ++ zeros 8 ++
  [byteOf r.op, 0] ++ leBytes 2 r.index ++ [byteOf r.sub, byteOf r.ty] ++ leBytes 2 r.data.length ++ leBytes 4 r.abort ++
  leBytes 4 r.total ++ r.data

/-- R123: a mirror request served: the response written, BUSY cleared, DONE set, the completion vector raised. -/
def Mach.mirrorDone (m : Mach) (link ld : Nat) (bs : List Byte) : Mach :=
  match m.ld? link ld with
  | none => m
  | some l =>
    let m := m.setLd link ld { l with mirror := { l.mirror with resp := bs, respLen := bs.length, busy := false, done := true } }
    if l.mirror.vector = 0x7FF then m else m.msix link ld l.mirror.vector

/-- An answer sent: a session keeps its last 16 (R392), and one that has ended gets none (R401); in band it goes to the mirror. -/
def Mach.answer (m : Mach) (q : Requester) (r : Response) : Mach :=
  let sent := (m.bump 0x7110 2).emit (.response q r)
  match q with
  | .session n =>
    match tget m.cairn.reqs n with
    | none => m
    | some s => sent.setReq q { s with kept := (if s.kept.length < 16 then s.kept else s.kept.tail) ++ [r] }
  | .inBand link ld => sent.mirrorDone link ld r.bytes
  | .bare => sent

/-- A write answered with an abort, 0 for success. -/
def Mach.answerWrite (m : Mach) (s : Src) (idx sub abort : Nat) : Mach :=
  m.answer s.q ⟨s.txn, if s.seg then 4 else 2, idx, sub, typeCode idx sub, abort, 0, []⟩

/-- The kept response of a repeated transaction (R392). -/
def Mach.kept? (m : Mach) (q : Requester) (txn : Nat) : Option Response :=
  (m.req q).kept.find? (·.txn == txn)

/-- A write that has a row of its own, from its sender to its answer (R392, R398): nothing when it cannot arrive; a repeated transaction is
answered with its kept response and not executed; otherwise the gate, then the entry's own rule `act`. -/
def Mach.dictWrite (m : Mach) (s : Src) (idx sub : Nat) (act : Mach → Except Nat Mach) : Mach :=
  if !m.reaches s.q then m else
  let m := m.bump 0x7110 1
  match m.kept? s.q s.txn with
  | some r => ((m.bump 0x7110 3).bump 0x7110 2).emit (.response s.q r)
  | none =>
    match m.gate s.q idx sub with
    | some a => m.answerWrite s idx sub a
    | none =>
      match act m with
      | .error a => m.answerWrite s idx sub a
      | .ok m' => m'.answerWrite s idx sub 0

/-- An audit entry of what a requester did. -/
def Mach.auditReq (m : Mach) (q : Requester) (code : Nat) (detail : List Byte) : Mach :=
  m.auditBy (m.actorOf q.code) code detail

end Sys2Proof.Machine
end

