-- ==== Sys2Proof/Machine/CairnOps.lean ====
section
/-! DEFINITION. Requests of transfer frames (14_cairn.md R392-R394): the checks of their bodies, who may read an entry, values on
the wire, segmented writes. -/

namespace Sys2Proof.Machine

/-- The abort of lowest order among those a request meets (R398). -/
def firstAbort (as : List Nat) : Option Nat := minBy abortOrder as

/-- R392: the faults of a request's body. -/
def reqFaults (r : Request) : List Nat :=
  let known := decide (1 ≤ r.op) && decide (r.op ≤ 4)
  let read := r.op == 1 || r.op == 3
  let flagsOk := if r.op = 4 then decide (r.flags < 2) else if r.op = 1 then r.flags == 0 || r.flags == 2 else r.flags == 0
  (if known then [] else [abRange]) ++
  (if known && !flagsOk then [abRange] else []) ++
  (if read && r.ty != 0 then [abRange] else []) ++
  (if (r.op == 1 || r.op == 2) && r.off != 0 then [abRange] else []) ++
  (if read && (r.len != 0 || !r.data.isEmpty) then [abType] else []) ++
  (if (r.op == 2 || r.op == 4) && (r.len != r.data.length || decide (996 < r.len)) then [abType] else [])

/-- Whether an entry exists, as far as Table 14-10's first two rows ask. -/
def entryFault (idx sub : Nat) : Option Nat :=
  match tget dictTable (dictIndex idx) with
  | none => some abNoObject
  | some _ => if (dictLine idx sub).isNone then some abNoSubindex else none

/-- The checks of Table 14-10 up to "Locked by confidential mode" for a read: Observer for every entry outside 0x9000-0x9FFF,
Steward there while the debug policy is open (R399; 17_telemetry.md R487); in band only while 0x3450.01 is 1. -/
def Mach.readGate (m : Mach) (q : Requester) (idx sub : Nat) : Option Nat :=
  match entryFault idx sub with
  | some a => some a
  | none =>
    let debug := decide (0x9000 ≤ idx) && decide (idx ≤ 0x9FFF)
    if (dictLine idx sub).any (·.acc == .wo) then some abWriteOnly
    else if !hasRole (m.roles q) (if debug then .steward else .observer) then some abRole
    else if debug && m.reg 0x6001 1 0 == 1 then some abRole
    else if q.isInBand && m.reg 0x3450 1 0 == 0 then some abRole
    else if debug && m.confState != 0 then some abLocked
    else none

/-- Whether a type's value is bytes. -/
def DType.isBytes (t : DType) : Bool := t == .octets || t == .string || t == .domain

/-- A value as it lies in a frame, of an entry's type. -/
def DVal.bytes (v : DVal) (e : DEntry) : List Byte :=
  match v with
  | .oct bs => bs
  | .num n => leBytes e.ty.size n

/-- A value read from a frame's data. -/
def DEntry.parse (e : DEntry) (bs : List Byte) : DVal := if e.ty.isBytes then .oct bs else .num (leNat bs)

/-- Whether data fit an entry by type and length (R392): the size of its type, the length an OCTETS entry states, any length of
a STRING up to its maximum. -/
def DEntry.fits (e : DEntry) (ty n : Nat) : Bool :=
  ty == e.ty.code && (match e.ty with
    | .octets => e.len == 0 || n == e.len
    | .string => decide (n ≤ e.len)
    | .domain => true
    | t => n == t.size)

/-! ## Segmented writes (R393) -/

/-- A segment taken: none while the write goes on, the whole value with LAST, an abort when it is refused; a refused segment
above OFFSET 0 discards the write. -/
def Mach.takeSegment (m : Mach) (q : Requester) (r : Request) : Except Nat (Option (List Byte)) × Mach :=
  let s := m.req q
  let last := bit r.flags 0
  let keep (w : Option SegWrite) : Mach := m.setReq q { s with segWrite := w }
  let other := m.cairn.reqs.any fun (p : Nat × ReqState) => p.1 != q.code &&
    p.2.segWrite.any fun w => w.index == r.index && w.sub == r.sub
  let put (bs : List Byte) : Except Nat (Option (List Byte)) × Mach :=
    if last then (.ok (some bs), keep none) else (.ok none, keep (some ⟨r.index, r.sub, bs⟩))
  if r.off = 0 then (if other then (.error abBusy, m) else put r.data)
  else match s.segWrite with
    | none => (.error abGeneral, m)
    | some w =>
      if w.index ≠ r.index ∨ w.sub ≠ r.sub ∨ w.bytes.length ≠ r.off then (.error abGeneral, keep none)
      else put (w.bytes ++ r.data)

/-- A request answered: a copy of its OP, index and subindex with the entry's type. -/
def Mach.answerReq (m : Mach) (q : Requester) (r : Request) (abort total : Nat) (data : List Byte) : Mach :=
  m.answer q ⟨r.txn, r.op, r.index, r.sub, typeCode r.index r.sub, abort, total, data⟩

/-- A request counted; a repeated transaction is answered with its kept response (R392), any other is served. -/
def Mach.once (m : Mach) (q : Requester) (txn : Nat) (f : Mach → Mach) : Mach :=
  if !m.reaches q then m else
  let m := m.bump 0x7110 1
  match m.kept? q txn with
  | some r => ((m.bump 0x7110 3).bump 0x7110 2).emit (.response q r)
  | none => f m

/-- A SEG_WRITE served: the gate, its body and type, `pre` on the entry's state, the segment, `each` for every one accepted, and
the whole value under the entry's rule. -/
def Mach.serveSegment (m : Mach) (q : Requester) (r : Request) (pre : Mach → Option Nat) (each : List Byte → Mach → Mach)
    (act : List Byte → Mach → Except Nat Mach) : Mach :=
  m.once q r.txn fun m =>
    match m.gate q r.index r.sub with
    | some a => m.answerReq q r a 0 []
    | none =>
      let ty := if r.ty ≠ typeCode r.index r.sub then [abType] else []
      match firstAbort (reqFaults r ++ ty ++ (pre m).toList) with
      | some a => m.answerReq q r a 0 []
      | none =>
        match m.takeSegment q r with
        | (.error a, m) => m.answerReq q r a 0 []
        | (.ok none, m) => (each r.data m).answerReq q r 0 0 []
        | (.ok (some bs), m) =>
          match act bs (each r.data m) with
          | .error a => (each r.data m).answerReq q r a 0 []
          | .ok m => m.answerReq q r 0 0 []

end Sys2Proof.Machine
end

