-- ==== Sys2Proof/Machine/Moraine.lean ====
section
/-! DEFINITION. Operations of the store: capacities, frames, domains, compressed slots, movements, allocation,
watermarks, reads and writes at the media (03_store_tiers.md R66-R94). -/

namespace Sys2Proof.Machine

/-! ## Status values (00_scope.md Table 00-6) -/
def stOk : Nat := 0
def stInvalDesc : Nat := 0x0101
def stBadAst : Nat := 0x0102
def stBadFormat : Nat := 0x0103
def stXlateFault : Nat := 0x0201
def stPerm : Nat := 0x0202
def stKeyFault : Nat := 0x0203
def stQuota : Nat := 0x0204
def stPoison : Nat := 0x0301
def stLowerTierFail : Nat := 0x0302
def stStoreFull : Nat := 0x0303
def stBusErr : Nat := 0x0304
def stMapStale : Nat := 0x0401
def stLinkLost : Nat := 0x0402
def stTargetDead : Nat := 0x0403
def stTimeout : Nat := 0x0404
def stRedirect : Nat := 0x0405
def stDomainDown : Nat := 0x0501
def stBankHang : Nat := 0x0502
def stCollAbort : Nat := 0x0503
def stFencedDie : Nat := 0x0504
def stTenantBusy : Nat := 0x0601
def stBindingRefused : Nat := 0x0602

/-! ## Media, capacities and frames (R66, R69, R71, R85-R87) -/

/-- Frames of 64 KiB in a stack. -/
def framesPerStack : Nat := 786432

/-- 0x3025: state of a stack, 1 ACTIVE. -/
def Mach.stackState (m : Mach) (s : Nat) : Nat := m.reg 0x3025 (1 + s) 0
/-- 0x3021: state of a DIMM channel, 1 ACTIVE. -/
def Mach.chanState (m : Mach) (c : Nat) : Nat := m.reg 0x3021 (1 + c) 0
/-- The stacks that are ACTIVE. -/
def Mach.activeStacks (m : Mach) : List Nat := (List.range (2 * m.dies)).filter fun s => m.stackState s == 1

/-- The system area in frames for a device address space of n bytes (R66): n ÷ 4,096 plus 64 MiB a die. -/
def Mach.sysFrames (m : Mach) (das : Nat) : Nat := ceilDiv (das / 4096 + 64 * 2 ^ 20 * m.dies) 65536

/-- The system-area frames of an active stack: ⌊A ÷ n⌋, and one more on the first A mod n of them. -/
def Mach.stackSys (m : Mach) (s : Nat) : Nat :=
  let ss := m.activeStacks
  let a := m.sysFrames (m.reg 0x3000 1 0)
  if ss.length = 0 then 0
  else a / ss.length + (if (ss.findIdx? (· == s)).getD 99 < a % ss.length then 1 else 0)

/-- The movement-reserve frames on an active stack: 32 of its die's 64, or all 64 when the die's other stack is not
active. -/
def Mach.stackReserve (m : Mach) (s : Nat) : Nat :=
  if m.stackState (if s % 2 = 0 then s + 1 else s - 1) = 1 then 32 else 64

/-- The ordinary frames of an active stack: those below its reserve and system area. -/
def Mach.stackOrdinary (m : Mach) (s : Nat) : Nat := framesPerStack - m.stackSys s - m.stackReserve s

/-- The stacked frames that granules hold and movements have taken. -/
def Mach.usedStack (m : Mach) : List Nat :=
  (m.store.gran.filterMap fun (p : Nat × Granule) => if p.2.loc = .stack then some p.2.frame else none) ++
  (m.store.moves.filterMap fun (p : Nat × Movement) => match p.2.dst with | .stack f => some f | _ => none)

/-- The stacked frames freed and not yet zeroed. -/
def Mach.unzeroedStack (m : Mach) : List Nat :=
  m.store.unzeroed.filterMap fun f => match f with | .stack x => some x | _ => none

/-- The free ordinary frames of a stack. -/
def Mach.stackFree (m : Mach) (s : Nat) : Nat :=
  let lim := s * framesPerStack + m.stackOrdinary s
  m.stackOrdinary s - (m.usedStack.filter fun f => decide (s * framesPerStack ≤ f) && decide (f < lim)).length

/-- Usable stacked frames (0x3001.01). -/
def Mach.stackUsable (m : Mach) : Nat := sumL (m.activeStacks.map m.stackOrdinary)
/-- Free ordinary stacked frames (0x3001.02). -/
def Mach.stackFreeAll (m : Mach) : Nat := sumL (m.activeStacks.map m.stackFree)

/-- R69: the stack a new frame comes from, the active one with the most free ordinary frames, the lower number
among equals, `avoid` left out. -/
def Mach.bestStack (m : Mach) (avoid : Option Nat) : Option Nat :=
  let ss := m.activeStacks.filter fun s => some s != avoid && decide (0 < m.stackFree s)
  minBy (fun s => framesPerStack - m.stackFree s) ss

/-- R69: the lowest free ordinary frame of that stack; an allocation takes only a zeroed one. -/
def Mach.newStackFrame (m : Mach) (zeroed : Bool) (avoid : Option Nat) : Option Nat :=
  let used := m.usedStack
  let dirty := if zeroed then m.unzeroedStack else []
  match m.bestStack avoid with
  | none => none
  | some s =>
    let lo := s * framesPerStack
    let busy := (used ++ dirty).filter fun f => decide (lo ≤ f) && decide (f < lo + m.stackOrdinary s)
    firstFrom (min (m.stackOrdinary s) (busy.length + 1)) lo fun f => !busy.contains f

/-- A frame of a die's movement reserve (R66, R69). -/
def Mach.reserveFrame (m : Mach) (die : Nat) : Option Nat :=
  let used := m.usedStack
  ([2 * die, 2 * die + 1].filter fun s => m.stackState s == 1).findSome? fun s =>
    firstFrom (m.stackReserve s) (s * framesPerStack + m.stackOrdinary s) fun f => !used.contains f

/-- G in GiB (0x3020.01): the smallest populated DIMM until one is committed (R73). -/
def Mach.globalGiB (m : Mach) : Nat :=
  match tget m.cairn.regs (regKey 0x3020 1 0) with
  | some v => v
  | none => ((m.store.dimmGiB.map Prod.snd).min?).getD 0

/-- The members of an interleave domain (R71). -/
def Mach.members (m : Mach) (d : Nat) : List Nat := tgetD m.store.members d []

/-- The rows of a domain (R71). -/
def Mach.domainRows (m : Mach) (d : Nat) : Nat :=
  if d = 0 then m.globalGiB * 2 ^ 18
  else ((((m.members d).map fun c => tgetD m.store.dimmGiB c 0).min?).getD 0 - m.globalGiB) * 2 ^ 18

/-- The frames of a domain: ⌊c × r ÷ 16⌋ (R71). -/
def Mach.domainFrames (m : Mach) (d : Nat) : Nat := (m.members d).length * m.domainRows d / 16

/-- R71: the channel and the byte address on its DIMM of sub-block s of frame f. -/
def Mach.dimmPlace (m : Mach) (d f s : Nat) : Nat × Nat :=
  let ms := m.members d
  let i := 16 * f + s
  let c := ms.length
  (ms.getD (i % c) 99, (if d = 0 then 0 else m.globalGiB * 2 ^ 30) + i / c * 4096)

/-- The frames of a domain that granules, compressed frames and movements hold. -/
def Mach.usedDimm (m : Mach) (d : Nat) : List Nat :=
  ((m.store.gran.filterMap fun (p : Nat × Granule) =>
      if (p.2.loc = .dimm ∨ p.2.loc = .comp) ∧ p.2.domain = d then some p.2.frame else none) ++
   (m.store.moves.filterMap fun (p : Nat × Movement) => match p.2.dst with
      | .dimm e f => if e = d then some f else none
      | .slot e f _ _ => if e = d then some f else none
      | _ => none)).eraseDups

/-- The frames of a domain freed and not yet zeroed. -/
def Mach.unzeroedDimm (m : Mach) (d : Nat) : List Nat :=
  m.store.unzeroed.filterMap fun f => match f with | .dimm e x => if e = d then some x else none | _ => none

/-- R86: the free frames of a domain, its reserve of 256 left out; a smaller domain has none. -/
def Mach.dimmFree (m : Mach) (d : Nat) : Nat := m.domainFrames d - (m.usedDimm d).length - 256

/-- The lowest free frame of a domain. An allocation leaves the reserve alone and takes only a zeroed frame; a
movement may use the reserve. -/
def Mach.newDimmFrame (m : Mach) (d : Nat) (alloc : Bool) : Option Nat :=
  let busy := m.usedDimm d ++ (if alloc then m.unzeroedDimm d else [])
  let n := m.domainFrames d
  if alloc && m.dimmFree d == 0 then none
  else firstFrom (min n (busy.length + 1)) 0 fun f => !busy.contains f

/-- Physical store in bytes for a system area of n frames (0x3000.02, R85). -/
def Mach.physicalFor (m : Mach) (sys : Nat) : Nat :=
  let st := sumL (m.activeStacks.map fun s => framesPerStack - m.stackReserve s)
  (st - sys + sumL ((List.range 9).map m.domainFrames)) * 65536

/-- 0x3000.02. -/
def Mach.physicalStore (m : Mach) : Nat := m.physicalFor (m.sysFrames (m.reg 0x3000 1 0))

/-- R85: the default device address space: the largest multiple of 1 GiB not above the physical store it leaves.
Found by stepping down from the store that an empty system area would leave. -/
def Mach.defaultSpace (m : Mach) : Nat → Nat → Nat
  | 0, k => k * 2 ^ 30
  | n + 1, k => if k * 2 ^ 30 ≤ m.physicalFor (m.sysFrames (k * 2 ^ 30)) then k * 2 ^ 30 else m.defaultSpace n (k - 1)

/-- 0x3000.04: bytes backed from ordinary pools (R87). -/
def Mach.backed (m : Mach) : Nat :=
  (sumL (m.activeStacks.map fun s => m.stackOrdinary s - m.stackFree s) +
   sumL ((List.range 9).map fun d => (m.usedDimm d).length)) * 65536

/-! ## Placement (R72), map owner (R67), age (R68) -/

/-- R17: the home die of a DPA under a remap table. -/
def homeIndex (dpa dLog2 : Nat) : Nat :=
  let p := dpa / 4096 % 2 ^ 32
  ((List.range 11).foldl (fun h i => Nat.xor h (p / 2 ^ (3 * i) % 8)) 0) % 2 ^ dLog2

/-- R17: the home die of a DPA under the remap table in force. -/
def Mach.homeOf (m : Mach) (dpa : Nat) : Nat := m.reg 0x3381 (1 + homeIndex dpa m.dLog2) 0

/-- R67: the map owner of a granule. -/
def Mach.mapOwner (m : Mach) (g : Nat) : Nat := m.homeOf (g * 65536)

/-- R72: the interleave domain a granule uses when it is placed. -/
def Mach.placement (m : Mach) (g : Nat) : Nat :=
  match (List.range 64).find? fun r => m.reg 0x3040 6 r == 1 && decide (m.reg 0x3040 2 r ≤ g * 65536) &&
      decide (g * 65536 < m.reg 0x3040 2 r + m.reg 0x3040 3 r) with
  | none => 0
  | some r =>
    if m.reg 0x3040 4 r = 0 then 0
    else if m.reg 0x3040 5 r = 0xF then m.mapOwner g + 1 else m.reg 0x3040 5 r + 1

/-- The millisecond count of the timebase, modulo 65,536. -/
def Mach.nowMs (m : Mach) : Nat := m.now / ticksPerMs % 65536

/-- R68: the age of a granule. -/
def Mach.age (m : Mach) (g : Nat) : Nat :=
  let e := m.gran g
  if e.sat then 255 else min 255 ((m.nowMs + 65536 - e.last) % 65536)

/-- R68: an access through a die is gathered for the next tick. -/
def Mach.gather (m : Mach) (die g : Nat) : Mach :=
  { m with store := { m.store with gathered := tput m.store.gathered die (insSorted (tgetD m.store.gathered die []) g) } }

/-- Whether the sealed region is closed to others (16_security.md R458): from ON until the exit has scrubbed it. -/
def Mach.sealedOn (m : Mach) : Bool := m.confState == 2 || m.confState == 3

/-- Whether a granule lies in the sealed region: the tenant's grant set less the bounce region, while confidential
mode is on (16_security.md R456, R461). -/
def Mach.sealedAt (m : Mach) (dpa : Nat) : Bool :=
  m.sealedOn && m.inGrant m.tenant dpa 1 &&
    !(decide (m.reg 0x6020 2 0 ≤ dpa) && decide (dpa < m.reg 0x6020 2 0 + m.reg 0x6020 3 0))

/-! ## Watermarks (R88, R89) -/

/-- n ÷ d in per mille, 0 of nothing. -/
def perMille (n d : Nat) : Nat := if d = 0 then 0 else 1000 * n / d

/-- Table 03-7: a watched measure in per mille. -/
def Mach.measure (m : Mach) (k : Nat) : Nat :=
  match k with
  | 0 => perMille (m.stackUsable - m.stackFreeAll) m.stackUsable
  | 1 => perMille (m.usedDimm 0).length (m.domainFrames 0)
  | 2 => perMille m.backed m.physicalStore
  | _ => (((List.range 8).map fun d => perMille (m.usedDimm (d + 1)).length (m.domainFrames (d + 1))).max?).getD 0

/-- The latched record of a measure (R89): crossings, peak, time of the first. -/
def wmRecord (count peak time : Nat) : List Byte := leBytes 4 count ++ leBytes 2 peak ++ zeros 2 ++ leBytes 8 time

/-- One measure evaluated: crossing, record, peak, re-arming (R88, R89). -/
def Mach.watchOne (m : Mach) (k : Nat) : Mach :=
  let l := m.reg 0x3050 (1 + k) 0
  let h := m.reg 0x3050 (5 + k) 0
  let v := m.measure k
  let rec0 := m.oct 0x3051 (1 + k) 0
  let count := fld rec0 0 4
  let armed := m.store.wmArmed.getD k true
  let arm (m : Mach) (b : Bool) : Mach := { m with store := { m.store with wmArmed := m.store.wmArmed.set k b } }
  if l = 0 then m
  else if armed && decide (l ≤ v) then
    let m := arm m false
    if count = 0 then (m.setOct 0x3051 (1 + k) 0 (wmRecord 1 v m.now)).notice 0x8030 [byteOf k]
    else m.setOct 0x3051 (1 + k) 0 (wmRecord (min (count + 1) 0xFFFFFFFF) (max v (fld rec0 4 2)) (fld rec0 8 8))
  else
    let m := if count ≠ 0 ∧ fld rec0 4 2 < v then m.setOct 0x3051 (1 + k) 0 (wmRecord count v (fld rec0 8 8)) else m
    if v + h < l then arm m true else m

/-- Every measure evaluated. -/
def Mach.watch (m : Mach) : Mach := [0, 1, 2, 3].foldl Mach.watchOne m

/-! ## Compressed slots (R74-R77) -/

/-- R75: the longest match copies byte by byte from d bytes back; `out` is the output so far, reversed. -/
def copyBack : Nat → Nat → List Byte → Option (List Byte)
  | 0, _, out => some out
  | n + 1, d, out => match out[d - 1]? with
    | none => none
    | some b => copyBack n d (b :: out)

/-- R76: a payload decoded; the output is built in reverse, `fuel` bounds the tokens. -/
def decodeTokens : Nat → List Byte → List Byte → Option (List Byte)
  | 0, _, _ => none
  | _ + 1, [], _ => none
  | fuel + 1, c :: t, out =>
    let k := c.toNat % 64
    let o := out.length
    match c.toNat / 64 with
    | 0 => if t.length < k + 1 ∨ 4096 < o + (k + 1) then none
           else decodeTokens fuel (t.drop (k + 1)) ((t.take (k + 1)).reverse ++ out)
    | 1 => match t with
      | [] => none
      | b :: t =>
        let n := k / 8 + 3
        let d := (k % 8) * 256 + b.toNat + 1
        if o < d ∨ 4096 < o + n then none
        else match copyBack n d out with | none => none | some out => decodeTokens fuel t out
    | 2 => match t with
      | b0 :: b1 :: t =>
        let w := b0.toNat + 256 * b1.toNat
        let n := k + 3
        let d := w % 4096 + 1
        if 4096 ≤ w ∨ o < d ∨ 4096 < o + n then none
        else match copyBack n d out with | none => none | some out => decodeTokens fuel t out
      | _ => none
    | _ =>
      if k = 63 then (if t.isEmpty && o == 4096 then some out.reverse else none)
      else if 4096 < o + (k + 1) * 8 then none
      else decodeTokens fuel t (zeros ((k + 1) * 8) ++ out)

/-- CRC-32 of IEEE 802.3, one bit. -/
def crcBit (c : Nat) : Nat := if c % 2 = 1 then Nat.xor (c / 2) 0xEDB88320 else c / 2

/-- CRC-32 of IEEE 802.3 of a byte string. -/
def crc32 (bs : List Byte) : Nat :=
  Nat.xor (bs.foldl (fun c b => (List.range 8).foldl (fun c _ => crcBit c) (Nat.xor c b.toNat)) 0xFFFFFFFF) 0xFFFFFFFF

/-- The SUB word of sub-block t of a slot header (Table 03-3). -/
def subWord (slot : List Byte) (t : Nat) : Nat := fld slot (8 + 2 * t) 2

/-- R74: the offset of a sub-block's payload. -/
def subOffset (slot : List Byte) (s : Nat) : Nat :=
  64 + sumL ((List.range s).map fun t => ceilDiv (subWord slot t % 8192) 16 * 16)

/-- R76: whether a slot's header is good for a granule: version, GRANULE, CRC over bytes 0-59 and every payload. -/
def slotHeaderOk (slot : List Byte) (g : Nat) : Bool :=
  fld slot 0 1 == 1 && fld slot 4 4 == g &&
  fld slot 60 4 == crc32 (slot.take 60 ++
    ((List.range 16).map fun s => slice slot (subOffset slot s) (subWord slot s % 8192)).flatten)

/-- R76: a sub-block of a slot decoded; none when it is corrupt. -/
def decodeSub (slot : List Byte) (s : Nat) : Option (List Byte) :=
  let w := subWord slot s
  let len := w % 8192
  let p := slice slot (subOffset slot s) len
  match w / 16384 with
  | 0 => decodeTokens (len + 1) p []
  | 1 => if len = 4096 then some p else none
  | 2 => if len = 0 then some (zeros 4096) else none
  | _ => none

/-- R77: the payload bytes of a sub-block: 0 when it is zero, 4,096 RAW above 4,032 encoded bytes. -/
def subLen (b : List Byte) : Nat :=
  if allZero b then 0 else if 4032 < Config.encodedLen b then 4096 else Config.encodedLen b

/-- R77: the chunks of the slot a granule's bytes would take. -/
def slotChunks (bytes : List Byte) : Nat :=
  ceilDiv (64 + sumL ((List.range 16).map fun s => ceilDiv (subLen (slice bytes (4096 * s) 4096)) 16 * 16)) 512

/-- The chunks taken in a compressed frame, as (first, count). -/
def Mach.slotsIn (m : Mach) (d f : Nat) : List (Nat × Nat) :=
  (m.store.gran.filterMap fun (p : Nat × Granule) =>
    if p.2.loc = .comp ∧ p.2.domain = d ∧ p.2.frame = f then some (p.2.chunk, p.2.chunks) else none) ++
  (m.store.moves.filterMap fun (p : Nat × Movement) => match p.2.dst with
    | .slot e x c n => if e = d ∧ x = f then some (c, n) else none
    | _ => none)

/-- A place of n chunks in a compressed frame. -/
def Mach.slotPlace (m : Mach) (d f n : Nat) : Option Nat :=
  let ss := m.slotsIn d f
  firstFrom (129 - n) 0 fun c => ss.all fun x => !overlaps c n x.1 x.2

/-- A slot of n chunks in a domain: the lowest compressed frame with room, or the lowest free frame set aside. -/
def Mach.newSlot (m : Mach) (d n : Nat) : Option (Nat × Nat) :=
  let comp := (m.store.gran.filterMap fun (p : Nat × Granule) =>
    if p.2.loc = .comp ∧ p.2.domain = d then some p.2.frame else none).foldl insSorted []
  match comp.findSome? fun f => (m.slotPlace d f n).map fun c => (f, c) with
  | some r => some r
  | none => (m.newDimmFrame d false).map fun f => (f, 0)

/-! ## Movements (R78-R83) -/

/-- A frame or slot given back: a frame joins those to be zeroed (R86); a compressed frame only when its last slot
goes. -/
def Mach.freeFrame (m : Mach) (e : Granule) : Mach :=
  let add (f : Frame) : Mach := { m with store := { m.store with unzeroed := m.store.unzeroed ++ [f] } }
  match e.loc with
  | .stack => add (.stack e.frame)
  | .dimm => add (.dimm e.domain e.frame)
  | .comp => if m.slotsIn e.domain e.frame = [] then add (.dimm e.domain e.frame) else m
  | _ => m

/-- A movement started: MOVING set, the destination taken (Table 03-5). -/
def Mach.startMove (m : Mach) (g : Nat) (kind : MoveKind) (dst : MoveDest) (forced : Bool) : Mach :=
  let m := m.setGran g { m.gran g with moving := true }
  { m with store := { m.store with moves := tput m.store.moves g ⟨kind, dst, [], false, false, false, forced⟩ } }

/-- A promotion started from IDLE: an ordinary stacked frame, the die's reserve when a write forces it, and then
expansion into a plain frame (R81). None when no frame can be had. -/
def Mach.promote (m : Mach) (g : Nat) (forced : Bool) : Option Mach :=
  match m.newStackFrame false none with
  | some f => some (m.startMove g .promote (.stack f) forced)
  | none =>
    if !forced then none else
    match m.reserveFrame (m.mapOwner g) with
    | some f => some (m.startMove g .promote (.stack f) true)
    | none => (m.newDimmFrame (m.placement g) true).map fun f => m.startMove g .expand (.dimm (m.placement g) f) true

/-- R83: a promotion requested. -/
def Mach.requestPromote (m : Mach) (g : Nat) (forced : Bool) : Mach :=
  let e := m.gran g
  if e.loc ≠ .dimm ∧ e.loc ≠ .comp then
    match tget m.store.moves g with
    | some mv => if mv.kind = .evict ∨ mv.kind = .compress ∨ mv.kind = .evacuate then
        (({ m with store := { m.store with moves := tput m.store.moves g { mv with promotePending := true } } } : Mach)).bump 0x7030 5
      else m
    | none => m
  else match tget m.store.moves g with
    | none => (m.promote g forced).getD m
    | some mv =>
      if mv.kind = .promote ∨ mv.kind = .expand then m
      else (({ m with store := { m.store with moves := tput m.store.moves g { mv with promotePending := true } } } : Mach)).bump 0x7030 5

/-- Where an eviction of a granule goes: a slot for READ_MOSTLY when R77 allows and the granule is not sealed, a
plain frame of its domain otherwise (R79). -/
def Mach.evictDest (m : Mach) (g : Nat) : Option (MoveKind × MoveDest) :=
  let d := m.placement g
  let plain := (m.newDimmFrame d false).map fun f => (MoveKind.evict, MoveDest.dimm d f)
  if (m.gran g).hint = 3 ∧ !m.sealedAt (g * 65536) then
    let n := slotChunks (m.bytes (g * 65536) 65536)
    if n ≤ m.reg 0x3010 4 0 then
      match m.newSlot d n with
      | some (f, c) => some (.compress, .slot d f c n)
      | none => plain
    else plain
  else plain

/-- R83: an eviction requested. -/
def Mach.requestEvict (m : Mach) (g : Nat) : Mach :=
  match tget m.store.moves g with
  | some mv => if mv.kind = .promote ∨ mv.kind = .expand then m.bump 0x7030 4 else m
  | none => match m.evictDest g with
    | some (k, d) => m.startMove g k d false
    | none => m

/-- R83, R95: an evacuation move requested, away from `avoid`: another stack while free frames stay above the high
mark or the granule is pinned, else the DIMM tier. -/
def Mach.requestEvacuate (m : Mach) (g : Nat) (avoid : Option Nat) : Mach :=
  match tget m.store.moves g with
  | some mv => if mv.kind = .promote ∨ mv.kind = .expand then
      { m with store := { m.store with moves := tput m.store.moves g { mv with evacPending := true } } }
    else m
  | none =>
    let high := decide (m.reg 0x3010 3 0 < perMille m.stackFreeAll m.stackUsable)
    let toStack := (m.newStackFrame false avoid).map fun f => MoveDest.stack f
    let toDimm := (m.newDimmFrame (m.placement g) false).map fun f => MoveDest.dimm (m.placement g) f
    let pinned := (m.gran g).hint = 4
    let dst := if pinned then toStack else if high then toStack.orElse fun _ => toDimm else toDimm.orElse fun _ => toStack
    match dst with
    | some d => m.startMove g .evacuate d true
    | none => m

/-- The granule entry a destination gives. -/
def MoveDest.entry (d : MoveDest) (e : Granule) : Granule :=
  match d with
  | .stack f => { e with loc := .stack, domain := 0, frame := f, chunk := 0, chunks := 0 }
  | .dimm k f => { e with loc := .dimm, domain := k, frame := f, chunk := 0, chunks := 0 }
  | .slot k f c n => { e with loc := .comp, domain := k, frame := f, chunk := c, chunks := n }

/-- A movement stopped: its destination freed, MOVING cleared (Table 03-5). -/
def Mach.stopMove (m : Mach) (g : Nat) : Mach :=
  match tget m.store.moves g with
  | none => m
  | some mv =>
    let m := { m with store := { m.store with moves := tdel m.store.moves g } }
    (m.freeFrame (mv.dst.entry Granule.reset)).setGran g { m.gran g with moving := false }

/-- R66: a granule made UNBACKED: contents gone, frames freed, word 1 at reset, its pin out of its owner's quota. -/
def Mach.scrubGranule (m : Mach) (g : Nat) : Mach :=
  let m := m.stopMove g
  let e := m.gran g
  let lo := g * 65536
  let m := { m with store := { m.store with
    mem := Memory.clear m.store.mem lo (lo + 65536)
    poison := m.store.poison.filter fun l => l / 1024 ≠ g
    pins := tdel m.store.pins g
    keepPlain := remove m.store.keepPlain g
    gran := tdel m.store.gran g } }
  m.freeFrame e

/-- Every Col copy of the lines that a test picks dropped, with what any home's filter says of them. -/
def Mach.dropLines (m : Mach) (p : Nat → Bool) : Mach :=
  { m with col := { m.col with
    caches := m.col.caches.map fun (c : Nat × List (Nat × ColLine)) => (c.1, c.2.filter fun x => !p x.1)
    filters := m.col.filters.map fun (f : Nat × List (Nat × FilterEntry)) => (f.1, f.2.filter fun x => !p x.1) } }

/-- Every granule of a DPA range made UNBACKED; the Col keeps no copy of what they held. -/
def Mach.scrubRange (m : Mach) (lo n : Nat) : Mach :=
  let m := m.dropLines fun l => decide (lo < granuleOfLine l * 65536 + 65536) && decide (granuleOfLine l * 65536 < lo + n)
  let gs := (m.store.gran.map Prod.fst).filter fun g => decide (lo < g * 65536 + 65536) && decide (g * 65536 < lo + n)
  gs.foldl Mach.scrubGranule m

/-! ## Allocation (R86) and writes (R66, R80-R82, R90) -/

/-- R86: a zeroed frame for an UNBACKED granule: a stacked one, then a plain frame of its domain. -/
def Mach.allocate (m : Mach) (g : Nat) : Option Mach :=
  let e := m.gran g
  match m.newStackFrame true none with
  | some f => some (m.setGran g { e with loc := .stack, frame := f }).watch
  | none =>
    let d := m.placement g
    (m.newDimmFrame d true).map fun f => (m.setGran g { e with loc := .dimm, domain := d, frame := f }).watch

/-- The channel that holds a line of a granule in a plain DIMM frame, when it cannot be reached: training, DOWN or
REMOVED (R90). A compressed slot's frame is asked for its first sub-block. -/
def Mach.channelDown (m : Mach) (line : Nat) : Bool :=
  let e := m.gran (granuleOfLine line)
  let bad (c : Nat) : Bool := [0, 2, 3, 5].contains (m.chanState c)
  match e.loc with
  | .dimm => bad (m.dimmPlace e.domain e.frame (line % 1024 / 64)).1
  | .comp => bad (m.dimmPlace e.domain e.frame (e.chunk * 512 / 4096)).1
  | _ => false

/-- How a write at the media ends. -/
inductive WriteEnd where
  | done
  | failed (status : Nat)
  | waiting
  deriving DecidableEq, Repr

/-- R200: a line written in a window that is being relocated is marked dirty. -/
def Mach.markReloc (m : Mach) (line : Nat) : Mach :=
  match m.fab.reloc with
  | none => m
  | some r =>
    let base := m.reg 0x4410 2 r.window / 64
    if base ≤ line ∧ line < base + m.reg 0x4410 3 r.window / 64 then
      { m with fab := { m.fab with reloc := some { r with dirty := insSorted r.dirty (line - base) } } }
    else m

/-- The DATA and WB in flight of a line given the value that an access ordered before them leaves in the store; a failure on
its way stays. -/
def Mach.refreshNet (m : Mach) (line : Nat) (v : LineVal) : Mach :=
  { m with col := { m.col with net := m.col.net.map fun x =>
      if x.line = line ∧ (x.ty = .data ∨ x.ty = .wb) then { x with val := (match x.val with | .failed st => .failed st | _ => v) }
      else x } }

/-- A write's bytes applied to backed lines: poison replaced by whole lines, a partial write of a poisoned line
refused (R66); lines of a moving granule marked dirty (R82); the compression mark cleared (R80). -/
def Mach.applyWrite (m : Mach) (w : StoreWrite) : Mach × WriteEnd :=
  let line := lineOf w.dpa
  let g := granuleOf w.dpa
  let whole := w.dpa % 64 = 0 ∧ w.bytes.length = 64
  if line ∈ m.store.poison ∧ ¬ whole then (m, .failed stPoison)
  else
    let m := if line ∈ m.store.poison then m.unpoison line else m
    let m := (m.setBytes w.dpa w.bytes).markReloc line
    let m := m.refreshNet line (.data (m.bytes (line * 64) 64))
    let m := { m with store := { m.store with
      keepPlain := remove m.store.keepPlain g
      moves := tmod m.store.moves g fun mv => { mv with dirty := insSorted mv.dirty line } } }
    (m, .done)

/-- A write of bytes of one line at its media (R66, R81, R82, R86, R90). It waits while its granule is promoted from
a slot, while a final pass holds writes, or while no frame is free. -/
def Mach.mediaWrite (m : Mach) (w : StoreWrite) : Mach × WriteEnd :=
  let g := granuleOf w.dpa
  let e := m.gran g
  let m := m.gather w.die g
  let hold (m : Mach) : Mach := { m with store := { m.store with heldWrites := m.store.heldWrites ++ [w] } }
  if (tget m.store.moves g).any (·.finalPass) then (hold m, .waiting)
  else match e.loc with
  | .comp => ((hold m).requestPromote g true, .waiting)
  | .stack => m.applyWrite w
  | .dimm => if m.channelDown (lineOf w.dpa) then (m, .failed stLowerTierFail) else
      let r := m.applyWrite w
      if m.age g ≤ m.reg 0x3010 1 0 ∧ m.reg 0x3010 1 0 ≠ 255 ∧ e.hint ≠ 2 then (r.1.requestPromote g false, r.2) else r
  | .unbacked => match m.allocate g with
    | some m => m.applyWrite w
    | none => ({ m with store := { m.store with allocWaits := m.store.allocWaits ++ [w] } }, .waiting)
  | .lost =>
    if w.dpa % 64 = 0 ∧ w.bytes.length = 64 then
      match ({ m with store := { m.store with gran := tdel m.store.gran g } } : Mach).allocate g with
      | some m => ({ m with store := { m.store with
          poison := ((List.range 1024).map (· + g * 1024)).foldl insSorted m.store.poison } } : Mach).applyWrite w
      | none => ({ m with store := { m.store with allocWaits := m.store.allocWaits ++ [w] } }, .waiting)
    else (m, .failed stPoison)

/-- R78: an access that asks for promotion: DIMM or COMP, age within the threshold, not COLD. -/
def Mach.accessed (m : Mach) (die g : Nat) : Mach :=
  let e := m.gran g
  let th := m.reg 0x3010 1 0
  let ask := (e.loc = .dimm ∨ e.loc = .comp) ∧ th ≠ 255 ∧ m.age g ≤ th ∧ e.hint ≠ 2
  let m := m.gather die g
  if ask then m.requestPromote g false else m

/-! ## Hints and pins (R63, R64, R81) -/

/-- 0x3010.07: the pin ceiling, half the usable stacked frames until it is written. -/
def Mach.pinCeiling (m : Mach) : Nat :=
  match tget m.cairn.regs (regKey 0x3010 7 0) with | some v => v | none => m.stackUsable / 2

/-- An owner's pin quota (0x3415; the Steward's is the ceiling). -/
def Mach.pinQuota (m : Mach) (owner : Nat) : Nat := if owner = 0xFF then m.pinCeiling else m.reg 0x3415 (1 + owner) 0

/-- A hint recorded for a granule (R63, R64, R81). -/
def Mach.recordHint (m : Mach) (g hint owner : Nat) : Except Nat Mach :=
  let e := m.gran g
  if hint = 4 then
    let mine := (m.store.pins.filter fun (p : Nat × Nat) => p.2 == owner).length
    if (tget m.store.pins g).isSome then .ok (m.setGran g { e with hint := 4 })
    else if m.pinQuota owner ≤ mine ∨ m.pinCeiling ≤ m.store.pins.length then .error stQuota
    else
      let pin (m : Mach) : Mach := { m with store := { m.store with pins := tput m.store.pins g owner } }
      if e.loc = .unbacked then
        match m.newStackFrame true none with
        | some f => .ok (pin (m.setGran g { e with loc := .stack, frame := f, hint := 4 })).watch
        | none => .error stStoreFull
      else .ok ((pin (m.setGran g { e with hint := 4 })).requestPromote g false)
  else
    let m := { m with store := { m.store with pins := tdel m.store.pins g } }
    let m := m.setGran g { e with hint := hint }
    .ok (if hint = 1 then m.requestPromote g false else m)

end Sys2Proof.Machine
end

