-- ==== Sys2Proof/Machine/ColOps.lean ====
section
/-! DEFINITION. Operations of the Col (01_organisation.md R13-R26): routes, caches, filters, transactions at the home,
media reads, and the coherent access of an engine (12_visibility.md R329). -/

namespace Sys2Proof.Machine

/-! ## Routes (R13, R15, R16) -/

/-- The vertical links of a column between two rows, as Col link numbers (CH0-3 are 0-3, CVn is 4 + n). -/
def columnLinks (c r r' : Nat) : List Nat :=
  (List.range (max r r' - min r r')).map fun i => 4 + 2 * (min r r' + i) + c

/-- R16: the links from one die to another, along the column first, or across first on the second route. -/
def colRoute (src dst : Nat) (second : Bool) : List Nat :=
  let across (row : Nat) : List Nat := if src % 2 = dst % 2 then [] else [row]
  if second then across (src / 2) ++ columnLinks (dst % 2) (src / 2) (dst / 2)
  else columnLinks (src % 2) (src / 2) (dst / 2) ++ across (dst / 2)

/-- Whether a Col link carries messages: up or retraining, not down and not absent (0x7011). -/
def Mach.linkUp (m : Mach) (l : Nat) : Bool := m.reg 0x7011 (1 + l) 0 == 1 || m.reg 0x7011 (1 + l) 0 == 2

/-- R16: the route a message takes now: false for the first, true for the second, none when neither is whole. -/
def Mach.colPath (m : Mach) (src dst : Nat) : Option Bool :=
  if (colRoute src dst false).all m.linkUp then some false
  else if m.reg 0x3380 1 0 = 1 ∧ (colRoute src dst true).all m.linkUp then some true
  else none

/-- The Col hops from one die to another by the route of R16. -/
def Mach.colHops (m : Mach) (src dst : Nat) : Nat :=
  match m.colPath src dst with
  | some second => (colRoute src dst second).length
  | none => 99

/-- A Col message sent: on the first virtual channel, or on the second and counted when it is rerouted; a message
for an unreachable die is not sent (R16). -/
def Mach.colSend (m : Mach) (ty : ColType) (src dst line req : Nat) (ans : SnpAnswer) (val : LineVal)
    (st : LineState) : Mach :=
  let put (m : Mach) (vc : Nat) : Mach :=
    { m with col := { m.col with net := m.col.net ++ [⟨ty, src, dst, line, req, vc, ans, val, st⟩] } }
  match m.colPath src dst with
  | some false => put m 0
  | some true => put (m.bump 0x7010 3) 1
  | none => m

/-- The message of a type from one die to another on a line that has been longest in flight. -/
def Mach.colFind (m : Mach) (ty : ColType) (src dst line : Nat) : Option ColMsg :=
  m.col.net.find? fun x => x.ty == ty && x.src == src && x.dst == dst && x.line == line

/-- A message taken off the Col at its arrival. -/
def Mach.colTake (m : Mach) (x : ColMsg) : Mach := { m with col := { m.col with net := m.col.net.erase x } }

/-! ## Col caches (R18, R19) and host filters as the Col sees them (04_host_ports.md R113, R114) -/

/-- The lines of a die's Col cache, most recently used first. -/
def Mach.cacheOf (m : Mach) (die : Nat) : List (Nat × ColLine) := tgetD m.col.caches die []

/-- A die's Col cache replaced. -/
def Mach.setCache (m : Mach) (die : Nat) (c : List (Nat × ColLine)) : Mach :=
  { m with col := { m.col with caches := tput m.col.caches die c } }

/-- A line as a die's Col cache holds it. -/
def Mach.cached (m : Mach) (die line : Nat) : Option ColLine :=
  ((m.cacheOf die).find? (·.1 == line)).map Prod.snd

/-- A line of a Col cache given a state and value, as its most recently used line. -/
def Mach.putCached (m : Mach) (die line : Nat) (l : ColLine) : Mach :=
  m.setCache die ((line, l) :: (m.cacheOf die).filter (·.1 ≠ line))

/-- A line dropped from a Col cache. -/
def Mach.dropCached (m : Mach) (die line : Nat) : Mach := m.setCache die ((m.cacheOf die).filter (·.1 ≠ line))

/-- The host filter entries of a line on a die. -/
def Mach.hostLines (m : Mach) (die line : Nat) : List HostLine :=
  (tgetD m.host.filters die []).filter (·.line == line)

/-- Whether a host of a die holds a line in E or M, which the die treats alike (R113). -/
def Mach.hostOwns (m : Mach) (die line : Nat) : Bool := (m.hostLines die line).any fun h => h.st ≠ .S

/-! ## Col filters (R21, R22) -/

/-- The entries of a home's Col filter, most recently used first. -/
def Mach.filterOf (m : Mach) (home : Nat) : List (Nat × FilterEntry) := tgetD m.col.filters home []

/-- A home's entry for a line. -/
def Mach.filterEntry (m : Mach) (home line : Nat) : Option FilterEntry :=
  ((m.filterOf home).find? (·.1 == line)).map Prod.snd

/-- A home's entry for a line written as its most recently used, or freed when no die is left in it. -/
def Mach.setFilter (m : Mach) (home line : Nat) (e : FilterEntry) : Mach :=
  let rest := (m.filterOf home).filter (·.1 ≠ line)
  { m with col := { m.col with filters := tput m.col.filters home (if e.dies = [] then rest else (line, e) :: rest) } }

/-- A die's presence bit cleared in the home's entry for a line. -/
def Mach.clearPresence (m : Mach) (home line die : Nat) : Mach :=
  match m.filterEntry home line with
  | some e => if die ∈ e.dies then m.setFilter home line { e with dies := remove e.dies die } else m
  | none => m

/-- The state and the holders of a line as its home decides: its filter entry, and the home itself while a host of
its own port holds the line (R114). The filter sees no silent change from E to M, so M is shown as E. -/
def Mach.holders (m : Mach) (home line : Nat) : LineState × List Nat :=
  let e := (m.filterEntry home line).getD ⟨.S, []⟩
  let own := m.hostLines home line
  (if e.st ≠ .S ∨ own.any (·.st ≠ .S) then .E else .S, if own = [] then e.dies else insSorted e.dies home)

/-- The die whose stack or channel holds a line. -/
def Mach.mediaDie (m : Mach) (line : Nat) : Nat :=
  let e := m.gran (granuleOfLine line)
  match e.loc with
  | .stack => e.frame / framesPerStack / 2
  | .dimm => (m.dimmPlace e.domain e.frame (line % 1024 / 64)).1 / 2
  | .comp => (m.dimmPlace e.domain e.frame (e.chunk * 512 / 4096)).1 / 2
  | _ => m.homeOf (line * 64)

/-- A line poisoned in the store. A frame is allocated for a granule that has none, since poison is kept in the
medium (R66). -/
def Mach.poisonStore (m : Mach) (line : Nat) : Mach :=
  let g := granuleOfLine line
  match (m.gran g).loc with
  | .lost => m
  | .unbacked => ((m.allocate g).getD m).poisonLine line
  | _ => m.poisonLine line

/-- A line written back to the media through its home. -/
def Mach.writeBackLine (m : Mach) (die line : Nat) (v : LineVal) : Mach :=
  match v with
  | .data bs => (m.mediaWrite ⟨die, line * 64, bs, .none⟩).1
  | .poison => m.poisonStore line
  | .failed _ => m

/-- A home asks the media owner for a line, which installs `st` at the requester. The home answers a read of an
UNBACKED or LOST granule itself (03_store_tiers.md R66). -/
def Mach.readMedia (m : Mach) (home req line : Nat) (st : LineState) : Mach :=
  let e := m.gran (granuleOfLine line)
  if e.loc = .unbacked ∨ e.loc = .lost then
    (m.gather req (granuleOfLine line)).colSend .data home req line req .inv (m.mediaLine line) st
  else { m with col := { m.col with reads := m.col.reads ++ [⟨line, home, req, st⟩] } }

/-! ## Transactions at the home (R20-R24) -/

/-- A transaction opened on a line. -/
def Mach.openTxn (m : Mach) (line : Nat) (t : ColTxn) : Mach :=
  { m with col := { m.col with txns := tput m.col.txns line t } }

/-- Snoops sent by a home. -/
def Mach.snoopAll (m : Mach) (ty : ColType) (home line req : Nat) (dies : List Nat) : Mach :=
  dies.foldl (fun m d => m.colSend ty home d line req .inv .poison .S) m

/-- The 16 ways of the set of a line in a home's filter, most recently used first; 65,536 sets (R22). -/
def Mach.filterSet (m : Mach) (home line : Nat) : List (Nat × FilterEntry) :=
  (m.filterOf home).filter fun p => p.1 % 65536 == line % 65536

/-- A transaction as a home opens it. -/
def ColTxn.fresh (kind : TxnKind) (req home : Nat) : ColTxn :=
  { kind, req, home, waiting := [], behind := none, copyDue := false, copyIn := false, wbIn := false, wbDue := false
    sent := false, done := none }

/-- R20, R22, R24: a home serves a request on a line that has no transaction open. -/
def Mach.serve (m : Mach) (home req line : Nat) (kind : TxnKind) : Mach :=
  let (st, dies) := m.holders home line
  let others := remove dies req
  let base := ColTxn.fresh kind req home
  match kind with
  | .recall => (m.openTxn line { base with req := home, waiting := dies }).snoopAll .snpInv home line home dies
  | .own => if others = [] then (m.openTxn line base).readMedia home req line .E
      else (m.openTxn line { base with waiting := others }).snoopAll .snpInv home line req others
  | .upgrade =>
    if req ∈ dies then
      if others = [] then (m.openTxn line base).colSend .ack home req line req .inv .poison .E
      else (m.openTxn line { base with waiting := others }).snoopAll .snpInv home line req others
    else if others = [] then (m.openTxn line { base with kind := .own }).readMedia home req line .E
      else (m.openTxn line { base with kind := .own, waiting := others }).snoopAll .snpInv home line req others
  | .shared =>
    match st with
    | .S =>
      match minBy (fun d => m.colHops d req * 16 + d) (remove others home) with
      | some d => (m.openTxn line { base with waiting := [d] }).snoopAll .snpFwd home line req [d]
      | none => (m.openTxn line base).readMedia home req line (if dies = [] then .E else .S)
    | _ =>
      if others = [] then (m.openTxn line base).readMedia home req line .E
      else (m.openTxn line { base with waiting := others }).snoopAll .snpShare home line req others

/-- R22: a request that must allocate in a full set of the filter recalls the least recently used entry first, each
recall counted; a victim with a transaction open is recalled when that ends. -/
def Mach.serveOrRecall (m : Mach) (home req line : Nat) (kind : TxnKind) : Mach :=
  let set := m.filterSet home line
  if kind ≠ .recall ∧ req ≠ home ∧ (m.filterEntry home line).isNone ∧ 16 ≤ set.length then
    match set.getLast? with
    | none => m
    | some (victim, _) =>
      let m := (m.bump 0x7010 1).bump 0x70C0 7
      let m := m.openTxn line { ColTxn.fresh kind req home with behind := some victim }
      if (tget m.col.txns victim).isSome then
        { m with col := { m.col with waits := m.col.waits ++ [⟨.recall, home, home, victim⟩] } }
      else m.serve home home victim .recall
  else m.serve home req line kind

/-- A REQ at its home: served, or queued behind the transaction the line has open (R23). -/
def Mach.request (m : Mach) (home req line : Nat) (kind : TxnKind) : Mach :=
  if (tget m.col.txns line).isSome then
    { m with col := { m.col with waits := m.col.waits ++ [⟨kind, req, home, line⟩] } }
  else m.serveOrRecall home req line kind

/-- The next request of a line's queue served. -/
def Mach.nextWait (m : Mach) (line : Nat) : Mach :=
  match m.col.waits.find? (·.line == line) with
  | none => m
  | some w => ({ m with col := { m.col with waits := m.col.waits.erase w } } : Mach).serveOrRecall w.home w.req line w.kind

/-- A line's transaction closed: allocations that waited for its recall go on, then the line's queue (R22, R23). -/
def Mach.closeTxn (m : Mach) (line : Nat) : Mach :=
  let m := { m with col := { m.col with txns := tdel m.col.txns line } }
  let held := m.col.txns.filter fun (p : Nat × ColTxn) => p.2.behind == some line
  let m := held.foldl (fun m (p : Nat × ColTxn) => m.serveOrRecall p.2.home p.2.req p.1 p.2.kind) m
  m.nextWait line

/-- Every snoop of a transaction has been answered, and any WB that stands for an answer has come (R20, R22): a
recall waits only for its DATA; ownership is granted by ACK, or by DATA of the media; a read is answered by the
media unless a holder has sent its data. -/
def Mach.answered (m : Mach) (line : Nat) (t : ColTxn) : Mach :=
  match t.kind with
  | .recall => m
  | .upgrade => m.colSend .ack t.home t.req line t.req .inv .poison .E
  | .own => if t.sent then m else m.readMedia t.home t.req line .E
  | .shared => if t.sent then m else m.readMedia t.home t.req line .S

/-- A transaction closed once nothing of it is outstanding: a recall frees the entry; otherwise the requester's
presence and state are recorded (R20, R21). A home that reads for itself takes no presence bit (R18). -/
def Mach.tryClose (m : Mach) (line : Nat) : Mach :=
  match tget m.col.txns line with
  | none => m
  | some t =>
    if t.waiting ≠ [] ∨ t.wbDue ∨ (t.copyDue ∧ !t.copyIn) ∨ t.behind.isSome then m
    else match t.kind, t.done with
    | .recall, _ => (m.setFilter t.home line ⟨.S, []⟩).closeTxn line
    | _, none => m
    | _, some st =>
      let m := if t.req = t.home then m.setFilter t.home line (match st with
          | .S => { (m.filterEntry t.home line).getD ⟨.S, []⟩ with st := .S }
          | _ => ⟨.S, []⟩)
        else match st with
        | .S => m.setFilter t.home line ⟨.S, insSorted ((m.filterEntry t.home line).getD ⟨.S, []⟩).dies t.req⟩
        | _ => m.setFilter t.home line ⟨.E, [t.req]⟩
      m.closeTxn line

/-- R21: a Col cache line evicted: EVICT when it is clean, WB with its DATA from M. While its home is being fenced an M line
goes to the media at once (Table 01-7 step 7). -/
def Mach.evictLine (m : Mach) (die line : Nat) : Mach :=
  match m.cached die line with
  | none => m
  | some l =>
    let home := m.homeOf (line * 64)
    let m := m.dropCached die line
    if l.st = .M ∧ !m.dieActive home then m.writeBackLine die line l.val
    else if l.st = .M then m.colSend .wb die home line die .inv l.val .M
    else m.colSend .evict die home line die .inv .poison .S

/-! ## The coherent access of an engine (12_visibility.md R329)

An engine's access to a line is one step: it takes its place in the home's order at once, with the snoops that the
Col would send already answered. A host's copy is not taken this way: the access waits for a back-invalidation
(04_host_ports.md R115). -/

/-- The value of a line that the store does not hold yet, and the die it comes from: an M copy in a Col cache, or one on
its way in a WB or a DATA. -/
def Mach.dirtyCopy (m : Mach) (line : Nat) : Option (Nat × LineVal) :=
  (m.col.caches.findSome? fun (q : Nat × List (Nat × ColLine)) =>
    (q.2.find? fun x => x.1 == line && x.2.st == .M).map fun x => (q.1, x.2.val)).orElse fun _ =>
  (m.col.net.find? fun x => x.line == line && x.st == .M && (x.ty == .wb || x.ty == .data)).map fun x => (x.src, x.val)

/-- The copy of a line in the Col, a modified one before any other. -/
def Mach.anyCopy (m : Mach) (line : Nat) : Option LineVal :=
  ((m.dirtyCopy line).map Prod.snd).orElse fun _ =>
  m.col.caches.findSome? fun (q : Nat × List (Nat × ColLine)) => (q.2.find? fun x => x.1 == line).map fun x => x.2.val

/-- The value of a line in the coherent domain: a Col copy, or the media; a line whose channel cannot be reached is
not delivered (R90). -/
def Mach.coherentLine (m : Mach) (line : Nat) : LineVal :=
  match m.anyCopy line with
  | some v => v
  | none => if m.channelDown line then .failed stLowerTierFail else m.mediaLine line

/-- Every Col copy of a line dropped, a modified one written to the media first; the home's filter stays exact. -/
def Mach.takeLine (m : Mach) (line : Nat) : Mach :=
  let m := match m.dirtyCopy line with
    | some (d, v) => m.writeBackLine d line v
    | none => m
  if m.col.caches.any fun (p : Nat × List (Nat × ColLine)) => p.2.any (·.1 == line) then
    let m := { m with col := { m.col with
      caches := m.col.caches.map fun (p : Nat × List (Nat × ColLine)) => (p.1, p.2.filter (·.1 ≠ line)) } }
    m.setFilter (m.homeOf (line * 64)) line ⟨.S, []⟩
  else m

/-- A line poisoned by an access that takes its place in the home's order. -/
def Mach.poisonNow (m : Mach) (line : Nat) : Mach := ((m.takeLine line).poisonStore line).refreshNet line .poison

/-- A coherent read of one line by an engine of a die: it counts as an access to the granule (R68, R78). -/
def Mach.readLine (m : Mach) (die line : Nat) : LineVal × Mach :=
  (m.coherentLine line, m.accessed die (granuleOfLine line))

/-- A coherent write within one line by an engine of a die. -/
def Mach.writeLine (m : Mach) (w : StoreWrite) : Mach × WriteEnd := (m.takeLine (lineOf w.dpa)).mediaWrite w

/-- How a coherent read of many bytes ends. -/
inductive ReadEnd where
  | ok (bs : List Byte)
  | failed (status : Nat)
  deriving DecidableEq, Repr

/-- Bytes read line by line from a DPA upward; the first line that cannot be delivered ends the read. -/
def Mach.readBytes : Nat → Mach → Nat → Nat → Nat → List Byte → ReadEnd × Mach
  | 0, m, _, _, _, acc => (.ok acc, m)
  | fuel + 1, m, die, dpa, n, acc =>
    if n = 0 then (.ok acc, m) else
    let off := dpa % 64
    let k := min n (64 - off)
    let (v, m) := m.readLine die (lineOf dpa)
    match v with
    | .data bs => Mach.readBytes fuel m die (dpa + k) (n - k) (acc ++ slice bs off k)
    | .poison => (.failed stPoison, m)
    | .failed st => (.failed st, m)

/-- A coherent read of n bytes from a DPA by an engine of a die. -/
def Mach.loadDpa (m : Mach) (die dpa n : Nat) : ReadEnd × Mach := Mach.readBytes (n / 64 + 2) m die dpa n []

/-- Bytes written line by line from a DPA upward: the status of the first line that failed, 0 for none; a line that
waits for its granule is applied later. -/
def Mach.writeBytes : Nat → Mach → Nat → Nat → List Byte → WriteOwner → Nat → Nat × Mach
  | 0, m, _, _, _, _, st => (st, m)
  | fuel + 1, m, die, dpa, bs, owner, st =>
    if bs.isEmpty then (st, m) else
    let k := min bs.length (64 - dpa % 64)
    let (m, e) := m.writeLine ⟨die, dpa, bs.take k, owner⟩
    let st := match e with | .failed x => if st = 0 then x else st | _ => st
    Mach.writeBytes fuel m die (dpa + k) (bs.drop k) owner st

/-- A coherent write of bytes from a DPA by an engine of a die, for an owner. -/
def Mach.storeDpa (m : Mach) (die dpa : Nat) (bs : List Byte) (owner : WriteOwner) : Nat × Mach :=
  Mach.writeBytes (bs.length / 64 + 2) m die dpa bs owner 0

end Sys2Proof.Machine
end

