-- ==== Sys2Proof/Machine/HostOps.lean ====
section
/-! DEFINITION. Operations of the host ports (04_host_ports.md R101-R121): HDM decoding, the grant check, the host
filter, back-invalidation, CXL.mem service, paths and their loss, MSI-X. -/

namespace Sys2Proof.Machine

/-! ## Logical devices -/

/-- 0x3401: the state of a link; 0 absent, 1 DOWN, 2 training, 3 CXL.io only, 4 CXL, 5 fenced. -/
def Mach.linkState (m : Mach) (link : Nat) : Nat := m.reg 0x3401 (1 + link) 0
/-- A link's state set. -/
def Mach.setLinkState (m : Mach) (link v : Nat) : Mach := m.setReg 0x3401 (1 + link) 0 v

/-- A path as the dictionary codes it (0x3431.03). -/
def pathCode (link ld : Nat) : Nat := link * 256 + ld

/-- Pending vectors delivered on unmask (R107). -/
def Mach.msixUnmask (m : Mach) (link ld : Nat) : Mach :=
  match m.ld? link ld with
  | none => m
  | some l =>
    if l.functionMask ∨ !l.msixEnable then m else
    (l.msix.filter fun (p : Nat × MsixEntry) => p.2.pending && !p.2.masked).foldl
      (fun m (p : Nat × MsixEntry) =>
        ((m.ld? link ld).elim m fun l =>
          m.setLd link ld { l with msix := tput l.msix p.1 { p.2 with pending := false } }).msix link ld p.1) m

/-- R101: a failure that a CXL.mem request meets is logged in the LD's RAS capability, the first only, and
signalled by AER. -/
def Mach.rasLog (m : Mach) (link ld : Nat) : Mach :=
  match m.ld? link ld with
  | none => m
  | some l => if l.rasLogged then m else (m.setLd link ld { l with rasLogged := true }).emit (.aer link ld)

/-! ## HDM decoding and the grant check (02_address_spaces.md R39, R40; R112) -/

/-- R39: the DPA of an HPA that a committed decoder covers. -/
def hdmToDpa (hpa b p g w : Nat) : Nat :=
  let off := hpa - b
  p + (off / 2 ^ (g + w) * 2 ^ g + off % 2 ^ g)

/-- The DPA of an HPA on an LD, by its committed decoders. -/
def Ld.decode (l : Ld) (hpa : Nat) : Option Nat :=
  (l.decoders.find? fun d => d.committed && decide (d.base ≤ hpa) && decide (hpa < d.base + d.size)).map fun d =>
    hdmToDpa hpa d.base d.dpa d.gran d.ways

/-- Whether a line lies in the sealed region while confidential mode is ON or changing (16_security.md R458). -/
def Mach.sealedLine (m : Mach) (line : Nat) : Bool := m.sealedAt (line * 64)

/-- R112, R122: the DPA of a CXL.mem request of n bytes that its LD may make; none when it is refused. -/
def Mach.hostDpa (m : Mach) (link ld hpa n : Nat) : Option Nat :=
  match m.ld? link ld with
  | none => none
  | some l =>
    if l.bind ≠ .bound ∨ (link * 16 + ld) ∈ m.host.lost ∨ (m.ideRequired (link / 2) ∧ !l.ideMem) then none
    else match l.decode hpa with
    | none => none
    | some dpa => if m.inGrant l.ident dpa n && !m.sealedLine (lineOf dpa) then some dpa else none

/-- R112: a refused request counted, those of an LD that is not BOUND apart, those of the sealed region apart
(16_security.md R458), and logged. -/
def Mach.hostRefuse (m : Mach) (link ld hpa : Nat) : Mach :=
  let l? := m.ld? link ld
  let m := m.bump 0x7040 2
  let m := if l?.any (·.bind == .bound) then m else m.bump 0x7040 3
  let m := if (l?.bind (·.decode hpa)).any fun d => m.sealedAt d then m.bump 0x7130 6 else m
  m.rasLog link ld

/-! ## The host filter (R113) -/

/-- The entries of a die's host filter replaced. -/
def Mach.setHostFilter (m : Mach) (die : Nat) (f : List HostLine) : Mach :=
  { m with host := { m.host with filters := tput m.host.filters die f } }

/-- The entries of a die's host filter, most recently used first. -/
def Mach.hostFilter (m : Mach) (die : Nat) : List HostLine := tgetD m.host.filters die []

/-- The entry of a line for a link freed. -/
def Mach.freeHostLine (m : Mach) (die link line : Nat) : Mach :=
  m.setHostFilter die ((m.hostFilter die).filter fun h => !(h.line == line && h.link == link))

/-- The entry of a line for a link written as the most recently used; an entry without LDs is freed. -/
def Mach.putHostLine (m : Mach) (h : HostLine) : Mach :=
  let die := h.link / 2
  let rest := (m.hostFilter die).filter fun x => !(x.line == h.line && x.link == h.link)
  m.setHostFilter die (if h.lds = [] then rest else h :: rest)

/-- A host's holding recorded after its request (Table 04-5). -/
def Mach.recordHost (m : Mach) (link ld line : Nat) (ask : HostAsk) : Mach :=
  match ask with
  | .current => m
  | .shared =>
    let old := ((m.hostLines (link / 2) line).find? (·.link == link)).map (·.lds)
    m.putHostLine ⟨line, link, .S, insSorted (old.getD []) ld⟩
  | .exclusive => m.putHostLine ⟨line, link, .E, [ld]⟩
  | .own => m.putHostLine ⟨line, link, .M, [ld]⟩

/-! ## Paths (R110, R111, R118-R120) -/

/-- The bound paths of an identity, as link × 16 + LD. -/
def Mach.paths (m : Mach) (ident : Nat) : List Nat :=
  (m.host.lds.filter fun (p : Nat × Ld) => p.2.bind = .bound && p.2.ident == ident).map Prod.fst

/-- The binding status of an identity as 0x3431 shows it, from its primary and secondary paths. -/
def Mach.setPaths (m : Mach) (ident : Nat) (ps : List Nat) : Mach :=
  let code (i : Nat) : Nat := match ps[i]? with | some k => pathCode (k / 16) (k % 16) | none => 0xFFFF
  ((m.setReg 0x3431 2 ident (min ps.length 2)).setReg 0x3431 3 ident (code 0)).setReg 0x3431 4 ident (code 1)

/-- The paths of an identity in order, primary first, as 0x3431 shows them. -/
def Mach.pathOrder (m : Mach) (ident : Nat) : List Nat :=
  ([3, 4].map fun s => m.reg 0x3431 s ident).filterMap fun c => if c = 0xFFFF then none else some (c / 256 * 16 + c % 256)

/-- The copy of a line that a lost path held in E or M is poisoned through the Col, and counted (R119). -/
def Mach.poisonHeld (m : Mach) (die line : Nat) : Mach :=
  let m := m.bump 0x7040 7
  match m.cached die line with
  | some l => if l.st = .S then m.poisonStore line else m.putCached die line ⟨.M, .poison⟩
  | none => m.poisonStore line

/-- R119: an entry that a lost path is in settled: an E or M line poisoned, an S presence bit cleared. -/
def Mach.settleEntry (m : Mach) (h : HostLine) (ld : Nat) : Mach :=
  if ld ∉ h.lds then m
  else if h.st = .S then m.putHostLine { h with lds := remove h.lds ld }
  else (m.poisonHeld (h.link / 2) h.line).freeHostLine (h.link / 2) h.link h.line

/-- R119: a look-up that meets a lost path settles it at once. -/
def Mach.settleLine (m : Mach) (die line : Nat) : Mach :=
  (m.hostLines die line).foldl (fun m h =>
    (h.lds.filter fun ld => (h.link * 16 + ld) ∈ m.host.lost).foldl (fun m ld =>
      ((m.hostLines die line).find? (·.link == h.link)).elim m fun h => m.settleEntry h ld) m) m

/-! ## Back-invalidation (R115) -/

/-- A BISnp sent to the holders of one entry and counted. -/
def Mach.biSend (m : Mach) (die : Nat) (h : HostLine) (inv : Bool) (cause : BiCause) : Mach :=
  let m := ((m.bump 0x7040 5).emit (.biSnp h.link h.line inv))
  { m with host := { m.host with bis := m.host.bis ++ [⟨die, h.link, h.line, inv, cause⟩] } }

/-- BISnps sent for a line to the entries that a test picks and that have none outstanding already. -/
def Mach.biLine (m : Mach) (die line : Nat) (inv : Bool) (cause : BiCause) (pick : HostLine → Bool) : Mach :=
  ((m.hostLines die line).filter fun h => pick h &&
      !m.host.bis.any fun b => b.die == die && b.line == line && b.link == h.link).foldl
    (fun m h => m.biSend die h inv cause) m

/-- The host filter entries of a die that a test picks, recalled; none when there are none. -/
def Mach.recallHosts (m : Mach) (p : Nat → HostLine → Bool) : Option Mach :=
  let hs := m.host.filters.flatMap fun (f : Nat × List HostLine) => (f.2.filter (p f.1)).map fun h => (f.1, h.line)
  if hs.isEmpty then none else some (hs.foldl (fun m x => m.biLine x.1 x.2 true .access fun _ => true) m)

/-- Whether a back-invalidation of a line is outstanding on a die. -/
def Mach.biOpen (m : Mach) (die line : Nat) : Bool := m.host.bis.any fun b => b.die == die && b.line == line

/-- The dies and lines in which hosts hold what an engine's access of a DPA range needs: E or M for a read, anything
for a write (Table 04-6). -/
def Mach.hostBlocks (m : Mach) (dpa n : Nat) (write : Bool) : List (Nat × Nat) :=
  m.host.filters.flatMap fun (p : Nat × List HostLine) =>
    (p.2.filter fun h => decide (dpa / 64 ≤ h.line) && decide (h.line * 64 < dpa + n) && (write || h.st ≠ .S)).map
      fun h => (p.1, h.line)

/-- R115: an engine's access of a DPA range waits while hosts hold what it needs: the back-invalidations that are
not yet outstanding are sent. None when nothing is in the way. -/
def Mach.recall (m : Mach) (dpa n : Nat) (write : Bool) : Option Mach :=
  let m := (m.hostBlocks dpa n write).foldl (fun m p => m.settleLine p.1 p.2) m
  match m.hostBlocks dpa n write with
  | [] => none
  | ls => some (ls.foldl (fun m p => m.biLine p.1 p.2 write .access fun h => write || h.st ≠ .S) m)

/-! ## Answers to the home's snoops (01_organisation.md R20, R22, R24) -/

/-- Whether a die has a WB in flight for a line (R24). -/
def Mach.wbInFlight (m : Mach) (die line : Nat) : Bool :=
  m.col.net.any fun x => x.ty == .wb && x.src == die && x.line == line

/-- A die answers SNP_INV: the line invalidated, an M line's DATA sent to the requester it serves. -/
def Mach.answerInv (m : Mach) (die home req line : Nat) : Mach :=
  match m.cached die line with
  | some l =>
    let m := m.dropCached die line
    if l.st = .M then (m.colSend .snpRsp die home line req .dataSent .poison .M).colSend .data die req line req .inv l.val .M
    else m.colSend .snpRsp die home line req .inv .poison .S
  | none =>
    m.colSend .snpRsp die home line req (if m.wbInFlight die line then .dataSent else .inv) .poison .S

/-- A die answers SNP_SHARE: an E or M line drops to S; an M line's DATA goes to the requester and to the home. -/
def Mach.answerShare (m : Mach) (die home req line : Nat) : Mach :=
  match m.cached die line with
  | some l =>
    let m := m.putCached die line { l with st := .S }
    if l.st = .M then
      let m := m.colSend .snpRsp die home line req .dataSent .poison .M
      let m := m.colSend .data die home line req .inv l.val .M
      if req = home then m else m.colSend .data die req line req .inv l.val .S
    else m.colSend .snpRsp die home line req .shared .poison .S
  | none =>
    if m.wbInFlight die line then m.colSend .snpRsp die home line req .dataSent .poison .S
    else m.colSend .snpRsp die home line req (if die = home then .shared else .inv) .poison .S

/-! ## CXL.mem service (R112-R116) -/

/-- Whether a host entry must be recalled before a request of an LD is served (Table 04-6, Table 04-5): another
LD's E or M for any request, another LD's S when the request needs the line alone. -/
def hostBars (r : HostReq) (h : HostLine) : Bool :=
  let other := !(h.link == r.link && h.lds == [r.ld])
  let alone := r.bytes.isSome || r.ask == .exclusive || r.ask == .own
  other && (alone || h.st ≠ .S)

/-- Whether a request must allocate in a full set of the host filter: 16 ways, 524,288 sets (R113). -/
def Mach.hostOverflow (m : Mach) (r : HostReq) : Option HostLine :=
  let die := r.link / 2
  if r.bytes.isSome ∨ r.ask = .current ∨ (m.hostLines die r.line).any (·.link == r.link) then none
  else
    let set := (m.hostFilter die).filter fun h => h.line % 524288 == r.line % 524288
    if 16 ≤ set.length then set.getLast? else none

/-- The value answered to a CXL.mem read, poison with its record when the access failed (R101). -/
def Mach.answerRead (m : Mach) (r : HostReq) (v : LineVal) : Mach :=
  match v with
  | .failed _ => (m.rasLog r.link r.ld).emit (.memData r.link r.ld r.tag .poison)
  | v => m.emit (.memData r.link r.ld r.tag v)

/-- A write's completion: discarded and recorded when it failed (R101). -/
def Mach.answerHostWrite (m : Mach) (link ld tag status : Nat) : Mach :=
  (if status = 0 then m else m.rasLog link ld).emit (.memDone link ld tag)

/-- A host request served with the line now in the state it needs: `v` is the value its die has. -/
def Mach.hostServe (m : Mach) (r : HostReq) (v : LineVal) : Mach :=
  let die := r.link / 2
  match r.bytes with
  | none => (m.recordHost r.link r.ld r.line (match v with | .failed _ => .current | _ => r.ask)).answerRead r v
  | some bs =>
    let m := m.markReloc r.line
    if m.homeOf (r.line * 64) = die then
      let (m, e) := m.mediaWrite ⟨die, r.line * 64 + r.off, bs, .host r.link r.ld r.tag⟩
      match e with
      | .done => m.answerHostWrite r.link r.ld r.tag 0
      | .failed st => m.answerHostWrite r.link r.ld r.tag st
      | .waiting => m
    else
      match v with
      | .data old => (m.putCached die r.line ⟨.M, .data (patch old r.off bs)⟩).answerHostWrite r.link r.ld r.tag 0
      | .failed st => m.answerHostWrite r.link r.ld r.tag st
      | .poison =>
        if bs.length = 64 then (m.putCached die r.line ⟨.M, .data bs⟩).answerHostWrite r.link r.ld r.tag 0
        else m.answerHostWrite r.link r.ld r.tag stPoison

/-- A host request put among those that wait. -/
def Mach.hostWait (m : Mach) (r : HostReq) : Mach :=
  { m with host := { m.host with waiting := m.host.waiting ++ [r] } }

/-- Whether a REQ of a die for a line is under way: in flight, queued at the home, or served and not yet answered; its host
requests that come later wait for it (R23). -/
def Mach.colPending (m : Mach) (die line : Nat) : Bool :=
  m.col.net.any (fun x => x.line == line && x.src == die && (x.ty == .rdShared || x.ty == .rdOwn || x.ty == .upgrade)) ||
  m.col.waits.any (fun w => w.line == line && w.req == die && w.kind != .recall) ||
  (tget m.col.txns line).any (fun t => t.req == die && t.kind != .recall && t.done.isNone)

/-- R114, R115: a host request at its die: lost paths settled, other holders and a filter victim recalled, then the Col
state it needs: a hit in the die's Col cache, or a request to the home. -/
def Mach.hostAccess (m : Mach) (r : HostReq) : Mach :=
  let die := r.link / 2
  let m := m.settleLine die r.line
  if m.biOpen die r.line then m.hostWait r
  else if (m.hostLines die r.line).any (hostBars r) then
    let inv := r.bytes.isSome || r.ask == .exclusive || r.ask == .own
    (m.biLine die r.line inv .access (hostBars r)).hostWait r
  else match m.hostOverflow r with
  | some h => (((m.bump 0x7040 6).biSend die h true .overflow).hostWait r)
  | none =>
    let home := m.homeOf (r.line * 64)
    let own := r.bytes.isSome || r.ask == .exclusive || r.ask == .own
    let pending := m.colPending die r.line
    if home = die then if pending then m.hostWait r else (m.hostWait r).request home die r.line (if own then .own else .shared)
    else match m.cached die r.line with
    | some l =>
      if own && l.st = .S then
        if pending then m.hostWait r else (m.hostWait r).colSend .upgrade die home r.line die .inv .poison .S
      else (m.putCached die r.line l).hostServe r l.val
    | none =>
      if pending then m.hostWait r
      else (m.hostWait r).colSend (if own then .rdOwn else .rdShared) die home r.line die .inv .poison .S

/-- The requests of a die that wait for a line, taken from the queue. -/
def Mach.hostTake (m : Mach) (die line : Nat) : List HostReq × Mach :=
  let pick (r : HostReq) : Bool := r.link / 2 == die && r.line == line
  (m.host.waiting.filter pick, { m with host := { m.host with waiting := m.host.waiting.filter fun r => !pick r } })

/-- The first waiting request of a line served with the value that has come, unless it wants ownership and the value came
shared; the others, to be tried again. -/
def Mach.hostFirst (m : Mach) (die line : Nat) (st : LineState) (v : LineVal) : List HostReq × Mach :=
  match m.hostTake die line with
  | ([], m) => ([], m)
  | (r :: rest, m) =>
    if (r.bytes.isSome || r.ask == .exclusive || r.ask == .own) && st == .S then (r :: rest, m) else (rest, m.hostServe r v)

/-- The first waiting request of a line ended with what has come; the others are tried again. -/
def Mach.hostDeliver (m : Mach) (die line : Nat) (v : LineVal) : Mach :=
  let p := m.hostFirst die line .E v
  p.1.foldl Mach.hostAccess p.2

/-- Waiting requests of a line tried again. -/
def Mach.hostRetry (m : Mach) (die line : Nat) : Mach :=
  let (rs, m) := m.hostTake die line
  rs.foldl Mach.hostAccess m

/-- Every waiting request of a die tried again. -/
def Mach.hostRetryAll (m : Mach) (die : Nat) : Mach :=
  (((m.host.waiting.filter fun r => r.link / 2 == die).map (·.line)).eraseDups).foldl (fun m l => m.hostRetry die l) m

/-- A back-invalidation over: once none of its line is outstanding on the die, what it was for goes on. -/
def Mach.biComplete (m : Mach) (b : BiSnp) : Mach :=
  if m.biOpen b.die b.line then m else
  match b.cause with
  | .snpInv home req => (m.answerInv b.die home req b.line).hostRetry b.die b.line
  | .snpShare home req => (m.answerShare b.die home req b.line).hostRetry b.die b.line
  | .evict => (m.evictLine b.die b.line).hostRetry b.die b.line
  | .access => m.hostRetry b.die b.line
  | .overflow => m.hostRetryAll b.die

/-! ## Path loss (R118-R120) -/

/-- R119: a bound path marked lost: its state TEARDOWN, its outstanding BISnps completed with their lines settled, the
secondary made primary. -/
def Mach.losePath (m : Mach) (link ld event : Nat) : Mach :=
  match m.ld? link ld with
  | none => m
  | some l =>
    if l.bind ≠ .bound then m else
    let m := { m with cairn := { m.cairn with reqs := tdel m.cairn.reqs (256 + link * 16 + ld) } }
    let m := m.setLd link ld { l with bind := .teardown, lossEvent := event, ideIo := false, ideMem := false }
    let m := { m with host := { m.host with lost := insSorted m.host.lost (link * 16 + ld) } }
    let m := m.setPaths l.ident (remove (m.pathOrder l.ident) (link * 16 + ld))
    let mine := m.host.bis.filter fun b => b.link == link && (m.hostLines b.die b.line).any fun h => h.link == link && h.lds == [ld]
    mine.foldl (fun m b =>
      let m := m.settleLine b.die b.line
      let m := { m with host := { m.host with bis := m.host.bis.erase b } }
      m.biComplete b) m

/-- R120: what a reset of a link resets in an LD: decoders, configuration space and MSI-X table. -/
def Ld.linkReset (l : Ld) : Ld :=
  { Ld.reset with bind := l.bind, ident := l.ident, keySlot := l.keySlot, lossEvent := l.lossEvent }

/-- R120: what a Function Level Reset resets: configuration space and MSI-X table; decoders stay committed. -/
def Ld.functionReset (l : Ld) : Ld := { l.linkReset with decoders := l.decoders }

/-- The LDs of a link. -/
def Mach.ldsOf (m : Mach) (link : Nat) : List Nat :=
  (m.host.lds.filter fun (p : Nat × Ld) => p.1 / 16 == link).map fun p => p.1 % 16

/-- A link lost (Table 04-4): bound paths lose their path, other LDs go DOWN, every LD is reset. -/
def Mach.linkLost (m : Mach) (link event state : Nat) : Mach :=
  let m := m.setLinkState link state
  let m := m.setReg 0x3401 (0x11 + link) 0 0
  (m.ldsOf link).foldl (fun m ld =>
    let m := m.losePath link ld event
    (m.ld? link ld).elim m fun l =>
      m.setLd link ld { l.linkReset with bind := if l.bind = .teardown then .teardown else .down }) m

end Sys2Proof.Machine
end

