-- ==== Sys2Proof/Machine/ColRows.lean ====
section
/-! DEFINITION. What each Col event does (01_organisation.md R19-R25). A REQ acts on its operands; every other message
must be in flight, and changes nothing when it is not. -/

namespace Sys2Proof.Machine

/-- The EVICT or WB of a die for a line that travels ahead of its next REQ, applied (R21). -/
def Mach.applyEvicts (m : Mach) (home src line : Nat) : Mach :=
  let m := match m.colFind .evict src home line with
    | some x => (m.colTake x).clearPresence home line src
    | none => m
  match m.colFind .wb src home line with
  | some x => ((m.colTake x).writeBackLine src line x.val).clearPresence home line src
  | none => m

/-- A REQ reaching its home; dies that are not there send and take none. -/
def Mach.colReq (m : Mach) (ty : ColType) (kind : TxnKind) (home req line : Nat) : Mach :=
  if m.dieActive home && m.dieActive req then
    let m := match m.colFind ty req home line with | some x => m.colTake x | none => m
    (m.applyEvicts home req line).request home req line kind
  else m

/-- COL_RD_SHARED (R20). -/
def Mach.rowColRdShared (m : Mach) (home req line : Nat) : Mach := m.colReq .rdShared .shared home req line
/-- COL_RD_OWN (R19). -/
def Mach.rowColRdOwn (m : Mach) (home req line : Nat) : Mach := m.colReq .rdOwn .own home req line
/-- COL_UPGRADE (R19). -/
def Mach.rowColUpgrade (m : Mach) (home req line : Nat) : Mach := m.colReq .upgrade .upgrade home req line

/-- COL_EVICT (R21, R24): the presence bit cleared; an EVICT that a snoop answered already changes nothing more. -/
def Mach.rowColEvict (m : Mach) (home src line : Nat) : Mach :=
  match m.colFind .evict src home line with
  | some x => (m.colTake x).clearPresence home line src
  | none => m

/-- COL_WB (R21, R24): the line written to the media and the presence bit cleared; a transaction whose snoop was
answered by this WB goes on with the value it brought. -/
def Mach.rowColWb (m : Mach) (home src line : Nat) : Mach :=
  match m.colFind .wb src home line with
  | none => m
  | some x =>
    let m := ((m.colTake x).writeBackLine src line x.val).clearPresence home line src
    match tget m.col.txns line with
    | none => m
    | some t =>
      let t := { t with wbIn := true }
      if t.wbDue then
        let t := { t with wbDue := false }
        let m := m.openTxn line t
        if t.waiting = [] then (m.answered line t).tryClose line else m
      else m.openTxn line t

/-- COL_SNP_SHARE (R20, R115): a host's E or M copy is recalled first. -/
def Mach.rowColSnpShare (m : Mach) (home die line : Nat) : Mach :=
  match m.colFind .snpShare home die line with
  | none => m
  | some x =>
    let m := (m.colTake x).settleLine die line
    if m.hostOwns die line then m.biLine die line false (.snpShare home x.req) fun h => h.st ≠ .S
    else m.answerShare die home x.req line

/-- COL_SNP_INV (R22, R115): every host's copy is recalled first. -/
def Mach.rowColSnpInv (m : Mach) (home die line : Nat) : Mach :=
  match m.colFind .snpInv home die line with
  | none => m
  | some x =>
    let m := (m.colTake x).settleLine die line
    if (m.hostLines die line) ≠ [] then m.biLine die line true (.snpInv home x.req) fun _ => true
    else m.answerInv die home x.req line

/-- COL_SNP_FWD (R20, R24): a responder that still holds the line in S sends it and stays in S; one whose EVICT is in
flight answers I. -/
def Mach.rowColSnpFwd (m : Mach) (home die line : Nat) : Mach :=
  match m.colFind .snpFwd home die line with
  | none => m
  | some x =>
    let m := m.colTake x
    match m.cached die line with
    | some l =>
      let m := m.putCached die line { l with st := .S }
      (m.colSend .data die x.req line x.req .inv l.val .S).colSend .snpRsp die home line x.req .dataSent .poison .S
    | none => m.colSend .snpRsp die home line x.req .inv .poison .S

/-- COL_SNP_RSP (R20, R22, R24): an answer counted off; once all are in, the transaction goes on. -/
def Mach.rowColSnpRsp (m : Mach) (home src line : Nat) : Mach :=
  match m.colFind .snpRsp src home line with
  | none => m
  | some x =>
    let m := m.colTake x
    match tget m.col.txns line with
    | none => m
    | some t =>
      let share := (m.holders home line).1 ≠ .S
      let m := if x.ans = .inv then m.clearPresence home line src else m
      let sent := x.ans == .dataSent
      let wb := sent && m.wbInFlight src line
      let own := sent && !wb && !t.wbIn
      let t := { t with
        waiting := remove t.waiting src
        wbDue := t.wbDue || (wb && !t.wbIn)
        sent := t.sent || (own && t.kind ≠ .recall)
        copyDue := t.copyDue || (own && (t.kind == .recall || (t.kind == .shared && share))) }
      let m := m.openTxn line t
      if t.waiting = [] ∧ !t.wbDue then (m.answered line t).tryClose line else m

/-- COL_ACK (R19): ownership without data: the S copy becomes E. -/
def Mach.rowColAck (m : Mach) (src die line : Nat) : Mach :=
  match m.colFind .ack src die line with
  | none => m
  | some x =>
    let m := m.colTake x
    let m := match m.cached die line with | some l => m.putCached die line { l with st := .E } | none => m
    let m := match tget m.col.txns line with
      | some t => (m.openTxn line { t with done := some .E }).tryClose line
      | none => m
    m.hostRetry die line

/-- A line installed in a Col cache of 32,768 sets of 16 ways; the least recently used line of a full set is evicted,
recalled from the hosts that hold it first (R18, R115). -/
def Mach.install (m : Mach) (die line : Nat) (l : ColLine) : Mach :=
  let set := (m.cacheOf die).filter fun p => p.1 % 32768 == line % 32768 && p.1 != line
  let m := if set.length < 16 then m else
    match set.getLast? with
    | none => m
    | some (v, _) =>
      let m := m.settleLine die v
      if m.hostLines die v = [] then m.evictLine die v else m.biLine die v true .evict fun _ => true
  m.putCached die line l

/-- COL_DATA (R18, R20, R22): at the home, an M holder's DATA is written to the media; at the requester, the line is
installed in the state of the transaction, but not at its own home and not over a modified copy; the waiting host request
is served before the home goes on to the line's next request (R23). -/
def Mach.rowColData (m : Mach) (src die line : Nat) : Mach :=
  match m.colFind .data src die line with
  | none => m
  | some x =>
    let m := m.colTake x
    let home := m.homeOf (line * 64)
    match tget m.col.txns line with
    | none => m
    | some t =>
      let copy := die == t.home && x.st == .M
      let m := if copy then m.writeBackLine src line x.val else m
      let t := if copy then { t with copyIn := true } else t
      let m := m.openTxn line t
      if t.kind = .recall ∨ die ≠ t.req then m.tryClose line
      else match x.val with
      | .failed st => (m.closeTxn line).hostDeliver die line (.failed st)
      | v =>
        let m := if die = home ∨ (m.cached die line).any (·.st == .M) then m else m.install die line ⟨x.st, v⟩
        let m := m.openTxn line { t with done := some (if t.kind = .shared then (if x.st = .E then .E else .S) else .E) }
        let p := m.hostFirst die line x.st v
        p.1.foldl Mach.hostAccess (p.2.tryClose line)

/-- The Col links that two dies share, as (link, die, die), that the variant has (R15). -/
def Mach.colLinks (m : Mach) : List (Nat × Nat × Nat) :=
  ((List.range 4).map fun k => (k, 2 * k, 2 * k + 1)) ++ ((List.range 6).map fun n => (4 + n, n, n + 2))
    |>.filter fun l => decide (l.2.2 < m.dies)

/-- A Col link's state changed by R25: notice 0x8011 with the link, its old and its new state. -/
def Mach.setColLink (m : Mach) (link v : Nat) : Mach :=
  let old := m.reg 0x7011 (1 + link) 0
  (m.setReg 0x7011 (1 + link) 0 v).notice 0x8011 [byteOf link, byteOf old, byteOf v]

/-- COL_LINK_ERROR (R25): a present link that is up retries, counted, and reads 2, retraining. -/
def Mach.rowColLinkError (m : Mach) (link : Nat) : Mach :=
  if link < 10 ∧ m.reg 0x7011 (1 + link) 0 = 1 then (m.setColLink link 2).bump 0x7010 2 else m

/-- COL_LINK_RETRAIN_DONE (R25): a retraining link of two dies in service carries traffic again. -/
def Mach.rowColLinkRetrainDone (m : Mach) (link : Nat) : Mach :=
  if m.reg 0x7011 (1 + link) 0 = 2 ∧ m.colLinks.any (fun l => l.1 == link && m.dieActive l.2.1 && m.dieActive l.2.2) then
    m.setColLink link 1
  else m

end Sys2Proof.Machine
end

