-- ==== Sys2Proof/Machine/Fp.lean ====
section
/-! DEFINITION. Number formats and exact arithmetic with one rounding to nearest even (08_crag_arrays.md R229-R234,
R247; 06_ridgeline_memory.md R175, R192). A finite value is (−1)^neg × m × 2^e. -/

namespace Sys2Proof.Machine

/-- A number of any format, exactly. -/
inductive FVal where
  | nan
  | inf (neg : Bool)
  | fin (neg : Bool) (m : Nat) (e : Int)
  deriving DecidableEq, Repr

/-- A binary format: exponent and mantissa bits, bias; whether its largest exponent holds infinities and NaNs as in
IEEE 754, only the NaN of E4M3, or neither as in E2M1. -/
structure Fmt where
  eb : Nat
  mb : Nat
  bias : Nat
  top : Nat
  deriving DecidableEq, Repr

/-- Binary32. -/
def fp32 : Fmt := ⟨8, 23, 127, 0⟩
/-- BF16. -/
def bf16 : Fmt := ⟨8, 7, 127, 0⟩
/-- Binary16. -/
def fp16 : Fmt := ⟨5, 10, 15, 0⟩
/-- FP8 E5M2. -/
def e5m2 : Fmt := ⟨5, 2, 15, 0⟩
/-- FP8 E4M3: no infinity, one NaN magnitude. -/
def e4m3 : Fmt := ⟨4, 3, 7, 1⟩
/-- FP4 E2M1: no infinity, no NaN. -/
def e2m1 : Fmt := ⟨2, 1, 1, 2⟩

/-- Positive zero. -/
def FVal.zero : FVal := .fin false 0 0

/-- The value of a code of a format. -/
def Fmt.decode (f : Fmt) (w : Nat) : FVal :=
  let m := w % 2 ^ f.mb
  let x := w / 2 ^ f.mb % 2 ^ f.eb
  let neg := bit w (f.eb + f.mb)
  let full := 2 ^ f.eb - 1
  if f.top = 0 ∧ x = full then (if m = 0 then .inf neg else .nan)
  else if f.top = 1 ∧ x = full ∧ m = 2 ^ f.mb - 1 then .nan
  else if x = 0 then .fin neg m (1 - (f.bias : Int) - f.mb)
  else .fin neg (2 ^ f.mb + m) ((x : Int) - f.bias - f.mb)

/-- m × 2^e rounded to nearest even, to p bits and to no exponent below emin. -/
def roundTo (p : Nat) (emin : Int) (m : Nat) (e : Int) : Nat × Int :=
  if m = 0 then (0, emin) else
  let t := max (e + (Nat.log2 m : Int) + 1 - p) emin
  if t ≤ e then (m * 2 ^ (e - t).toNat, t)
  else
    let s := (t - e).toNat
    let q := m / 2 ^ s
    let r := m % 2 ^ s
    let up := decide (2 ^ (s - 1) < r) || (r == 2 ^ (s - 1) && q % 2 == 1)
    let q := if up then q + 1 else q
    if q = 2 ^ p then (2 ^ (p - 1), t + 1) else (q, t)

/-- R232: the code of a value: overflow goes to infinity where the format has one and saturates where it has none;
NaN is the format's default NaN, and the code 0 where it has none. -/
def Fmt.encode (f : Fmt) (v : FVal) : Nat :=
  let sign (neg : Bool) : Nat := b2n neg * 2 ^ (f.eb + f.mb)
  let full := 2 ^ f.eb - 1
  let ended : Nat := match f.top with
    | 0 => full * 2 ^ f.mb
    | 1 => full * 2 ^ f.mb + 2 ^ f.mb - 2
    | _ => full * 2 ^ f.mb + 2 ^ f.mb - 1
  match v with
  | .nan => (match f.top with | 0 => full * 2 ^ f.mb + 2 ^ (f.mb - 1) | 1 => full * 2 ^ f.mb + 2 ^ f.mb - 1 | _ => 0)
  | .inf neg => sign neg + ended
  | .fin neg m e =>
    let emin : Int := 1 - (f.bias : Int) - f.mb
    let (q, t) := roundTo (f.mb + 1) emin m e
    let mag := if q < 2 ^ f.mb then q else ((t - emin).toNat + 1) * 2 ^ f.mb + (q - 2 ^ f.mb)
    sign neg + min mag ended

/-- The value of a code rounded to a format. -/
def Fmt.round (f : Fmt) (v : FVal) : FVal := f.decode (f.encode v)

/-- The signed integer of a two's-complement element. -/
def intVal (w n : Nat) : FVal := let i := toSigned w n; .fin (decide (i < 0)) i.natAbs 0

/-- A value rounded to the nearest integer, ties to even, and saturated to w bits; NaN gives 0 (R232). -/
def intCode (w : Nat) (v : FVal) : Nat :=
  let hi : Int := 2 ^ (w - 1) - 1
  match v with
  | .nan => 0
  | .inf neg => ofSigned w (if neg then -hi - 1 else hi)
  | .fin neg m e =>
    let (q, t) := roundTo (Nat.log2 m + 2 + e.toNat) 0 m e
    let i : Int := ((q * 2 ^ t.toNat : Nat) : Int)
    ofSigned w (max (-hi - 1) (min hi (if neg then -i else i)))

/-- The negation of a value. -/
def FVal.neg : FVal → FVal
  | .nan => .nan
  | .inf s => .inf (!s)
  | .fin s m e => .fin (!s) m e

/-- The magnitude of a value. -/
def FVal.abs : FVal → FVal
  | .nan => .nan
  | .inf _ => .inf false
  | .fin _ m e => .fin false m e

/-- A finite value as an integer multiple of 2^e, e not above its own exponent. -/
def scaleTo (neg : Bool) (m : Nat) (e target : Int) : Int :=
  let i : Int := ((m * 2 ^ (e - target).toNat : Nat) : Int)
  if neg then -i else i

/-- The exact sum. A sum of opposite values is +0; of two −0, −0 (round to nearest). -/
def FVal.add : FVal → FVal → FVal
  | .nan, _ => .nan
  | _, .nan => .nan
  | .inf a, .inf b => if a = b then .inf a else .nan
  | .inf a, _ => .inf a
  | _, .inf b => .inf b
  | .fin sa ma ea, .fin sb mb eb =>
    let e := min ea eb
    let i := scaleTo sa ma ea e + scaleTo sb mb eb e
    if i = 0 then .fin (sa && sb) 0 e else .fin (decide (i < 0)) i.natAbs e

/-- The exact difference. -/
def FVal.sub (a b : FVal) : FVal := a.add b.neg

/-- The exact product; infinity × 0 is NaN. -/
def FVal.mul : FVal → FVal → FVal
  | .nan, _ => .nan
  | _, .nan => .nan
  | .inf a, .inf b => .inf (a != b)
  | .inf a, .fin b m _ => if m = 0 then .nan else .inf (a != b)
  | .fin a m _, .inf b => if m = 0 then .nan else .inf (a != b)
  | .fin a m e, .fin b n k => .fin (a != b) (m * n) (e + k)

/-- The quotient to 64 bits beyond the divisor's size, its last bit set when it is not exact: one rounding of it is the
rounding of the quotient. 0 ÷ 0 and ∞ ÷ ∞ are NaN; a finite value ÷ 0 is infinite. -/
def FVal.div : FVal → FVal → FVal
  | .nan, _ => .nan
  | _, .nan => .nan
  | .inf _, .inf _ => .nan
  | .inf a, .fin b _ _ => .inf (a != b)
  | .fin a _ _, .inf b => .fin (a != b) 0 0
  | .fin a m e, .fin b n k =>
    if n = 0 then (if m = 0 then .nan else .inf (a != b))
    else
      let s := 64 + Nat.log2 n
      let q := m * 2 ^ s / n
      let r := m * 2 ^ s % n
      .fin (a != b) (2 * q + (if r = 0 then 0 else 1)) (e - k - s - 1)

/-- The integer square root by bisection over n bits. -/
def isqrt : Nat → Nat → Nat → Nat
  | 0, _, r => r
  | n + 1, x, r => let t := r + 2 ^ n; isqrt n x (if t * t ≤ x then t else r)

/-- The square root to 64 bits more than a result needs, its last bit set when it is not exact; of a negative value
NaN, of −0 −0. -/
def FVal.sqrt : FVal → FVal
  | .nan => .nan
  | .inf neg => if neg then .nan else .inf false
  | .fin neg m e =>
    if m = 0 then .fin neg 0 e
    else if neg then .nan
    else
      let odd := (e % 2 = 1 : Bool)
      let x := (if odd then 2 * m else m) * 2 ^ 128
      let e' : Int := (if odd then e - 1 else e) / 2 - 64
      let r := isqrt (Nat.log2 x / 2 + 1) x 0
      .fin false (2 * r + (if r * r = x then 0 else 1)) (e' - 1)

/-- Whether a value is less than another, −0 below +0; NaN is neither. -/
def FVal.lt : FVal → FVal → Bool
  | .nan, _ => false
  | _, .nan => false
  | .inf a, .inf b => a && !b
  | .inf a, _ => a
  | _, .inf b => !b
  | .fin sa ma ea, .fin sb mb eb =>
    let e := min ea eb
    let x := scaleTo sa ma ea e
    let y := scaleTo sb mb eb e
    if x = 0 ∧ y = 0 then sa && !sb else decide (x < y)

/-- The lesser value, NaN when either is. -/
def FVal.min (a b : FVal) : FVal := if a = .nan ∨ b = .nan then .nan else if b.lt a then b else a
/-- The greater value, NaN when either is. -/
def FVal.max (a b : FVal) : FVal := if a = .nan ∨ b = .nan then .nan else if a.lt b then b else a

/-- ⌊log2⌋ of a finite non-zero magnitude. -/
def FVal.exponent (m : Nat) (e : Int) : Int := (Nat.log2 m : Int) + e

/-! ## FP32 codes -/

/-- An FP32 operation on codes: decode, the exact result, one rounding. -/
def f32op (op : FVal → FVal → FVal) (a b : Nat) : Nat := fp32.encode (op (fp32.decode a) (fp32.decode b))
/-- FP32 addition. -/
def f32add (a b : Nat) : Nat := f32op FVal.add a b
/-- FP32 multiplication. -/
def f32mul (a b : Nat) : Nat := f32op FVal.mul a b
/-- FP32 fused multiply-add. -/
def f32fma (a b c : Nat) : Nat := fp32.encode (((fp32.decode a).mul (fp32.decode b)).add (fp32.decode c))

end Sys2Proof.Machine
end

