-- ==== Sys2Proof/Machine/Xlate.lean ====
section
/-! DEFINITION. Translation (02_address_spaces.md R41-R54): ASTs, walks, leaf and table caches, faults, invalidation. -/

namespace Sys2Proof.Machine

/-- What an access does (R45). -/
inductive Acc where
  | read | write | atomic
  deriving DecidableEq, Repr

/-- Where a translation leads: a DPA, a GFA with its key, an HPA through a path (link × 16 + LD), a status that ends
the command, or a wait for a host's copy of a table line to be recalled. `span` is how far the answer holds. -/
inductive Target where
  | local (dpa span : Nat)
  | gfa (addr key span : Nat)
  | host (path hpa span : Nat)
  | fault (status : Nat)
  | wait
  deriving DecidableEq, Repr

/-- An ENABLED AST. -/
def Mach.ast? (m : Mach) (a : Nat) : Option Ast := tget m.xl.asts a

/-- The translation engine codes of a die: crags 0-39, Talus 40, Cirque 41, Couloir 42, everything else 43. -/
def engTalus : Nat := 40
/-- Cirque. -/
def engCirque : Nat := 41
/-- Couloir. -/
def engCouloir : Nat := 42
/-- The scheduler, the walker and every other unit. -/
def engOther : Nat := 43

/-! ## Faults (R46) -/

/-- A translation fault reported to a command: the last-fault record written, the fault counted. -/
def Mach.xfault (m : Mach) (die ast dva cause level : Nat) : Mach :=
  let m := ((m.setReg 0x3640 1 0 ast).setReg 0x3640 2 0 dva).setReg 0x3640 3 0 cause
  ((m.setReg 0x3640 4 0 level).setReg 0x3640 5 0 die).bump 0x7020 5

/-- The status of a fault cause (Table 02-5). -/
def causeStatus (c : Nat) : Nat :=
  match c with
  | 1 => stInvalDesc
  | 3 => stPoison
  | 8 => stPerm
  | 9 => stPerm
  | 10 => stFencedDie
  | 11 => stPerm
  | _ => stXlateFault

/-! ## Entries (R43, R44) -/

/-- The index of a DVA at a level (Table 02-2). -/
def levelIndex (level dva : Nat) : Nat :=
  match level with
  | 4 => bits dva 47 39
  | 3 => bits dva 38 30
  | 2 => bits dva 29 21
  | _ => bits dva 20 16

/-- The page size of a leaf at a level, as log2. -/
def levelShift (level : Nat) : Nat := match level with | 3 => 30 | 2 => 21 | _ => 16

/-- R46 causes 4 to 6: what is wrong with an entry read at a level, 0 for nothing. -/
def entryCause (level e : Nat) : Nat :=
  if !bit e 0 then 4
  else if bit e 1 then
    if level = 4 then 5
    else
      let kind := bits e 3 2
      let tgt := bits e 58 16
      let low := bits e (levelShift level) 16 % 2 ^ (levelShift level - 16)
      if bits e 63 59 ≠ 0 ∨ bits e 15 14 ≠ 0 ∨ kind = 3 ∨ 5 ≤ bits e 9 7 ∨ low ≠ 0 then 6
      else if kind = 0 ∧ (2 ^ 28 ≤ tgt ∨ bits e 13 10 ≠ 0) then 6
      else if kind = 2 ∧ (2 ^ 36 ≤ tgt ∨ bit e 13) then 6
      else 0
  else if level = 1 then 5
  else if bits e 63 44 ≠ 0 ∨ bits e 7 2 ≠ 0 then 6
  else if 3 ≤ level ∧ bits e 11 8 ≠ 0 then 6
  else 0

/-- The DPA a table entry names. -/
def nextTable (e : Nat) : Nat := bits e 43 8 * 256

/-! ## Caches (R50-R52) -/

/-- A list kept to its newest n entries, the first being the most recently used. -/
def lru {α : Type} (n : Nat) (l : List α) : List α := l.take n

/-- A leaf that covers a DVA of an AST. -/
def Leaf.covers (l : Leaf) (ast dva : Nat) : Bool := l.ast == ast && decide (l.base ≤ dva) && decide (dva < l.base + l.size)

/-- A leaf put into a die's translation cache, 16,384 entries, and into an engine's micro-cache, 64 entries. -/
def Mach.cacheLeaf (m : Mach) (die eng : Nat) (l : Leaf) : Mach :=
  let put (n : Nat) (c : List Leaf) : List Leaf := lru n (l :: c.erase l)
  { m with xl := { m.xl with
    dieCache := tput m.xl.dieCache die (put 16384 (tgetD m.xl.dieCache die []))
    micro := tput m.xl.micro (die * 64 + eng) (put 64 (tgetD m.xl.micro (die * 64 + eng) [])) } }

/-- The cached leaf for a DVA: the engine's micro-cache, then the die's cache. -/
def Mach.cachedLeaf (m : Mach) (die eng ast dva : Nat) : Option Leaf :=
  ((tgetD m.xl.micro (die * 64 + eng) []).find? (·.covers ast dva)).orElse fun _ =>
    (tgetD m.xl.dieCache die []).find? (·.covers ast dva)

/-- The DVA bits above the ones a level's entry stands for. -/
def walkPrefix (level dva : Nat) : Nat := dva / 2 ^ (match level with | 4 => 39 | 3 => 30 | _ => 21)

/-- A cached table entry of a level. -/
def Mach.cachedTable (m : Mach) (die ast level dva : Nat) : Option Nat :=
  ((tgetD m.xl.walkCache (die * 8 + level) []).find? fun w => w.ast == ast && w.prefixBits == walkPrefix level dva).map
    (·.entry)

/-- A table entry put into the walk cache of its level, 256 entries a level. -/
def Mach.cacheTable (m : Mach) (die ast level dva e : Nat) : Mach :=
  let w : WalkEntry := ⟨ast, level, walkPrefix level dva, e⟩
  let old := tgetD m.xl.walkCache (die * 8 + level) []
  { m with xl := { m.xl with walkCache := tput m.xl.walkCache (die * 8 + level) (lru 256 (w :: old.erase w)) } }

/-! ## Walks (R43, R44, R47) -/

/-- How one table read ends: the entry, a cause of Table 02-5, a status of the read's own, or a host's copy that must
be recalled first. -/
inductive EntryRead where
  | entry (e : Nat)
  | cause (c : Nat)
  | status (st : Nat)
  | wait
  deriving DecidableEq, Repr

/-- The walker reads an 8-byte entry through the Col (cause 2 and 3 of Table 02-5). -/
def Mach.readEntry (m : Mach) (die owner dpa : Nat) : EntryRead × Mach :=
  if !m.inGrant owner dpa 8 then (.cause 2, m)
  else match m.recall dpa 8 false with
  | some m => (.wait, m)
  | none =>
    match m.loadDpa die dpa 8 with
    | (.ok bs, m) => (.entry (leNat bs), m)
    | (.failed st, m) => (if st = stPoison then .cause 3 else .status st, m)

/-- How a walk ends: a leaf and its level, a cause at a level, a status of a table read, or a wait. -/
inductive WalkEnd where
  | leaf (e level : Nat)
  | cause (c level : Nat)
  | status (st : Nat)
  | wait
  deriving DecidableEq, Repr

/-- A walk from a level down, table entries taken from the walk cache where it holds them (R43). -/
def Mach.walkFrom : Nat → Mach → Nat → Nat → Nat → Nat → Nat → WalkEnd × Mach
  | 0, m, _, _, _, _, _ => (.cause 4 1, m)
  | level + 1, m, die, ast, owner, table, dva =>
    let lv := level + 1
    match (if 2 ≤ lv then m.cachedTable die ast lv dva else none) with
    | some e => Mach.walkFrom level m die ast owner (nextTable e) dva
    | none =>
      match m.readEntry die owner (table + 8 * levelIndex lv dva) with
      | (.wait, m) => (.wait, m)
      | (.cause c, m) => (.cause c lv, m)
      | (.status st, m) => (.status st, m)
      | (.entry e, m) =>
        let c := entryCause lv e
        if c ≠ 0 then (.cause c lv, m)
        else if bit e 1 then (.leaf e lv, m)
        else Mach.walkFrom level (m.cacheTable die ast lv dva e) die ast owner (nextTable e) dva

/-- R64: a leaf loaded with ADVICE records it for the granule that the access touches. A PIN that the owner's quota
does not allow records nothing. -/
def Mach.leafAdvice (m : Mach) (owner e base dva : Nat) : Mach :=
  let a := bits e 9 7
  if a = 0 ∨ bits e 3 2 ≠ 0 then m
  else match m.recordHint (granuleOf (bits e 58 16 * 65536 + (dva - base))) a owner with
    | .ok m => m
    | .error _ => m

/-- Whether every access of a tenant's AST must stay in the store (16_security.md R458). -/
def Mach.tenantAst (m : Mach) (owner : Nat) : Bool := m.confState == 2 && owner == m.tenant

/-- The path by which an identity is bound on a host port, the primary before the secondary (R45). -/
def Mach.boundOn (m : Mach) (owner port : Nat) : Option Nat := (m.pathOrder owner).find? fun p => p / 32 == port

/-- The checks of causes 7 to 11 on a leaf for one access, and the address it gives. -/
def Mach.leafTarget (m : Mach) (a : Ast) (l : Leaf) (dva : Nat) (acc : Acc) : Except Nat Target :=
  let e := l.entry
  let off := dva - l.base
  let addr := bits e 58 16 * 65536 + off
  let span := l.size - off
  let perm := match acc with | .read => bit e 4 | .write => bit e 5 | .atomic => bit e 6
  match bits e 3 2 with
  | 0 =>
    if m.reg 0x3000 1 0 ≤ addr then .error 7
    else if !perm then .error 8
    else if !m.inGrant a.owner addr 1 then .error 9
    else .ok (.local addr (min span (2 ^ 21 - addr % 2 ^ 21)))
  | 1 => if !perm then .error 8 else if m.tenantAst a.owner then .ok (.fault stPerm)
    else .ok (.gfa addr (bits e 13 10) span)
  | _ =>
    let port := bits e 12 10
    if !perm then .error 8
    else if !m.dieActive port then .error 10
    else match (if a.owner = 0xFF then none else m.boundOn a.owner port) with
      | none => .error 11
      | some p => if m.tenantAst a.owner then .ok (.fault stPerm) else .ok (.host p addr span)

/-- The path of a host-shared AST's binding (0x3610.06): port, link of the port, LD. -/
def bindingPath (b : Nat) : Nat := (bits b 26 24 * 2 + bits b 27 27) * 16 + bits b 23 20

/-- R47: the fixed part of a host-shared AST: by the LD's decoders, checked as a LOCAL target. -/
def Mach.fixedPart (m : Mach) (a : Ast) (dva : Nat) : Except Nat Target :=
  let p := bindingPath a.binding
  match m.ld? (p / 16) (p % 16) with
  | none => .error 4
  | some l =>
    let d0 := l.decoders.headD Decoder.reset
    let hpa := dva - 2 ^ 46 + d0.base
    match l.decoders.find? fun d => d.committed && decide (d.base ≤ hpa) && decide (hpa < d.base + d.size) with
    | none => .error 4
    | some d =>
      let dpa := hdmToDpa hpa d.base d.dpa d.gran d.ways
      if m.reg 0x3000 1 0 ≤ dpa then .error 7
      else if !m.inGrant a.owner dpa 1 then .error 9
      else .ok (.local dpa (min (2 ^ d.gran - (hpa - d.base) % 2 ^ d.gran) (2 ^ 21 - dpa % 2 ^ 21)))

/-- The leaf of a DVA: from the caches (a hit counts in 0x7020.01), or by a demand walk (0x7020.02). -/
def Mach.findLeaf (m : Mach) (die eng ast : Nat) (a : Ast) (dva : Nat) : Except WalkEnd Leaf × Mach :=
  match m.cachedLeaf die eng ast dva with
  | some l => (.ok l, (m.cacheLeaf die eng l).bump 0x7020 1)
  | none =>
    match (m.bump 0x7020 2).walkFrom 4 die ast a.owner a.root dva with
    | (.leaf e lv, m) =>
      let sh := levelShift lv
      let l : Leaf := ⟨ast, dva / 2 ^ sh * 2 ^ sh, 2 ^ sh, e⟩
      (.ok l, (m.cacheLeaf die eng l).leafAdvice a.owner e l.base dva)
    | (w, m) => (.error w, m)

/-- A fault of a cause at a level reported to the command that met it. -/
def Mach.faulted (m : Mach) (die ast dva cause level : Nat) : Target × Mach :=
  (.fault (causeStatus cause), m.xfault die ast dva cause level)

/-- The key of a slot of an AST's key-slot table (R44): a coherent read of 8 bytes. -/
def Mach.slotKey (m : Mach) (die : Nat) (a : Ast) (slot : Nat) : Except Nat Nat × Mach :=
  match m.loadDpa die (a.keys + 8 * slot) 8 with
  | (.ok bs, m) => (.ok (leNat bs), m)
  | (.failed st, m) => (.error st, m)

/-- R41-R47: one access of an engine of a die, at a DVA of an AST, translated. -/
def Mach.xlate (m : Mach) (die eng ast dva : Nat) (acc : Acc) : Target × Mach :=
  match m.ast? ast with
  | none => (.fault stBadAst, m)
  | some a =>
    if 2 ^ 48 ≤ dva then m.faulted die ast dva 1 0
    else if a.kind = 1 ∧ 2 ^ 47 ≤ dva then m.faulted die ast dva 12 0
    else if a.kind = 1 ∧ 2 ^ 46 ≤ dva then
      match m.fixedPart a dva with
      | .ok t => (t, m)
      | .error c => m.faulted die ast dva c 0
    else if a.kind = 1 ∧ a.root = 0 then m.faulted die ast dva 4 0
    else
      match m.findLeaf die eng ast a dva with
      | (.error (.cause c lv), m) => m.faulted die ast dva c lv
      | (.error (.status st), m) => (.fault st, m)
      | (.error .wait, m) => (.wait, m)
      | (.error (.leaf _ _), m) => (.wait, m)
      | (.ok l, m) =>
        match m.leafTarget a l dva acc with
        | .error c => m.faulted die ast dva c (match l.size with | 65536 => 1 | 2097152 => 2 | _ => 3)
        | .ok (.gfa g slot span) =>
          match m.recall (a.keys + 8 * slot) 8 false with
          | some m => (.wait, m)
          | none =>
            match m.slotKey die a slot with
            | (.ok k, m) => (.gfa g k span, m)
            | (.error st, m) => (.fault st, m)
        | .ok t => (t, m)

/-! ## Invalidation (R48, R52-R54) -/

/-! ### Copies that engines keep (12_visibility.md R330) -/

/-- Prefetch sets replaced. -/
def Mach.setSets (m : Mach) (ss : List PrefetchSet) : Mach :=
  { m with eng := { m.eng with talus := { m.eng.talus with sets := ss } } }

/-- The slot number under which prefetch reads of a queue are made. -/
def prefetchSlot (q : Nat) : Nat := 8192 + 2 * q

/-- Prefetch sets freed, the reads made for them forgotten. -/
def Mach.freeSets (m : Mach) (pick : PrefetchSet → Bool) : Mach :=
  let gone := (m.eng.talus.sets.filter pick).map fun s => prefetchSlot s.queue
  let m := m.setSets (m.eng.talus.sets.filter (!pick ·))
  { m with xl := { m.xl with fetches := m.xl.fetches.filter fun f => !gone.contains f.slot } }

/-- Cirque's structure cache entries dropped, each counted (R335). -/
def Mach.dropStructs (m : Mach) (pick : StructEntry → Bool) : Mach :=
  let n := (m.eng.cirque.cache.filter pick).length
  ({ m with eng := { m.eng with cirque := { m.eng.cirque with
    cache := m.eng.cirque.cache.filter (!pick ·) } } } : Mach).bumpBy 0x70C0 4 0 n

/-- The copies keyed to an AST dropped by its invalidation: prefetch sets and structure cache entries (R270, R335). -/
def Mach.dropCopies (m : Mach) (ast : Option Nat) : Mach :=
  (m.freeSets fun s => ast.all (· == s.ast)).dropStructs fun e => ast.all (· == e.ast)

/-- Every cached translation of an AST dropped, and its walks started again; none stands for every AST. -/
def Mach.dropAst (m : Mach) (ast : Option Nat) : Mach :=
  let hit (x : Nat) : Bool := ast.all (· == x)
  let x := m.xl
  { m with xl := { x with
    dieCache := x.dieCache.map fun (p : Nat × List Leaf) => (p.1, p.2.filter fun l => !hit l.ast)
    micro := x.micro.map fun (p : Nat × List Leaf) => (p.1, p.2.filter fun l => !hit l.ast)
    walkCache := x.walkCache.map fun (p : Nat × List WalkEntry) => (p.1, p.2.filter fun w => !hit w.ast)
    walks := x.walks.map fun w => if hit w.ast then
        { w with level := 4, table := ((tget x.asts w.ast).map (·.root)).getD 0 } else w } }

/-- Cached translations of an AST that overlap a DVA range dropped, and its walks started again (R48). -/
def Mach.dropRange (m : Mach) (ast lo n : Nat) : Mach :=
  let hit (l : Leaf) : Bool := l.ast == ast && overlaps l.base l.size lo n
  let x := m.xl
  { m with xl := { x with
    dieCache := x.dieCache.map fun (p : Nat × List Leaf) => (p.1, p.2.filter fun l => !hit l)
    micro := x.micro.map fun (p : Nat × List Leaf) => (p.1, p.2.filter fun l => !hit l)
    walkCache := x.walkCache.map fun (p : Nat × List WalkEntry) => (p.1, p.2.filter fun w => w.ast ≠ ast)
    walks := x.walks.map fun w => if w.ast = ast then
        { w with level := 4, table := ((tget x.asts ast).map (·.root)).getD 0 } else w } }

/-- The scoreboard slots with reads outside the package outstanding in an AST: those alone wait on the fabric or a
host port (R53). -/
def Mach.outstandingIn (m : Mach) (ast : Option Nat) : List Nat :=
  ((m.xl.fetches.filter fun f => f.ended.isNone).map (·.slot)).eraseDups.filter fun k =>
    (tget m.sched.slots k).any fun c => ast.all (· == fld c.desc 16 2)

/-- An invalidation acknowledged: its time recorded, its sender told. -/
def Mach.invalAck (m : Mach) (i : Inval) : Mach :=
  let m := { m with xl := { m.xl with invals := m.xl.invals.erase i } }
  match i.reply with
  | .dict s => (m.setReg 0x3630 4 0 ((m.now - i.started) * 5 / 4)).answerWrite s 0x3630 (if i.ast.isSome then 1 else 2) 0
  | .ats link ld => m.emit (.atsCompletion link ld)
  | .silent => m

/-- R52: an invalidation begun after its translations were dropped: acknowledged at once when nothing under them is
outstanding. -/
def Mach.invalStart (m : Mach) (ast : Option Nat) (reply : InvalReply) : Mach :=
  let i : Inval := ⟨ast, reply, m.outstandingIn ast, m.now⟩
  let m := { m with xl := { m.xl with invals := m.xl.invals ++ [i] } }
  if i.slots = [] then m.invalAck i else m

/-- An access of a slot has completed: it is no longer waited for; INVALIDATION_ACK acknowledges (R52). -/
def Mach.invalProgress (m : Mach) (slot : Nat) : Mach :=
  { m with xl := { m.xl with invals := m.xl.invals.map fun i => { i with slots := remove i.slots slot } } }

end Sys2Proof.Machine
end

