-- ==== Sys2Proof/Machine/QueueOps.lean ====
section
/-! DEFINITION. Operations of the queues, the scoreboards, the events and the Pass arbiters (07_command_queues.md
R204-R224; 12_visibility.md R331-R333). -/

namespace Sys2Proof.Machine

/-! ## Queues -/

/-- The die of a queue (R14). -/
def queueDie (q : Nat) : Nat := q / 512
/-- 0x5401.02: 0 DISABLED, 1 RUNNING, 2 STOPPED, 3 ERROR, 4 FENCED. -/
def Mach.qState (m : Mach) (q : Nat) : Nat := m.reg 0x5401 2 q
/-- A queue's state set. -/
def Mach.setQState (m : Mach) (q v : Nat) : Mach := m.setReg 0x5401 2 q v
/-- 0x5401.03: a queue's owner. -/
def Mach.qOwner (m : Mach) (q : Nat) : Nat := m.reg 0x5401 3 q
/-- Entries of a queue's submission ring. -/
def Mach.sqSize (m : Mach) (q : Nat) : Nat := 2 ^ m.reg 0x5401 7 q
/-- Entries of a queue's completion ring. -/
def Mach.cqSize (m : Mach) (q : Nat) : Nat := 2 ^ m.reg 0x5401 9 q
/-- A queue's own copies. -/
def Mach.queue (m : Mach) (q : Nat) : Queue := tgetD m.sched.queues q Queue.fresh
/-- A queue's own copies replaced. -/
def Mach.setQueue (m : Mach) (q : Nat) (v : Queue) : Mach :=
  { m with sched := { m.sched with queues := tput m.sched.queues q v } }

/-- The scoreboard slots of a queue's commands in flight (0x5401.10). -/
def Mach.inFlight (m : Mach) (q : Nat) : List Nat :=
  (m.sched.slots.filter fun (p : Nat × Cmd) => p.2.queue == q).map Prod.fst

/-- R208: a completion entry can be reserved for one more command. -/
def Mach.cqRoom (m : Mach) (q : Nat) : Bool :=
  let c := m.cqSize q
  let s := m.queue q
  decide ((m.inFlight q).length + (s.cqTail + c - s.cqHead) % c < c)

/-- R205: a doorbell that has been let through to its queue. -/
def Mach.doorbell (m : Mach) (q tail : Nat) : Mach :=
  let s := m.qState q
  let v := m.queue q
  let n := m.sqSize q
  if s ≠ 1 ∧ s ≠ 2 ∨ n ≤ tail ∨ (tail + n - v.sqHead) % n < (v.tail + n - v.sqHead) % n then m.bump 0x7070 3
  else (m.event 1 q).setQueue q { v with tail := tail }

/-! ## Header checks (R210, R217) -/

/-- The opcodes of Table 07-4. -/
def opcodes : List Nat :=
  [0x01, 0x02, 0x10, 0x11, 0x12, 0x20, 0x21, 0x22, 0x23, 0x30, 0x31, 0x40, 0x41, 0x42, 0x43, 0x50, 0x51, 0x52, 0x60]

/-- A descriptor's opcode. -/
def descOp (d : List Byte) : Nat := fld d 0 1
/-- A flag of a descriptor's header: 0 WAIT, 1 SIGNAL, 2 SIG_OK, 3 BARRIER, 4 IRQ, 5 NOTIFY, 6 BULK. -/
def descFlag (d : List Byte) (b : Nat) : Bool := bit (fld d 1 1) b

/-- R217: whether a queue of an owner may name an event. -/
def Mach.eventOk (m : Mach) (owner e : Nat) : Bool :=
  let o := m.reg 0x5410 2 (e / 256)
  owner == 0xFF || o == 0xFE || o == owner

/-- Commands that the tenant's queues may not run while confidential mode is ON (16_security.md R458): MIGRATE, PUBLISH,
COLLECTIVE and a fan-out SEARCH. -/
def Mach.confBarred (m : Mach) (q : Nat) (d : List Byte) : Bool :=
  m.confState == 2 && m.qOwner q == m.tenant &&
    ([0x40, 0x43, 0x60].contains (descOp d) || (descOp d == 0x20 && bit (fld d 18 1) 3))

/-- R210: the status a fetched header fails with, none when it passes. -/
def Mach.headerFail (m : Mach) (q : Nat) (d : List Byte) : Option Nat :=
  let owner := m.qOwner q
  if !opcodes.contains (descOp d) ∨ descFlag d 7 ∨ fld d 12 1 / 4 ≠ 0 ∨ fld d 13 3 ≠ 0 then some stInvalDesc
  else if fld d 12 1 = 3 ∨ (fld d 12 1 ≠ 0 ∧ !descFlag d 6) then some stInvalDesc
  else if (!descFlag d 0 ∧ (fld d 2 2 ≠ 0 ∨ fld d 4 4 ≠ 0)) ∨ (!descFlag d 1 ∧ fld d 8 2 ≠ 0) then some stInvalDesc
  else if (descFlag d 0 ∧ !m.eventOk owner (fld d 2 2)) ∨ (descFlag d 1 ∧ !m.eventOk owner (fld d 8 2)) then some stPerm
  else if m.confState ≠ 0 ∧ m.confState ≠ 3 ∧ owner ≠ m.tenant then some stTenantBusy
  else if m.confBarred q d then some stPerm
  else none

/-! ## Events (R214, R215, R217) -/

/-- An event's count. -/
def Mach.eventCount (m : Mach) (e : Nat) : Nat := tgetD m.sched.events e 0

/-- Whether an event is reached by a value: (s32)(count − v) ≥ 0. -/
def Mach.reached (m : Mach) (e v : Nat) : Bool := decide ((m.eventCount e + 2 ^ 32 - v % 2 ^ 32) % 2 ^ 32 < 2 ^ 31)

/-- The die that keeps an event: its index modulo D by the home remap table, which is the index itself until a fence
hands the events of a die over (R214, R30). -/
def Mach.eventDie (m : Mach) (e : Nat) : Nat :=
  let d := e % m.dies
  if m.dieState d = 3 then m.reg 0x3381 (1 + d) 0 else d

/-- An event's count set, and every head whose WAIT it reaches made eligible (R215). -/
def Mach.setEvent (m : Mach) (e v : Nat) : Mach :=
  let m := m.event 4 e
  let m := { m with sched := { m.sched with events := tput m.sched.events e (v % 2 ^ 32) } }
  let wake (h : Head) : Head :=
    if !h.eligible && fld h.desc 2 2 == e && m.reached e (fld h.desc 4 4) then { h with eligible := true, readyAt := m.now }
    else h
  { m with sched := { m.sched with
    queues := m.sched.queues.map fun (p : Nat × Queue) => (p.1, { p.2 with heads := p.2.heads.map wake }) } }

/-! ## Completion (R208-R213, R333) -/

/-- The owner's primary path (R111). -/
def Mach.primary (m : Mach) (owner : Nat) : Option Nat := (m.pathOrder owner).head?

/-- A queue's vector raised on the owner's primary path; with no path bound the interrupt is dropped (R107, R212). -/
def Mach.raiseVector (m : Mach) (q : Nat) : Mach :=
  let v := m.reg 0x5401 0x0B q
  if v = 0xFFFF then m else
  match m.primary (m.qOwner q) with
  | some p => m.msix (p / 16) (p % 16) v
  | none => m.bump 0x7040 8

/-- R212: an IRQ record written: the vector raised, or held for the end of the coalescing time. -/
def Mach.raiseIrq (m : Mach) (q : Nat) : Mach :=
  let s := m.queue q
  if s.coalescing then m.setQueue q { s with raisePending := true }
  else (m.raiseVector q).setQueue q { s with coalescing := m.reg 0x5401 0x0D q != 0 }

/-- Table 07-2: a record or pointer-block write has failed. -/
def Mach.queueError (m : Mach) (q : Nat) : Mach :=
  let m := m.bump 0x7070 0x0D
  if m.qState q = 1 ∨ m.qState q = 2 then
    ((m.setQState q 3).notice 0x8070 (leBytes 2 q)).raiseVector q
  else m

/-- A write of a queue's rings or pointer block: 0, or the status it failed with; outside the owner's grant set it
fails (R209). -/
def Mach.queueWrite (m : Mach) (q dpa : Nat) (bs : List Byte) : Nat × Mach :=
  if !m.inGrant (m.qOwner q) dpa bs.length then (stPerm, m)
  else m.storeDpa (queueDie q) dpa bs (.queue q)

/-- The notification line of a queue (Table 07-6), by CXL.cache where the LD's host enabled it, by CXL.io otherwise
(04_host_ports.md R102). -/
def Mach.notifyLine (m : Mach) (q : Nat) : Mach :=
  let hpa := m.reg 0x5401 0x0C q
  if hpa = 0 then m else
  match m.primary (m.qOwner q) with
  | none => m.bump 0x7070 0x0C
  | some p =>
    let s := m.queue q
    let line := leBytes 8 s.completed ++ leBytes 2 q ++ leBytes 4 s.cqTail ++ zeros 2 ++ leBytes 8 m.now ++ zeros 40
    match m.ld? (p / 16) (p % 16) with
    | some l => m.emit (if l.cacheEnable ∧ m.linkState (p / 16) = 4 then .cacheWrite (p / 16) (p % 16) hpa line
        else .cxlWrite (p / 16) (p % 16) hpa line)
    | none => m.bump 0x7070 0x0C

/-- Table 07-5: a completion record. -/
def recordBytes (status sqIndex : Nat) (d : List Byte) (phase signalled : Bool) (q detail result time : Nat) : List Byte :=
  leBytes 2 status ++ leBytes 2 sqIndex ++ slice d 10 2 ++ slice d 0 1 ++ [byteOf (b2n phase + 2 * b2n signalled)] ++
  leBytes 2 q ++ zeros 2 ++ leBytes 4 detail ++ leBytes 8 result ++ leBytes 8 time

/-- A record written at CQ_TAIL, then CQ_TAIL and COMPLETED (R211, R333). In ERROR nothing is written; a write that
fails puts the queue in ERROR (R209). -/
def Mach.writeRecord (m : Mach) (q status sqIndex : Nat) (d : List Byte) (signalled : Bool) (detail result : Nat) : Mach :=
  let m := (m.bump 0x7070 2).trace 0 (queueDie q) (leBytes 2 q ++ [byteOf (descOp d), 1] ++ leBytes 2 status)
  if m.qState q = 3 then m.bump 0x7070 0x0D else
  let s := m.queue q
  let c := m.cqSize q
  let rec' := recordBytes status sqIndex d (s.completed / c % 2 == 0) signalled q detail result m.now
  match m.queueWrite q (m.reg 0x5401 8 q + 32 * s.cqTail) rec' with
  | (0, m) =>
    let s := { s with cqTail := (s.cqTail + 1) % c, completed := (s.completed + 1) % 2 ^ 64 }
    let m := (m.setQueue q s).event 3 q
    let pb := m.reg 0x5401 0x0A q
    match m.queueWrite q (pb + 4) (leBytes 4 s.cqTail) with
    | (0, m) =>
      match m.queueWrite q (pb + 16) (leBytes 8 s.completed) with
      | (0, m) => m
      | (_, m) => m.queueError q
    | (_, m) => m.queueError q
  | (_, m) => m.queueError q

/-- What follows a record (R333): the header's SIGNAL, the vector, the notification line. -/
def Mach.afterRecord (m : Mach) (q : Nat) (d : List Byte) (signalled : Bool) : Mach :=
  let m := if signalled then m.setEvent (fld d 8 2) (m.eventCount (fld d 8 2) + 1) else m
  if m.qState q = 3 then m else
  let m := if descFlag d 4 then m.raiseIrq q else m
  if descFlag d 5 then m.notifyLine q else m

/-- A command that never reached a scoreboard slot ends: its record, without WAIT or SIGNAL (R210). -/
def Mach.endHead (m : Mach) (q index status : Nat) (d : List Byte) : Mach :=
  let m := if status = stTenantBusy then m.bump 0x7070 0x0E else m
  (m.writeRecord q status index d false 0 0).afterRecord q d false

/-! ## Scoreboard slots (R218) -/

/-- The die of a scoreboard slot; numbers from 8,192 up stand for work of an engine without a command. -/
def slotDie (k : Nat) : Nat := k % 8192 / 1024

/-- The command on a slot. -/
def Mach.cmd? (m : Mach) (k : Nat) : Option Cmd := tget m.sched.slots k

/-- The command on a slot changed. -/
def Mach.setCmd (m : Mach) (k : Nat) (c : Cmd) : Mach := { m with sched := { m.sched with slots := tput m.sched.slots k c } }

/-- R12: a command's first failure; later ones do not replace it, and its engine work is over. -/
def Mach.failCmd (m : Mach) (k status : Nat) : Mach :=
  match m.cmd? k with
  | some c => m.setCmd k { c with fail := some (c.fail.getD status), done := true }
  | none => m

/-- A failure noted while the command goes on. -/
def Mach.noteFail (m : Mach) (k status : Nat) : Mach :=
  match m.cmd? k with
  | some c => if status = 0 then m else m.setCmd k { c with fail := some (c.fail.getD status) }
  | none => m

/-- A command's engine work ended. -/
def Mach.finish (m : Mach) (k detail result : Nat) : Mach :=
  match m.cmd? k with
  | some c => m.setCmd k { c with done := true, detail := detail, result := result }
  | none => m

/-- A command's own AST is usable: ENABLED, and owned by the queue's owner unless the queue is the Steward's. -/
def Mach.astOk (m : Mach) (q ast : Nat) : Bool :=
  match m.ast? ast with
  | some a => m.qOwner q == 0xFF || a.owner == m.qOwner q
  | none => false

/-- Whether a reserved field of a command's own bytes is not 0 (R9; the descriptor tables of chapters 02 and 06 to 12); the
AST field's upper bits apart, which its rows count with the AST. -/
def descReserved (d : List Byte) : Bool :=
  let from_ (a : Nat) : Bool := !allZero (slice d a (64 - a))
  let span (a n : Nat) : Bool := fld d a n != 0
  let above (a b : Nat) : Bool := decide (2 ^ b ≤ fld d a 1)
  match descOp d with
  | 0x01 => above 19 1 || span 20 4 || from_ 52
  | 0x02 => above 19 1 || span 21 3 || from_ 40
  | 0x10 => above 18 3
  | 0x12 => above 18 6
  | 0x11 => above 18 2 || span 19 1 || from_ 52
  | 0x20 => above 18 4 || span 54 2
  | 0x21 => span 21 3 || from_ 52
  | 0x22 => span 21 3 || from_ 52
  | 0x23 => above 18 1 || span 21 3 || from_ 52
  | 0x30 => above 21 1 || span 22 2 || from_ 48
  | 0x31 => above 19 6 || span 22 2 || span 61 3
  | 0x40 => span 20 4 || from_ 48
  | 0x41 => span 19 5 || from_ 40
  | 0x42 => above 19 2 || span 20 4 || from_ 56
  | 0x43 => span 18 6 || from_ 48
  | 0x51 => span 19 1 || from_ 24
  | 0x52 => span 20 4 || from_ 52
  | 0x50 => span 19 1 || from_ 24
  | 0x60 => span 21 1 || from_ 50
  | _ => false

/-- What a command whose AST is not usable ends with: INVAL_DESC when a reserved field is not 0 as well, since no other field
is then acted on (R9); otherwise BAD_AST (R41, R210). -/
def badAst (d : List Byte) : Nat := if descReserved d then stInvalDesc else stBadAst

/-- The commands of an AST in flight (0x3610.08). -/
def Mach.astInFlight (m : Mach) (ast : Nat) : Nat :=
  (m.sched.slots.filter fun (p : Nat × Cmd) => fld p.2.desc 16 2 == ast && descOp p.2.desc != 0x51).length

/-- The lowest free slot of a die. -/
def Mach.freeSlot (m : Mach) (die : Nat) : Option Nat :=
  firstFrom 1024 (die * 1024) fun k => (m.cmd? k).isNone

/-- A slot freed: the reads it has outside the package forgotten, its walks ended, owner fences told. -/
def Mach.dropSlot (m : Mach) (k : Nat) : Mach :=
  let s := m.sched
  let m := { m with sched := { s with
    slots := (tdel s.slots k).map fun (p : Nat × Cmd) => (p.1, { p.2 with waitsFor := remove p.2.waitsFor k }) } }
  let m := { m with xl := { m.xl with
    fetches := m.xl.fetches.filter fun f => f.slot ≠ k
    walks := m.xl.walks.filter fun w => w.slot ≠ some k } }
  m.invalProgress k

/-- Whether writes of a command are still on their way to the media (R331). -/
def Mach.writesPending (m : Mach) (k : Nat) : Bool :=
  (m.store.heldWrites ++ m.store.allocWaits).any fun w => w.owner == .cmd k

/-- The end of a command whose writes are visible: record, pointer block, SIGNAL, interrupt, notification (R333). -/
def Mach.endSlot (m : Mach) (k : Nat) : Mach :=
  match m.cmd? k with
  | none => m
  | some c =>
    let st := c.fail.getD 0
    let sig := descFlag c.desc 1 && (!descFlag c.desc 2 || st == 0)
    let m := m.dropSlot k
    (m.writeRecord c.queue st c.sqIndex c.desc sig c.detail c.result).afterRecord c.queue c.desc sig

/-! ## Pass arbiters (R220-R224) -/

/-- The key of a bank. -/
def bankKey (die crag bank : Nat) : Nat := (die * 40 + crag) * 16 + bank

/-- A bank's arbiter. -/
def Mach.bank (m : Mach) (k : Nat) : Bank := tgetD m.sched.banks k Bank.idle

/-- A bank's arbiter replaced; an idle one is not listed. -/
def Mach.setBank (m : Mach) (k : Nat) (b : Bank) : Mach :=
  { m with sched := { m.sched with banks := if b = Bank.idle then tdel m.sched.banks k else tput m.sched.banks k b } }

/-- R222: a request that loses: parked, stalled when its input's four places are taken, or withdrawn for b cycles, b
doubling. -/
def Mach.loseBank (m : Mach) (k : Nat) (r : BankReq) : Mach :=
  let b := m.bank k
  if bit (m.reg 0x5440 2 0) r.input then
    let n := tgetD b.b r.input 1
    (m.setBank k { b with backing := b.backing ++ [r], b := tput b.b r.input (min 1024 (2 * n)) }).bump 0x7070 7
  else if (b.parked.filter fun x => x.input == r.input).length < 4 then m.setBank k { b with parked := b.parked ++ [r] }
  else (m.setBank k { b with stalled := b.stalled ++ [r] }).bump 0x7070 8

/-- A request granted: its input's back-off returns to 1. -/
def Mach.grantBank (m : Mach) (k : Nat) (r : BankReq) : Mach :=
  let b := m.bank k
  m.setBank k { b with holder := some r, b := tdel b.b r.input }

/-- A Pass event in the trace (Table 17-6): 0 a revocation, 1 a watchdog bite, 2 a starvation report. -/
def Mach.tracePass (m : Mach) (k input kind : Nat) : Mach :=
  m.trace 4 (k / 640) [byteOf (k / 16 % 40), byteOf (k % 16), byteOf input, byteOf kind]

/-- R220, R221: a request presented: granted to an idle bank or over a lower holder, whose burst is revoked with its
count kept; otherwise it loses. -/
def Mach.presentBank (m : Mach) (k : Nat) (r : BankReq) : Mach :=
  let b := m.bank k
  if b.resetting then m.loseBank k r
  else match b.holder with
  | none => m.grantBank k r
  | some h =>
    if h.input < r.input then (((m.bump 0x7070 6).tracePass k h.input 0).setBank k { b with holder := none }).loseBank k h |>.grantBank k r
    else m.loseBank k r

/-- The request a free bank grants next: the highest input that presents, its oldest parked request first. -/
def Mach.nextBank (m : Mach) (k : Nat) : Mach :=
  let b := m.bank k
  if b.resetting ∨ b.holder.isSome then m else
  match minBy (fun r => 15 - r.input) (b.parked ++ b.stalled) with
  | none => m.setBank k { b with starved := false }
  | some r =>
    let m := m.setBank k { b with parked := b.parked.erase r, stalled := if r ∈ b.parked then b.stalled else b.stalled.erase r }
    m.grantBank k r

/-- A burst that has moved all its beats: the bank free for the next request. -/
def Mach.releaseBank (m : Mach) (k slot input : Nat) : Mach :=
  let b := m.bank k
  let mine (r : BankReq) : Bool := r.slot == slot && r.input == input
  match b.holder with
  | some h =>
    if mine h then (m.setBank k { b with holder := none }).nextBank k
    else match b.parked.find? mine with
      | some r => m.setBank k { b with parked := b.parked.erase r }
      | none => m.setBank k { b with stalled := b.stalled.filter (!mine ·), backing := b.backing.filter (!mine ·) }
  | none => m.setBank k { b with parked := b.parked.filter (!mine ·), backing := b.backing.filter (!mine ·) }

/-- An access that a unit of a crag makes to scratchpad bytes and that moves at once: each bank it touches is
presented and released. -/
def Mach.touchBanks (m : Mach) (die crag input slot off n : Nat) : Mach :=
  if n = 0 then m else
  ((List.range 16).filter fun b => decide (off / 131072 ≤ b) && decide (b ≤ (off + n - 1) / 131072)).foldl
    (fun m b =>
      let k := bankKey die crag b
      (m.presentBank k ⟨input, ceilDiv n 64, 0, slot⟩).releaseBank k slot input) m

/-- Every request of a slot taken away from every bank. -/
def Mach.dropBankReqs (m : Mach) (slot : Nat) : Mach :=
  (tkeys m.sched.banks).foldl (fun m k =>
    let b := m.bank k
    let keep (r : BankReq) : Bool := r.slot != slot
    (m.setBank k { b with
      holder := b.holder.filter keep, parked := b.parked.filter keep, stalled := b.stalled.filter keep
      backing := b.backing.filter keep }).nextBank k) m

end Sys2Proof.Machine
end

