-- ==== Sys2Proof/Machine/CouloirOps.lean ====
section
/-! DEFINITION. Couloir's channels (11_couloir.md R311, R312, R322): their states, and how commands take and leave them. -/

namespace Sys2Proof.Machine

/-- The key of a channel. -/
def chanKey (die ch : Nat) : Nat := die * 64 + ch
/-- 0x5301.03: 0 IDLE, 1 RUNNING, 2 STOPPED, 3 HALTED, 4 FENCED. -/
def Mach.channel (m : Mach) (k : Nat) : Nat := m.reg 0x5301 3 k
/-- The command on a channel. -/
def Mach.chan? (m : Mach) (k : Nat) : Option ChanRun := tget m.eng.couloir.chans k
/-- The command on a channel changed. -/
def Mach.setChan (m : Mach) (k : Nat) (r : ChanRun) : Mach :=
  { m with eng := { m.eng with couloir := { m.eng.couloir with chans := tput m.eng.couloir.chans k r } } }
/-- The channel that a command holds. -/
def Mach.chanOf (m : Mach) (slot : Nat) : Option Nat :=
  (m.eng.couloir.chans.find? fun (p : Nat × ChanRun) => p.2.slot == slot).map Prod.fst

/-- A channel's state set: its running time kept, and a span event when it enters or leaves RUNNING (Table 17-1). -/
def Mach.setChanState (m : Mach) (k st : Nat) : Mach :=
  let was := m.channel k
  let m := m.setReg 0x5301 3 k st
  let m := match m.chan? k with
    | some r =>
      if st = 1 ∧ was ≠ 1 then m.setChan k { r with since := some m.now }
      else if st ≠ 1 ∧ was = 1 then m.setChan k { r with since := none, ran := r.ran + (m.now - r.since.getD m.now) }
      else m
    | none => m
  if st = 1 ∧ was ≠ 1 then m.event 6 (k / 64 * 256 + k % 64)
  else if st ≠ 1 ∧ was = 1 then m.event 7 (k / 64 * 256 + k % 64)
  else m

/-- Ticks that a channel's command has been RUNNING (0x5301.08). -/
def Mach.chanTicks (m : Mach) (k : Nat) : Nat :=
  match m.chan? k with
  | some r => r.ran + (match r.since with | some t => m.now - t | none => 0)
  | none => 0

/-- A channel taken by a command: RUNNING, at the first element of a chain. -/
def Mach.startChan (m : Mach) (k slot : Nat) : Mach :=
  match m.cmd? slot with
  | none => m
  | some c =>
    let m := m.setChan k { slot := slot, elem := none, elemDva := fld c.desc 24 8, index := 0, beat := 0, written := 0, skipped := 0
                           last := 0, since := none, ran := 0 }
    let m := ((m.setReg 0x5301 5 k c.queue).setReg 0x5301 6 k 0).setReg 0x5301 7 k 0
    (m.setCmd slot { c with started := true, progress := m.now }).setChanState k 1

/-- R312: the channel that a waiting command gets: its own when it is IDLE, or the lowest IDLE one of its die, none of those
that an earlier waiting command could take. -/
def Mach.pickChan (m : Mach) (w : Nat × Nat) (blocked : List Nat) : Option Nat :=
  let die := slotDie w.1
  let free (k : Nat) : Bool := m.channel k == 0 && (m.chan? k).isNone && !blocked.contains k
  if w.2 = 0xFF then firstFrom 64 (chanKey die 0) free
  else if free (chanKey die w.2) then some (chanKey die w.2) else none

/-- The waiting commands started in admission order, as far as channels are free. -/
def Mach.allocChans : List (Nat × Nat) → List Nat → Mach → Mach
  | [], _, m => m
  | w :: rest, blocked, m =>
    match m.pickChan w blocked with
    | some k =>
      let m := { m with eng := { m.eng with couloir := { m.eng.couloir with waits := m.eng.couloir.waits.erase w } } }
      Mach.allocChans rest blocked (m.startChan k w.1)
    | none =>
      let mine := if w.2 = 0xFF then (List.range 64).map (chanKey (slotDie w.1)) else [chanKey (slotDie w.1) w.2]
      Mach.allocChans rest (blocked ++ mine) m

/-- Channels given to the commands that wait. -/
def Mach.giveChans (m : Mach) : Mach := Mach.allocChans m.eng.couloir.waits [] m

/-- A command put among those that wait for a channel, in admission order, once. -/
def Mach.askChan (m : Mach) (slot want : Nat) : Mach :=
  let order (k : Nat) : Nat := ((m.cmd? k).map (·.order)).getD 0
  if (m.chanOf slot).isSome ∨ m.eng.couloir.waits.any (fun (w : Nat × Nat) => w.1 == slot) then m
  else
    let waits := insertBy (fun (a b : Nat × Nat) => decide (order a.1 < order b.1)) (slot, want) m.eng.couloir.waits
    ({ m with eng := { m.eng with couloir := { m.eng.couloir with waits := waits } } } : Mach).giveChans

/-- Whether a command's channel lets it work. -/
def Mach.chanRunning (m : Mach) (slot : Nat) : Bool := (m.chanOf slot).any fun k => m.channel k == 1

/-- A command's channel given back at its end, IDLE again unless its die is fenced. -/
def Mach.couloirGone (m : Mach) (slot : Nat) : Mach :=
  let m := { m with eng := { m.eng with couloir := { m.eng.couloir with
    waits := m.eng.couloir.waits.filter fun (w : Nat × Nat) => w.1 ≠ slot } } }
  match m.chanOf slot with
  | none => m.giveChans
  | some k =>
    let m := m.setChanState k (if m.channel k = 4 then 4 else 0)
    let m := { m with eng := { m.eng with couloir := { m.eng.couloir with chans := tdel m.eng.couloir.chans k } } }
    (((m.setReg 0x5301 5 k 0xFFFF).setReg 0x5301 6 k 0).setReg 0x5301 7 k 0).giveChans

end Sys2Proof.Machine
end

