-- ==== Sys2Proof/Machine/Frames.lean ====
section
/-! DEFINITION. Ridgeline frames as words: opcodes, header fields and the checks of a received header
(05_ridgeline_links.md R130, R131; 06_ridgeline_memory.md R161, R162). -/

namespace Sys2Proof

open Sys2Proof.Machine

/-! ## Opcodes (06_ridgeline_memory.md Table 06-1) -/
def opRead : Nat := 0x01
def opWrite : Nat := 0x02
def opWritePosted : Nat := 0x03
def opAtomic : Nat := 0x04
def opFence : Nat := 0x05
def opPublish : Nat := 0x06
def opPublishFwd : Nat := 0x07
def opPoisonMark : Nat := 0x08
def opColl : Nat := 0x10
def opResp : Nat := 0x80
def opSeqAck : Nat := 0x81
def opMirrorCopy : Nat := 0x90

/-! ## Frames (Tables 05-3 and 06-2) -/

/-- Words 4 to 7 of a frame's header. -/
def RFrame.word (f : RFrame) (k : Nat) : Nat := fld f.ext (8 * (k - 4)) 8
/-- STATUS. -/
def RFrame.status (f : RFrame) : Nat := bits (f.word 4) 63 48
/-- BYTES. -/
def RFrame.nbytes (f : RFrame) : Nat := bits (f.word 4) 47 35
/-- AOP. -/
def RFrame.aop (f : RFrame) : Nat := bits (f.word 4) 31 24
/-- SEQCHK. -/
def RFrame.seqchk (f : RFrame) : Bool := bit (f.word 4) 15
/-- NORESULT. -/
def RFrame.noresult (f : RFrame) : Bool := bit (f.word 4) 14
/-- The GFA a request names (Table 02-7). -/
def RFrame.gfa (f : RFrame) : Nat := f.dst * 2 ^ 50 + f.window * 2 ^ 38 + f.offset

/-- Words 4 to 7 of a header. -/
def extWords (w4 w5 w6 w7 : Nat) : List Byte := leBytes 8 w4 ++ leBytes 8 w5 ++ leBytes 8 w6 ++ leBytes 8 w7

/-- Word 4 of a header. -/
def word4 (status nbytes aop : Nat) (seqchk noresult : Bool) : Nat :=
  status * 2 ^ 48 + nbytes * 2 ^ 35 + aop * 2 ^ 24 + b2n seqchk * 2 ^ 15 + b2n noresult * 2 ^ 14

/-- The fields of a HEADER flit's bytes (Table 05-3). -/
def decodeHeader (bs : List Byte) : RFrame :=
  let w0 := fld bs 0 8
  let w1 := fld bs 8 8
  let w2 := fld bs 16 8
  { dst := bits w0 63 55, src := bits w0 54 46, cls := bits w0 45 43, vc := bits w0 42 42, colour := bits w0 41 40
    epoch := bits w0 39 32, opcode := bits w0 31 24, len := bits w0 23 17, hops := bits w0 16 11, detour := bit w0 10
    rerouted := bit w0 9, mg := bit w0 8, sequence := bits w1 63 48, tag := bits w1 47 32, window := bits w2 49 38
    offset := bits w2 37 0, key := fld bs 24 8, ext := slice bs 32 32, payload := [] }

/-- The bytes of a HEADER flit. -/
def RFrame.header (f : RFrame) : List Byte :=
  leBytes 8 (f.dst * 2 ^ 55 + f.src * 2 ^ 46 + f.cls * 2 ^ 43 + f.vc * 2 ^ 42 + f.colour * 2 ^ 40 + f.epoch * 2 ^ 32 +
    f.opcode * 2 ^ 24 + f.len * 2 ^ 17 + f.hops * 2 ^ 11 + b2n f.detour * 2 ^ 10 + b2n f.rerouted * 2 ^ 9 + b2n f.mg * 2 ^ 8) ++
  leBytes 8 (f.sequence * 2 ^ 48 + f.tag * 2 ^ 32) ++ leBytes 8 (f.window * 2 ^ 38 + f.offset) ++ leBytes 8 f.key ++
  slice f.ext 0 32

/-- R162, Table 06-3: the header bytes an opcode leaves reserved are 0. -/
def extReserved (f : RFrame) : Bool :=
  let w4 := f.word 4
  let w5 := f.word 5
  let w7 := f.word 7
  let w4bad := bits w4 34 32 ≠ 0 ∨ bits w4 23 16 ≠ 0 ∨ bits w4 13 0 ≠ 0
  let other := match f.opcode with
    | 0x05 => decide (2 ^ 16 ≤ w5) || w7 != 0
    | 0x06 => decide (2 ^ 10 ≤ w5) || w7 != 0
    | 0x07 => decide (2 ^ 10 ≤ w5) || w7 != 0
    | 0x08 => bits w5 15 9 != 0 || decide (2 ^ 33 ≤ w5) || w7 != 0
    | 0x10 => decide (2 ^ 34 ≤ w5) || decide (2 ^ 60 ≤ w7)
    | 0x80 => (if f.status = stRedirect then decide (2 ^ 59 ≤ w5) else w5 != 0) || w7 != 0
    | 0x81 => decide (2 ^ 17 ≤ w5) || w7 != 0
    | 0x90 => decide (2 ^ 17 ≤ w7)
    | 0x01 => w5 != 0 || w7 != 0
    | 0x02 => w5 != 0 || w7 != 0
    | 0x03 => w5 != 0 || w7 != 0
    | 0x04 => w5 != 0 || w7 != 0
    | _ => false
  if 0xC0 ≤ f.opcode then false else decide w4bad || other

/-- R131: whether a received header is refused; `bs` are its bytes. -/
def headerRefused (f : RFrame) (bs : List Byte) : Bool :=
  decide (5 ≤ f.cls) || decide (64 < f.len) || (f.cls == 0 && decide (1 < f.len)) || fld bs 0 1 != 0 || fld bs 8 4 != 0 ||
  bits (fld bs 16 8) 63 50 != 0 || f.colour == 3 || (f.colour != 0 && f.cls != 3 && f.cls != 4) || extReserved f

/-- Whether a frame is one that a port carries in any state above HELLO. -/
def RFrame.control (f : RFrame) : Bool := f.cls == 0 || f.mg

/-- R157: whether an opcode is idempotent (Table 06-1). -/
def RFrame.idempotent (f : RFrame) : Bool :=
  f.opcode == opRead || f.opcode == opFence || f.opcode == opPoisonMark || (f.opcode == opAtomic && f.seqchk)

end Sys2Proof
end

