-- ==== Sys2Proof/Machine/PortOps.lean ====
section
/-! DEFINITION. Ridgeline ports: frames as words, topology and routing (05_ridgeline_links.md R130, R131, R145-R151), the
switch core's queues (06_ridgeline_memory.md R185-R188), link loss (R154-R158). -/

namespace Sys2Proof.Machine

/-! ## Ports -/

/-- A port's own state. -/
def Mach.port (m : Mach) (p : Nat) : Port := tgetD m.ports p Port.fresh
/-- A port's own state replaced. -/
def Mach.setPort (m : Mach) (p : Nat) (v : Port) : Mach := { m with ports := tput m.ports p v }
/-- 0x4011.01: 1 DISABLED, 2 DETECT, 3 EQUALISE, 4 ALIGN, 5 HELLO, 6 DIGEST, 7 ACTIVE, 8 QUARANTINE, 9 RESTORED,
10 RECOVERY, 11 LOST; 0 absent or off. -/
def Mach.pState (m : Mach) (p : Nat) : Nat := m.reg 0x4011 1 p
/-- 1 added to a counter of a port. -/
def Mach.bumpPort (m : Mach) (p sub : Nat) : Mach := m.bumpBy 0x7050 sub p 1

/-- A port's state changed; an entry into ACTIVE, QUARANTINE, RESTORED or LOST raises notice 0x8050, which names the
port, the states and the cause; entering and leaving ACTIVE are span events (Table 17-1). -/
def Mach.setPState (m : Mach) (p v : Nat) : Mach :=
  let old := m.pState p
  let m := m.setReg 0x4011 1 p v
  let m := if v = 7 ∧ old ≠ 7 then m.event 8 p else if old = 7 ∧ v ≠ 7 then m.event 9 p else m
  if v = 7 ∨ v = 8 ∨ v = 9 ∨ v = 11 then
    m.notice 0x8050 [byteOf p, byteOf old, byteOf v, byteOf (m.reg 0x4011 8 p)]
  else m

/-- A port's last cause set. -/
def Mach.setCause (m : Mach) (p c : Nat) : Mach := m.setReg 0x4011 8 p c

/-! ## Topology (R145-R149) -/

/-- 0x4000.05: the own node ID. -/
def Mach.node (m : Mach) : Nat := m.reg 0x4000 5 0
/-- The number of dimensions of the topology. -/
def Mach.dims (m : Mach) : Nat := m.reg 0x4000 1 0 + 1
/-- The size of a dimension; one not used counts as 1. -/
def Mach.dimSize (m : Mach) (k : Nat) : Nat := if k < m.dims then m.reg 0x4000 (2 + k) 0 else 1
/-- Table 05-13: a node's coordinate in a dimension. -/
def Mach.coord (m : Mach) (node k : Nat) : Nat :=
  match m.reg 0x4000 1 0 with
  | 0 => if k = 0 then node % 64 else 0
  | 1 => if k < 2 then node / 16 ^ k % 16 else 0
  | _ => node / 8 ^ k % 8
/-- The node at coordinates. -/
def Mach.nodeAt (m : Mach) (x y z : Nat) : Nat :=
  match m.reg 0x4000 1 0 with | 0 => x | 1 => x + 16 * y | _ => x + 8 * y + 64 * z
/-- Whether a node ID is a torus node. -/
def Mach.torusNode (m : Mach) (n : Nat) : Bool :=
  decide (n < (match m.reg 0x4000 1 0 with | 0 => 64 | 1 => 256 | _ => 512)) &&
  (List.range 3).all fun k => decide (m.coord n k < m.dimSize k)

/-- Whether a port is a torus port with a link: its dimension's size is above 1. -/
def Mach.torusPort (m : Mach) (p : Nat) : Bool := decide (p < 2 * m.dims) && decide (1 < m.dimSize (p / 2))
/-- Whether a port is in express mode (R146). -/
def Mach.expressPort (m : Mach) (p : Nat) : Bool :=
  decide (m.dies = 8) && ((p == 6 && m.reg 0x4000 7 0 == 1) || (p == 7 && m.reg 0x4000 8 0 == 1))
/-- Whether a port is an edge port: spare, not express, set in 0x4000.06. -/
def Mach.edgePort (m : Mach) (p : Nat) : Bool :=
  decide (p < m.dies) && decide (2 * m.dims ≤ p) && !m.expressPort p && bit (m.reg 0x4000 6 0) p
/-- Whether a port is off. -/
def Mach.offPort (m : Mach) (p : Nat) : Bool := !(decide (p < m.dies) && (m.torusPort p || m.expressPort p || m.edgePort p))

/-- 0x4010.02: whether a port is enabled: as it was written, by default every torus port is. -/
def Mach.portEnabled (m : Mach) (p : Nat) : Bool :=
  match tget m.cairn.regs (regKey 0x4010 2 p) with
  | some v => v == 1
  | none => m.torusPort p

/-- R148: the port of dimension order from one node to another, 8 for the same. -/
def Mach.dorPort (m : Mach) (s t : Nat) : Nat :=
  match (List.range m.dims).find? fun k => m.coord t k ≠ m.coord s k with
  | none => 8
  | some k =>
    let n := m.dimSize k
    let d := (m.coord t k + n - m.coord s k) % n
    if 2 * d ≤ n then 2 * k else 2 * k + 1

/-- R148: the hop count between two nodes. -/
def Mach.hopCount (m : Mach) (s t : Nat) : Nat :=
  sumL ((List.range m.dims).map fun k =>
    let n := m.dimSize k
    let d := (m.coord t k + n - m.coord s k) % max n 1
    min d (n - d))

/-- R146: the diagonal opposite of a node. -/
def Mach.opposite (m : Mach) (n : Nat) : Nat :=
  let c (k : Nat) : Nat := let z := m.dimSize k; if 1 < z then (m.coord n k + z / 2) % z else m.coord n k
  m.nodeAt (c 0) (c 1) (c 2)

/-- R148: whether a port's link is a dateline link. -/
def Mach.dateline (m : Mach) (p : Nat) : Bool :=
  m.torusPort p && (let k := p / 2
    let c := m.coord m.node k
    if p % 2 = 0 then c + 1 == m.dimSize k else c == 0)

/-- R148: the virtual channel of the next hop. -/
def Mach.nextVc (m : Mach) (inp out vc : Nat) : Nat :=
  if !m.torusPort out then 0
  else if m.dateline out then 1
  else if !m.torusPort inp || inp / 2 != out / 2 then 0 else vc

/-- Table 05-14: the peer (node, port) a torus or express port must have. -/
def Mach.peerOf (m : Mach) (p : Nat) : Nat × Nat :=
  if m.expressPort p then (m.opposite m.node, p)
  else
    let k := p / 2
    let n := m.dimSize k
    let step (j : Nat) : Nat :=
      let c := m.coord m.node j
      if j ≠ k then c else if p % 2 = 0 then (c + 1) % n else (c + n - 1) % n
    (m.nodeAt (step 0) (step 1) (step 2), if p % 2 = 0 then p + 1 else p - 1)

/-! ## Routing (R150) -/

/-- R150: whether a port is usable for a frame. -/
def Mach.usable (m : Mach) (p : Nat) (f : RFrame) : Bool :=
  let v := m.port p
  let s := if m.pState p = 10 then v.left else m.pState p
  v.drainTo.isNone && (s == 7 || (f.control && (s == 6 || s == 8 || s == 9)))

/-- How a frame is routed: to this device, out of a port (with its DETOUR bit), unreachable, or at the hop limit. -/
inductive RouteEnd where
  | here
  | port (p : Nat) (detour : Bool)
  | unreachable
  | limit
  deriving DecidableEq, Repr

/-- R150: the output of a frame that came by an input (8 for this device). -/
def Mach.routeFrame (m : Mach) (f : RFrame) (inp : Nat) : RouteEnd :=
  if f.dst = m.node then .here
  else if m.reg 0x4000 9 0 ≤ f.hops then .limit
  else if m.reg 0x4100 4 f.dst = 0 then .unreachable
  else
    let dv := m.reg 0x4101 3 f.dst = 1
    let dp := m.reg 0x4101 2 f.dst
    let p := if inp = 8 ∨ m.edgePort inp then m.reg 0x4100 2 f.dst else m.reg 0x4100 3 f.dst
    let p := if f.detour ∧ dv then dp else p
    let p := if p = 9 then (let e := if f.dst % 2 = 1 then 7 else 6; if m.usable e f then e else 13 - e) else p
    if m.usable p f then .port p f.detour
    else if !dv ∨ !m.usable dp f then .unreachable
    else .port dp true

/-! ## The switch core (06_ridgeline_memory.md R185, R188) -/

/-- The depth in flits of a port's queue for a class and VC from an input. -/
def Mach.queueDepth (m : Mach) (p inp cls : Nat) : Nat :=
  sumL (((m.port p).queue.filter fun q => q.input == inp && q.frame.cls == cls).map fun q => q.frame.len + 1)

/-- The flits that wait in a die's switch core. -/
def Mach.coreDepth (m : Mach) (p : Nat) : Nat := sumL ((m.port p).queue.map fun q => q.frame.len + 1)

/-- R185: whether a BULK or MIRROR frame finds room: its shared use stays below α × the free shared flits. -/
def Mach.coreRoom (m : Mach) (p inp cls : Nat) : Bool :=
  let resv := sumL ((List.range 5).map fun c => 6 * m.reg 0x4201 (1 + c) 0)
  let free := 98304 - resv - m.coreDepth p
  let s := toSigned 32 (m.reg 0x4201 (6 + cls) 0)
  let use' := m.queueDepth p inp cls
  if 0 ≤ s then decide (use' < 2 ^ s.toNat * free) else decide (use' * 2 ^ (-s).toNat < free)

/-- R188: the profile of a class and colour: minimum, maximum, ceiling. -/
def Mach.redProfile (m : Mach) (cls colour : Nat) : Nat × Nat × Nat :=
  let row := (if cls = 4 then 4 else 0) + colour
  (m.reg 0x4210 2 row, m.reg 0x4210 3 row, m.reg 0x4210 4 row)

/-- R188: random early drop at a header's arrival: the average updated, and whether the frame is dropped. The LFSR's
polynomial and seed are not given: its next value is a free one. -/
def Mach.redDrop (m : Mach) (p inp cls colour : Nat) : Bool × Mach :=
  let key := (p * 16 + inp) * 8 + cls
  let a := tgetD m.fab.redAvg key 0
  let q := m.queueDepth p inp cls
  let w := 2 ^ m.reg 0x4201 0x0F 0
  let a := if a ≤ q then a + (q - a) / w else a - ceilDiv (a - q) w
  let m := { m with fab := { m.fab with redAvg := tput m.fab.redAvg key a } }
  let (lo, hi, pmax) := m.redProfile cls colour
  if a < lo then (false, m)
  else if hi ≤ a then (true, m)
  else
    let (r, m) := m.fresh 65536
    (decide (r < pmax * (a - lo) / (hi - lo)), m)

/-- R185, R188: whether a frame finds room in a port's switch core: a BULK or MIRROR frame may be dropped whole, counted
by port, and an early drop by class. -/
def Mach.roomFor (m : Mach) (p inp : Nat) (f : RFrame) : Bool × Mach :=
  if f.cls = 3 ∨ f.cls = 4 then
    match m.redDrop p inp f.cls f.colour with
    | (true, m) => (false, (m.bump 0x7060 (if f.cls = 3 then 8 else 9)).bumpPort p 0x0A)
    | (false, m) => if m.coreRoom p inp f.cls then (true, m) else (false, m.bumpPort p 0x0A)
  else (true, m)

/-- A frame put in a port's queue, with the VC of its next hop. -/
def Mach.queueFrame (m : Mach) (p inp : Nat) (stomped detour : Bool) (f : RFrame) : Mach :=
  let v := m.port p
  m.setPort p { v with queue := v.queue ++ [⟨{ f with vc := m.nextVc inp p f.vc, detour := detour }, inp, stomped, m.now⟩] }

/-- A frame queued for a port where it finds room. -/
def Mach.enqueue (m : Mach) (p inp : Nat) (stomped detour : Bool) (f : RFrame) : Mach :=
  match m.roomFor p inp f with
  | (true, m) => m.queueFrame p inp stomped detour f
  | (false, m) => m

/-- Credit for a frame's flits given back to the link they came by, as they leave the receiver's buffer (R137). -/
def Mach.releaseCredit (m : Mach) (inp : Nat) (f : RFrame) : Mach :=
  if 8 ≤ inp ∨ 3 ≤ f.cls then m else
  let v := m.port inp
  let i := 2 * f.cls + f.vc
  m.setPort inp { v with rxLimit := v.rxLimit.set i ((v.rxLimit.getD i 0 + f.len + 1) % 65536) }

/-- A response of this device to a request (R164). -/
def Mach.respFrame (m : Mach) (f : RFrame) (status w5 w6 : Nat) (payload : List Byte) : RFrame :=
  { dst := f.src, src := m.node, cls := 1, vc := 0, colour := 0, epoch := f.epoch, opcode := opResp
    len := ceilDiv payload.length 64, hops := 0, detour := false, rerouted := false, mg := f.mg, sequence := 0
    tag := f.tag, window := 0, offset := 0, key := 0, ext := extWords (word4 status 0 0 false false) w5 w6 0
    payload := payload }

/-- A frame that has come whole for this device. -/
def Mach.arrive (m : Mach) (port : Nat) (f : RFrame) : Mach :=
  { m with fab := { m.fab with arrived := m.fab.arrived ++ [(port, f)] } }

/-- A frame that this device sends: to itself, out of a port, or answered TARGET_DEAD when nothing can carry it
(R150, R151). -/
def Mach.sendFrame (m : Mach) (f : RFrame) : Mach :=
  match m.routeFrame f 8 with
  | .here => m.arrive 8 f
  | .port p d => m.enqueue p 8 false d f
  | _ => if f.cls = 2 then m.arrive 8 (m.respFrame f stTargetDead 0 0 []) else m

/-- R151: a frame that cannot go on is discarded and counted at the port it came by; a REQUEST is answered
TARGET_DEAD. -/
def Mach.unreachable (m : Mach) (f : RFrame) (inp : Nat) : Mach :=
  let m := if inp < 8 then m.bumpPort inp 0x0D else m
  if f.cls ≠ 2 then m
  else if f.src = m.node then m.arrive 8 (m.respFrame f stTargetDead 0 0 [])
  else (m.bump 0x70C0 8).sendFrame (m.respFrame f stTargetDead 0 0 [])

/-- A whole frame in the switch core routed afresh (R155, R157). -/
def Mach.reroute (m : Mach) (q : QFrame) : Mach :=
  match m.routeFrame q.frame q.input with
  | .here => m.arrive q.input q.frame
  | .port p d => m.enqueue p q.input q.stomped d q.frame
  | _ => m.unreachable q.frame q.input

/-! ## Losing a link (R154-R158) -/

/-- R157: the poison marker sent in place of a request that may be lost. -/
def Mach.poisonMarker (m : Mach) (f : RFrame) : RFrame :=
  { f with src := m.node, opcode := opPoisonMark, len := 0, payload := [], cls := 2, colour := 0, vc := 0, hops := 0
           rerouted := true
           ext := extWords (word4 0 f.nbytes 0 false false) (f.src + f.sequence * 2 ^ 16 + (if f.cls = 3 then 2 ^ 32 else 0)) 0 0 }

/-- Table 05-15: one frame of a lost port's replay buffer. -/
def Mach.lostFrame (m : Mach) (p : Nat) (q : QFrame) : Mach :=
  let f := q.frame
  if f.cls = 3 ∨ f.cls = 4 then m.bumpPort p 0x0A
  else if f.cls = 0 ∨ f.cls = 1 ∨ f.idempotent then
    ((m.bumpPort p 0x0B).bump 0x70C0 8).reroute { q with frame := { f with rerouted := true } }
  else
    let m := (m.bumpPort p 0x0C).bump 0x70C0 8
    let m := m.sendFrame (m.respFrame f stLinkLost 0 0 [])
    m.reroute { q with frame := m.poisonMarker f, input := 8 }

/-- A frame half received on a lost link: passed on as STOMP (R158). -/
def Mach.stompRx (m : Mach) (p : Nat) (r : RxFrame) : Mach :=
  match r.out with
  | .port o => m.queueFrame o p true r.frame.detour { r.frame with payload := slice r.frame.payload 0 (64 * r.frame.len) }
  | .here => m.bumpPort p 0x0D
  | .drop => m

/-- R154-R158: a port loses its link: LOST with a cause, its queue routed afresh, the frames of its replay buffer treated
by class, a frame half received stomped. A fenced die's buffers are lost with it. -/
def Mach.losePort (m : Mach) (p cause : Nat) (buffers : Bool) : Mach :=
  let v := m.port p
  let m := (m.setCause p cause).setPState p 11
  let m := (m.setReg 0x4011 2 p 0).setPort p { Port.fresh with fromLost := true, left := v.left }
  if !buffers then m else
  let m := v.queue.foldl Mach.reroute m
  let m := v.unacked.foldl (fun m s => m.lostFrame p s.frame) m
  let m := v.suspended.elim m (m.stompRx p)
  v.rx.elim m (m.stompRx p)

end Sys2Proof.Machine
end

