-- ==== Sys2Proof/Machine/HallOps.lean ====
section
/-! DEFINITION. Floods as they leave a device, groups and their epochs (13_acting_as_one.md R359, R360, R369-R374). -/

namespace Sys2Proof.Machine

/-! ## Floods (R360) -/

/-- What a port keeps of its neighbour. -/
def Mach.portHall (m : Mach) (p : Nat) : PortHall := tgetD m.hall.ports p PortHall.fresh
/-- What a port keeps of its neighbour, replaced. -/
def Mach.setPortHall (m : Mach) (p : Nat) (v : PortHall) : Mach :=
  { m with hall := { m.hall with ports := tput m.hall.ports p v } }

/-- A frame of an URGENT opcode (R359). -/
def Mach.urgent (m : Mach) (opcode dst src hops sequence w4 w5 w6 w7 : Nat) : RFrame :=
  { dst := dst, src := src, cls := 0, vc := 0, colour := 0, epoch := m.reg 0x4480 1 0, opcode := opcode, len := 0
    hops := hops, detour := false, rerouted := false, mg := false, sequence := sequence, tag := 0, window := 0
    offset := 0, key := 0, ext := extWords w4 w5 w6 w7, payload := [] }

/-- The neighbour of a port: the peer its HELLO gave, or the one it must have. -/
def Mach.neighbour (m : Mach) (p : Nat) : Nat :=
  if m.reg 0x4011 6 p = 0xFFFF then (m.peerOf p).1 else m.reg 0x4011 6 p

/-- A flood sent on every torus and express port that is usable for URGENT frames, the port it came by left out. -/
def Mach.floodOut (m : Mach) (f : RFrame) (inp : Nat) : Mach :=
  ((List.range m.dies).filter fun p => p != inp && (m.torusPort p || m.expressPort p) && m.usable p f).foldl
    (fun m p => m.enqueue p 8 false false { f with dst := m.neighbour p }) m

/-- A flood recorded as accepted: the last 8 numbers of each origin are kept; a span event (Table 17-1). -/
def Mach.floodSeen (m : Mach) (opcode origin number : Nat) : Mach :=
  let m := m.event 10 opcode
  let mine := m.hall.seen.filter fun s => s.1 == origin
  let drop := if 8 ≤ mine.length then mine.head? else none
  { m with hall := { m.hall with
    seen := (drop.elim m.hall.seen fun d => m.hall.seen.erase d) ++ [(origin, number, m.now)] } } |>.bump 0x70D0 6

/-- A flood of this device: numbered, counted, accepted here, and sent. -/
def Mach.originate (m : Mach) (opcode w5 : Nat) : Mach :=
  let n := m.hall.nextFlood
  let m := { m with hall := { m.hall with nextFlood := (n + 1) % 65536 } }
  let m := (m.bump 0x70D0 5).floodSeen opcode m.node n
  m.floodOut (m.urgent opcode 0 m.node 0 n 0 w5 0 m.now) 8

/-! ## Beacons as they leave (R366) -/

/-- A BEACON stamped as its header's first bit leaves: departure, fraction and the number kept for the echo. The fraction of a
tick is not modelled: it is a free value. -/
def Mach.stampBeacon (m : Mach) (p : Nat) (f : RFrame) : RFrame × Mach :=
  if f.opcode ≠ 0xC0 then (f, m) else
  let (frac, m) := m.fresh 65536
  let h := m.portHall p
  let kept := if h.sentAt.length < 1024 then h.sentAt else h.sentAt.tail
  let m := m.setPortHall p { h with sentAt := kept ++ [(f.sequence, m.now * 65536 + frac)] }
  ({ f with ext := extWords m.now (f.word 5 % 2 ^ 48 + frac * 2 ^ 48) (f.word 6) (f.word 7) }, m)

/-! ## Groups (R369-R374) -/

/-- Whether bit n of a byte string is set. -/
def maskBit (bs : List Byte) (n : Nat) : Bool := bit (fld bs (n / 8) 1) (n % 8)

/-- A byte string with bit n set or cleared. -/
def setMaskBit (bs : List Byte) (n : Nat) (v : Bool) : List Byte :=
  patch bs (n / 8) [byteOf (setBit (fld bs (n / 8) 1) (n % 8) v)]

/-- The sizes of a group's box, a size 0 counting as 1. -/
def Mach.boxSize (m : Mach) (g k : Nat) : Nat := max 1 (bits (m.reg 0x4510 4 g) (8 * k + 7) (8 * k))

/-- The members of a group in block order (R193, R369). -/
def Mach.groupMembers (m : Mach) (g : Nat) : List Nat :=
  if m.reg 0x4510 7 g = 0 then []
  else if m.reg 0x4510 2 g = 1 then
    let mask := m.oct 0x4510 5 g
    (List.range 512).filter fun n => maskBit mask n
  else
    let low := m.reg 0x4510 3 g
    (List.range (m.boxSize g 0)).flatMap fun x => (List.range (m.boxSize g 1)).flatMap fun y =>
      (List.range (m.boxSize g 2)).map fun z => m.nodeAt (m.coord low 0 + x) (m.coord low 1 + y) (m.coord low 2 + z)

/-- The own block index in a group. -/
def Mach.ownBlock (m : Mach) (g : Nat) : Option Nat := (m.groupMembers g).findIdx? (· == m.node)

/-- A group's count of members and own block index shown (0x4510.0B, .0C). -/
def Mach.showGroup (m : Mach) (g : Nat) : Mach :=
  (m.setReg 0x4510 0x0B g (m.groupMembers g).length).setReg 0x4510 0x0C g ((m.ownBlock g).getD 0xFFFF)

/-- R370, R372: a group's epoch changed: SETTLING, counted, notice 0x80D3. -/
def Mach.setGroupEpoch (m : Mach) (g e : Nat) : Mach :=
  let old := m.reg 0x4510 9 g
  let m := (m.setReg 0x4510 9 g e).setReg 0x4510 0x0A g (if m.reg 0x4510 7 g = 1 then 2 else 0)
  (m.bump 0x70D0 8).notice 0x80D3 (leBytes 2 g ++ [byteOf old, byteOf e])

/-- R373: the group's COLLECTIVE that runs ends with COLLABORT, DETAIL its epoch. -/
def Mach.endColl (m : Mach) (g : Nat) : Mach :=
  match m.hall.colls.find? (·.group == g) with
  | none => m
  | some c =>
    let m := { m with
      hall := { m.hall with colls := m.hall.colls.filter (·.group ≠ g) }
      fab := { m.fab with reqs := tdel m.fab.reqs c.tag } }
    match m.cmd? c.slot with
    | none => m
    | some x => m.setCmd c.slot { x with fail := some (x.fail.getD stCollAbort), done := true, detail := m.reg 0x4510 9 g % 256 }

/-- R371: a group aborted: its COLLECTIVE ended, COLL_ABORT flooded with its epoch, the epoch advanced. -/
def Mach.abortGroup (m : Mach) (g status : Nat) : Mach :=
  let e := m.reg 0x4510 9 g
  let m := (m.endColl g).originate 0xC2 (g + e * 2 ^ 16 + status * 2 ^ 32)
  m.setGroupEpoch g ((e + 1) % 256)

/-- R371: a member's own COLLECTIVE has failed. -/
def Mach.collFailed (m : Mach) (slot status : Nat) : Mach :=
  match m.hall.colls.find? (·.slot == slot) with
  | none => m
  | some c => (m.noteFail slot status).abortGroup c.group status

/-- R370: whether one epoch is later than another; a difference of 128 counts as later (R372). -/
def epochLater (a b : Nat) : Bool := let d := (a + 256 - b) % 256; decide (1 ≤ d) && decide (d ≤ 128)

/-- R372: a COLL_ABORT accepted by a member. -/
def Mach.acceptAbort (m : Mach) (g f : Nat) : Mach :=
  if (m.ownBlock g).isNone then m
  else
    let e := m.reg 0x4510 9 g
    if f = e ∨ epochLater f e then (m.endColl g).setGroupEpoch g ((f + 1) % 256) else m

/-- R374: a group leaves SETTLING: members named dead removed where its shrink bit is set; one that lost a member
without it is no longer valid. -/
def Mach.settleGroup (m : Mach) (g : Nat) : Mach :=
  let dead := m.oct 0x4502 1 0
  let ms := m.groupMembers g
  let rest := ms.filter fun n => !maskBit dead n
  if m.reg 0x4510 0x0A g ≠ 2 then m
  else if rest.length = ms.length then m.setReg 0x4510 0x0A g 1
  else if m.reg 0x4510 8 g = 1 then
    let m := (m.setReg 0x4510 2 g 1).setOct 0x4510 5 g (rest.foldl (fun b n => setMaskBit b n true) (zeros 64))
    ((m.setReg 0x4510 0x0A g 1).showGroup g).bump 0x70D0 9
  else ((m.setReg 0x4510 7 g 0).setReg 0x4510 0x0A g 0).showGroup g

end Sys2Proof.Machine
end

