-- ==== Sys2Proof/Machine/FabricOps.lean ====
section
/-! DEFINITION. Memory semantics at the requester and at the target (06_ridgeline_memory.md R163-R182, R196-R201):
checks, streams, answers, atomics, posted writes, endings of requests, relocation. -/

namespace Sys2Proof.Machine

/-! ## Atomics (R175) -/

/-- The width in bytes of a legal pair of Table 06-5, 0 for any other. -/
def atomicWidth (aop : Nat) : Nat :=
  let t := aop % 16
  match aop / 16 with
  | 1 => if t = 0 then 4 else if t = 1 then 8 else 0
  | 2 => if t = 1 then 8 else if t = 4 then 16 else 0
  | 3 => if t = 0 ∨ t = 2 then 4 else if t = 1 ∨ t = 3 then 8 else 0
  | 4 => if t = 0 ∨ t = 2 then 4 else if t = 1 ∨ t = 3 then 8 else 0
  | 5 => if t = 0 then 4 else if t = 1 then 8 else 0
  | 6 => if t = 0 then 4 else if t = 1 then 8 else 0
  | 7 => if t = 0 then 4 else if t = 1 then 8 else 0
  | 9 => if t = 5 then 4 else if t = 6 then 2 else 0
  | _ => 0

/-- The lesser and the greater of two words by the type of an atomic: 2 and 3 are signed. -/
def atomicLess (t w a b : Nat) : Bool := if t = 2 ∨ t = 3 then decide (toSigned w a < toSigned w b) else decide (a < b)

/-- R175: the value an atomic leaves, from the old value and its operands. -/
def atomicNew (aop old a b : Nat) : Nat :=
  let w := 8 * atomicWidth aop
  let t := aop % 16
  match aop / 16 with
  | 1 => (old + a) % 2 ^ w
  | 2 => if old = a % 2 ^ w then b % 2 ^ w else old
  | 3 => if atomicLess t w a old then a % 2 ^ w else old
  | 4 => if atomicLess t w old a then a % 2 ^ w else old
  | 5 => Nat.land old (a % 2 ^ w)
  | 6 => Nat.lor old (a % 2 ^ w)
  | 7 => Nat.xor old (a % 2 ^ w)
  | _ =>
    let f := if t = 5 then fp32 else bf16
    f.encode ((f.decode old).add (f.decode (a % 2 ^ w)))

/-- R176: an atomic performed on the store at its home: the old value, or the status it fails with. A host's copy has
been recalled before. -/
def Mach.atomicAt (m : Mach) (die dpa aop a b : Nat) (owner : WriteOwner) : Except Nat Nat × Mach :=
  match m.loadDpa die dpa (atomicWidth aop) with
  | (.failed st, m) => (.error st, m)
  | (.ok bs, m) =>
    let old := leNat bs
    match m.storeDpa die dpa (leBytes (atomicWidth aop) (atomicNew aop old a b)) owner with
    | (0, m) => (.ok old, m)
    | (st, m) => (.error st, m)

/-! ## Requester (R164-R173, R180, R198-R201) -/

/-- 0x4480.01: the current map epoch E. -/
def Mach.epoch (m : Mach) : Nat := m.reg 0x4480 1 0
/-- 0x4520.02: whether a node is marked dead. -/
def Mach.nodeDead (m : Mach) (n : Nat) : Bool := m.reg 0x4520 2 n == 1

/-- The lowest free TAG of a die outside its escrow of 256 (R164, R350), or of the escrow. -/
def Mach.newTag (m : Mach) (die : Nat) (escrow : Bool) : Option Nat :=
  let base := die * 8192
  if escrow then firstFrom 256 (base + 7936) fun t => (tget m.fab.reqs t).isNone
  else firstFrom 7936 base fun t => (tget m.fab.reqs t).isNone

/-- The stream of a frame at its requester: destination × 2 + 1 for BULK. -/
def streamKey (node cls : Nat) : Nat := node * 2 + (if cls = 3 then 1 else 0)

/-- Whether an opcode is a stream's (Table 06-1). -/
def streamOp (op : Nat) : Bool := [opWrite, opWritePosted, opAtomic, opFence, opPublish, opPublishFwd].contains op

/-- The next sequence of a stream taken (R167). -/
def Mach.takeSeq (m : Mach) (key : Nat) : Nat × Mach :=
  let n := tgetD m.fab.nextSeq key 0
  (n, { m with fab := { m.fab with nextSeq := tput m.fab.nextSeq key ((n + 1) % 65536) } })

/-- Bytes of posted writes in a die's retention buffer (R166). -/
def Mach.retainedBytes (m : Mach) (die : Nat) : Nat :=
  sumL ((m.fab.retained.filter fun r => slotDie r.slot == die).map fun r => r.frame.payload.length)

/-- R166, R167: whether a stream frame may go: its sequence within 1,024 of the last N acknowledged, and room for a
posted write in its die's retention buffer. -/
def Mach.maySend (m : Mach) (r : Retained) : Bool :=
  let f := r.frame
  decide ((f.sequence + 65536 - tgetD m.fab.ackSeq (streamKey f.dst f.cls) 0) % 65536 < 1024) &&
  (f.opcode != opWritePosted || decide (m.retainedBytes (slotDie r.slot) + f.payload.length ≤ m.reg 0x4200 6 0))

/-- A stream frame sent, kept in the retention buffer when it is a posted write. -/
def Mach.sendKept (m : Mach) (r : Retained) : Mach :=
  let m := if r.frame.opcode = opWritePosted then
      { m with fab := { m.fab with retained := m.fab.retained ++ [r] } } else m
  m.sendFrame r.frame

/-- A stream frame sent, or put behind those of its stream that wait. -/
def Mach.launch (m : Mach) (r : Retained) : Mach :=
  let mine (x : Retained) : Bool := streamKey x.frame.dst x.frame.cls == streamKey r.frame.dst r.frame.cls
  if m.maySend r && !m.fab.unsent.any mine then m.sendKept r
  else { m with fab := { m.fab with unsent := m.fab.unsent ++ [r] } }

/-- The waiting stream frames that may go now, in order. -/
def Mach.releaseUnsent (m : Mach) : Mach :=
  let rs := m.fab.unsent
  rs.foldl (fun m r => m.launch r) { m with fab := { m.fab with unsent := [] } }

/-- A request frame of this device. -/
def Mach.reqFrame (m : Mach) (opcode cls colour gfa key tag nbytes aop w5 w6 : Nat) (seqchk noresult : Bool)
    (payload : List Byte) : RFrame :=
  { dst := gfa / 2 ^ 50, src := m.node, cls := cls, vc := 0, colour := colour, epoch := m.epoch, opcode := opcode
    len := ceilDiv payload.length 64, hops := 0, detour := false, rerouted := false, mg := false, sequence := 0, tag := tag
    window := bits gfa 49 38, offset := bits gfa 37 0, key := key
    ext := extWords (word4 0 nbytes aop seqchk noresult) w5 w6 0, payload := payload }

/-- A non-posted request put in flight under its TAG; a stream opcode takes the next sequence of its stream. -/
def Mach.sendReq (m : Mach) (slot : Nat) (f : RFrame) (p : Purpose) : Mach :=
  let put (m : Mach) (f : RFrame) : Mach :=
    { m with fab := { m.fab with reqs := tput m.fab.reqs f.tag ⟨f, p, 0, f.gfa⟩ } }
  if streamOp f.opcode then
    let (n, m) := m.takeSeq (streamKey f.dst f.cls)
    let f := { f with sequence := n }
    (put m f).launch ⟨f, slot, 0⟩
  else (put m f).sendFrame f

/-! ## The copies of a relocation (R200) -/

/-- A region's key: generation in [63:48], value below (R178). -/
def Mach.regionKey (m : Mach) (r : Nat) : Nat := m.reg 0x4400 5 r * 2 ^ 48 + m.reg 0x4400 4 r % 2 ^ 48

/-- A WRITE of a relocation's copy under a TAG: n bytes of the window from an offset, a poisoned line marked. -/
def Mach.relocWrite (m : Mach) (r : Relocation) (tag off n : Nat) : Mach :=
  let base := m.reg 0x4410 2 r.window
  let vals := (List.range (n / 64)).map fun i => m.coherentLine (lineOf (base + off) + i)
  let payload := (vals.map fun v => match v with | .data bs => bs | _ => zeros 64).flatten
  let mask := sumL ((List.range (n / 64)).map fun i => match vals[i]? with | some (LineVal.data _) => 0 | _ => 2 ^ i)
  let gfa := m.reg 0x4481 2 0 * 2 ^ 50 + m.reg 0x4481 3 0 * 2 ^ 38 + off
  let m := { m with fab := { m.fab with reloc := some { r with outstanding := r.outstanding + 1 } } }
  m.sendReq 0 (m.reqFrame opWrite 2 0 gfa (m.regionKey (m.reg 0x4410 4 r.window)) tag n 0 0 mask false false payload) .relocate

/-- The next copies of a relocation sent, at most 512 in flight: the bulk copy in 4 KiB pieces, then the lines of the
pass one by one. -/
def Mach.relocPump : Nat → Mach → Mach
  | 0, m => m
  | fuel + 1, m =>
    match m.fab.reloc, m.newTag 0 false with
    | some r, some tag =>
      let len := m.reg 0x4410 3 r.window
      if 512 ≤ r.outstanding ∨ r.failed ≠ 0 then m
      else if r.next < len then
        Mach.relocPump fuel ((m.relocWrite { r with next := r.next + 4096 } tag r.next 4096).setReg 0x4481 6 0
          (1000 * min len (r.next + 4096) / len))
      else match r.todo with
        | [] => m
        | l :: rest => Mach.relocPump fuel (m.relocWrite { r with todo := rest } tag (64 * l) 64)
    | _, _ => m

/-- R198: the requests in flight of the previous epoch counted; at 0 a DRAINING epoch retires with notice 0x8062. -/
def Mach.epochCheck (m : Mach) : Mach :=
  let prev := (m.epoch + 255) % 256
  let n := (m.fab.reqs.filter fun (p : Nat × OutReq) => p.2.frame.epoch == prev && p.2.frame.opcode != opColl).length +
    ((m.fab.retained ++ m.fab.unsent).filter fun r => r.frame.opcode == opWritePosted && r.frame.epoch == prev).length
  if m.reg 0x4480 4 0 = 1 then
    let m := m.setReg 0x4480 2 0 n
    if n = 0 then (m.setReg 0x4480 4 0 0).notice 0x8062 [byteOf prev] else m
  else m

/-- A command's answer counted off. -/
def Mach.fabricAnswered (m : Mach) (slot status : Nat) : Mach :=
  let m := m.noteFail slot status
  match m.cmd? slot with
  | some c => m.setCmd slot { c with fabricOut := c.fabricOut - 1 }
  | none => m

/-- A fetch that has ended. -/
def Mach.endFetch (m : Mach) (slot addr : Nat) (gfa : Bool) (e : FetchEnd) : Mach :=
  { m with xl := { m.xl with fetches := m.xl.fetches.map fun f =>
      if f.slot = slot ∧ f.gfa = gfa ∧ f.addr = addr ∧ f.ended.isNone then { f with ended := some e } else f } }

/-- An answer kept by its publisher's members, counted; with the last one the requester is answered (R181, R182). -/
def Mach.forwardAnswered (m : Mach) (pub status : Nat) : Mach :=
  match m.fab.pubs.find? (·.id == pub) with
  | none => m
  | some p =>
    let q := { p with waiting := p.waiting - 1, status := if p.status = 0 then status else p.status }
    let rest := m.fab.pubs.filter (·.id ≠ pub)
    if q.waiting = 0 then
      let f := q.request
      let key := streamKey f.src f.cls
      let m := { m with fab := { m.fab with pubs := rest, streams := tmod m.fab.streams key fun (s : Stream) =>
        { s with answers := (if s.answers.length < 64 then s.answers else s.answers.tail) ++ [(f.sequence, q.status)] } } }
      m.sendFrame (m.respFrame f q.status 0 0 [])
    else { m with fab := { m.fab with pubs := rest ++ [q] } }

/-- A request ended with a status and the data of its response, for what it was. -/
def Mach.endReq (m : Mach) (tag status : Nat) (poisoned : Bool) (payload : List Byte) : Mach :=
  match tget m.fab.reqs tag with
  | none => m
  | some r =>
    let m := { m with fab := { m.fab with reqs := tdel m.fab.reqs tag } }
    let status := if status = 0 ∧ poisoned then stPoison else status
    let got : FetchEnd := if status = 0 then .ok (slice payload 0 r.frame.nbytes) else .failed status
    let m := match r.purpose with
      | .read slot addr => (m.endFetch slot addr true got).invalProgress slot
      | .atomic slot =>
        m.endFetch slot r.original true (if status = 0 then .ok (slice payload 0 16) else .failed status)
      | .fence slot => m.fabricAnswered slot status
      | .publish slot => m.fabricAnswered slot status
      | .forward pub => m.forwardAnswered pub status
      | .relocate => Mach.relocPump 1 { m with fab := { m.fab with reloc := m.fab.reloc.map fun (x : Relocation) =>
          { x with outstanding := x.outstanding - 1, failed := if x.failed = 0 then status else x.failed } } }
      | .relay address txn => (m.bump 0x7110 2).emit (.relayed address txn r.frame.dst (if status = 0 then slice payload 0 payload.length else []))
      | .fanout slot member => m.endFetch slot member true got
      | .coll slot => if status = 0 then m else m.collFailed slot status
    m.epochCheck

/-- The commands' posted writes to a node given up with a status: each command that has any fails. -/
def Mach.dropPosted (m : Mach) (status : Nat) (pick : Retained → Bool) : Mach :=
  let rs := (m.fab.retained ++ m.fab.unsent).filter fun r => r.frame.opcode == opWritePosted && pick r
  let m := { m with fab := { m.fab with
    retained := m.fab.retained.filter (!pick ·)
    unsent := m.fab.unsent.filter fun r => !(r.frame.opcode == opWritePosted && pick r) } }
  (rs.map (·.slot)).eraseDups.foldl (fun m s => m.noteFail s status) m

/-- R201: a node marked dead: every outstanding request to it ends with TARGET_DEAD, counted, with one notice. -/
def Mach.markDead (m : Mach) (n : Nat) : Mach :=
  if m.nodeDead n || n == m.node then m else
  let m := (m.setReg 0x4520 2 n 1).notice 0x8061 (leBytes 2 n)
  let tags := (m.fab.reqs.filter fun (p : Nat × OutReq) => p.2.frame.dst == n).map Prod.fst
  let m := { m with fab := { m.fab with unsent := m.fab.unsent.filter fun r =>
      r.frame.opcode == opWritePosted || r.frame.dst != n } }
  let m := tags.foldl (fun m t => (m.bump 0x7060 0x0D).endReq t stTargetDead false []) m
  m.dropPosted stTargetDead fun r => r.frame.dst == n

/-- R180: the member of a replica set that a READ of a (node, window) goes to: the nearest that is not dead, the lower
node among equals. The set table is searched upward. -/
def Mach.setMembers (m : Mach) (set : Nat) : List (Nat × Nat) :=
  ([2, 3, 4, 5].map fun s => m.reg 0x4440 s set).filterMap fun v =>
    if bit v 31 then some (bits v 24 16, v % 4096) else none

/-- The replica set that a (node, window) is a member of. -/
def Mach.setOf (m : Mach) (node window : Nat) : Option Nat :=
  (tkeys (m.cairn.regs.filterMap fun (p : Nat × Nat) =>
    if p.1 / 2 ^ 40 = 0x4440 then some (p.1 % 2 ^ 32, p.2) else none)).eraseDups.find? fun s =>
      (m.setMembers s).contains (node, window)

/-- R180: where a READ of a GFA is sent. -/
def Mach.readAt (m : Mach) (gfa : Nat) : Nat :=
  match m.setOf (gfa / 2 ^ 50) (bits gfa 49 38) with
  | none => gfa
  | some s =>
    let live := (m.setMembers s).filter fun x => !m.nodeDead x.1 &&
      (x.1 == m.node || match m.routeFrame (m.reqFrame opRead 2 0 (x.1 * 2 ^ 50) 0 0 0 0 0 0 false false []) 8 with
        | .port _ _ => true | .here => true | _ => false)
    match minBy (fun x => m.hopCount m.node x.1 * 512 + x.1) live with
    | some x => x.1 * 2 ^ 50 + x.2 * 2 ^ 38 + gfa % 2 ^ 38
    | none => gfa

/-- What has come of a read outside the package: its bytes, its failure, or nothing yet. -/
inductive Got where
  | ok (bs : List Byte)
  | failed (status : Nat)
  | wait
  deriving DecidableEq, Repr

/-- A read of a GFA for a command, at most 4,096 bytes: taken from the reads it has made, or sent. A read of a dead
node ends at once (R201). -/
def Mach.fetchGfa (m : Mach) (slot gfa key n : Nat) : Got × Mach :=
  match m.xl.fetches.find? fun f => f.slot == slot && f.gfa && f.addr == gfa && f.len == n with
  | some f => match f.ended with
    | some (.ok bs) => (.ok bs, m)
    | some (.failed st) => (.failed st, m)
    | none => (.wait, m)
  | none =>
    let at' := m.readAt gfa
    if m.nodeDead (at' / 2 ^ 50) then (.failed stTargetDead, m.bump 0x7060 0x0D)
    else match m.newTag (slotDie slot) false with
    | none => (.wait, m)
    | some tag =>
      let m := { m with xl := { m.xl with fetches := m.xl.fetches ++ [(⟨slot, true, gfa, n, tag, none⟩ : Fetch)] } }
      (.wait, m.sendReq slot (m.reqFrame opRead 2 0 at' key tag n 0 0 0 false false []) (.read slot gfa))

/-- R166: bytes written to a GFA for a command, as posted writes of at most 4 KiB, in the class its header selects; the
destination noted for the command's FENCE; poisoned ones with every bit of POISON set. -/
def Mach.postWrite : Nat → Mach → Nat → Nat → Nat → List Byte → Bool → Mach
  | 0, m, _, _, _, _, _ => m
  | fuel + 1, m, slot, gfa, key, bs, poisoned =>
    if bs.isEmpty then m else
    match m.cmd? slot with
    | none => m
    | some c =>
      let bulk := descFlag c.desc 6
      let node := gfa / 2 ^ 50
      if m.nodeDead node then (m.bump 0x7060 0x0D).noteFail slot stTargetDead
      else
        let m := m.setCmd slot { c with fabricDests := tput c.fabricDests node (gfa, key) }
        let part := bs.take 4096
        let cls := if bulk then 3 else 2
        let (n, m) := m.takeSeq (streamKey node cls)
        let f := m.reqFrame opWritePosted cls (if bulk then fld c.desc 12 1 % 4 else 0) gfa key
          (slotDie slot * 8192 + n % 8192) part.length 0 0 (if poisoned then 2 ^ ceilDiv part.length 64 - 1 else 0) false false part
        Mach.postWrite fuel (m.launch ⟨{ f with sequence := n }, slot, 0⟩) slot (gfa + 4096) key (bs.drop 4096) poisoned

/-- R172: the FENCE frames of a command that posted writes to GFAs, one to each destination, sent once. -/
def Mach.sendFences (m : Mach) (slot : Nat) : Mach :=
  match m.cmd? slot with
  | none => m
  | some c =>
    let m := m.setCmd slot { c with fencesSent := true, fabricOut := c.fabricOut + c.fabricDests.length }
    c.fabricDests.foldl (fun m (p : Nat × Nat × Nat) =>
      if m.nodeDead p.1 then m.fabricAnswered slot stTargetDead else
      match m.newTag (slotDie slot) false with
      | none => m.fabricAnswered slot stTimeout
      | some tag =>
        let w5 := tgetD m.fab.nextSeq (streamKey p.1 3) 0
        m.sendReq slot (m.reqFrame opFence 2 0 p.2.1 p.2.2 tag 0 0 w5 0 false false []) (.fence slot)) m

/-! ## Target: checks (R163, R174, R197) -/

/-- R163, R166: whether class, LENGTH and BYTES of a frame are those its opcode allows. -/
def RFrameFormOk (f : RFrame) : Bool :=
  let n := f.nbytes
  let sized := decide (1 ≤ n) && decide (n ≤ 4096)
  match f.opcode with
  | 0x01 => f.cls == 2 && f.len == 0 && sized
  | 0x02 => f.cls == 2 && sized && f.len == ceilDiv n 64
  | 0x03 => (f.cls == 2 || f.cls == 3) && sized && f.len == ceilDiv n 64
  | 0x04 => f.cls == 2 && f.len == 1
  | 0x05 => f.cls == 2 && f.len == 0
  | 0x06 => f.cls == 2 && sized && f.len == ceilDiv n 64
  | 0x07 => f.cls == 2 && sized && f.len == ceilDiv n 64
  | 0x08 => f.cls == 2 && f.len == 0
  | 0x10 => f.cls == 2 && decide (1 ≤ f.len)
  | 0x80 => f.cls == 1
  | 0x81 => f.cls == 1 && f.len == 0
  | 0x90 => f.cls == 4 && decide (1 ≤ f.len)
  | _ => decide (0xC0 ≤ f.opcode)

/-- R163: a frame that its target does not act on: a REQUEST is answered INVAL_DESC, any other counted. -/
def Mach.refuseFrame (m : Mach) (f : RFrame) : Mach :=
  if f.cls = 2 then m.sendFrame (m.respFrame f stInvalDesc 0 0 []) else m.bump 0x7060 0x0F

/-- R197: whether a target accepts an epoch now. -/
def Mach.epochOk (m : Mach) (e : Nat) : Bool :=
  let cur := m.epoch
  e == cur || e == (cur + 1) % 256 ||
    (e == (cur + 255) % 256 && decide (m.now < m.reg 0x4480 5 0 + m.reg 0x4480 3 0 * ticksPerUs))

/-- Whether a window's range touches the sealed region (16_security.md R458). -/
def Mach.sealedWindow (m : Mach) (w : Nat) : Bool :=
  let base := m.reg 0x4410 2 w
  let len := m.reg 0x4410 3 w
  let bb := m.reg 0x6020 2 0
  let bl := m.reg 0x6020 3 0
  m.sealedOn && (m.grants m.tenant).any fun g =>
    overlaps base len g.1 g.2 && !(decide (bb ≤ max base g.1) && decide (min (base + len) (g.1 + g.2) ≤ bb + bl))

/-- Table 06-4, rows 1 and 2. -/
def Mach.keyCheck (m : Mach) (f : RFrame) : Nat × Mach :=
  let w := f.window
  if !m.epochOk f.epoch then (stMapStale, m.bump 0x7060 4)
  else if m.reg 0x4410 6 w = 0 ∨ bit (m.reg 0x4400 6 (m.reg 0x4410 4 w)) 0 = false ∨
      f.key ≠ m.regionKey (m.reg 0x4410 4 w) ∨ m.sealedWindow w then
    (stKeyFault, ((m.bump 0x7060 1).setReg 0x4490 4 0 f.src).setReg 0x4490 5 0 w)
  else (0, m)

/-- R45's permission that a request needs of its window: RD, WR or AT; a FENCE none. -/
def permBit (op : Nat) : Option Nat :=
  if op = opRead then some 0 else if op = opAtomic then some 2 else if op = opFence then none else some 1

/-- Table 06-4, rows 1 to 5: the status of the first failure, 0 for none. -/
def Mach.targetCheck (m : Mach) (f : RFrame) : Nat × Mach :=
  match m.keyCheck f with
  | (0, m) =>
    let w := f.window
    let len := m.reg 0x4410 3 w
    let repl := bit (m.reg 0x4400 6 (m.reg 0x4410 4 w)) 1
    if len ≤ f.offset ∨ len < f.offset + f.nbytes then (stXlateFault, m)
    else if (permBit f.opcode).any fun b => !bit (m.reg 0x4410 5 w) b then (stPerm, m)
    else if repl && (f.opcode == opWrite || f.opcode == opWritePosted || f.opcode == opAtomic) then (stPerm, m)
    else if !repl && (f.opcode == opPublish || f.opcode == opPublishFwd) then (stPerm, m)
    else (0, m)
  | r => r

/-- The DPA a checked request addresses (R56). -/
def Mach.targetDpa (m : Mach) (f : RFrame) : Nat := m.reg 0x4410 2 f.window + f.offset

/-- Whether a request's window is FORWARDED, and the GFA it has moved to (R200). -/
def Mach.forwarded (m : Mach) (f : RFrame) : Option Nat :=
  if m.reg 0x4411 1 f.window = 2 then
    some (m.reg 0x4411 2 f.window * 2 ^ 50 + m.reg 0x4411 3 f.window * 2 ^ 38 + f.offset)
  else none

/-- REDIRECT sent for a request (row 6). -/
def Mach.redirect (m : Mach) (f : RFrame) (gfa : Nat) : Mach :=
  (m.bump 0x7060 0x0E).sendFrame (m.respFrame f stRedirect gfa 0 [])

/-! ## Target: streams (R167-R172) -/

/-- A source's stream at this target. -/
def Mach.stream (m : Mach) (key : Nat) : Stream := tgetD m.fab.streams key ⟨0, [], [], 0⟩
/-- A source's stream replaced. -/
def Mach.setStream (m : Mach) (key : Nat) (s : Stream) : Mach :=
  { m with fab := { m.fab with streams := tput m.fab.streams key s } }
/-- A source as this target knows it. -/
def Mach.source (m : Mach) (n : Nat) : SourceState := tgetD m.fab.sources n SourceState.fresh
/-- A source's state replaced. -/
def Mach.setSource (m : Mach) (n : Nat) (s : SourceState) : Mach :=
  { m with fab := { m.fab with sources := tput m.fab.sources n s } }

/-- R172: the first posted write of a source that failed since its last FENCE. -/
def Mach.sourceFail (m : Mach) (src status : Nat) : Mach :=
  let s := m.source src
  if status = 0 ∨ s.fail ≠ 0 then m else m.setSource src { s with fail := status }

/-- R168: an answer sent and kept among the last 64 of its stream. -/
def Mach.answerKept (m : Mach) (f : RFrame) (status : Nat) : Mach :=
  let key := streamKey f.src f.cls
  let s := m.stream key
  let m := m.setStream key { s with
    answers := (if s.answers.length < 64 then s.answers else s.answers.tail) ++ [(f.sequence, status)] }
  m.sendFrame (m.respFrame f status 0 0 [])

/-- R171: SEQ_ACK of a stream to its source. -/
def Mach.sendSeqAck (m : Mach) (key : Nat) : Mach :=
  let s := m.stream key
  let m := m.setStream key { s with since := 0 }
  m.sendFrame { m.reqFrame opSeqAck 1 0 (key / 2 * 2 ^ 50) 0 0 0 0 (s.n + key % 2 * 2 ^ 16) 0 false false [] with len := 0 }

/-- N advanced past one sequence (R167, R171). -/
def Mach.advance (m : Mach) (key : Nat) : Mach :=
  let s := m.stream key
  let m := m.setStream key { s with n := (s.n + 1) % 65536, held := tdel s.held s.n, since := s.since + 1 }
  if 64 ≤ s.since + 1 then m.sendSeqAck key else m

/-- The lines of a fabric write still on their way to the media. -/
def Mach.fabricWaits (m : Mach) (id : Nat) : Nat :=
  ((m.store.heldWrites ++ m.store.allocWaits).filter fun w => w.owner == .fabric id).length

/-- A fabric write over: a posted write's failure kept for the next FENCE, a WRITE or PUBLISH_FWD answered, a PUBLISH
forwarded (R181). -/
def Mach.writeOver (m : Mach) (f : RFrame) (status : Nat) : Mach :=
  if f.opcode = opWritePosted then m.sourceFail f.src status
  else if f.opcode = opPublish ∧ status = 0 then
    let others := (m.setMembers (m.reg 0x4400 7 (m.reg 0x4410 4 f.window))).filter fun x => x.1 ≠ m.node
    if others = [] then m.answerKept f 0
    else
      let id := m.fab.nextPub
      let m := { m with fab := { m.fab with nextPub := id + 1, pubs := m.fab.pubs ++ [⟨id, f, others.length, 0⟩] } }
      others.foldl (fun m x =>
        if m.nodeDead x.1 then (m.bump 0x7060 0x0D).forwardAnswered id stTargetDead else
        match m.newTag 0 false with
        | none => m.forwardAnswered id stTimeout
        | some tag => m.sendReq 0 { m.reqFrame opPublishFwd 2 0 (x.1 * 2 ^ 50 + x.2 * 2 ^ 38 + f.offset) f.key tag f.nbytes 0
            (f.word 5) (f.word 6) false false f.payload with len := f.len } (.forward id)) m
  else m.answerKept f status

/-- The bytes of a payload applied at a DPA flit by flit; a flit whose bit is set in POISON poisons its lines (R166). -/
def Mach.writeFlits : Nat → Mach → Nat → Nat → RFrame → Nat → WriteOwner → Nat → Nat × Mach
  | 0, m, _, _, _, _, _, st => (st, m)
  | k + 1, m, die, dpa, f, j, owner, st =>
    let n := min 64 (f.nbytes - 64 * j)
    if f.nbytes ≤ 64 * j then (st, m) else
    let a := dpa + 64 * j
    if bit (f.word 6) j then
      let m := (if lineOf a = lineOf (a + n - 1) then [lineOf a] else [lineOf a, lineOf (a + n - 1)]).foldl
        Mach.poisonNow m
      Mach.writeFlits k m die dpa f (j + 1) owner st
    else
      let (x, m) := m.storeDpa die a (slice f.payload (64 * j) n) owner
      Mach.writeFlits k m die dpa f (j + 1) owner (if st = 0 then x else st)

/-- A fabric write applied (R166): over at once, or once its lines have reached the media. -/
def Mach.applyFabricWrite (m : Mach) (h : HeldFrame) : Mach :=
  let f := h.frame
  let id := m.fab.nextWrite
  let m := { m with fab := { m.fab with nextWrite := id + 1 } }
  let (st, m) := Mach.writeFlits (f.len + 1) m (if h.port < m.dies then h.port else m.homeOf h.dpa) h.dpa f 0 (.fabric id) 0
  let left := m.fabricWaits id
  if left = 0 then m.writeOver f st
  else { m with fab := { m.fab with writes := tput m.fab.writes id ⟨f, h.port, left, st⟩ } }

/-- R176: an atomic's answer: its old value, and its result kept for duplicates with SEQCHK, 64 a source. -/
def Mach.answerAtomic (m : Mach) (f : RFrame) (r : Except Nat Nat) : Mach :=
  match r with
  | .error st => m.sendFrame (m.respFrame f st 0 0 [])
  | .ok old =>
    let data := leBytes 16 old
    let s := m.source f.src
    let m := if f.seqchk then m.setSource f.src { s with
        results := (if s.results.length < 64 then s.results else s.results.tail) ++ [(f.sequence, data)] } else m
    m.sendFrame (m.respFrame f 0 0 0 (if f.noresult then [] else slice data 0 64))

/-- R172: FENCEs of a source that can be answered now, in their order. -/
def Mach.serveFences (m : Mach) (src : Nat) : Mach :=
  let s := m.source src
  let bulkN := (m.stream (src * 2 + 1)).n
  let ready (h : HeldFrame) : Bool := decide ((bulkN + 65536 - h.frame.word 5 % 65536) % 65536 < 32768)
  let busy := m.fab.writes.any fun (p : Nat × WaitingWrite) => p.2.frame.src == src
  if busy then m else
  let go := s.fences.takeWhile ready
  let m := m.setSource src { s with fences := s.fences.drop go.length }
  go.foldl (fun m h =>
    let s := m.source src
    let st := if h.status ≠ 0 then h.status else if s.fail ≠ 0 then s.fail else if s.lost then stLinkLost else 0
    (m.setSource src { s with fail := 0, lost := false }).answerKept h.frame st) m

/-- The lines that a marker's range touches, poisoned (R170). -/
def Mach.applyMarker (m : Mach) (dpa n : Nat) : Mach :=
  if n = 0 then m else
  ((List.range (lineOf (dpa + n - 1) - lineOf dpa + 1)).map (· + lineOf dpa)).foldl
    Mach.poisonNow m

/-- A stream frame applied in its turn: none while it must wait for a host's copy to be recalled, for the final pass of
a relocation, in a state in which the recall has been sent. -/
def Mach.applyStream (m : Mach) (h : HeldFrame) : Except Mach Mach :=
  let f := h.frame
  let writes := f.opcode ≠ opFence
  if h.status ≠ 0 then
    if h.status = stRedirect ∨ f.opcode = opPoisonMark then .ok m
    else if f.opcode = opWritePosted then .ok (m.sourceFail f.src h.status)
    else if f.opcode = opAtomic then .ok (m.answerAtomic f (.error h.status))
    else if f.opcode = opFence then
      let s := m.source f.src
      .ok (m.setSource f.src { s with fences := s.fences ++ [h] })
    else .ok (m.answerKept f h.status)
  else match m.forwarded f with
  | some gfa => if writes ∧ f.opcode ≠ opPoisonMark then .ok (m.redirect f gfa) else .ok m
  | none =>
    if m.reg 0x4481 7 0 = 3 ∧ m.fab.reloc.any (·.window == f.window) ∧
        (f.opcode = opWrite ∨ f.opcode = opWritePosted ∨ f.opcode = opAtomic) then .error m
    else if f.opcode = opFence then
      let s := m.source f.src
      .ok (m.setSource f.src { s with fences := s.fences ++ [h] })
    else
    let n := if f.opcode = opAtomic then atomicWidth f.aop else f.nbytes
    match (if n = 0 then none else m.recall h.dpa n true) with
    | some m => .error m
    | none =>
      if f.opcode = opPoisonMark then .ok (m.applyMarker h.dpa n)
      else if f.opcode = opAtomic then
        if atomicWidth f.aop = 0 ∨ h.dpa % atomicWidth f.aop ≠ 0 then .ok (m.answerAtomic f (.error stInvalDesc))
        else
          let (r, m) := m.atomicAt (m.homeOf h.dpa) h.dpa f.aop (fld f.payload 0 16) (fld f.payload 16 16) .none
          .ok (m.answerAtomic f r)
      else .ok (m.applyFabricWrite h)

/-- R167: the held frames of a stream applied in sequence, as far as they go. -/
def Mach.drainStream : Nat → Mach → Nat → Mach
  | 0, m, _ => m
  | fuel + 1, m, key =>
    match tget (m.stream key).held (m.stream key).n with
    | none => m
    | some h =>
      match m.applyStream h with
      | .error m => m
      | .ok m => Mach.drainStream fuel (m.advance key) key

/-- A stream drained, and the FENCEs of its source that this lets go. -/
def Mach.runStream (m : Mach) (key : Nat) : Mach := (Mach.drainStream 1025 m key).serveFences (key / 2)

/-- Every stream drained: what a recall or a final pass held up goes on. -/
def Mach.runStreams (m : Mach) : Mach := (tkeys m.fab.streams).foldl Mach.runStream m

/-- R168: the answer to a duplicate, counted. -/
def Mach.duplicate (m : Mach) (f : RFrame) (key sequence : Nat) : Mach :=
  let m := m.bump 0x7060 2
  if f.opcode = opWritePosted ∨ f.opcode = opPoisonMark then m
  else if f.opcode = opAtomic then
    if !f.seqchk then m else
    match (m.source f.src).results.find? (·.1 == sequence) with
    | some r => m.sendFrame (m.respFrame f 0 0 0 (if f.noresult then [] else slice r.2 0 64))
    | none => m.sendFrame (m.respFrame f stLinkLost 0 1 (zeros 64))
  else if (m.stream key).held.any (·.1 == sequence) then m
  else match (m.stream key).answers.find? (·.1 == sequence) with
    | some a => m.sendFrame (m.respFrame f a.2 0 0 [])
    | none => m.sendFrame (m.respFrame f stLinkLost 0 0 [])

/-- R167, R168: a stream frame at its target, its checks made: beyond the window, a duplicate, or held for its turn. -/
def Mach.streamArrive (m : Mach) (key sequence : Nat) (h : HeldFrame) : Mach :=
  let s := m.stream key
  let d := (sequence + 65536 - s.n) % 65536
  if 32768 ≤ d ∨ (tget s.held sequence).isSome then
    if h.status ≠ 0 ∧ h.status ≠ stRedirect ∧ h.frame.opcode ≠ opWritePosted then
      (m.bump 0x7060 2).sendFrame (m.respFrame h.frame h.status 0 0 [])
    else m.duplicate h.frame key sequence
  else if 1024 ≤ d then m.bump 0x7060 0x10
  else (m.setStream key { s with held := tput s.held sequence h }).runStream key

/-- R174: a stream request at its target: rows 1 to 6 at its arrival, then its stream. -/
def Mach.streamRequest (m : Mach) (port : Nat) (f : RFrame) : Mach :=
  if !RFrameFormOk f then m.refuseFrame f else
  let (st, m) := m.targetCheck f
  let key := streamKey f.src f.cls
  let h : HeldFrame := ⟨f, port, st, m.targetDpa f⟩
  if st ≠ 0 then m.streamArrive key f.sequence h
  else match m.forwarded f with
    | some gfa => (m.redirect f gfa).streamArrive key f.sequence { h with status := stRedirect }
    | none => m.streamArrive key f.sequence h

/-- A frame taken off those that have arrived, when it is among them, and its credit given back. -/
def Mach.takeArrived (m : Mach) (port : Nat) (f : RFrame) : Mach :=
  if (port, f) ∈ m.fab.arrived then
    ({ m with fab := { m.fab with arrived := m.fab.arrived.erase (port, f) } } : Mach).releaseCredit port f
  else m

/-! ## Data outside the package through host paths (02_address_spaces.md R45; 12_visibility.md R332) -/

/-- A CXL.io read through a host path for a command: taken from the reads it has made, or sent. -/
def Mach.fetchHost (m : Mach) (slot path hpa n : Nat) : Got × Mach :=
  match m.xl.fetches.find? fun f => f.slot == slot && !f.gfa && f.addr == hpa && f.len == n && f.path == path with
  | some f => match f.ended with
    | some (.ok bs) => (.ok bs, m)
    | some (.failed st) => (.failed st, m)
    | none => (.wait, m)
  | none =>
    let m := { m with xl := { m.xl with fetches := m.xl.fetches ++ [(⟨slot, false, hpa, n, path, none⟩ : Fetch)] } }
    (.wait, m.emit (.cxlRead (path / 16) (path % 16) hpa n slot))

/-- A CXL.io posted write through a host path for a command: its last byte noted for the flush read (R332). -/
def Mach.writeHost (m : Mach) (slot path hpa : Nat) (bs : List Byte) : Mach :=
  let m := m.emit (.cxlWrite (path / 16) (path % 16) hpa bs)
  match m.cmd? slot with
  | some c => m.setCmd slot { c with hostWrites := tput c.hostWrites path (hpa + bs.length - 1) }
  | none => m

/-! ## An engine's data accesses -/

/-- R466: a read of k bytes of a registered region by TLOAD, TLOADX, Talus or Cirque, decrypted line by line with the content
key when the slot is BOUND and its owner is the AST's; refused otherwise. None when no registered region holds the address. -/
def Mach.boundRead (m : Mach) (die ast dpa k : Nat) : Option (ReadEnd × Mach) :=
  (m.sec.bound.find? fun (p : Nat × BoundRegion) => decide (p.2.base ≤ dpa) && decide (dpa < p.2.base + p.2.len)).map fun p =>
    if m.reg 0x6031 7 p.1 = 1 ∧ (m.ast? ast).map (·.owner) = some (m.reg 0x6031 9 p.1) then
      let lo := dpa / 64 * 64
      let lines := (dpa + k + 63) / 64 - dpa / 64
      match m.loadDpa die lo (lines * 64) with
      | (.ok bs, m) =>
        let plain := ((List.range lines).map fun i =>
          Config.xtsOpen p.2.key ((lo - p.2.base) / 64 + i) (slice bs (64 * i) 64)).flatten
        (.ok (slice plain (dpa - lo) k), m)
      | r => r
    else (.failed stBindingRefused, m.bump 0x7130 8)

/-- Whether an engine code's reads decrypt bound weights (R466): Talus, Cirque, and 64 + c for the transfers of crag c. -/
def boundEng (eng : Nat) : Bool := eng == engTalus || eng == engCirque || decide (64 ≤ eng)

/-- Reads of a DVA range translated and made piece by piece, each piece within 4 KiB; every piece is asked for even
when an earlier one must wait. -/
def Mach.loadPieces : Nat → Mach → Nat → Nat → Nat → Nat → Nat → Nat → Got → Got × Mach
  | 0, m, _, _, _, _, _, _, got => (got, m)
  | fuel + 1, m, slot, die, eng, ast, dva, n, got =>
    if n = 0 then (got, m) else
    let fail (st : Nat) : Got := match got with | .failed x => .failed x | _ => .failed st
    let join (g : Got) : Got := match got, g with
      | .failed x, _ => .failed x
      | _, .failed x => .failed x
      | .ok a, .ok b => .ok (a ++ b)
      | _, _ => .wait
    match m.xlate die (eng % 64) ast dva .read with
    | (.fault st, m) => (fail st, m)
    | (.wait, m) => (match got with | .failed x => .failed x | _ => .wait, m)
    | (.local dpa span, m) =>
      let k := min n span
      match m.recall dpa k false with
      | some m => Mach.loadPieces fuel m slot die eng ast (dva + k) (n - k) (join .wait)
      | none =>
        let (r, m) := match (if boundEng eng then m.boundRead die ast dpa k else none) with
          | some x => x
          | none => m.loadDpa die dpa k
        Mach.loadPieces fuel m slot die eng ast (dva + k) (n - k)
          (join (match r with | .ok bs => .ok bs | .failed st => .failed st))
    | (.gfa a key span, m) =>
      let k := min n (min span (4096 - a % 4096))
      let (r, m) := m.fetchGfa slot a key k
      Mach.loadPieces fuel m slot die eng ast (dva + k) (n - k) (join r)
    | (.host p a span, m) =>
      let k := min n (min span (4096 - a % 4096))
      let (r, m) := m.fetchHost slot p a k
      Mach.loadPieces fuel m slot die eng ast (dva + k) (n - k) (join r)

/-- n bytes read at a DVA of an AST by an engine of a die for a command. -/
def Mach.loadDvaOn (m : Mach) (slot die eng ast dva n : Nat) : Got × Mach :=
  Mach.loadPieces (n / 4096 + n / 65536 + 4) m slot die eng ast dva n (.ok [])

/-- The same for an engine of the die of the command's queue. -/
def Mach.loadDva (m : Mach) (slot eng ast dva n : Nat) : Got × Mach := m.loadDvaOn slot (slotDie slot) eng ast dva n

/-- Whether writes of a DVA range can go: every piece translates, and no host's copy is in the way. -/
def Mach.readyPieces : Nat → Mach → Nat → Nat → Nat → Nat → Nat → Acc → Got → Got × Mach
  | 0, m, _, _, _, _, _, _, got => (got, m)
  | fuel + 1, m, die, eng, ast, dva, n, acc, got =>
    if n = 0 then (got, m) else
    match m.xlate die eng ast dva acc with
    | (.fault st, m) => (.failed st, m)
    | (.wait, m) => (.wait, m)
    | (.local dpa span, m) =>
      let k := min n span
      match m.recall dpa k true with
      | some m => Mach.readyPieces fuel m die eng ast (dva + k) (n - k) acc .wait
      | none => Mach.readyPieces fuel m die eng ast (dva + k) (n - k) acc got
    | (.gfa _ _ span, m) => Mach.readyPieces fuel m die eng ast (dva + min n span) (n - min n span) acc got
    | (.host _ _ span, m) => Mach.readyPieces fuel m die eng ast (dva + min n span) (n - min n span) acc got

/-- Whether n bytes can be written at a DVA now by an engine of a die: `ok`, a status, or a wait. -/
def Mach.writeReadyOn (m : Mach) (die eng ast dva n : Nat) : Got × Mach :=
  Mach.readyPieces (n / 65536 + 4) m die eng ast dva n .write (.ok [])

/-- The same for an engine of the die of the command's queue. -/
def Mach.writeReady (m : Mach) (slot eng ast dva n : Nat) : Got × Mach := m.writeReadyOn (slotDie slot) eng ast dva n

/-- Whether a DVA range lies behind LOCAL leaves alone that allow an access: `ok`, a status (BAD_FORMAT for another kind),
or a wait. -/
def Mach.localPieces : Nat → Mach → Nat → Nat → Nat → Nat → Nat → Acc → Got → Got × Mach
  | 0, m, _, _, _, _, _, _, got => (got, m)
  | fuel + 1, m, die, eng, ast, dva, n, acc, got =>
    if n = 0 then (got, m) else
    match m.xlate die eng ast dva acc with
    | (.fault st, m) => (.failed st, m)
    | (.wait, m) => (.wait, m)
    | (.local dpa span, m) =>
      let k := min n span
      match m.recall dpa k (acc != .read) with
      | some m => Mach.localPieces fuel m die eng ast (dva + k) (n - k) acc .wait
      | none => Mach.localPieces fuel m die eng ast (dva + k) (n - k) acc got
    | (_, m) => (.failed stBadFormat, m)

/-- The same for a range of n bytes. -/
def Mach.localReady (m : Mach) (die eng ast dva n : Nat) (acc : Acc) : Got × Mach :=
  Mach.localPieces (n / 65536 + 4) m die eng ast dva n acc (.ok [])

/-- n bytes read at a DVA that must lie behind LOCAL leaves. -/
def Mach.loadLocal (m : Mach) (slot die eng ast dva n : Nat) : Got × Mach :=
  match m.localReady die eng ast dva n .read with
  | (.ok _, m) => m.loadDvaOn slot die eng ast dva n
  | r => r

/-- Bytes written at a DVA piece by piece; a failure is the command's first (R12) and the other pieces go on. -/
def Mach.storePieces : Nat → Mach → Nat → Nat → Nat → Nat → Nat → List Byte → Mach
  | 0, m, _, _, _, _, _, _ => m
  | fuel + 1, m, slot, die, eng, ast, dva, bs =>
    if bs.isEmpty then m else
    match m.xlate die eng ast dva .write with
    | (.fault st, m) => m.noteFail slot st
    | (.wait, m) => m
    | (.local dpa span, m) =>
      let (st, m) := m.storeDpa die dpa (bs.take span) (.cmd slot)
      Mach.storePieces fuel (m.noteFail slot st) slot die eng ast (dva + span) (bs.drop span)
    | (.gfa a key span, m) =>
      let m := Mach.postWrite (bs.length / 4096 + 2) m slot a key (bs.take span) false
      Mach.storePieces fuel m slot die eng ast (dva + span) (bs.drop span)
    | (.host p a span, m) =>
      let m := m.writeHost slot p a (bs.take span)
      Mach.storePieces fuel m slot die eng ast (dva + span) (bs.drop span)

/-- Bytes written at a DVA of an AST by an engine of a die for a command; a write into a range that MIGRATE is moving is held
(02_address_spaces.md R60). -/
def Mach.storeDvaOn (m : Mach) (slot die eng ast dva : Nat) (bs : List Byte) : Mach :=
  match m.xl.migrations.find? fun g => g.ast == ast && overlaps g.dva g.len dva bs.length with
  | some g => { m with xl := { m.xl with migrations := m.xl.migrations.map fun x =>
      if x.slot = g.slot then { x with held := x.held ++ [(slot, dva, bs)] } else x } }
  | none => Mach.storePieces (bs.length / 65536 + 4) m slot die eng ast dva bs

/-- The same for an engine of the die of the command's queue. -/
def Mach.storeDva (m : Mach) (slot eng ast dva : Nat) (bs : List Byte) : Mach :=
  m.storeDvaOn slot (slotDie slot) eng ast dva bs

/-- A DVA range written as poisoned lines: those of the store through the Col, those of a GFA by poisoned frames, those
of a host by a poisoned CXL.io write. -/
def Mach.poisonPieces : Nat → Mach → Nat → Nat → Nat → Nat → Nat → Nat → Mach
  | 0, m, _, _, _, _, _, _ => m
  | fuel + 1, m, slot, die, eng, ast, dva, n =>
    if n = 0 then m else
    match m.xlate die eng ast dva .write with
    | (.fault st, m) => m.noteFail slot st
    | (.wait, m) => m
    | (.local dpa span, m) =>
      let k := min n span
      let m := (List.range (lineOf (dpa + k - 1) + 1 - lineOf dpa)).foldl
        (fun m i => m.poisonNow (lineOf dpa + i)) m
      Mach.poisonPieces fuel m slot die eng ast (dva + k) (n - k)
    | (.gfa a key span, m) =>
      let k := min n span
      let m := Mach.postWrite (k / 4096 + 2) m slot a key (zeros k) true
      Mach.poisonPieces fuel m slot die eng ast (dva + k) (n - k)
    | (.host p a span, m) =>
      let k := min n span
      let m := (m.emit (.cxlPoisoned (p / 16) (p % 16) a k)).writeHost slot p a (zeros k)
      Mach.poisonPieces fuel m slot die eng ast (dva + k) (n - k)

/-- n bytes at a DVA written as poisoned lines by an engine of a die. -/
def Mach.poisonDva (m : Mach) (slot die eng ast dva n : Nat) : Mach :=
  Mach.poisonPieces (n / 65536 + 4) m slot die eng ast dva n

/-- A store write that had waited has ended with a status: whom it was for is told. -/
def Mach.writeEnded (m : Mach) (w : WriteOwner) (status : Nat) : Mach :=
  match w with
  | .none => m
  | .cmd slot => m.noteFail slot status
  | .host link ld tag => m.answerHostWrite link ld tag status
  | .queue q => if status = 0 then m else m.queueError q
  | .fabric id =>
    match tget m.fab.writes id with
    | none => m
    | some x =>
      let x := { x with lines := x.lines - 1, status := if x.status = 0 then status else x.status }
      if x.lines = 0 then
        (({ m with fab := { m.fab with writes := tdel m.fab.writes id } } : Mach).writeOver x.frame x.status).serveFences
          x.frame.src
      else { m with fab := { m.fab with writes := tput m.fab.writes id x } }

/-! ## Relocation (R200) -/

/-- A relocation over: its state, the notice with its status, and the requests it held, which go on. -/
def Mach.relocEnd (m : Mach) (state status : Nat) : Mach :=
  match m.fab.reloc with
  | none => m
  | some r =>
    let m := { m with fab := { m.fab with reloc := none } }
    let m := if state = 4 then
        ((m.setReg 0x4411 1 r.window 2).setReg 0x4411 2 r.window (m.reg 0x4481 2 0)).setReg 0x4411 3 r.window (m.reg 0x4481 3 0)
      else m.setReg 0x4411 1 r.window 0
    let m := (m.setReg 0x4481 7 0 state).setReg 0x4481 6 0 (if state = 4 then 1000 else m.reg 0x4481 6 0)
    (m.notice 0x8060 (leBytes 2 r.window ++ leBytes 2 status)).runStreams

/-- The dirty lines copied again. -/
def Mach.relocPass (m : Mach) (state : Nat) : Mach :=
  match m.fab.reloc with
  | none => m
  | some r =>
    let m := { m with fab := { m.fab with reloc := some { r with dirty := [], todo := r.dirty, passes := r.passes + 1 } } }
    Mach.relocPump 512 (m.setReg 0x4481 7 0 state)

end Sys2Proof.Machine
end

