-- ==== Sys2Proof/Machine/FaultOps.lean ====
section
/-! DEFINITION. Faults told to the hall and acted on: dead nodes by notice, jobs, lost ports, quarantine, digests
(13_acting_as_one.md R353-R362, R377, R378; 06_ridgeline_memory.md R202). -/

namespace Sys2Proof.Machine

/-! ## Jobs (R202, R377, R378) -/

/-- What a command has on the fabric given up: its requests, its FENCEs and its posted writes not yet sent (R202). -/
def Mach.dropFabric (m : Mach) (slot : Nat) : Mach :=
  let mine (r : OutReq) : Bool := match r.purpose with
    | .read s _ => s == slot | .fence s => s == slot | .atomic s => s == slot | .publish s => s == slot
    | .fanout s _ => s == slot | .coll s => s == slot | _ => false
  let m := { m with fab := { m.fab with reqs := m.fab.reqs.filter fun (p : Nat × OutReq) => !mine p.2 } }
  match m.cmd? slot with
  | some c => (m.setCmd slot { c with fabricDests := [], fabricOut := 0, fencesSent := true }).epochCheck
  | none => m

/-- The queues of a job. -/
def Mach.jobQueues (m : Mach) (job : Nat) : List Nat :=
  (tkeys m.sched.queues).filter fun q => m.reg 0x5401 4 q == job

/-- A torn-down job whose commands have all ended raises notice 0x8063. -/
def Mach.teardownCheck (m : Mach) : Mach :=
  m.fab.tearing.foldl (fun m job =>
    if m.sched.slots.any fun (p : Nat × Cmd) => m.reg 0x5401 4 p.2.queue == job then m
    else ({ m with fab := { m.fab with tearing := remove m.fab.tearing job } } : Mach).notice 0x8063 (leBytes 2 job)) m

/-- R202: a job torn down: its running queues stop, its commands in flight end with TARGET_DEAD, and the group of a
COLLECTIVE among them aborts (R371). -/
def Mach.tearDown (m : Mach) (job : Nat) : Mach :=
  let qs := m.jobQueues job
  let m := qs.foldl (fun m q => if m.qState q = 1 then m.setQState q 2 else m) m
  let slots := (m.sched.slots.filter fun (p : Nat × Cmd) => qs.contains p.2.queue).map Prod.fst
  let m := slots.foldl (fun m k => ((((m.bump 0x7060 0x0D).collFailed k stTargetDead).failCmd k stTargetDead).dropFabric k)) m
  let m := { m with fab := { m.fab with tearing := insSorted m.fab.tearing job } }
  ((m.freeSets fun x => qs.contains x.queue).setReg 0x4521 2 0 job).teardownCheck

/-- R378: the policies of the jobs that run here and on a dead node. -/
def Mach.jobPolicies (m : Mach) (x : Nat) : Mach :=
  ((List.range 4096).filter fun j => maskBit (m.oct 0x4530 2 j) x && maskBit (m.oct 0x4530 2 j) m.node).foldl
    (fun m j =>
      let p := m.reg 0x4530 3 j
      let m := (m.setReg 0x4530 4 j p).notice 0x80D5 (leBytes 2 j ++ leBytes 2 x ++ [byteOf p])
      if p = 1 then m.tearDown j else m) m

/-! ## Nodes named dead (R362, R367, R371) -/

/-- A node named dead by notice: marked dead, its groups aborted, jobs' policies applied; a device that advertises it
as root advertises itself for an interval. -/
def Mach.nameDead (m : Mach) (x : Nat) : Mach :=
  if x = m.node ∨ maskBit (m.oct 0x4502 1 0) x then m else
  let m := m.setOct 0x4502 1 0 (setMaskBit (m.oct 0x4502 1 0) x true)
  let m := m.markDead x
  let gs := (List.range 1024).filter fun g => m.reg 0x4510 7 g == 1 && (m.groupMembers g).contains x && (m.ownBlock g).isSome
  let m := gs.foldl (fun m g => m.abortGroup g stCollAbort) m
  let m := if m.reg 0x1320 6 0 = x then
      let m := ((m.setReg 0x1320 6 0 m.node).setReg 0x1320 7 0 0).setReg 0x1320 8 0 0xFF
      { m with hall := { m.hall with selfRoot := true } }
    else m
  m.jobPolicies x

/-- Whether the LINK_LOST floods heard cover every torus link of a node. -/
def Mach.allLinksLost (m : Mach) (x : Nat) : Bool :=
  let ports := (List.range (2 * m.dims)).filter fun p => decide (1 < m.dimSize (p / 2))
  ports != [] && ports.all fun p => m.hall.lostLinks.contains (x, p)

/-- A FAULT accepted (R361, R362): the node that leaves, or the link lost at both its ends. -/
def Mach.acceptFault (m : Mach) (origin w5 : Nat) : Mach :=
  if bits w5 3 0 = 1 then m.nameDead origin
  else
    let p := bits w5 11 8
    let peer := bits w5 20 12
    if 2 * m.dims ≤ p then m else
    let add (l : List (Nat × Nat)) (x : Nat × Nat) : List (Nat × Nat) := if x ∈ l then l else l ++ [x]
    let m := { m with hall := { m.hall with
      lostLinks := add (add m.hall.lostLinks (origin, p)) (peer, if p % 2 = 0 then p + 1 else p - 1) } }
    [origin, peer].foldl (fun m x => if m.allLinksLost x then m.nameDead x else m) m

/-- A FAULT flood of this device, accepted here as it is sent (R360, R361). -/
def Mach.sendFault (m : Mach) (kind port peer reason : Nat) : Mach :=
  let w5 := kind + port * 2 ^ 8 + peer * 2 ^ 12 + reason * 2 ^ 24
  let m := m.originate 0xC1 w5
  if kind = 0 then m.acceptFault m.node w5 else m

/-- A port loses its link (R154-R158); a torus or express port tells the hall unless the Steward disabled it (R361). -/
def Mach.portLost (m : Mach) (p cause : Nat) (buffers : Bool) : Mach :=
  let peer := m.neighbour p
  let m := m.losePort p cause buffers
  if (m.torusPort p || m.expressPort p) && cause != 9 then m.sendFault 0 p peer cause else m

/-! ## Digests and quarantine (R353-R358) -/

/-- R354: CONFIG. -/
def Mach.configDigest (m : Mach) : Nat :=
  let s := [byteOf (m.reg 0x4000 1 0), byteOf (m.reg 0x4000 2 0), byteOf (m.reg 0x4000 3 0), byteOf (m.reg 0x4000 4 0),
    byteOf (m.reg 0x4000 7 0 + 2 * m.reg 0x4000 8 0), 0, 0, 0] ++ leBytes 8 (m.reg 0x4500 1 0)
  leNat (slice (Config.sha384 s) 0 8)

/-- The contract version of the device: 1.0. -/
def contractVersion : Nat := 0x0100

/-- R353: a DIGEST flit's bytes 2-63. The fraction of a tick is not modelled: TIME_FRAC is a free value. -/
def Mach.digestBytes (m : Mach) (p : Nat) (ask : Bool) : List Byte × Mach :=
  let st := m.reg 0x1320 5 0
  let flags := b2n (st != 0) + 2 * b2n (st == 2) + 4 * b2n (m.portHall p).flag + 8 * b2n ask
  let (frac, m) := m.fresh 65536
  ([byteOf 1, byteOf flags] ++ leBytes 8 m.configDigest ++ leBytes 2 contractVersion ++ leBytes 4 (m.reg 0x6010 2 0) ++
    leBytes 8 m.now ++ leBytes 2 frac ++ leBytes 2 m.node ++ [byteOf p, byteOf (m.reg 0x4480 1 0)] ++ zeros 32, m)

/-- A DIGEST sent and counted; edge ports send none (R355). -/
def Mach.sendDigest (m : Mach) (p : Nat) (ask : Bool) : Mach :=
  if m.edgePort p then m else
  let (bs, m) := m.digestBytes p ask
  (m.bump 0x70D0 1).emit (.digest p bs)

/-- The states in which a port sends DIGESTs: DIGEST, ACTIVE, QUARANTINE, RESTORED. -/
def Mach.digestState (m : Mach) (p : Nat) : Bool := [6, 7, 8, 9].contains (m.pState p)

/-- R355: a DIGEST on every port after a change to a field it carries. -/
def Mach.digestChanged (m : Mach) : Mach :=
  ((List.range m.dies).filter m.digestState).foldl (fun m p => m.sendDigest p false) m

/-- Frames queued for a port and not yet begun routed afresh when the port is no longer usable for them (R155). -/
def Mach.requeue (m : Mach) (p : Nat) : Mach :=
  let v := m.port p
  let (stay, go) := v.queue.partition fun q => m.usable p q.frame
  go.foldl Mach.reroute (m.setPort p { v with queue := stay })

/-- R357: a port in DIGEST, ACTIVE or RESTORED goes to QUARANTINE: its own flag set, a DIGEST sent at once, frames not
yet begun routed afresh, notice 0x80D0, counted. -/
def Mach.quarantine (m : Mach) (p : Nat) : Mach :=
  if [6, 7, 9].contains (m.pState p) then
    let m := ((m.setCause p 8).setPState p 8).setPortHall p { m.portHall p with flag := true }
    let m := (m.sendDigest p false).bump 0x70D0 4
    let d := m.oct 0x4501 4 p
    (m.notice 0x80D0 ([byteOf p, byteOf (m.reg 0x4501 2 p)] ++ slice d 2 14)).requeue p
  else m

/-- Table 13-2: the bits of the checks that a DIGEST fails. -/
def Mach.digestChecks (m : Mach) (p : Nat) (d : List Byte) : Nat :=
  let flags := fld d 1 1
  let own := m.reg 0x6010 2 0 / 65536
  let rel := fld d 12 4 / 65536
  let synced := bit flags 0 && m.reg 0x1320 5 0 != 0
  let delay : Int := if m.reg 0x4501 9 p = 0 then ((m.reg 0x4011 0x0A p * 500 : Nat) : Int) else toSigned 32 (m.reg 0x4501 5 p)
  let diff : Int := ((fld d 16 8 : Nat) : Int) * 1250 + delay - (m.now : Int) * 1250
  let time := synced && decide (1000000 < diff.natAbs)
  b2n (fld d 0 1 != 1 || decide (16 ≤ flags) || !allZero (slice d 30 32)) + 2 * b2n (fld d 2 8 != m.configDigest) +
    4 * b2n (fld d 10 2 != contractVersion) + 8 * b2n (decide (1 < max own rel - min own rel)) + 16 * b2n time +
    64 * b2n (bit flags 2)

/-- R356-R358: a DIGEST received on a port in a state that has them. -/
def Mach.digestIn (m : Mach) (p : Nat) (d : List Byte) : Mach :=
  if !m.digestState p || m.edgePort p then m else
  let c := m.digestChecks p d
  let m := (m.setReg 0x4501 2 p c).setOct 0x4501 4 p (slice d 0 62)
  let h := m.portHall p
  let m := m.setPortHall p { h with flag := h.flag && c % 64 != 0 }
  let own := m.reg 0x6010 2 0 / 65536
  let rel := fld d 12 4 / 65536
  let skew := own + 1 == rel || rel + 1 == own
  let m := m.setReg 0x4501 8 p (b2n skew)
  let m := if skew && !bit c 3 then m.bump 0x70D0 3 else m
  let m := if c ≠ 0 then (m.bump 0x70D0 2).setReg 0x4501 7 p 0 else m.setReg 0x4501 7 p (min 255 (m.reg 0x4501 7 p + 1))
  let m := if bit (fld d 1 1) 3 then m.sendDigest p false else m
  let s := m.pState p
  if c ≠ 0 then m.quarantine p
  else if s = 6 then m.setPState p (if (m.port p).fromLost then 9 else 7)
  else if s = 8 ∧ 10 ≤ m.reg 0x4501 7 p ∧ m.reg 0x4500 3 0 = 1 then (m.setPState p 7).notice 0x80D1 [byteOf p]
  else m

end Sys2Proof.Machine
end

