-- ==== Sys2Proof/Machine/PortRows.lean ====
section
/-! DEFINITION. What each event of a Ridgeline link does (05_ridgeline_links.md R129-R144, R153, R157-R159) and the copies
that mirror sessions take (06_ridgeline_memory.md R189-R191). A flit row stands for a good flit that arrives in order;
an event in a state that has no such event changes nothing. -/

namespace Sys2Proof.Machine

/-! ## Mirror sessions (R189-R191) -/

/-- Whether confidential mode keeps a session from a frame of the tenant's (R189): while it is on, frames of a region that
lies in the tenant's grant set. -/
def Mach.mirrorBarred (m : Mach) (region : Nat) : Bool :=
  m.sealedOn && (m.grants m.tenant).any fun g => overlaps (m.reg 0x4400 2 region) (m.reg 0x4400 3 region) g.1 g.2

/-- Whether a session copies a frame that crosses a port in a direction, 1 ingress, 2 egress. -/
def Mach.mirrorMatch (m : Mach) (s p dir : Nat) (f : RFrame) : Bool :=
  let region := m.reg 0x4410 4 f.window
  let tenants := f.dst == m.node && m.mirrorBarred region
  m.reg 0x4230 0x0A s == 1 && m.reg 0x4230 7 s != 0xFF && f.cls != 4 && !tenants &&
  (match m.reg 0x4230 2 s with
    | 1 => m.reg 0x4230 3 s % 16 == p && bit (m.reg 0x4230 3 s / 16) (dir - 1)
    | 2 => (m.reg 0x4230 4 s == 0xFFFF || m.reg 0x4230 4 s == f.src) &&
        (m.reg 0x4230 5 s == 0xFFFFFFFF || (f.dst == m.node && m.reg 0x4230 5 s == region)) && bit (m.reg 0x4230 6 s) f.cls
    | _ => false)

/-- A copy sent to a session's analysis port: a MIRROR_COPY frame on a Ridgeline port, where a full buffer skips it, or
CXL.io writes into the host ring, whose count of bytes follows (R190, R191). -/
def Mach.mirrorSend (m : Mach) (s code dir len : Nat) (flits : List (List Byte)) : Mach :=
  let snap := m.reg 0x4230 9 s
  let kept := flits.take (1 + snap)
  let w7 := s + dir * 2 ^ 2 + code * 2 ^ 4 + len * 2 ^ 9 + b2n (kept.length < flits.length) * 2 ^ 16
  let payload := kept.flatten
  let f : RFrame := { m.urgent opMirrorCopy (m.reg 0x4230 8 s) m.node 0 0 (word4 0 payload.length 0 false false) m.now 0 w7 with
    cls := 4, len := kept.length, payload := payload }
  let out := m.reg 0x4230 7 s
  if out < 8 then
    match m.roomFor out 8 f with
    | (true, m) => (m.queueFrame out 8 false false f).bump 0x7060 0x0A
    | (false, m) => m.bump 0x7060 0x0B
  else
    let len := m.reg 0x4231 2 0
    if len = 0 then m.bump 0x7060 0x0B else
    let link := (out - 8) * 2
    let bytes := f.header ++ payload
    let m := (chunksOf 64 66 bytes).foldl (fun m c =>
      let at' := m.fab.ringCount
      ({ m with fab := { m.fab with ringCount := (at' + c.length) % 2 ^ 64 } } : Mach).emit
        (.cxlWrite link 0 (m.reg 0x4231 1 0 + at' % len) c)) m
    (m.emit (.cxlWrite link 0 (m.reg 0x4231 3 0) (leBytes 8 m.fab.ringCount))).bump 0x7060 0x0A

/-- The copies taken of a Ridgeline frame at a port in a direction. -/
def Mach.mirrorFrame (m : Mach) (p dir : Nat) (f : RFrame) : Mach :=
  ((List.range 4).filter fun s => m.mirrorMatch s p dir f).foldl
    (fun m s => m.mirrorSend s p dir f.len (f.header :: chunksOf 64 64 f.payload)) m

/-- The copies taken of a CXL flit seen at a host port: a capture record, then the flit's four data flits, whose bytes the
manual does not give here: free values (R190). -/
def Mach.mirrorHost (m : Mach) (link dir : Nat) : Mach :=
  let code := 8 + link / 2
  let hit (s : Nat) : Bool := m.reg 0x4230 0x0A s == 1 && m.reg 0x4230 7 s != 0xFF && m.reg 0x4230 2 s == 1 &&
    m.reg 0x4230 3 s % 16 == code && bit (m.reg 0x4230 3 s / 16) (dir - 1) &&
    !(m.sealedOn && (m.paths m.tenant).any fun k => k / 32 == link / 2)
  ((List.range 4).filter hit).foldl (fun m s =>
    let (flit, m) := (List.range 4).foldl (fun (r : List (List Byte) × Mach) _ =>
      let (v, m) := r.2.fresh (2 ^ 512)
      (r.1 ++ [leBytes 64 v], m)) ([], m)
    m.mirrorSend s code dir 4 ((leBytes 8 m.now ++ [byteOf link, byteOf dir] ++ zeros 54) :: flit)) m

/-! ## Reception (R129-R131, R133, R139, R143, R158) -/

/-- The states in which flits are numbered: DIGEST, ACTIVE, QUARANTINE, RESTORED, and RECOVERY entered from them. -/
def Mach.numberedState (m : Mach) (p : Nat) : Bool := [6, 7, 8, 9, 10].contains (m.pState p)

/-- R143: a protocol error: the link is lost with cause 6. -/
def Mach.protocolError (m : Mach) (p : Nat) : Mach := m.portLost p 6 true

/-- R136: a port enters RECOVERY for a fast retrain. -/
def Mach.enterRecovery (m : Mach) (p : Nat) : Mach :=
  if [6, 7, 8, 9].contains (m.pState p) then
    let v := m.port p
    ((m.setPort p { v with left := m.pState p }).setPState p 10).bumpPort p 6
  else m

/-- A numbered flit accepted: EFN advances (R133). -/
def Mach.acceptFlit (m : Mach) (p : Nat) : Mach :=
  let v := m.port p
  (m.setPort p { v with efn := (v.efn + 1) % 65536, accepted := true, retries := 0 }).bumpPort p 2

/-- A numbered flit reaches its receiver: before HELLO it is a protocol error, while a replay is awaited it is
discarded (R135, R143); otherwise it is taken. -/
def Mach.numbered (m : Mach) (p : Nat) (take : Mach → Mach) : Mach :=
  if m.pState p = 5 then m.protocolError p
  else if !m.numberedState p || (m.port p).awaiting then m
  else take (m.acceptFlit p)

/-- The credits of a frame taken at its header; whether it is within them (R137). -/
def Mach.takeCredit (m : Mach) (p : Nat) (f : RFrame) : Bool × Mach :=
  if 3 ≤ f.cls then (true, m) else
  let v := m.port p
  let i := 2 * f.cls + f.vc
  let room := (v.rxLimit.getD i 0 + 65536 - v.rxUsed.getD i 0) % 65536
  let m := m.setPort p { v with rxUsed := v.rxUsed.set i ((v.rxUsed.getD i 0 + f.len + 1) % 65536) }
  (decide (f.len + 1 ≤ room) && decide (room < 32768), m)

/-- A frame whose flits have all come: for this device, on to its port, or dropped. -/
def Mach.frameWhole (m : Mach) (p : Nat) (r : RxFrame) : Mach :=
  match r.out with
  | .drop => m.releaseCredit p r.frame
  | .here => if r.stomped then (m.releaseCredit p r.frame).bumpPort p 0x0D else (m.mirrorFrame p 1 r.frame).arrive p r.frame
  | .port o => (m.mirrorFrame p 1 r.frame).queueFrame o p r.stomped r.frame.detour r.frame

/-- A frame's reception begun, or ended at once when it has no data flits. -/
def Mach.frameStart (m : Mach) (p : Nat) (r : RxFrame) : Mach :=
  if r.frame.len = 0 then m.frameWhole p r
  else
    let v := m.port p
    m.setPort p { v with rx := some r }

/-- A header that Table 05-7 lets start a frame: refused (R131), beyond its credit (R143), or routed (R150, R151, R188). -/
def Mach.headerIn (m : Mach) (p : Nat) (bs : List Byte) : Mach :=
  let f := decodeHeader bs
  match m.takeCredit p f with
  | (false, m) => m.protocolError p
  | (true, m) =>
    let drop : RxFrame := ⟨f, 0, false, .drop⟩
    if headerRefused f bs then
      let m := m.bumpPort p 0x0E
      let m := if f.cls = 2 then (m.bump 0x70C0 8).sendFrame (m.respFrame f stTargetDead 0 0 []) else m
      m.frameStart p { drop with frame := { f with len := min f.len 64 } }
    else
      match m.routeFrame f p with
      | .here => m.frameStart p ⟨f, 0, false, .here⟩
      | .port o d =>
        match m.roomFor o p f with
        | (true, m) => m.frameStart p ⟨{ f with detour := d }, 0, false, .port o⟩
        | (false, m) => m.frameStart p drop
      | _ => (m.unreachable f p).frameStart p drop

/-- HEADER_FLIT (R130, Table 05-7). -/
def Mach.rowHeaderFlit (m : Mach) (p : Nat) (bs : List Byte) : Mach :=
  m.numbered p fun m =>
    let f := decodeHeader bs
    let v := m.port p
    let preempts := f.cls = 0 ∧ f.len ≤ 1
    match v.rx, v.suspended with
    | some r, none =>
      if r.frame.cls ≠ 0 ∧ preempts then
        ((m.setPort p { v with rx := none, suspended := some r }).bumpPort p 9).headerIn p bs
      else m.protocolError p
    | some _, some _ => m.protocolError p
    | none, some _ => if preempts then m.headerIn p bs else m.protocolError p
    | none, none => m.headerIn p bs

/-- A data flit of a frame in reception (Table 05-7): counted toward LENGTH; a suspended frame resumes. -/
def Mach.dataIn (m : Mach) (p : Nat) (bs : List Byte) (stomp : Bool) : Mach :=
  m.numbered p fun m =>
    let v := m.port p
    let step (r : RxFrame) (susp : Option RxFrame) : Mach :=
      let r := { r with
        got := r.got + 1, stomped := r.stomped || stomp
        frame := { r.frame with payload := r.frame.payload ++ slice bs 0 64 } }
      if r.got = r.frame.len then (m.setPort p { v with rx := none, suspended := susp }).frameWhole p r
      else m.setPort p { v with rx := some r, suspended := susp }
    match v.rx, v.suspended with
    | some r, susp => step r susp
    | none, some r => step r none
    | none, none => m.protocolError p

/-- DATA_FLIT (R139). -/
def Mach.rowDataFlit (m : Mach) (p : Nat) (bs : List Byte) : Mach := m.dataIn p bs false
/-- STOMP_FLIT (R158): a data flit whose content is void. -/
def Mach.rowStompFlit (m : Mach) (p : Nat) : Mach := m.dataIn p (zeros 64) true
/-- IDLE_FLIT (R129): an IDLE flit changes no frame's state. -/
def Mach.rowIdleFlit (m : Mach) (_p : Nat) : Mach := m

/-- RETRY sent by the receiver of a port, or RECOVERY once the retry limit's worth has been sent (R135, R136). -/
def Mach.sendRetry (m : Mach) (p : Nat) : Mach :=
  let v := m.port p
  if m.reg 0x4020 1 0 ≤ v.retries then m.enterRecovery p
  else
    let n := (v.retryNum + 1) % 256
    let first := if v.retries = 0 then v.efn else v.errEfn
    ((m.setPort p { v with retryNum := n, awaiting := true, retries := v.retries + 1, errEfn := first }).bumpPort p 4).emit
      (.retry p v.efn n)

/-- SLOT_IN_ERROR (R128, R135), with the codewords that the FEC of the port's lanes has corrected and has found uncorrectable
since the last such slot. -/
def Mach.rowSlotInError (m : Mach) (p corrected uncorrectable : Nat) : Mach :=
  let m := if p < m.dies then (m.bumpBy 0x7050 7 p corrected).bumpBy 0x7050 8 p uncorrectable else m
  if [6, 7, 8, 9].contains (m.pState p) then
    let m := m.bumpPort p 3
    if (m.port p).awaiting then m else m.sendRetry p
  else m

/-- RESEND_INTERVAL_EXPIRY (R135): no REPLAY_START has come. -/
def Mach.rowResendIntervalExpiry (m : Mach) (p : Nat) : Mach :=
  if [6, 7, 8, 9].contains (m.pState p) ∧ (m.port p).awaiting then m.sendRetry p else m

/-- REPLAY_START_FLIT (R135): taken when it carries EFN and the retry number. -/
def Mach.rowReplayStartFlit (m : Mach) (p first num : Nat) : Mach :=
  let v := m.port p
  if m.numberedState p ∧ v.awaiting ∧ first = v.efn ∧ num = v.retryNum then m.setPort p { v with awaiting := false } else m

/-! ## Transmission (R133-R138, R187) -/

/-- ACK_FLIT (R133, R137): flits up to ACKFN freed, credit limits raised, the round trip measured. -/
def Mach.rowAckFlit (m : Mach) (p ackfn : Nat) (limits : List Nat) : Mach :=
  if !m.numberedState p then m else
  let v := m.port p
  let done (s : SentFrame) : Bool := decide ((ackfn + 65536 - (s.first + s.frame.frame.len)) % 65536 < 32768)
  let newly := v.unacked.filter done
  let inFlight := (v.nextNum + 65536 - v.ackedTo) % 65536
  let acked := if (ackfn + 1 + 65536 - v.ackedTo) % 65536 ≤ inFlight then (ackfn + 1) % 65536 else v.ackedTo
  let m := m.setPort p { v with unacked := v.unacked.filter (!done ·), ackedTo := acked, limit := limits.take 6 }
  match newly.getLast? with
  | some s => m.setReg 0x4011 0x0A p ((m.now - s.time) * 5 / 4)
  | none => m

/-- R135: the frames of a replay buffer that hold flits from EFN on, in their first order, each with the flits of it that go
before EFN. -/
def replayOf (efn : Nat) (sent : List SentFrame) : List (Nat × RFrame) :=
  sent.filterMap fun s =>
    let d := (efn + 65536 - s.first) % 65536
    let skip := if d < 32768 then d else 0
    if skip ≤ s.frame.frame.len then some (skip, s.frame.frame) else none

/-- The flits of a replay buffer from EFN on sent again. -/
def Mach.resend (m : Mach) (p efn : Nat) : Mach :=
  (replayOf efn (m.port p).unacked).foldl (fun m x => m.emit (.resent p x.1 x.2)) m

/-- RETRY_FLIT (R135): answered with REPLAY_START and the flits from EFN on; one outside the replay buffer is a protocol
error (R143). -/
def Mach.rowRetryFlit (m : Mach) (p efn num : Nat) : Mach :=
  let v := m.port p
  if !m.numberedState p || v.lastAnswered == some num then m else
  let held := (v.nextNum + 65536 - v.ackedTo) % 65536
  let back := (efn + 65536 - v.ackedTo) % 65536
  if held ≤ back then m.protocolError p
  else
    (((m.setPort p { v with lastAnswered := some num }).bumpBy 0x7050 5 p (held - back)).emit (.replayStart p efn num)).resend p efn

/-- ACK_INTERVAL_EXPIRY (R133): the receiver's ACK. -/
def Mach.rowAckIntervalExpiry (m : Mach) (p : Nat) : Mach :=
  if [6, 7, 8, 9].contains (m.pState p) then
    let v := m.port p
    m.emit (.ack p (if v.accepted then (v.efn + 65535) % 65536 else 0xFFFF) v.rxLimit)
  else m

/-- KEEPALIVE_EXPIRY (R133). -/
def Mach.rowKeepaliveExpiry (m : Mach) (p : Nat) : Mach := m.enterRecovery p

/-- 17_telemetry.md R477: the visit of a port's eyes starts again at the lowest lane in use. -/
def Mach.restartEyes (m : Mach) (p : Nat) : Mach := { m with tele := { m.tele with eyeLane := tdel m.tele.eyeLane p } }

/-- FAST_RETRAIN_DONE (R136, R144): the port returns to the state it left and replay starts from the receiver's EFN;
frames that it does not carry in that state are routed afresh. -/
def Mach.rowFastRetrainDone (m : Mach) (p : Nat) : Mach :=
  if m.pState p = 10 then
    let v := m.port p
    ((m.setPort p { v with awaiting := false, retries := 0 }).restartEyes p |>.setPState p v.left).requeue p
  else m

/-- RECOVERY_BOUND_EXPIRY (R136): the link is lost when no flit has been accepted at the EFN of the first error. -/
def Mach.rowRecoveryBoundExpiry (m : Mach) (p : Nat) : Mach :=
  let v := m.port p
  if m.pState p = 10 ∨ ([6, 7, 8, 9].contains (m.pState p) ∧ 0 < v.retries ∧ v.efn = v.errEfn) then m.portLost p 5 true else m

/-- Whether a frame may leave a port now: the state carries it, its credit and the replay buffer hold it whole. -/
def Mach.maySendFrame (m : Mach) (p : Nat) (q : QFrame) : Bool :=
  let v := m.port p
  let f := q.frame
  let n := f.len + 1
  let i := 2 * f.cls + f.vc
  let credit := (v.limit.getD i 0 + 65536 - v.sent.getD i 0) % 65536
  (m.pState p == 7 || (f.control && [6, 8, 9].contains (m.pState p))) &&
  decide ((v.nextNum + 65536 - v.ackedTo) % 65536 + n ≤ 32768) &&
  (decide (3 ≤ f.cls) || (decide (n ≤ credit) && decide (credit < 32768)))

/-- R187: the score of a waiting frame: its age by its class's weight. -/
def Mach.frameScore (m : Mach) (q : QFrame) : Nat := (m.now - q.since) * m.reg 0x4201 (0x0A + q.frame.cls) 0

/-- R186, R187: the frame a port sends next: URGENT first; otherwise the head of a queue with the greatest score, the
lower input among equals. -/
def Mach.nextFrame (m : Mach) (p : Nat) : Option QFrame :=
  let qs := (m.port p).queue
  let head (q : QFrame) : Bool :=
    qs.find? (fun x => x.input == q.input && x.frame.cls == q.frame.cls && x.frame.vc == q.frame.vc) == some q
  let ok := qs.filter fun q => head q && m.maySendFrame p q
  match ok.find? fun q => q.frame.cls == 0 with
  | some q => some q
  | none =>
    let best := ((ok.map m.frameScore).max?).getD 0
    minBy (fun q => q.input) (ok.filter fun q => m.frameScore q == best)

/-- FRAME_TRANSMIT_START (R130, R134, R137, R138, R187): the next frame sent whole, kept until acknowledged. -/
def Mach.rowFrameTransmitStart (m : Mach) (p : Nat) : Mach :=
  match m.nextFrame p with
  | none => m
  | some q =>
    let (f, m) := m.stampBeacon p { q.frame with hops := q.frame.hops + 1 }
    let v := m.port p
    let n := f.len + 1
    let i := 2 * f.cls + f.vc
    let m := m.setPort p { v with
      queue := v.queue.erase q
      unacked := v.unacked ++ [⟨v.nextNum, { q with frame := f }, m.now⟩]
      nextNum := (v.nextNum + n) % 65536
      sent := if 3 ≤ f.cls then v.sent else v.sent.set i ((v.sent.getD i 0 + n) % 65536) }
    let m := (m.bumpBy 0x7050 1 p n).emit (.frame p f)
    (m.releaseCredit q.input q.frame).mirrorFrame p 2 f

/-! ## Training (R140-R144) -/

/-- LANE_SIGNAL_DETECTED: at least 8 lane pairs; a port whose module is unsuitable stays (cause 12). -/
def Mach.rowLaneSignalDetected (m : Mach) (p : Nat) : Mach :=
  if m.pState p = 2 ∧ m.reg 0x4011 8 p ≠ 12 then m.setPState p 3 else m

/-- DETECT_TIMEOUT: cause 1, the notice once. -/
def Mach.rowDetectTimeout (m : Mach) (p : Nat) : Mach :=
  if m.pState p = 2 then
    let v := m.port p
    let m := if m.reg 0x4011 8 p = 12 then m else m.setCause p 1
    if v.signalNoticed then m
    else (m.setPort p { v with signalNoticed := true }).notice 0x8050 [byteOf p, 2, 2, byteOf (m.reg 0x4011 8 p)]
  else m

/-- EQUALISE_DONE. -/
def Mach.rowEqualiseDone (m : Mach) (p : Nat) : Mach := if m.pState p = 3 then m.setPState p 4 else m
/-- EQUALISE_TIMEOUT: cause 2. -/
def Mach.rowEqualiseTimeout (m : Mach) (p : Nat) : Mach := if m.pState p = 3 then (m.setCause p 2).setPState p 2 else m

/-- A HELLO sent (Table 05-4). -/
def Mach.sendHello (m : Mach) (p : Nat) : Mach :=
  m.emit (.hello p m.node m.dies (m.reg 0x4000 1 0) (m.reg 0x4010 3 p) (m.reg 0x4011 3 p))

/-- ALIGN_DONE (R140): lanes straight or reversed, `inverted` corrected, `good` locked; any other order fails with cause 3. -/
def Mach.rowAlignDone (m : Mach) (p : Nat) (correctable reversed : Bool) (inverted good : Nat) : Mach :=
  if m.pState p ≠ 4 then m
  else if !correctable then (m.setCause p 3).setPState p 2
  else
    let m := ((m.setReg 0x4011 4 p (b2n reversed)).setReg 0x4011 5 p (inverted % 2 ^ 32)).setReg 0x4011 3 p (good % 2 ^ 32)
    (m.setPState p 5).sendHello p

/-- R141: the width agreed: the largest allowed width for which an aligned group of lanes is wholly usable. -/
def agreeWidth (allowed lanes : Nat) : Nat :=
  let whole (w : Nat) : Bool := (List.range (32 / w)).any fun g => bits lanes (g * w + w - 1) (g * w) == 2 ^ w - 1
  if bit allowed 2 && whole 32 then 32 else if bit allowed 1 && whole 16 then 16 else if bit allowed 0 && whole 8 then 8 else 0

/-- A port's width set; a change raises notice 0x8051. -/
def Mach.setWidth (m : Mach) (p w : Nat) : Mach :=
  let old := m.reg 0x4011 2 p
  let m := m.setReg 0x4011 2 p w
  if old = w then m else (m.restartEyes p).notice 0x8051 [byteOf p, byteOf old, byteOf w, byteOf (m.reg 0x4011 8 p)]

/-- HELLO_FLIT (R141, R142): the width agreed and the peer checked; flit numbering starts, and the port goes on to DIGEST,
an edge port, which has no digests, to the state they would lead to. In RECOVERY the width is agreed again. -/
def Mach.rowHelloFlit (m : Mach) (p node port widths lanes : Nat) : Mach :=
  let s := m.pState p
  if s ≠ 5 ∧ s ≠ 10 then m else
  let usable := Nat.land lanes (m.reg 0x4011 3 p)
  let w := agreeWidth (Nat.land widths (m.reg 0x4010 3 p)) usable
  let m := (m.setReg 0x4011 6 p node).setReg 0x4011 7 p port
  if s = 10 then (if w = 0 then m else (m.setReg 0x4011 3 p usable).setWidth p w)
  else if w = 0 then (m.setCause p 4).setPState p 2
  else
    let v := m.port p
    let m := (m.setReg 0x4011 3 p usable).setWidth p w
    let m := m.setPort p { Port.fresh with numbered := true, fromLost := v.fromLost, queue := v.queue }
    if m.reg 0x4010 7 p = 1 ∧ (m.torusPort p ∨ m.expressPort p) ∧ m.peerOf p ≠ (node, port) then
      ((m.setCause p 7).setPState p 8).notice 0x8052 [byteOf p, byteOf s, 8, 7]
    else if m.edgePort p then m.setPState p (if v.fromLost then 9 else 7)
    else (m.setPState p 6).sendDigest p false

/-- HELLO_TIMEOUT: cause 11. -/
def Mach.rowHelloTimeout (m : Mach) (p : Nat) : Mach := if m.pState p = 5 then (m.setCause p 11).setPState p 2 else m
/-- DIGEST_STATE_TIMEOUT: cause 8. -/
def Mach.rowDigestStateTimeout (m : Mach) (p : Nat) : Mach := if m.pState p = 6 then m.quarantine p else m
/-- DIGEST_FLIT (R356). -/
def Mach.rowDigestFlit (m : Mach) (p : Nat) (bs : List Byte) : Mach := m.digestIn p (slice bs 0 62)

/-- LANE_LOCK_LOSS (R141): the lane is no longer good; one in use drops the link into RECOVERY. -/
def Mach.rowLaneLockLoss (m : Mach) (p lane : Nat) : Mach :=
  if lane < 32 ∧ bit (m.reg 0x4011 3 p) lane then
    (m.setReg 0x4011 3 p (setBit (m.reg 0x4011 3 p) lane false)).enterRecovery p
  else m

/-- AUTO_RESTORE_EXPIRY: LOST for 1 s with auto restore, the die ACTIVE. -/
def Mach.rowAutoRestoreExpiry (m : Mach) (p : Nat) : Mach :=
  if m.pState p = 11 ∧ m.reg 0x4010 6 p = 1 ∧ m.dieActive p ∧ !(m.portHall p).drainAct then m.setPState p 2 else m

/-! ## The Steward's commands (R144, R153, R159) -/

/-- R159: a port drains toward a state: no new frames, those not yet begun routed afresh. A port that has not trained
goes there at once. -/
def Mach.drainPort (m : Mach) (p to' : Nat) : Mach :=
  if m.numberedState p then
    let v := m.port p
    (m.setPort p { v with drainTo := some to' }).requeue p
  else m.setPState p to'

/-- The end of a drain. -/
def Mach.drained (m : Mach) (p to' : Nat) : Mach :=
  let v := m.port p
  ((m.setReg 0x4011 2 p 0).setPort p { Port.fresh with fromLost := v.fromLost, signalNoticed := v.signalNoticed }).setPState p to'

/-- PORT_ENABLE: 0x4010.02 written to 1: the lanes of a DISABLED port powered, its die ACTIVE. -/
def Mach.rowPortEnable (m : Mach) (s : Src) : Mach :=
  m.dictWrite s 0x4010 2 fun m =>
    let p := m.rowOf s.q 0x4010 2
    let m := m.setReg 0x4010 2 p 1
    let m := m.setPortHall p { m.portHall p with drainAct := false }
    .ok (if m.pState p = 1 ∧ m.dieActive p ∧ !m.offPort p then m.setPState p 2 else m)

/-- A port disabled: drained, cause 9. -/
def Mach.disablePort (m : Mach) (p : Nat) : Mach :=
  let m := (m.setReg 0x4010 2 p 0).setCause p 9
  if m.pState p = 0 ∨ m.pState p = 1 then m else m.drainPort p 1

/-- PORT_DISABLE: 0x4010.02 written to 0. -/
def Mach.rowPortDisable (m : Mach) (s : Src) : Mach :=
  m.dictWrite s 0x4010 2 fun m => .ok (m.disablePort (m.rowOf s.q 0x4010 2))

/-- PORT_FAST_RETRAIN_REQUEST: 0x4010.04 written to 1. -/
def Mach.rowPortFastRetrain (m : Mach) (s : Src) : Mach :=
  m.dictWrite s 0x4010 4 fun m =>
    let p := m.rowOf s.q 0x4010 4
    if m.pState p = 7 then .ok (m.enterRecovery p) else .error abBusy

/-- PORT_FULL_RETRAIN_REQUEST: 0x4010.04 written to 2. -/
def Mach.rowPortFullRetrain (m : Mach) (s : Src) : Mach :=
  m.dictWrite s 0x4010 4 fun m =>
    let p := m.rowOf s.q 0x4010 4
    if m.pState p = 7 then .ok (m.drainPort p 3) else .error abBusy

/-- PORT_DRAIN_DONE: every flit acknowledged. -/
def Mach.rowPortDrainDone (m : Mach) (p : Nat) : Mach :=
  match (m.port p).drainTo with
  | some t => if (m.port p).unacked = [] then m.drained p t else m
  | none => m

/-- PORT_DRAIN_BOUND_EXPIRY (R159): frames not acknowledged are treated by R157. -/
def Mach.rowPortDrainBoundExpiry (m : Mach) (p : Nat) : Mach :=
  match (m.port p).drainTo with
  | some t =>
    let v := m.port p
    let m := v.unacked.foldl (fun m s => m.lostFrame p s.frame) m
    let m := v.suspended.elim m (m.stompRx p)
    let m := v.rx.elim m (m.stompRx p)
    m.drained p t
  | none => m

/-- PORT_RELEASE: 0x4010.05: RESTORED to ACTIVE. -/
def Mach.rowPortRelease (m : Mach) (s : Src) : Mach :=
  m.dictWrite s 0x4010 5 fun m =>
    let p := m.rowOf s.q 0x4010 5
    if m.pState p = 9 then
      let v := m.port p
      .ok ((m.setPort p { v with fromLost := false }).setPState p 7)
    else .error abBusy

/-- A value staged in a requester's set, replacing the one under the same entry and row (R396). -/
def Mach.stagePut (m : Mach) (q : Requester) (idx sub row : Nat) (v : DVal) : Mach :=
  let s := m.req q
  m.setReq q { s with stage :=
    (s.stage.filter fun x => !(x.index == idx && x.sub == sub && x.row == row)) ++ [⟨idx, sub, row, v⟩] }

/-- R149: whether the source of a frame to a node takes an express link. -/
def Mach.takesExpress (m : Mach) (t : Nat) : Bool :=
  (m.expressPort 6 || m.expressPort 7) &&
  decide (1 + m.hopCount (m.opposite m.node) t < m.hopCount m.node t)

/-- GENERATE_ROUTES (R153): the route table of the staging set filled from the topology. -/
def Mach.rowGenerateRoutes (m : Mach) (s : Src) : Mach :=
  m.dictWrite s 0x4100 5 fun m =>
    .ok ((List.range 512).foldl (fun m t =>
      let (src, tr, ok) := if t = m.node then (8, 8, 1)
        else if m.torusNode t then (if m.takesExpress t then 9 else m.dorPort m.node t, m.dorPort m.node t, 1)
        else (15, 15, 0)
      ((m.stagePut s.q 0x4100 2 t (.num src)).stagePut s.q 0x4100 3 t (.num tr)).stagePut s.q 0x4100 4 t (.num ok)) m)

end Sys2Proof.Machine
end

