-- ==== Sys2Proof/Machine/HostRows.lean ====
section
/-! DEFINITION. The commands of the host ports (04_host_ports.md): CXL.mem, back-invalidation responses, doorbells,
configuration and BAR accesses, link events, path loss and its sweep. -/

namespace Sys2Proof.Machine

/-! ## CXL.mem (R112-R117, R121) -/

/-- HOST_CXL_MEM_READ: a CXL.mem read of a line, served or answered poisoned (R112). -/
def Mach.rowHostCxlMemRead (m : Mach) (link ld hpa : Nat) (ask : HostAsk) (tag : Nat) : Mach :=
  if m.linkState link ≠ 4 then m else
  let m := m.mirrorHost link 1
  match m.hostDpa link ld hpa 64 with
  | none => (m.hostRefuse link ld hpa).emit (.memData link ld tag .poison)
  | some dpa => m.hostAccess ⟨link, ld, tag, lineOf dpa, ask, 0, none⟩

/-- A CXL.mem write within a line, applied or discarded (R112). -/
def Mach.hostWrite (m : Mach) (link ld hpa : Nat) (bs : List Byte) (tag : Nat) : Mach :=
  match m.hostDpa link ld hpa bs.length with
  | none => (m.hostRefuse link ld hpa).emit (.memDone link ld tag)
  | some dpa => m.hostAccess ⟨link, ld, tag, lineOf dpa, .current, dpa % 64, some bs⟩

/-- HOST_CXL_MEM_WRITE. -/
def Mach.rowHostCxlMemWrite (m : Mach) (link ld hpa : Nat) (bs : List Byte) (tag : Nat) : Mach :=
  if m.linkState link ≠ 4 then m else (m.mirrorHost link 1).hostWrite link ld hpa bs tag

/-- The DPA of a write-back from the bound path that holds its line in E or M; the grant set apart, for the line was
granted when it was asked for. -/
def Mach.heldDpa (m : Mach) (link ld hpa : Nat) : Option Nat :=
  match m.ld? link ld with
  | none => none
  | some l => if l.bind ≠ .bound then none else
    match l.decode hpa with
    | none => none
    | some dpa =>
      if (m.hostLines (link / 2) (lineOf dpa)).any fun h => h.link == link && h.st ≠ .S && h.lds == [ld] then some dpa
      else none

/-- HOST_WRITEBACK: a whole line written back by a host. From the holder it is the line's data, the data of the snoop
when one is outstanding (R115, R116); otherwise an ordinary write, counted (R121). `keep` is what the host still
holds: nothing, a shared copy, or the line as before. -/
def Mach.rowHostWriteback (m : Mach) (link ld hpa : Nat) (bs : List Byte) (keep : HostAsk) (tag : Nat) : Mach :=
  if m.linkState link ≠ 4 then m else
  let m := m.mirrorHost link 1
  let die := link / 2
  match m.heldDpa link ld hpa with
  | some dpa =>
    let line := lineOf dpa
    let m := m.markReloc line
    let m := if m.biOpen die line then m else
      match keep with
      | .current => m.freeHostLine die link line
      | .shared => m.putHostLine ⟨line, link, .S, [ld]⟩
      | _ => m
    if m.homeOf (line * 64) = die then
      match m.mediaWrite ⟨die, line * 64, bs, .host link ld tag⟩ with
      | (m, .done) => m.answerHostWrite link ld tag 0
      | (m, .failed st) => m.answerHostWrite link ld tag st
      | (m, .waiting) => m
    else (m.putCached die line ⟨.M, .data bs⟩).answerHostWrite link ld tag 0
  | none => (m.bump 0x7040 0x0B).hostWrite link ld hpa bs tag

/-- BIRSP: a host's BIRsp for a line: the filter entry freed, or left in S after a BISnpData (Table 04-6), and what
waited for it goes on. -/
def Mach.rowBirsp (m : Mach) (link line : Nat) : Mach :=
  match m.host.bis.find? fun b => b.link == link && b.line == line with
  | none => m
  | some b =>
    let m := m.mirrorHost link 1
    let m := if b.inv then m.freeHostLine b.die link line else
      (m.hostLines b.die line).foldl (fun m h => if h.link = link then m.putHostLine { h with st := .S } else m) m
    ({ m with host := { m.host with bis := m.host.bis.erase b } } : Mach).biComplete b

/-- BI_BOUND_EXPIRY: the holding paths of an unanswered BISnp are lost and the snoop completes (R117, R119). -/
def Mach.rowBiBoundExpiry (m : Mach) (link line : Nat) : Mach :=
  match m.host.bis.find? fun b => b.link == link && b.line == line with
  | none => m
  | some b =>
    let held := ((m.hostLines b.die line).filter fun h => h.link == link).flatMap (·.lds)
    let m := held.foldl (fun m ld => m.losePath link ld 6) m
    if b ∈ m.host.bis then
      let m := m.settleLine b.die line
      ({ m with host := { m.host with bis := m.host.bis.erase b } } : Mach).biComplete b
    else m

/-- HOST_SNOOP: a host-to-device snoop: the KZ8 holds no host line, so RspIHitI (R102). -/
def Mach.rowHostSnoop (m : Mach) (link : Nat) : Mach :=
  if m.linkState link ≠ 4 then m else (m.mirrorHost link 1).emit (.snoopAnswer link)

/-! ## Doorbells (R105) -/

/-- Whether a doorbell write qualifies: 32 bits at the page's first word, reserved bits 0, the LD bound, its identity
the queue's owner, the queue's die ACTIVE; and with IDE required, the LD's stream active (R122). -/
def Mach.doorbellOk (m : Mach) (link ld off width value : Nat) : Bool :=
  let q := off / 4096
  width == 4 && off % 4096 == 0 && decide (value < 65536) && decide (q < 512 * m.dies) && m.dieActive (queueDie q) &&
  (m.ld? link ld).any fun l => l.bind == .bound && m.qOwner q == l.ident && (!m.ideRequired (link / 2) || l.ideMem)

/-- DOORBELL_WRITE: a write of BAR 0/1. -/
def Mach.rowDoorbellWrite (m : Mach) (link ld off width value : Nat) : Mach :=
  if m.doorbellOk link ld off width value then m.doorbell (off / 4096) value else m.bump 0x7040 4

/-! ## Configuration and BARs (R103, R104, R107) -/

/-- An LD's MSI-X control register: enable, function mask, table size less 1. -/
def Mach.msixControl (m : Mach) (link ld : Nat) (l : Ld) : Nat :=
  b2n l.msixEnable * 32768 + b2n l.functionMask * 16384 + (m.vectors link ld - 1)

/-- A configuration register read. -/
def Mach.cfgRead (m : Mach) (link ld : Nat) (l : Ld) (r : CfgReg) : Nat :=
  match r with
  | .vendor => m.reg 0x1000 6 0
  | .device => m.reg 0x1000 7 0
  | .classCode => 0x050210
  | .cacheEnable => b2n l.cacheEnable
  | .msixControl => m.msixControl link ld l
  | .completionTimeout => l.timeoutRange
  | .unsupported => 0
  | .other n => tgetD l.config n 0

/-- A configuration register written: identity and unsupported controls are read-only. -/
def Mach.cfgWrite (m : Mach) (link ld : Nat) (l : Ld) (r : CfgReg) (v : Nat) : Mach :=
  match r with
  | .vendor => m
  | .device => m
  | .classCode => m
  | .unsupported => m
  | .cacheEnable => m.setLd link ld { l with cacheEnable := bit v 0 }
  | .msixControl => (m.setLd link ld { l with msixEnable := bit v 15, functionMask := bit v 14 }).msixUnmask link ld
  | .completionTimeout => m.setLd link ld { l with timeoutRange := v % 16 }
  | .other n => m.setLd link ld { l with config := tput l.config n (v % 2 ^ 32) }

/-- A 32-bit word of an MSI-X table entry. -/
def MsixEntry.word (e : MsixEntry) (k : Nat) : Nat :=
  match k with
  | 0 => e.addr % 2 ^ 32
  | 1 => e.addr / 2 ^ 32
  | 2 => e.data
  | _ => b2n e.masked

/-- A 32-bit word of an MSI-X table entry written. -/
def MsixEntry.setWord (e : MsixEntry) (k v : Nat) : MsixEntry :=
  match k with
  | 0 => { e with addr := e.addr / 2 ^ 32 * 2 ^ 32 + v % 2 ^ 32 }
  | 1 => { e with addr := v % 2 ^ 32 * 2 ^ 32 + e.addr % 2 ^ 32 }
  | 2 => { e with data := v % 2 ^ 32 }
  | _ => { e with masked := bit v 0 }

/-- An MSI-X entry out of reset: masked. -/
def MsixEntry.reset : MsixEntry := ⟨0, 0, true, false⟩

/-- A 32-bit word of BAR 2/3 (Table 04-9). -/
def Mirror.word (r : Mirror) (off : Nat) : Nat :=
  if off < 0x1000 then fld r.req off 4
  else if off < 0x2000 then fld r.resp (off - 0x1000) 4
  else if off = 0x2000 then b2n r.busy * 2 + b2n r.done * 4
  else if off = 0x2004 then r.reqLen
  else if off = 0x2008 then r.respLen
  else if off = 0x200C then r.vector
  else 0

/-- A 32-bit word of a BAR read: BAR 0/1 reads 0 (R105), BAR 4/5 beyond the LD's vectors reads 0 (R107). -/
def Mach.barRead (m : Mach) (link ld : Nat) (l : Ld) (bar off : Nat) : Nat :=
  if bar = 2 then l.mirror.word off
  else if bar = 4 then
    if off < 0x8000 then
      if off / 16 < m.vectors link ld then (tgetD l.msix (off / 16) MsixEntry.reset).word (off % 16 / 4) else 0
    else if off < 0x8100 then
      let base := (off - 0x8000) / 4 * 32
      sumL ((List.range 32).map fun i =>
        if base + i < m.vectors link ld ∧ (tgetD l.msix (base + i) MsixEntry.reset).pending then 2 ^ i else 0)
    else 0
  else 0

/-- A 32-bit word of BAR 2/3 or 4/5 written, where no command of its own stands for it: the mirror's DONE and
completion vector, the MSI-X table. -/
def Mach.barWrite (m : Mach) (link ld : Nat) (l : Ld) (bar off v : Nat) : Mach :=
  if bar = 2 then
    if off = 0x2000 ∧ bit v 2 then m.setLd link ld { l with mirror := { l.mirror with done := false } }
    else if off = 0x200C then m.setLd link ld { l with mirror := { l.mirror with vector := v % 2048 } }
    else m
  else if bar = 4 ∧ off < 0x8000 ∧ off / 16 < m.vectors link ld then
    let e := (tgetD l.msix (off / 16) MsixEntry.reset).setWord (off % 16 / 4) v
    (m.setLd link ld { l with msix := tput l.msix (off / 16) e }).msixUnmask link ld
  else m

/-- The CDAT's one range: from the first to the end of the last byte of the bound identity's grant set; length 0 stands
for no range (R103). -/
def Mach.cdatRange (m : Mach) (l : Ld) : Nat × Nat :=
  if l.bind ≠ .bound then (0, 0) else
  match minBy Prod.fst (m.grants l.ident) with
  | none => (0, 0)
  | some lo => (lo.1, (m.grants l.ident).foldl (fun h r => max h (r.1 + r.2)) 0 - lo.1)

/-- HOST_CONFIG_ACCESS: until the device is first ready a configuration request is answered with Configuration Request Retry
Status (15_clocks_power.md R428). -/
def Mach.rowHostConfigAccess (m : Mach) (link ld : Nat) (a : HostAcc) : Mach :=
  match m.ld? link ld with
  | none => m
  | some l =>
    if m.linkState link < 3 ∨ 4 < m.linkState link then m else
    let early := decide (m.clk.stage < 11)
    match a with
    | .cfgRead r => m.emit (if early then .configRetry link ld else .config link ld (m.cfgRead link ld l r))
    | .cfgWrite r v => if early then m.emit (.configRetry link ld) else m.cfgWrite link ld l r v
    | .barRead bar off => m.emit (.config link ld (m.barRead link ld l bar off))
    | .barWrite bar off v => m.barWrite link ld l bar off v
    | .cdat => m.emit (.cdat link ld (m.cdatRange l).1 (m.cdatRange l).2)

/-- MIRROR_BUFFER_WRITE: bytes of the request buffer, or its length at offset 0x2004; dropped and counted while BUSY
(R123). -/
def Mach.rowMirrorBufferWrite (m : Mach) (link ld off : Nat) (bs : List Byte) : Mach :=
  match m.ld? link ld with
  | none => m
  | some l =>
    if l.mirror.busy then m.bump 0x7040 0x0A
    else if off = 0x2004 then m.setLd link ld { l with mirror := { l.mirror with reqLen := leNat bs % 8192 } }
    else if off + bs.length ≤ 4096 then
      m.setLd link ld { l with mirror := { l.mirror with req := patch (slice l.mirror.req 0 4096) off bs } }
    else m

/-- IDE_KEY_MANAGEMENT: keys set inside the LD's SPDM session make its streams active (R122). -/
def Mach.rowIdeKeyManagement (m : Mach) (link ld : Nat) (io mem : Bool) : Mach :=
  match m.ld? link ld with
  | none => m
  | some l => if l.bind ≠ .bound then m else m.setLd link ld { l with ideIo := l.ideIo || io, ideMem := l.ideMem || mem }

/-! ## Links and paths (R118-R122, Table 04-4) -/

/-- Whether a link exists: its die ACTIVE, its port enabled, and the second link only of a split port. -/
def Mach.linkExists (m : Mach) (link : Nat) : Bool :=
  m.dieActive (link / 2) && m.reg 0x3400 5 (link / 2) == 1 && (link % 2 == 0 || m.reg 0x3400 2 (link / 2) == 1)

/-- HOST_LINK_TRAINED: a link trained at a rate (coded as 0x3400.04) and a width: its enabled LDs enter UNBOUND. A
width of x2 or x1 is held in Detect and counted (Table 04-1). -/
def Mach.rowHostLinkTrained (m : Mach) (link rate lanes : Nat) : Mach :=
  let port := link / 2
  if !m.linkExists link ∨ (m.linkState link ≠ 1 ∧ m.linkState link ≠ 2) ∨ m.reg 0x3400 4 port < rate then m
  else if lanes = 1 ∨ lanes = 2 then m.bump 0x7040 1
  else if !(lanes = 4 ∨ lanes = 8 ∨ (lanes = 16 ∧ m.reg 0x3400 2 port = 0)) then m
  else
    let m := (m.setLinkState link (if 5 ≤ rate then 4 else 3)).setReg 0x3401 (0x11 + link) 0 (rate * 256 + lanes)
    (List.range (m.reg 0x3400 3 port)).foldl (fun m ld =>
      match m.ld? link ld with
      | some l => if l.bind = .down then m.setLd link ld { l with bind := .unbound } else m
      | none => m.setLd link ld { Ld.reset with bind := .unbound }) m

/-- HOST_LINK_DOWN. -/
def Mach.rowHostLinkDown (m : Mach) (link : Nat) : Mach :=
  if m.linkState link < 2 ∨ 4 < m.linkState link then m else m.linkLost link 0 1

/-- PERST_L_ASSERT: every link of the port is lost. -/
def Mach.rowPerstAssert (m : Mach) (port : Nat) : Mach :=
  [2 * port, 2 * port + 1].foldl (fun m l => if m.linkState l = 0 ∨ m.linkState l = 5 then m else m.linkLost l 1 1) m

/-- PERST_L_RELEASE: the port's links begin training. -/
def Mach.rowPerstRelease (m : Mach) (port : Nat) : Mach :=
  [2 * port, 2 * port + 1].foldl (fun m l =>
    if m.linkExists l ∧ m.linkState l = 1 then m.setLinkState l 2 else m) m

/-- The end of a session in progress on an LD (Table 04-4). -/
def Mach.endBinding (m : Mach) (link ld : Nat) : Mach :=
  match m.ld? link ld with
  | some l => if l.bind = .authenticating then m.setLd link ld { l with bind := .unbound } else m
  | none => m

/-- HOT_RESET of a link. -/
def Mach.rowHotReset (m : Mach) (link : Nat) : Mach :=
  if m.linkState link < 3 ∨ 4 < m.linkState link then m else
  (m.ldsOf link).foldl (fun m ld =>
    let m := (m.losePath link ld 2).endBinding link ld
    (m.ld? link ld).elim m fun l => m.setLd link ld l.linkReset) m

/-- FUNCTION_LEVEL_RESET of an LD. -/
def Mach.rowFunctionLevelReset (m : Mach) (link ld : Nat) : Mach :=
  let m := (m.losePath link ld 3).endBinding link ld
  (m.ld? link ld).elim m fun l => m.setLd link ld l.functionReset

/-- IDE_INTEGRITY_FAILURE: the link leaves secure state; the LD's path is lost (R122). -/
def Mach.rowIdeIntegrityFailure (m : Mach) (link ld : Nat) : Mach :=
  let m := (m.ldsOf link).foldl (fun m d =>
    (m.ld? link d).elim m fun l => m.setLd link d { l with ideIo := false, ideMem := false }) m
  m.losePath link ld 11

/-- Every path of an identity lost. -/
def Mach.loseIdentity (m : Mach) (ident event : Nat) : Mach :=
  (m.paths ident).foldl (fun m p => m.losePath (p / 16) (p % 16) event) m

/-- UNBIND_IDENTITY: a Steward write of 0x3432.01 (R118). -/
def Mach.unbindIdentity (q : Requester) (ident : Nat) (m : Mach) : Except Nat Mach :=
  if 64 ≤ ident then .error abRange else .ok ((m.loseIdentity ident 8).auditReq q 0x30 [byteOf ident])

/-- UNBIND_IDENTITY. -/
def Mach.rowUnbindIdentity (m : Mach) (s : Src) (ident : Nat) : Mach :=
  m.dictWrite s 0x3432 1 (Mach.unbindIdentity s.q ident)

/-- PATH_TEARDOWN_SWEEP_DONE: every remaining entry of a lost path settled, notice 0x8041, the LD UNBOUND or DOWN
(Table 04-7). -/
def Mach.rowPathTeardownSweepDone (m : Mach) (link ld : Nat) : Mach :=
  match m.ld? link ld with
  | none => m
  | some l =>
    if l.bind ≠ .teardown then m else
    let die := link / 2
    let m := ((m.hostFilter die).filter fun h => h.link == link && h.lds.contains ld).foldl (fun m h =>
      ((m.hostLines die h.line).find? (·.link == link)).elim m fun h => m.settleEntry h ld) m
    let m := { m with host := { m.host with lost := remove m.host.lost (link * 16 + ld) } }
    let up := m.linkState link == 3 || m.linkState link == 4
    let m := m.setLd link ld { l with bind := if up then .unbound else .down }
    let m := m.notice 0x8041 (byteOf l.ident :: leBytes 2 (pathCode link ld) ++ [byteOf l.lossEvent, byteOf (m.reg 0x3431 2 l.ident)])
    m.audit 0x30 [byteOf l.ident, byteOf link, byteOf ld, byteOf l.lossEvent]

/-- AUTHENTICATION_BOUND_EXPIRY: the LD returns to UNBOUND. -/
def Mach.rowAuthenticationBoundExpiry (m : Mach) (link ld : Nat) : Mach := m.endBinding link ld

end Sys2Proof.Machine
end

