-- ==== Sys2Proof/Machine/XlateRows.lean ====
section
/-! DEFINITION. The commands of translation (02_address_spaces.md): decoders, ASTs, walks, reads through host paths,
invalidation, MIGRATE and ADVISE. -/

namespace Sys2Proof.Machine

/-! ## Decoders (R39, R40) -/

/-- HDM_DECODER_COMMIT: decoder k of an LD committed with HPA base, size, DPA base, granularity 2^g and ways; "Error Not
Committed" when it fails (R39, R40, R101). -/
def Mach.rowHdmDecoderCommit (m : Mach) (link ld k base size dpa g ways : Nat) : Mach :=
  match m.ld? link ld with
  | none => m
  | some l =>
    let w := Nat.log2 ways
    let ok := m.linkState link == 4 && [1, 2, 4, 8].contains ways && decide (8 ≤ g) && decide (g ≤ 14) &&
      (size == 0 || (l.bind == .bound && m.inGrant l.ident dpa (size / 2 ^ w)))
    let d : Decoder := { base := base, size := size, dpa := dpa, gran := g, ways := w, committed := ok }
    if 4 ≤ k ∨ m.linkState link < 3 then m else
    (m.setLd link ld { l with decoders := l.decoders.set k d }).emit (.decoder link ld k ok)

/-! ## ASTs (R41, R42) -/

/-- The counts of ENABLED ASTs (0x3600.02, .03). -/
def Mach.countAsts (m : Mach) : Mach :=
  (m.setReg 0x3600 2 0 (m.xl.asts.filter fun (p : Nat × Ast) => p.2.kind == 1).length).setReg 0x3600 3 0 m.xl.asts.length

/-- R42: the selected AST enabled with its pending fields. -/
def Mach.enableAst (q : Requester) (m : Mach) : Except Nat Mach :=
  let a := m.sel q 0x3610 1
  let t : Ast := ⟨m.reg 0x3610 2 a, m.reg 0x3610 3 a, m.reg 0x3610 4 a, m.reg 0x3610 5 a, m.reg 0x3610 6 a⟩
  let shared := m.xl.asts.filter fun (p : Nat × Ast) => p.2.kind == 1
  if (m.ast? a).isSome then .error abBusy
  else if !(t.kind == 1 && t.root == 0) && !m.inGrant t.owner t.root 4096 then .error abRange
  else if !m.inGrant t.owner t.keys 128 then .error abRange
  else if t.kind = 1 ∧ (64 ≤ shared.length ∨ shared.any fun (p : Nat × Ast) => p.2.binding == t.binding) then .error abRange
  else .ok ((({ m with xl := { m.xl with asts := tput m.xl.asts a t } } : Mach).setReg 0x3610 7 a 1).countAsts)

/-- AST_ENABLE. -/
def Mach.rowAstEnable (m : Mach) (s : Src) : Mach := m.dictWrite s 0x3610 7 (Mach.enableAst s.q)

/-- R42: the selected AST disabled unless commands are in flight. -/
def Mach.disableAst (q : Requester) (m : Mach) : Except Nat Mach :=
  let a := m.sel q 0x3610 1
  if m.astInFlight a ≠ 0 then .error abBusy
  else .ok ((({ m with xl := { m.xl with asts := tdel m.xl.asts a } } : Mach).setReg 0x3610 7 a 0).countAsts)

/-- AST_DISABLE. -/
def Mach.rowAstDisable (m : Mach) (s : Src) : Mach := m.dictWrite s 0x3610 7 (Mach.disableAst s.q)

/-- R42: the pending owner of the selected AST: the writer's identity in band, the value written over Cairn. -/
def Mach.astOwner (q : Requester) (v : Nat) (m : Mach) : Except Nat Mach :=
  let a := m.sel q 0x3610 1
  match m.identOf q with
  | some i => if (m.ast? a).isSome then .error abBusy else .ok (m.setReg 0x3610 3 a i)
  | none =>
    if 64 ≤ v ∧ v ≠ 0xFF then .error abRange
    else if (m.ast? a).isSome then .error abBusy
    else .ok (m.setReg 0x3610 3 a v)

/-- AST_OWNER_WRITE. -/
def Mach.rowAstOwnerWrite (m : Mach) (s : Src) (v : Nat) : Mach := m.dictWrite s 0x3610 3 (Mach.astOwner s.q v)

/-! ## Walks (R43, R51) -/

/-- PREFETCH_WALK_START: a walk ahead of a stream command, when fewer than 24 of the die's 32 slots are busy. -/
def Mach.rowPrefetchWalkStart (m : Mach) (die ast dva : Nat) : Mach :=
  match m.ast? ast with
  | none => m
  | some a =>
    let busy := (m.xl.walks.filter fun w => w.die == die).length
    if !m.dieActive die ∨ 24 ≤ busy ∨ 2 ^ 48 ≤ dva ∨ a.root = 0 ∨ (m.cachedLeaf die engOther ast dva).isSome ∨
        (a.kind = 1 ∧ 2 ^ 46 ≤ dva) then m
    else ({ m with xl := { m.xl with walks := m.xl.walks ++ [⟨die, ast, dva, 4, a.root, none⟩] } } : Mach).bump 0x7020 3

/-- A walk replaced, or ended. -/
def Mach.setWalk (m : Mach) (w : Walk) (w' : Option Walk) : Mach :=
  { m with xl := { m.xl with walks := m.xl.walks.flatMap fun x => if x = w then w'.toList else [x] } }

/-- A prefetch walk that meets a fault or a failed read: its result dropped and counted. -/
def Mach.dropWalk (m : Mach) (w : Walk) : Mach := (m.setWalk w none).bump 0x7020 4

/-- A leaf put into a die's translation cache alone. -/
def Mach.cacheDieLeaf (m : Mach) (die : Nat) (l : Leaf) : Mach :=
  let c := tgetD m.xl.dieCache die []
  { m with xl := { m.xl with dieCache := tput m.xl.dieCache die (lru 16384 (l :: c.erase l)) } }

/-- WALK_STEP_DONE: the entry a prefetch walk reads has come: it goes on to the next level, ends at the leaf, or is
dropped. A table line that a host holds is recalled first. -/
def Mach.rowWalkStepDone (m : Mach) (die ast dva : Nat) : Mach :=
  match m.xl.walks.find? fun w => w.die == die && w.ast == ast && w.dva == dva with
  | none => m
  | some w =>
    match m.ast? ast with
    | none => m.dropWalk w
    | some a =>
      match m.readEntry die a.owner (w.table + 8 * levelIndex w.level dva) with
      | (.wait, m) => m
      | (.cause _, m) => m.dropWalk w
      | (.status _, m) => m.dropWalk w
      | (.entry e, m) =>
        if entryCause w.level e ≠ 0 then m.dropWalk w
        else if bit e 1 then
          let sh := levelShift w.level
          let l : Leaf := ⟨ast, dva / 2 ^ sh * 2 ^ sh, 2 ^ sh, e⟩
          match m.leafTarget a l dva .read with
          | .error 8 => ((m.setWalk w none).cacheDieLeaf die l).leafAdvice a.owner e l.base dva
          | .error _ => m.dropWalk w
          | .ok _ => ((m.setWalk w none).cacheDieLeaf die l).leafAdvice a.owner e l.base dva
        else
          (if 2 ≤ w.level then m.cacheTable die ast w.level dva e else m).setWalk w
            (some { w with level := w.level - 1, table := nextTable e })

/-! ## Reads through host paths (R45) -/

/-- HOST_CXLIO_COMPLETION: the completion of a command's CXL.io read of an HPA. -/
def Mach.rowHostCxlioCompletion (m : Mach) (slot hpa : Nat) (c : Completion) : Mach :=
  m.endFetch slot hpa false (match c with | .data bs => .ok bs | _ => .failed stBusErr)

/-- HOST_COMPLETION_TIMEOUT: no completion within the range the host has programmed. -/
def Mach.rowHostCompletionTimeout (m : Mach) (slot hpa : Nat) : Mach := m.endFetch slot hpa false (.failed stBusErr)

/-! ## Invalidation (R48, R52-R54) -/

/-- ATS_INVALIDATION_REQUEST: cached translations of the matching host-shared AST in an address range dropped; with no
match it completes at once (R48). -/
def Mach.rowAtsInvalidationRequest (m : Mach) (link ld : Nat) (pasid : Option Nat) (lo n : Nat) : Mach :=
  let hit (p : Nat × Ast) : Bool := p.2.kind == 1 && bindingPath p.2.binding == link * 16 + ld &&
    (match pasid with
      | none => bit p.2.binding 31
      | some x => !bit p.2.binding 31 && bits p.2.binding 19 0 == x)
  match m.xl.asts.find? hit with
  | none => m.emit (.atsCompletion link ld)
  | some p => (m.dropRange p.1 lo n).invalStart (some p.1) (.ats link ld)

/-- R52: the write that starts an invalidation; it is answered at its acknowledgement. -/
def Mach.invalWrite (m : Mach) (s : Src) (sub : Nat) (ast : Option Nat) : Mach :=
  if !m.reaches s.q then m else
  let m := m.bump 0x7110 1
  match m.kept? s.q s.txn with
  | some r => ((m.bump 0x7110 3).bump 0x7110 2).emit (.response s.q r)
  | none =>
    match m.gate s.q 0x3630 sub with
    | some a => m.answerWrite s 0x3630 sub a
    | none =>
      let foreign := match m.identOf s.q, ast with
        | some i, some a => !hasRole (m.roles s.q) .steward && m.reg 0x3610 3 a != i
        | _, _ => false
      if foreign then m.answerWrite s 0x3630 sub abRole
      else if ast.any (4096 ≤ ·) then m.answerWrite s 0x3630 sub abRange
      else ((m.dropAst ast).dropCopies ast).invalStart ast (.dict s)

/-- INVALIDATE_AST: a write of 0x3630.01. -/
def Mach.rowInvalidateAst (m : Mach) (s : Src) (ast : Nat) : Mach := m.invalWrite s 1 (some ast)

/-- INVALIDATE_ALL: a write of 1 to 0x3630.02. -/
def Mach.rowInvalidateAll (m : Mach) (s : Src) : Mach := m.invalWrite s 2 none

/-- INVALIDATION_ACK: every invalidation of an AST, or of all, with nothing outstanding is acknowledged, the oldest
first (R52, R54). -/
def Mach.rowInvalidationAck (m : Mach) (ast : Option Nat) : Mach :=
  match m.xl.invals.find? fun i => i.ast == ast with
  | some i => if i.slots = [] then m.invalAck i else m
  | none => m

/-- INVALIDATION_BOUND_EXPIRY: commands with accesses still outstanding end with TIMEOUT, and the invalidation is
acknowledged (R53). -/
def Mach.rowInvalidationBoundExpiry (m : Mach) (ast : Option Nat) : Mach :=
  match m.xl.invals.find? fun i => i.ast == ast with
  | none => m
  | some i =>
    let m := i.slots.foldl (fun m k => (m.failCmd k stTimeout).invalProgress k) m
    m.invalAck { i with slots := [] }

/-! ## MIGRATE (R59-R61) and ADVISE (R62, R63) -/

/-- The common form checks of a MIGRATE or ADVISE range. -/
def rangeOk (d : List Byte) : Bool :=
  let dva := fld d 24 8
  let n := fld d 32 8
  dva % 65536 == 0 && n % 65536 == 0 && decide (65536 ≤ n) && decide (n ≤ 2 ^ 40) && decide (dva + n ≤ 2 ^ 48)

/-- A leaf of MIGRATE's walk: where its entry lies, the entry, and log2 of its page. -/
structure MigLeaf where
  at' : Nat
  entry : Nat
  shift : Nat
  deriving DecidableEq, Repr

/-- A walk of MIGRATE from a level down: every entry read from the tables themselves, so that its place is known. -/
def Mach.walkPlace : Nat → Mach → Nat → Nat → Nat → Nat → Except WalkEnd MigLeaf × Mach
  | 0, m, _, _, _, _ => (.error (.cause 4 1), m)
  | level + 1, m, die, owner, table, dva =>
    let lv := level + 1
    let dpa := table + 8 * levelIndex lv dva
    match m.readEntry die owner dpa with
    | (.wait, m) => (.error .wait, m)
    | (.cause c, m) => (.error (.cause c lv), m)
    | (.status st, m) => (.error (.status st), m)
    | (.entry e, m) =>
      let c := entryCause lv e
      if c ≠ 0 then (.error (.cause c lv), m)
      else if bit e 1 then (.ok ⟨dpa, e, levelShift lv⟩, m)
      else Mach.walkPlace level m die owner (nextTable e) dva

/-- The leaves of a range in order, each with the DVA it starts at. -/
def Mach.migLeaves : Nat → Mach → Nat → Nat → Nat → Nat → Nat → List (Nat × MigLeaf) → Except WalkEnd (List (Nat × MigLeaf)) × Mach
  | 0, m, _, _, _, _, _, acc => (.ok acc, m)
  | fuel + 1, m, die, owner, root, dva, stop, acc =>
    if stop ≤ dva then (.ok acc, m) else
    match Mach.walkPlace 4 m die owner root dva with
    | (.error w, m) => (.error w, m)
    | (.ok l, m) => Mach.migLeaves fuel m die owner root (dva / 2 ^ l.shift * 2 ^ l.shift + 2 ^ l.shift) stop (acc ++ [(dva, l)])

/-- R60 phase 1: what is wrong with the leaves of a range, none when nothing is. -/
def migBad (toHost : Bool) (dva stop dest : Nat) (ls : List (Nat × MigLeaf)) : Bool :=
  ls.any (fun (p : Nat × MigLeaf) =>
    bits p.2.entry 3 2 != (if toHost then 0 else 2) || p.1 % 2 ^ p.2.shift != 0 || decide (stop < p.1 + 2 ^ p.2.shift) ||
    (dest + (p.1 - dva)) % 2 ^ p.2.shift != 0)

/-- MIGRATE's first phase: the checks of R59 and R60, then the copy begins: writes to the range are held. -/
def Mach.rowMigrate (m : Mach) (slot : Nat) : Mach :=
  match m.cmd? slot with
  | none => m
  | some c =>
    if descOp c.desc ≠ 0x40 ∨ c.done ∨ m.xl.migrations.any (·.slot == slot) then m else
    let d := c.desc
    let die := slot / 1024
    let ast := fld d 16 2
    let toHost := fld d 18 1 == 1
    let port := fld d 19 1
    let dva := fld d 24 8
    let n := fld d 32 8
    let dest := fld d 40 8
    match m.ast? ast with
    | none => m.failCmd slot (badAst c.desc)
    | some a =>
      if !m.astOk c.queue ast then m.failCmd slot (badAst c.desc)
      else if a.kind = 1 then m.failCmd slot (badAst c.desc)
      else if 1 < fld d 18 1 ∨ (!toHost ∧ port ≠ 0) ∨ 7 < port ∨ fld d 20 4 ≠ 0 ∨ !rangeOk d ∨ dest % 65536 ≠ 0 ∨
          (if toHost then 2 ^ 52 else m.reg 0x3000 1 0) < dest + n ∨ !allZero (slice d 48 16) then m.failCmd slot stInvalDesc
      else
        let m := m.askChan slot 0xFF
        if !m.chanRunning slot then m else
        match Mach.migLeaves (n / 65536 + 1) m die a.owner a.root dva (dva + n) [] with
        | (.error .wait, m) => m
        | (.error (.cause 3 lv), m) => (m.xfault die ast dva 3 lv).failCmd slot stPoison
        | (.error (.status st), m) => m.failCmd slot st
        | (.error _, m) => m.failCmd slot stBadFormat
        | (.ok ls, m) =>
          if migBad toHost dva (dva + n) dest ls then m.failCmd slot stBadFormat
          else if !toHost ∧ !m.inGrant a.owner dest n then m.failCmd slot stPerm
          else if toHost ∧ !m.dieActive port then m.failCmd slot stFencedDie
          else if toHost ∧ (m.boundOn a.owner port).isNone then m.failCmd slot stPerm
          else
            let g : Migration := { slot, ast, toHost, port, dva, len := n, dest, held := []
                                   leaves := ls.map fun (p : Nat × MigLeaf) => (p.2.at', p.2.entry, 2 ^ p.2.shift) }
            ({ m with xl := { m.xl with migrations := m.xl.migrations ++ [g] } } : Mach).setCmd slot { c with started := true }

/-- The held writes of a migration released, to wherever its leaves now lead (R60). -/
def Mach.migRelease (m : Mach) (g : Migration) : Mach :=
  let m := { m with xl := { m.xl with migrations := m.xl.migrations.filter fun x => x.slot ≠ g.slot } }
  g.held.foldl (fun m w => if (m.cmd? w.1).isSome then m.storeDva w.1 engOther g.ast w.2.1 w.2.2 else m) m

/-- A migration that fails: held writes go to the source, no leaf is rewritten. -/
def Mach.migFail (m : Mach) (g : Migration) (st : Nat) : Mach := (m.migRelease g).failCmd g.slot st

/-- The source of a migration read, page piece by page piece. -/
def Mach.migRead : Nat → Mach → Migration → Nat → Nat → List Byte → Got → Got × Mach
  | 0, m, _, _, _, acc, got => (match got with | .ok _ => .ok acc | g => g, m)
  | fuel + 1, m, g, dva, n, acc, got =>
    if n = 0 then (match got with | .ok _ => .ok acc | x => x, m) else
    match m.loadDva g.slot engOther g.ast dva (min n 4096) with
    | (.ok bs, m) => Mach.migRead fuel m g (dva + 4096) (n - min n 4096) (acc ++ bs) got
    | (.wait, m) => Mach.migRead fuel m g (dva + 4096) (n - min n 4096) acc (match got with | .ok _ => .wait | x => x)
    | (.failed st, m) => (.failed st, m)

/-- R60 phase 3: the leaves rewritten, keeping their permissions and advice. -/
def Mach.migSwap (m : Mach) (g : Migration) : Mach :=
  (g.leaves.foldl (fun (r : Nat × Mach) (l : Nat × Nat × Nat) =>
    let keep := bits l.2.1 9 4 * 16 + 3
    let e := (g.dest + r.1) + keep + (if g.toHost then 2 * 4 + g.port * 1024 else 0)
    (r.1 + l.2.2, (r.2.storeDpa (g.slot / 1024) l.1 (leBytes 8 e) .none).2)) (0, m)).2

/-- The last byte of the range: where TO_HOST's flush read goes (R332). -/
def Migration.flushAt (g : Migration) : Nat := (g.dest + g.len - 1) / 4 * 4

/-- MIGRATE_COPY_DONE: the copy made, for TO_HOST flushed; the leaves rewritten; the AST invalidated; held writes
released to the new location; the command ends with OK (R60). Where the copy still waits for data from outside it
asks for it and ends when the row comes again. -/
def Mach.rowMigrateCopyDone (m : Mach) (slot : Nat) : Mach :=
  match m.xl.migrations.find? (·.slot == slot) with
  | none => m
  | some g =>
    match m.cmd? slot with
    | none => { m with xl := { m.xl with migrations := m.xl.migrations.erase g } }
    | some c =>
      if c.fail.isSome then m.migFail g (c.fail.getD 0) else if !m.chanRunning slot then m else
      match Mach.migRead (g.len / 4096 + 1) m g g.dva g.len [] (.ok []) with
      | (.wait, m) => m
      | (.failed st, m) => m.migFail g st
      | (.ok bs, m) =>
        let swap (m : Mach) : Mach :=
          let m := m.migSwap g
          let m := ((m.dropAst (some g.ast)).dropCopies (some g.ast)).invalStart (some g.ast) .silent
          (m.migRelease g).finish slot 0 0
        let leaf := g.leaves.head?
        if g.toHost then
          match (m.ast? g.ast).bind fun a => m.boundOn a.owner g.port with
          | none => m.migFail g stPerm
          | some p =>
            let m := if c.progress = 1 then m else
              (m.emit (.cxlWrite (p / 16) (p % 16) g.dest bs)).setCmd slot { c with progress := 1 }
            match m.fetchHost slot p g.flushAt 0 with
            | (.wait, m) => m
            | (.failed st, m) => m.migFail g st
            | (.ok _, m) => swap m
        else match m.recall g.dest g.len true with
          | some m => m
          | none =>
            match m.storeDpa (slot / 1024) g.dest bs (.cmd slot) with
            | (0, m) => match leaf.bind fun l => m.recall l.1 8 true with
              | some m => m
              | none => swap m
            | (st, m) => m.migFail g st

/-- The leaf at a DVA of an AST for ADVISE: its entry, base and page size; none where V = 0. -/
def Mach.adviseLeaf (m : Mach) (die ast : Nat) (a : Ast) (dva : Nat) : Except WalkEnd Leaf × Mach :=
  m.findLeaf die engOther ast a dva

/-- The granules of a LOCAL leaf given a hint, one after another. -/
def Mach.hintGranules : Nat → Mach → Nat → Nat → Nat → Except Nat Mach
  | 0, m, _, _, _ => .ok m
  | n + 1, m, g, hint, owner =>
    match m.recordHint g hint owner with
    | .ok m => Mach.hintGranules n m (g + 1) hint owner
    | .error st => .error st

/-- ADVISE's walk of a range: hints recorded for LOCAL leaves, other leaves and V = 0 skipped (R63). `none` stands for a
wait on a host's copy of a table line. -/
def Mach.adviseFrom : Nat → Mach → Nat → Nat → Ast → Nat → Nat → Nat → Option Nat × Bool × Mach
  | 0, m, _, _, _, _, _, _ => (none, false, m)
  | fuel + 1, m, die, ast, a, dva, stop, hint =>
    if stop ≤ dva then (none, false, m)
    else if a.kind = 1 ∧ 2 ^ 46 ≤ dva then
      if 2 ^ 47 ≤ dva then (some (causeStatus 12), false, m.xfault die ast dva 12 0) else
      match m.fixedPart a dva with
      | .ok (.local dpa _) =>
        match m.recordHint (granuleOf dpa) hint a.owner with
        | .ok m => Mach.adviseFrom fuel m die ast a (dva + 65536) stop hint
        | .error st => (some st, false, m)
      | _ => Mach.adviseFrom fuel m die ast a (dva + 65536) stop hint
    else if a.kind = 1 ∧ a.root = 0 then Mach.adviseFrom fuel m die ast a (dva + 65536) stop hint
    else
      match m.adviseLeaf die ast a dva with
      | (.error (.cause 4 _), m) => Mach.adviseFrom fuel m die ast a (dva + 65536) stop hint
      | (.error (.cause c lv), m) => (some (causeStatus c), false, m.xfault die ast dva c lv)
      | (.error (.status st), m) => (some st, false, m)
      | (.error _, m) => (none, true, m)
      | (.ok l, m) =>
        let next := l.base + l.size
        if bits l.entry 3 2 ≠ 0 then Mach.adviseFrom fuel m die ast a next stop hint
        else
          let lo := bits l.entry 58 16 * 65536
          if m.reg 0x3000 1 0 < lo + l.size then (some (causeStatus 7), false, m.xfault die ast dva 7 0)
          else if !m.inGrant a.owner lo l.size then (some (causeStatus 9), false, m.xfault die ast dva 9 0)
          else match Mach.hintGranules (l.size / 65536) m (granuleOf lo) hint a.owner with
            | .ok m => Mach.adviseFrom fuel m die ast a next stop hint
            | .error st => (some st, false, m)

/-- ADVISE (R62, R63). -/
def Mach.rowAdvise (m : Mach) (slot : Nat) : Mach :=
  match m.cmd? slot with
  | none => m
  | some c =>
    if descOp c.desc ≠ 0x41 ∨ c.done then m else
    let d := c.desc
    let ast := fld d 16 2
    match m.ast? ast with
    | none => m.failCmd slot (badAst c.desc)
    | some a =>
      if !m.astOk c.queue ast then m.failCmd slot (badAst c.desc)
      else if 4 < fld d 18 1 ∨ !allZero (slice d 19 5) ∨ !rangeOk d ∨ !allZero (slice d 40 24) then m.failCmd slot stInvalDesc
      else match Mach.adviseFrom (fld d 32 8 / 65536 + 1) m (slot / 1024) ast a (fld d 24 8) (fld d 24 8 + fld d 32 8) (fld d 18 1) with
        | (_, true, m) => m
        | (some st, false, m) => m.failCmd slot st
        | (none, false, m) => m.finish slot 0 0

end Sys2Proof.Machine
end

