-- ==== Sys2Proof/Machine/CragOps.lean ====
section
/-! DEFINITION. Operations of the crags (08_crag_arrays.md R229-R248): scratchpad bytes, the crag allocator, element
formats, tile instructions as words, ridge-coded blocks, crag faults. -/

namespace Sys2Proof.Machine

/-! ## Crags and their scratchpads -/

/-- The key of a crag. -/
def cragKey (die c : Nat) : Nat := die * 40 + c
/-- Bytes of a scratchpad. -/
def scratchSize : Nat := 2097152

/-- A crag. -/
def Mach.crag (m : Mach) (k : Nat) : Crag := tgetD m.eng.crag.crags k Crag.reset
/-- A crag replaced; one as it is out of reset is not listed. -/
def Mach.setCrag (m : Mach) (k : Nat) (c : Crag) : Mach :=
  { m with eng := { m.eng with crag := { m.eng.crag with
    crags := if c = Crag.reset then tdel m.eng.crag.crags k else tput m.eng.crag.crags k c } } }

/-- n bytes of a scratchpad. -/
def Crag.read (c : Crag) (off n : Nat) : List Byte := Memory.readAll c.scratch off n
/-- Bytes of a scratchpad replaced. -/
def Crag.write (c : Crag) (off : Nat) (bs : List Byte) : Crag := { c with scratch := Memory.writeAll c.scratch off bs }
/-- A scratchpad zeroed. -/
def Crag.zeroed (c : Crag) : Crag := { c with scratch := [] }

/-- Bytes an engine writes into a scratchpad, at its input of the Pass arbiter. -/
def Mach.scratchWrite (m : Mach) (die c input slot off : Nat) (bs : List Byte) : Mach :=
  let m := m.touchBanks die c input slot off bs.length
  m.setCrag (cragKey die c) ((m.crag (cragKey die c)).write off bs)

/-- Bytes an engine reads from a scratchpad. -/
def Mach.scratchRead (m : Mach) (die c input slot off n : Nat) : List Byte × Mach :=
  let m := m.touchBanks die c input slot off n
  ((m.crag (cragKey die c)).read off n, m)

/-- A scratchpad zeroed and counted (R243). -/
def Mach.zeroScratch (m : Mach) (k : Nat) : Mach := (m.setCrag k (m.crag k).zeroed).bump 0x7080 8

/-! ## The crag allocator (R242) -/

/-- A request at the allocator of a die, made once. -/
def Mach.askCrags (m : Mach) (slot die first count : Nat) : Mach :=
  let r : CragReq := ⟨slot, die, first, count⟩
  if r ∈ m.eng.crag.reqs ∨ (tget m.eng.crag.granted slot).isSome then m
  else { m with eng := { m.eng with crag := { m.eng.crag with reqs := m.eng.crag.reqs ++ [r] } } }

/-- Whether a command holds the crags it asked for. -/
def Mach.hasCrags (m : Mach) (slot : Nat) : Bool := (tget m.eng.crag.granted slot).isSome

/-- The crags of a request. -/
def CragReq.keys (r : CragReq) : List Nat := (List.range r.count).map fun i => cragKey r.die (r.first + i)

/-- The crags a command holds. -/
def Mach.cragsOf (m : Mach) (slot : Nat) : List Nat := ((tget m.eng.crag.granted slot).map CragReq.keys).getD []

/-- Whether two requests name one crag. -/
def CragReq.meets (a b : CragReq) : Bool := a.die == b.die && overlaps a.first a.count b.first b.count

/-- R242: whether a waiting request can start: its crags free and none in reset, and no earlier waiting request naming any of
them. -/
def Mach.mayGrant (m : Mach) (r : CragReq) : Bool :=
  (r.keys.all fun k => (m.crag k).slot.isNone && !m.clk.engReset.contains (k / 40, 16 + k % 40)) &&
  !((m.eng.crag.reqs.takeWhile (· != r)).any fun e => e.meets r)

/-- The crags of a request given to it. -/
def Mach.grantCrags (m : Mach) (r : CragReq) : Mach :=
  let m := { m with eng := { m.eng with crag := { m.eng.crag with
    reqs := m.eng.crag.reqs.erase r, granted := tput m.eng.crag.granted r.slot r } } }
  r.keys.foldl (fun m k => m.setCrag k { m.crag k with slot := some r.slot, phase := .idle }) m

/-- R267: a crag taken for engine writes: zeroed when the previous command had another owner or confidential mode has
changed since; the command then counts as its previous one. -/
def Mach.takeCrag (m : Mach) (owner : Nat) (always : Bool) (k : Nat) : Mach :=
  let c := m.crag k
  let m := if always || c.lastOwner != owner || c.confChanged then m.zeroScratch k else m
  m.setCrag k { m.crag k with lastOwner := owner, confChanged := false }

/-- The crags of a command given back, and its waiting request taken away. -/
def Mach.releaseCrags (m : Mach) (slot : Nat) : Mach :=
  let m := (m.cragsOf slot).foldl (fun m k => m.setCrag k { m.crag k with slot := none, phase := .idle, asyncs := [] }) m
  { m with eng := { m.eng with crag := { m.eng.crag with
    reqs := m.eng.crag.reqs.filter fun r => r.slot ≠ slot
    granted := tdel m.eng.crag.granted slot
    optims := tdel m.eng.crag.optims slot } } }

/-! ## Formats (R230-R232) -/

/-- Bits of an element of a format code. -/
def fmtBits (f : Nat) : Nat := match f with | 0 => 4 | 1 => 4 | 2 => 8 | 3 => 8 | 4 => 8 | 5 => 16 | 6 => 16 | _ => 32

/-- The value of a code of a format; FP4's block scale apart. -/
def elemVal (f code : Nat) : FVal :=
  match f with
  | 0 => e2m1.decode code
  | 1 => intVal 4 code
  | 2 => e4m3.decode code
  | 3 => e5m2.decode code
  | 4 => intVal 8 code
  | 5 => bf16.decode code
  | 6 => fp16.decode code
  | _ => fp32.decode code

/-- The code of a format nearest a value (R232). -/
def elemCode (f : Nat) (v : FVal) : Nat :=
  match f with
  | 0 => e2m1.encode v
  | 1 => intCode 4 v
  | 2 => e4m3.encode v
  | 3 => e5m2.encode v
  | 4 => intCode 8 v
  | 5 => bf16.encode v
  | 6 => fp16.encode v
  | _ => fp32.encode v

/-- n element codes of a format packed in bytes. -/
def elemCodes (f n : Nat) (bs : List Byte) : List Nat :=
  (List.range n).map fun i =>
    if fmtBits f = 4 then (bs.getD (i / 2) 0).toNat / 16 ^ (i % 2) % 16 else fld bs (i * (fmtBits f / 8)) (fmtBits f / 8)

/-- 4-bit codes packed two to a byte. -/
def packNibbles : List Nat → List Byte
  | a :: b :: t => byteOf (a % 16 + 16 * (b % 16)) :: packNibbles t
  | [a] => [byteOf (a % 16)]
  | [] => []

/-- Element codes of a format as bytes. -/
def packCodes (f : Nat) (cs : List Nat) : List Byte :=
  if fmtBits f = 4 then packNibbles cs else cs.flatMap (leBytes (fmtBits f / 8))

/-- A value scaled by an E8M0 scale byte (R231). -/
def scaleVal (x : Nat) (v : FVal) : FVal :=
  if x = 255 then .nan else
  match v with
  | .fin neg k e => .fin neg k (e + x - 127)
  | v => v

/-- R232: the scale byte of a block of values to be written as FP4. -/
def fp4Scale (vs : List FVal) : Nat :=
  if vs.any (· == .nan) then 255
  else if vs.any fun v => v.abs == .inf false then 254
  else
    match (vs.filterMap fun v => match v with | .fin _ k e => if k = 0 then none else some (FVal.exponent k e) | _ => none) with
    | [] => 0
    | x :: xs => (127 + max (-127) (min 127 (xs.foldl max x - 2))).toNat

/-- R232: the codes of a block of values written as FP4 under a scale byte. -/
def fp4Codes (x : Nat) (vs : List FVal) : List Nat :=
  vs.map fun v => if x = 255 then 0 else e2m1.encode (match v with | .fin neg k e => .fin neg k (e + 127 - x) | v => v)

/-- The values of a row of K elements of a format; for FP4 with the two scale bytes given (R231, R233). -/
def rowVals (f n : Nat) (bs scales : List Byte) : List FVal :=
  let cs := elemCodes f n bs
  if f = 0 then
    (List.range n).map fun i => scaleVal ((scales.getD (i / 32) 0).toNat) (elemVal 0 (cs.getD i 0))
  else cs.map (elemVal f)

/-- K of R233 for a format. -/
def fmtK (f : Nat) : Nat := if fmtBits f = 4 then 64 else 32

/-- The exact sum of the products of two rows of values, added to a value. -/
def dotFrom (acc : FVal) : List FVal → List FVal → FVal
  | a :: as, b :: bs => dotFrom (acc.add (a.mul b)) as bs
  | _, _ => acc

/-! ## Tile instructions as words (R236, R237) -/

/-- A tile instruction (Table 08-5). -/
structure TileInstr where
  op : Nat
  s : Bool
  tok : Nat
  wait : Nat
  rsv : Nat
  a : Nat
  b : Nat
  c : Nat
  deriving DecidableEq, Repr

/-- The instruction in 16 bytes. -/
def tileDecode (bs : List Byte) : TileInstr :=
  let w := fld bs 12 4
  { op := bits w 31 24, s := bit w 23, tok := bits w 22 19, wait := bits w 18 3, rsv := bits w 2 0
    a := fld bs 0 4, b := fld bs 4 4, c := fld bs 8 4 }

/-- The bits an instruction's format uses, as masks of A, B and C (Tables 08-6, 08-7, 08-11); none for an opcode not in
Table 08-7. -/
def tileMasks (op : Nat) : Option (Nat × Nat × Nat) :=
  if op = 0x00 ∨ op = 0x01 then some (0, 0, 0)
  else if op = 0x02 then some (0, 0xFFFF, 0)
  else if op = 0x03 then some (0x7FF0, 0xFFF, 0)
  else if op = 0x04 then some (0x100F0, 0xFFFFFFFF, 0xFFF)
  else if op = 0x05 then some (1, 0, 0)
  else if 0x10 ≤ op ∧ op ≤ 0x1A then some (0x10FFF, 0xFFFFFFFF, 0)
  else if op = 0x20 ∨ op = 0x22 then some (0x1FFFFFFF, 0xFFFFF, 0xFFF)
  else if op = 0x21 then some (0x1FFFFFFF, 0x3FF, 0xF)
  else if op = 0x23 then some (0x1FFFFF, 0x1FFFFF, 0xFFFF)
  else if op = 0x24 then some (0x1FFFFF, 0xFFFFFFFF, 0xFFFF)
  else if 0x30 ≤ op ∧ op ≤ 0x34 then some (0x3FFFF, 0x1FFFFF, 0x3FFFFFFF)
  else if 0x40 ≤ op ∧ op ≤ 0x4E then some (0x1FFFFFFF, 0xFFFFFFFF, 0)
  else none

/-- Whether an instruction is asynchronous. -/
def tileAsync (op : Nat) : Bool := (decide (0x20 ≤ op) && decide (op ≤ 0x24)) || (decide (0x30 ≤ op) && decide (op ≤ 0x34))

/-- Bits of a word outside a mask. -/
def outside (w mask : Nat) : Bool := w - Nat.land w mask != 0

/-- R236, R237: reserved bits, the token fields, and field values that Table 08-6 rules out: fault code 1. -/
def tileBad (i : TileInstr) : Bool :=
  match tileMasks i.op with
  | none => true
  | some (ma, mb, mc) =>
    let fmt := bits i.a 12 9
    i.rsv != 0 || outside i.a ma || outside i.b mb || outside i.c mc || (i.tok != 0 && !i.s) || (i.s && !tileAsync i.op) ||
    (i.op == 0x03 && bits i.a 14 12 == 7) ||
    ((i.op == 0x20 || i.op == 0x22) && decide (i.c % 4096 < bits i.b 19 12 + 1)) ||
    (decide (0x30 ≤ i.op) && decide (i.op ≤ 0x34) && (i.a % 256 == 0 || decide (8 ≤ fmt) || (bits i.a 17 14 != 0 && fmt != 0))) ||
    ((i.op == 0x30 || i.op == 0x31) && fmt == 7) ||
    (i.op == 0x34 && fmt != 7) ||
    (i.op == 0x4C && decide (8 ≤ bits i.a 27 24)) || (i.op == 0x4D && decide (3 ≤ bits i.a 27 24))

/-- A 32-bit immediate sign-extended to 64 bits. -/
def sext32 (b : Nat) : Nat := if b < 2 ^ 31 then b else b + (2 ^ 64 - 2 ^ 32)

/-- A scalar register. -/
def Crag.s (c : Crag) (r : Nat) : Nat := tgetD c.sregs r 0
/-- A scalar register written. -/
def Crag.setS (c : Crag) (r v : Nat) : Crag := { c with sregs := tput c.sregs r (v % 2 ^ 64) }
/-- A vector register: 64 FP32 lanes. -/
def Crag.v (c : Crag) (r : Nat) : List Nat := tgetD c.vregs r (List.replicate 64 0)
/-- A vector register written. -/
def Crag.setV (c : Crag) (r : Nat) (v : List Nat) : Crag := { c with vregs := tput c.vregs r v }
/-- An accumulator row of an array: 32 FP32 values. -/
def Crag.accRow (c : Crag) (array row : Nat) : List Nat := tgetD c.acc (array * 512 + row) (List.replicate 32 0)
/-- An accumulator row written. -/
def Crag.setAcc (c : Crag) (array row : Nat) (v : List Nat) : Crag := { c with acc := tput c.acc (array * 512 + row) v }

/-- Whether a token is pending (R236). -/
def Crag.pending (c : Crag) (tok : Nat) : Bool := c.asyncs.any fun o => o.tok == some tok

/-- R240: the index after the instruction at pc, with the effect of every loop whose last it is. -/
def Crag.stepPc (c : Crag) : Crag :=
  let rec go : List LoopEntry → Nat × List LoopEntry
    | [] => (c.pc + 1, [])
    | l :: rest =>
      if l.last = c.pc then
        if 1 < l.left then (l.first, { l with left := l.left - 1 } :: rest) else go rest
      else (c.pc + 1, l :: rest)
  { c with pc := (go c.loops).1, loops := (go c.loops).2 }

/-- R240: a branch: it ends every loop whose body it leaves. -/
def Crag.branch (c : Crag) (t : Nat) : Crag :=
  { c with pc := t, loops := c.loops.dropWhile fun l => decide (t < l.first) || decide (l.last < t) }

/-! ## Faults (R254, R255) -/

/-- Table 08-13: the fault code of a status that a transfer or the program's read ends with. -/
def faultOf (status : Nat) : Nat :=
  if status = stPoison then 9 else if status = stLowerTierFail ∨ status = stStoreFull then 10 else 8

/-- DETAIL of a crag command (R244). -/
def cragDetail (crag code pc : Nat) : Nat := crag + code * 256 + pc * 65536

/-- R254, R255: a crag meets a fault: recorded, its command failed, every crag of the command stopped; TSTOREs and ACCRDs
in flight go on, other instructions in flight are abandoned. -/
def Mach.cragFault (m : Mach) (k code status : Nat) : Mach :=
  let c := m.crag k
  match c.slot with
  | none => m
  | some slot =>
    let q := ((m.cmd? slot).map (·.queue)).getD 0xFFFF
    let m := ((m.setReg 0x5010 1 0 (k / 40)).setReg 0x5010 2 0 (k % 40)).setReg 0x5010 3 0 code
    let m := ((m.setReg 0x5010 4 0 c.pc).setReg 0x5010 5 0 q).setReg 0x5010 7 0 m.now
    let m := (m.bump 0x7080 3).notice 0x8080 ([byteOf (k / 40), byteOf (k % 40), byteOf code, 0] ++ leBytes 2 q)
    let m := if code = 6 then m.bump 0x7080 6 else m
    let m := match m.cmd? slot with
      | some d => m.setCmd slot { d with
          fail := some (d.fail.getD status), done := true
          detail := if d.fail.isNone then cragDetail (k % 40) code c.pc else d.detail }
      | none => m
    let m := m.setReg 0x5010 6 0 (((m.cmd? slot).bind (·.fail)).getD status)
    (m.cragsOf slot).foldl (fun m k => m.setCrag k { m.crag k with
      phase := .stopped, asyncs := (m.crag k).asyncs.filter fun o => o.op == 0x22 || o.op == 0x33 }) m

/-- Whether every instruction in flight of a command's crags has settled. -/
def Mach.cragsSettled (m : Mach) (slot : Nat) : Bool := (m.cragsOf slot).all fun k => (m.crag k).asyncs.isEmpty

/-! ## Ridge-coded blocks (R245) -/

/-- Exponent bits of a block's KIND. -/
def ridgeEb (kind : Nat) : Nat := match kind with | 1 => 4 | 2 => 5 | 3 => 8 | _ => 5
/-- Mantissa bits of a block's KIND. -/
def ridgeMb (kind : Nat) : Nat := match kind with | 1 => 3 | 2 => 2 | 3 => 7 | _ => 10
/-- Bytes of an expanded element. -/
def ridgeBytes (kind : Nat) : Nat := if kind ≤ 2 then 1 else 2

/-- The stored size of a block whose header bytes are given; none when KIND or MODE is invalid. -/
def ridgeSize (h : List Byte) : Option Nat :=
  let kind := fld h 0 1 % 16
  let mode := fld h 0 1 / 16
  if kind < 1 ∨ 4 < kind ∨ 1 < mode then none
  else if mode = 1 then some (32 + 256 * ridgeBytes kind)
  else some ((32 + 32 * (1 + ridgeMb kind) + fld h 2 2 + 15) / 16 * 16)

/-- Code length of table entry i. -/
def ridgeLen (h : List Byte) (i : Nat) : Nat := fld h (4 + i / 2) 1 / 16 ^ (i % 2) % 16

/-- The canonical code table: entries as (length, code, exponent value), by length and then entry. -/
def ridgeTable (h : List Byte) : List (Nat × Nat × Nat) :=
  ((List.range 15).foldl (fun (r : Nat × List (Nat × Nat × Nat)) l0 =>
    let r := (List.range 16).foldl (fun (r : Nat × List (Nat × Nat × Nat)) i =>
      if ridgeLen h i = l0 + 1 then (r.1 + 1, r.2 ++ [(l0 + 1, r.1, fld h (12 + i) 1)]) else r) r
    (r.1 * 2, r.2)) (0, [])).2

/-- Bit p of a byte string, bit 0 of byte 0 first. -/
def streamBit (bs : List Byte) (p : Nat) : Nat := (bs.getD (p / 8) 0).toNat / 2 ^ (p % 8) % 2

/-- n bits of a byte string from bit p, least significant first. -/
def streamBits (bs : List Byte) (p : Nat) : Nat → Nat
  | 0 => 0
  | n + 1 => streamBit bs p + 2 * streamBits bs (p + 1) n

/-- One prefix code read from an exponent stream of nb bytes: its exponent value and the bits taken. -/
def ridgeCode (tab : List (Nat × Nat × Nat)) (es : List Byte) (nb : Nat) : Nat → Nat → Nat → Nat → Option (Nat × Nat)
  | 0, _, _, _ => none
  | fuel + 1, p, acc, l =>
    if 8 * nb ≤ p then none else
    let acc := acc * 2 + streamBit es p
    match tab.find? fun t => t.1 == l + 1 && t.2.1 == acc with
    | some t => some (t.2.2, p + 1)
    | none => ridgeCode tab es nb fuel (p + 1) acc (l + 1)

/-- The elements of a coded block. -/
def ridgeElems (kind : Nat) (tab : List (Nat × Nat × Nat)) (fs es : List Byte) (nb : Nat) : Nat → Nat → Nat → Option (List Byte × Nat)
  | 0, _, p => some ([], p)
  | n + 1, e, p =>
    match ridgeCode tab es nb 15 p 0 0 with
    | none => none
    | some (x, p) =>
      let mb := ridgeMb kind
      let f := streamBits fs ((1 + mb) * e) (1 + mb)
      let v := f / 2 ^ mb * 2 ^ (ridgeEb kind + mb) + x * 2 ^ mb + f % 2 ^ mb
      match ridgeElems kind tab fs es nb n (e + 1) p with
      | none => none
      | some (bs, p) => some (leBytes (ridgeBytes kind) v ++ bs, p)

/-- R245: a block of its stored size expanded to its 256 elements; none when it is invalid. -/
def ridgeExpand (b : List Byte) : Option (List Byte) :=
  let kind := fld b 0 1 % 16
  match ridgeSize b with
  | none => none
  | some _ =>
    if fld b 1 1 ≠ 0 then none
    else if fld b 0 1 / 16 = 1 then
      if allZero (slice b 2 30) then some (slice b 32 (256 * ridgeBytes kind)) else none
    else
      let w := 1 + ridgeMb kind
      let nb := fld b 2 2
      let kraft := sumL ((List.range 16).map fun i => if ridgeLen b i = 0 then 0 else 2 ^ (15 - ridgeLen b i))
      let badEntry := (List.range 16).any fun i =>
        if ridgeLen b i = 0 then fld b (12 + i) 1 != 0 else decide (2 ^ ridgeEb kind ≤ fld b (12 + i) 1)
      if fld b 28 4 ≠ 0 ∨ badEntry ∨ kraft = 0 ∨ 2 ^ 15 < kraft then none
      else
        let es := slice b (32 + 32 * w) nb
        match ridgeElems kind (ridgeTable b) (slice b 32 (32 * w)) es nb 256 0 0 with
        | none => none
        | some (out, p) =>
          if (p + 7) / 8 ≠ nb ∨ streamBits es p (8 * nb - p) ≠ 0 then none
          else if allZero (b.drop (32 + 32 * w + nb)) then some out else none

end Sys2Proof.Machine
end

