-- ==== Sys2Proof/Machine/CragRows.lean ====
section
/-! DEFINITION. The commands of the crags (08_crag_arrays.md): KERNEL and OPTIM from their descriptors to their records, the
crag allocator's grant, every tile instruction, and the end of an asynchronous one. -/

namespace Sys2Proof.Machine

/-! ## KERNEL (R241-R243) -/

/-- The form checks of a KERNEL descriptor (Table 08-8). -/
def kernelOk (d : List Byte) : Bool :=
  decide (1 ≤ fld d 18 1) && decide (fld d 18 1 ≤ 40) && decide (fld d 19 1 + fld d 18 1 ≤ 40) && decide (fld d 21 1 < 2) &&
  fld d 22 2 == 0 && fld d 24 8 % 64 == 0 && decide (fld d 24 8 < 2 ^ 48) && decide (16 ≤ fld d 32 4) &&
  decide (fld d 32 4 ≤ 65536) && fld d 32 4 % 16 == 0 && fld d 40 8 % 64 == 0 && decide (fld d 40 8 < 2 ^ 48) &&
  allZero (slice d 48 16)

/-- The die of a KERNEL's crags. -/
def kernelDie (slot : Nat) (d : List Byte) : Nat := if fld d 20 1 = 0xFF then slotDie slot else fld d 20 1

/-- KERNEL: its fields checked, its crags asked for. -/
def Mach.rowKernel (m : Mach) (slot : Nat) : Mach :=
  match m.cmd? slot with
  | none => m
  | some c =>
    if descOp c.desc ≠ 0x30 ∨ c.done ∨ m.hasCrags slot then m else
    let d := c.desc
    let die := kernelDie slot d
    if !m.astOk c.queue (fld d 16 2) then m.failCmd slot (badAst c.desc)
    else if !kernelOk d ∨ m.dies ≤ die then m.failCmd slot stInvalDesc
    else if !m.dieActive die then m.failCmd slot stFencedDie
    else m.askCrags slot die (fld d 19 1) (fld d 18 1)

/-- CRAG_GRANT: a waiting request gets its crags (R242). A crag taken for an engine's writes is zeroed by R267, for an
OPTIM always. -/
def Mach.rowCragGrant (m : Mach) (slot : Nat) : Mach :=
  match m.eng.crag.reqs.find? (·.slot == slot) with
  | none => m
  | some r =>
    if !m.mayGrant r then m else
    let m := m.grantCrags r
    match m.cmd? slot with
    | none => r.keys.foldl (fun m k => m.takeCrag 256 true k) m
    | some c =>
      let m := m.setCmd slot { c with started := true, progress := m.now }
      if descOp c.desc = 0x30 then m
      else r.keys.foldl (fun m k => m.takeCrag (m.qOwner c.queue) (descOp c.desc == 0x31) k) m

/-- A crag at the start of a KERNEL: index i of n, with its argument words (R243). -/
def Crag.start (c : Crag) (owner : Nat) (keep : Bool) (prog args : List Byte) (i n : Nat) : Crag :=
  { c with
    lastOwner := owner, confChanged := false, phase := .running, prog := prog, pc := 0
    sregs := ((List.range 8).map fun j => (j, fld args (8 * j) 8)) ++ [(14, i), (15, n)]
    vregs := [], acc := [], weights := [], asyncs := [], loops := []
    scratch := if keep then c.scratch else [] }

/-- PROGRAM_LOAD_DONE: the program and the argument block read, every crag's state set, the first instruction free to
issue (R243). -/
def Mach.rowProgramLoadDone (m : Mach) (slot : Nat) : Mach :=
  match m.cmd? slot, tget m.eng.crag.granted slot with
  | some c, some r =>
    let first := cragKey r.die r.first
    if descOp c.desc ≠ 0x30 ∨ c.done ∨ (m.crag first).phase ≠ .idle then m else
    let d := c.desc
    let ast := fld d 16 2
    let fail (m : Mach) (st : Nat) : Mach :=
      (m.setCrag first { m.crag first with pc := 0xFFFF }).cragFault first (faultOf st) st
    match m.loadDvaOn slot r.die r.first ast (fld d 24 8) (fld d 32 4) with
    | (.wait, m) => m
    | (.failed st, m) => fail m st
    | (.ok prog, m) =>
      match m.loadDvaOn slot r.die r.first ast (fld d 40 8) 64 with
      | (.wait, m) => m
      | (.failed st, m) => fail m st
      | (.ok args, m) =>
        let owner := m.qOwner c.queue
        (List.range r.count).foldl (fun m i =>
          let k := cragKey r.die (r.first + i)
          let g := m.crag k
          let keep := bit (fld d 21 1) 0 && m.reg 0x5000 2 0 == 1 && g.lastOwner == owner && !g.confChanged
          (if keep then m else m.bump 0x7080 8).setCrag k (g.start owner keep prog args i r.count)) m
  | _, _ => m

/-- A KERNEL whose every crag has ended: its record OK, RESULT its CCLK count, a free value (R244). -/
def Mach.kernelCheck (m : Mach) (slot : Nat) : Mach :=
  if (m.cragsOf slot).all fun k => (m.crag k).phase == .ended then
    let (n, m) := m.fresh (2 ^ 64)
    m.finish slot (cragDetail 0x3F 0 0xFFFF) n
  else m

/-! ## Issue (R236) -/

/-- The next instruction of a crag issued, when it is the one the command names: index and opcode checked, tokens waited
for, its fields checked, a place on the crag scoreboard free. -/
def Mach.issue (m : Mach) (op die n : Nat) (act : Mach → Nat → Crag → TileInstr → Mach) : Mach :=
  let k := cragKey die n
  let c := m.crag k
  if c.phase ≠ .running then m
  else if c.prog.length ≤ 16 * c.pc then m.cragFault k 3 stBadFormat
  else
    let i := tileDecode (slice c.prog (16 * c.pc) 16)
    if (List.range 16).any fun t => bit i.wait t && c.pending t then m
    else if (tileMasks i.op).isNone then m.cragFault k 1 stBadFormat
    else if i.op ≠ op then m
    else if tileBad i then m.cragFault k 1 stBadFormat
    else if tileAsync op ∧ 32 ≤ c.asyncs.length then m
    else act m k c i

/-- A synchronous instruction that changes the crag alone, or faults. -/
def Mach.issueSync (m : Mach) (op die n : Nat) (f : Crag → TileInstr → Except Nat Crag) : Mach :=
  m.issue op die n fun m k c i =>
    match f c i with
    | .error code => m.cragFault k code stBadFormat
    | .ok c => m.setCrag k c

/-- The scalar fields d, a, b and the second operand of format S. -/
def TileInstr.d (i : TileInstr) : Nat := bits i.a 3 0
/-- Register a of format S. -/
def TileInstr.ra (i : TileInstr) : Nat := bits i.a 7 4
/-- Register b of format S. -/
def TileInstr.rb (i : TileInstr) : Nat := bits i.a 11 8
/-- The second operand of format S. -/
def TileInstr.op2 (i : TileInstr) (c : Crag) : Nat := if bit i.a 16 then sext32 i.b else c.s i.rb

/-- A scalar instruction: s[d] = f(s[a], op2). -/
def Mach.issueScalar (m : Mach) (op die n : Nat) (f : Nat → Nat → Nat) : Mach :=
  m.issueSync op die n fun c i => .ok (c.setS i.d (f (c.s i.ra) (i.op2 c))).stepPc

/-! ## Control and scalar instructions (Table 08-7) -/

/-- NOP. -/
def Mach.rowNop (m : Mach) (die n : Nat) : Mach := m.issueSync 0x00 die n fun c _ => .ok c.stepPc

/-- END: the crag ends once its asynchronous instructions have completed. -/
def Mach.rowEnd (m : Mach) (die n : Nat) : Mach :=
  m.issue 0x01 die n fun m k c _ =>
    let m := m.setCrag k { c with phase := if c.asyncs.isEmpty then .ended else .ending }
    match c.slot with
    | some s => m.kernelCheck s
    | none => m

/-- TRAP: fault code 7, the program's own code kept in 0x5010.08. -/
def Mach.rowTrap (m : Mach) (die n : Nat) : Mach :=
  m.issue 0x02 die n fun m k _ i => (m.setReg 0x5010 8 0 (i.b % 65536)).cragFault k 7 stBadFormat

/-- The condition of a BR. -/
def brTaken (cond a b : Nat) : Bool :=
  match cond with
  | 0 => true
  | 1 => a == b
  | 2 => a != b
  | 3 => decide (toSigned 64 a < toSigned 64 b)
  | 4 => !decide (toSigned 64 a < toSigned 64 b)
  | 5 => decide (a < b)
  | _ => !decide (a < b)

/-- BR (R240). -/
def Mach.rowBr (m : Mach) (die n : Nat) : Mach :=
  m.issueSync 0x03 die n fun c i =>
    let t := i.b % 4096
    if c.prog.length ≤ 16 * t then .error 3
    else if brTaken (bits i.a 14 12) (c.s i.ra) (c.s i.rb) then .ok (c.branch t) else .ok c.stepPc

/-- LOOP (R240). -/
def Mach.rowLoop (m : Mach) (die n : Nat) : Mach :=
  m.issueSync 0x04 die n fun c i =>
    let last := i.c % 4096
    let count := if bit i.a 16 then i.b else c.s i.ra % 2 ^ 32
    if last ≤ c.pc ∨ c.prog.length ≤ 16 * last then .error 3
    else if 4 ≤ c.loops.length ∨ (c.loops.head?.any fun l => decide (l.last < last)) then .error 4
    else if count = 0 then .ok ({ c with pc := last } : Crag).stepPc
    else .ok { c with pc := c.pc + 1, loops := ⟨c.pc + 1, last, count⟩ :: c.loops }

/-- WAIT: with ALL it waits for every asynchronous instruction; its mask has been waited for at issue. -/
def Mach.rowTileWait (m : Mach) (die n : Nat) : Mach :=
  m.issueSync 0x05 die n fun c i => if bit i.a 0 && !c.asyncs.isEmpty then .ok c else .ok c.stepPc

/-- SMOV. -/
def Mach.rowSmov (m : Mach) (die n : Nat) : Mach :=
  m.issueSync 0x10 die n fun c i => .ok (c.setS i.d (sext32 i.b)).stepPc
/-- SMOVH. -/
def Mach.rowSmovh (m : Mach) (die n : Nat) : Mach :=
  m.issueSync 0x11 die n fun c i => .ok (c.setS i.d (i.b * 2 ^ 32 + c.s i.d % 2 ^ 32)).stepPc
/-- SADD. -/
def Mach.rowSadd (m : Mach) (die n : Nat) : Mach := m.issueScalar 0x12 die n fun a b => a + b
/-- SSUB. -/
def Mach.rowSsub (m : Mach) (die n : Nat) : Mach := m.issueScalar 0x13 die n fun a b => a + 2 ^ 64 - b
/-- SMUL. -/
def Mach.rowSmul (m : Mach) (die n : Nat) : Mach := m.issueScalar 0x14 die n fun a b => a * b
/-- SAND. -/
def Mach.rowSand (m : Mach) (die n : Nat) : Mach := m.issueScalar 0x15 die n Nat.land
/-- SOR. -/
def Mach.rowSor (m : Mach) (die n : Nat) : Mach := m.issueScalar 0x16 die n Nat.lor
/-- SSHL. -/
def Mach.rowSshl (m : Mach) (die n : Nat) : Mach := m.issueScalar 0x17 die n fun a b => a * 2 ^ (b % 64)
/-- SSHR. -/
def Mach.rowSshr (m : Mach) (die n : Nat) : Mach := m.issueScalar 0x18 die n fun a b => a / 2 ^ (b % 64)

/-- The scratch address of SLD and SST: s[a] + sext(B), 8 B aligned. -/
def slAddr (c : Crag) (i : TileInstr) : Option Nat :=
  let a := (c.s i.ra + sext32 i.b) % 2 ^ 64
  if a % 8 = 0 ∧ a + 8 ≤ scratchSize then some a else none

/-- SLD. -/
def Mach.rowSld (m : Mach) (die n : Nat) : Mach :=
  m.issue 0x19 die n fun m k c i =>
    match slAddr c i with
    | none => m.cragFault k 2 stBadFormat
    | some a => (m.touchBanks die n 15 (c.slot.getD 0) a 8).setCrag k (c.setS i.d (leNat (c.read a 8))).stepPc

/-- SST. -/
def Mach.rowSst (m : Mach) (die n : Nat) : Mach :=
  m.issue 0x1A die n fun m k c i =>
    match slAddr c i with
    | none => m.cragFault k 2 stBadFormat
    | some a => (m.touchBanks die n 15 (c.slot.getD 0) a 8).setCrag k (c.write a (leBytes 8 (c.s i.rb))).stepPc

/-! ## Vector instructions (R247, R248) -/

/-- Vector register vd. -/
def TileInstr.vd (i : TileInstr) : Nat := bits i.a 4 0
/-- Vector register va. -/
def TileInstr.va (i : TileInstr) : Nat := bits i.a 9 5
/-- Vector register vb. -/
def TileInstr.vb (i : TileInstr) : Nat := bits i.a 14 10
/-- Vector register vc. -/
def TileInstr.vc (i : TileInstr) : Nat := bits i.a 19 15
/-- Scalar register sa. -/
def TileInstr.sa (i : TileInstr) : Nat := bits i.a 23 20
/-- Field SUB. -/
def TileInstr.sub (i : TileInstr) : Nat := bits i.a 27 24

/-- How many lanes are NaN. -/
def nanCount (v : List Nat) : Nat := (v.filter fun x => fp32.decode x == .nan).length

/-- Lane x of a register. -/
def lane (v : List Nat) (x : Nat) : Nat := v.getD x 0

/-- A vector result written and its NaNs counted. -/
def Mach.vectorOut (m : Mach) (k : Nat) (c : Crag) (vd : Nat) (v : List Nat) : Mach :=
  (m.setCrag k (c.setV vd v).stepPc).bumpBy 0x7080 7 0 (nanCount v)

/-- A lane-wise instruction. -/
def Mach.issueVector (m : Mach) (op die n : Nat) (f : Nat → Nat → Nat → Nat) : Mach :=
  m.issue op die n fun m k c i =>
    m.vectorOut k c i.vd ((List.range 64).map fun x => f (lane (c.v i.va) x) (lane (c.v i.vb) x) (lane (c.v i.vc) x))

/-- The scratch address of VLD and VST: s[sa] + IMM, 64 B aligned. -/
def vlAddr (c : Crag) (i : TileInstr) : Option Nat :=
  let a := (c.s i.sa + sext32 i.b) % 2 ^ 64
  if a % 64 = 0 ∧ a + 256 ≤ scratchSize then some a else none

/-- VLD. -/
def Mach.rowVld (m : Mach) (die n : Nat) : Mach :=
  m.issue 0x40 die n fun m k c i =>
    match vlAddr c i with
    | none => m.cragFault k 2 stBadFormat
    | some a => (m.touchBanks die n 6 (c.slot.getD 0) a 256).setCrag k (c.setV i.vd (elemCodes 7 64 (c.read a 256))).stepPc

/-- VST. -/
def Mach.rowVst (m : Mach) (die n : Nat) : Mach :=
  m.issue 0x41 die n fun m k c i =>
    match vlAddr c i with
    | none => m.cragFault k 2 stBadFormat
    | some a => (m.touchBanks die n 5 (c.slot.getD 0) a 256).setCrag k (c.write a (packCodes 7 (c.v i.va))).stepPc

/-- VSPLAT. -/
def Mach.rowVsplat (m : Mach) (die n : Nat) : Mach :=
  m.issueSync 0x42 die n fun c i => .ok (c.setV i.vd (List.replicate 64 (c.s i.sa % 2 ^ 32))).stepPc
/-- VADD. -/
def Mach.rowVadd (m : Mach) (die n : Nat) : Mach := m.issueVector 0x43 die n fun a b _ => f32add a b
/-- VSUB. -/
def Mach.rowVsub (m : Mach) (die n : Nat) : Mach := m.issueVector 0x44 die n fun a b _ => f32op FVal.sub a b
/-- VMUL. -/
def Mach.rowVmul (m : Mach) (die n : Nat) : Mach := m.issueVector 0x45 die n fun a b _ => f32mul a b
/-- VFMA. -/
def Mach.rowVfma (m : Mach) (die n : Nat) : Mach := m.issueVector 0x46 die n f32fma
/-- VMIN. -/
def Mach.rowVmin (m : Mach) (die n : Nat) : Mach := m.issueVector 0x47 die n fun a b _ => f32op FVal.min a b
/-- VMAX. -/
def Mach.rowVmax (m : Mach) (die n : Nat) : Mach := m.issueVector 0x48 die n fun a b _ => f32op FVal.max a b
/-- VDIV. -/
def Mach.rowVdiv (m : Mach) (die n : Nat) : Mach := m.issueVector 0x49 die n fun a b _ => f32op FVal.div a b

/-- The square root of a lane. -/
def f32sqrt (a : Nat) : Nat := fp32.encode (fp32.decode a).sqrt
/-- VSQRT. -/
def Mach.rowVsqrt (m : Mach) (die n : Nat) : Mach := m.issueVector 0x4A die n fun a _ _ => f32sqrt a

/-- 2 to the power of frac ÷ 2^k, scaled by 2^128, rounded down: the product of the roots of 2 that the bits name. -/
def exp2Frac : Nat → Nat → Nat → Nat → Nat
  | 0, _, _, y => y
  | k + 1, frac, s, y =>
    let s := isqrt 130 (s * 2 ^ 128) 0
    exp2Frac k (frac % 2 ^ k) s (if bit frac k then y * s / 2 ^ 128 else y)

/-- The FP32 code at or below 2^(i + frac ÷ 2^k) for a frac that is not 0. -/
def exp2Floor (i : Int) (k frac : Nat) : Nat :=
  let y := exp2Frac k frac (2 ^ 129) (2 ^ 128)
  if 128 ≤ i then 0x7F800000
  else if -126 ≤ i then (i + 127).toNat * 2 ^ 23 + (y / 2 ^ 105 - 2 ^ 23)
  else y / 2 ^ (105 + (-126 - i).toNat)

/-- VEXP of a lane: exact for an integer; otherwise one of the codes within 2 ULP, which the manual leaves open. -/
def Mach.exp2Lane (m : Mach) (a : Nat) : Nat × Mach :=
  match fp32.decode a with
  | .nan => (fp32.encode .nan, m)
  | .inf neg => (if neg then 0 else 0x7F800000, m)
  | .fin neg k e =>
    if 0 ≤ e ∨ k % 2 ^ (-e).toNat = 0 then
      let i : Int := if 0 ≤ e then ((k * 2 ^ (min e 16).toNat : Nat) : Int) else ((k / 2 ^ (-e).toNat : Nat) : Int)
      (fp32.encode (.fin false 1 (if neg then -i else i)), m)
    else
      let q := 2 ^ (-e).toNat
      let whole : Int := if neg then -((k / q + 1 : Nat) : Int) else ((k / q : Nat) : Int)
      let frac := if neg then q - k % q else k % q
      let f := exp2Floor whole (-e).toNat frac
      if f = 0x7F800000 then (f, m) else
      let below := if f % 2 ^ 23 = 0 ∧ 2 ^ 24 ≤ f then 3 else 1
      let (r, m) := m.fresh (below + 3)
      (min 0x7F800000 (f + r - below), m)

/-- VEXP. -/
def Mach.rowVexp (m : Mach) (die n : Nat) : Mach :=
  m.issue 0x4B die n fun m k c i =>
    let (v, m) := (c.v i.va).foldl (fun (r : List Nat × Mach) a =>
      let (x, m) := r.2.exp2Lane a
      (r.1 ++ [x], m)) ([], m)
    m.vectorOut k c i.vd v

/-- VCVT from FP32: 64 lanes packed in a format from byte 0, the rest zero (R248). -/
def cvtNarrow (f : Nat) (v : List Nat) : List Byte :=
  let vals := v.map fp32.decode
  if f = 0 then
    let block (i : Nat) : List FVal := (vals.drop (32 * i)).take 32
    let x0 := fp4Scale (block 0)
    let x1 := fp4Scale (block 1)
    packCodes 0 (fp4Codes x0 (block 0) ++ fp4Codes x1 (block 1)) ++ [byteOf x0, byteOf x1]
  else if f = 7 then packCodes 7 v
  else packCodes f (vals.map (elemCode f))

/-- VCVT to FP32. -/
def cvtWiden (f : Nat) (bs : List Byte) : List Nat :=
  if f = 7 then elemCodes 7 64 bs else (rowVals f 64 bs (slice bs 32 2)).map fp32.encode

/-- VCVT. -/
def Mach.rowVcvt (m : Mach) (die n : Nat) : Mach :=
  m.issue 0x4C die n fun m k c i =>
    let src := c.v i.va
    let out := if bit i.a 28 then cvtWiden i.sub (packCodes 7 src)
      else elemCodes 7 64 (slice (cvtNarrow i.sub src) 0 256)
    if bit i.a 28 then m.vectorOut k c i.vd out else m.setCrag k (c.setV i.vd out).stepPc

/-- R248: the fixed tree: lane i combines with lane i + j for j = 32, 16, … 1. -/
def reduceTree (f : Nat → Nat → Nat) : List Nat → List Nat → List Nat
  | [], v => v
  | j :: js, v => reduceTree f js ((List.range j).map fun i => f (lane v i) (lane v (i + j)))

/-- VRED: lane 0's result goes to every lane, and counts once when it is NaN. -/
def Mach.rowVred (m : Mach) (die n : Nat) : Mach :=
  m.issue 0x4D die n fun m k c i =>
    let f := match i.sub with | 0 => f32add | 1 => f32op FVal.max | _ => f32op FVal.min
    let x := lane (reduceTree f [32, 16, 8, 4, 2, 1] (c.v i.va)) 0
    (m.setCrag k (c.setV i.vd (List.replicate 64 x)).stepPc).bumpBy 0x7080 7 0 (nanCount [x])

/-- The sign of a lane: ±1.0, +0.0 for zero, NaN for NaN. -/
def f32sgn (a : Nat) : Nat :=
  match fp32.decode a with
  | .nan => fp32.encode .nan
  | .inf neg => fp32.encode (.fin neg 1 0)
  | .fin neg k _ => if k = 0 then 0 else fp32.encode (.fin neg 1 0)

/-- VSGN. -/
def Mach.rowVsgn (m : Mach) (die n : Nat) : Mach := m.issueVector 0x4E die n fun a _ _ => f32sgn a

/-! ## Asynchronous instructions: issue (R236-R238) -/

/-- Rows of format T. -/
def tRows (b : Nat) : Nat := b % 4096 + 1
/-- Row bytes of format T. -/
def tLen (b : Nat) : Nat := (bits b 19 12 + 1) * 16
/-- Scratch row stride of format T. -/
def tStride (c : Nat) : Nat := c % 4096 * 16
/-- Rows of format M. -/
def mRows (c : Nat) : Nat := bits c 17 9 + 1
/-- Row stride of format M. -/
def mStride (c : Nat) : Nat := bits c 29 18 * 16
/-- Format of format M. -/
def mFmt (a : Nat) : Nat := bits a 12 9
/-- Arrays of a mask, in order. -/
def maskArrays (a : Nat) : List Nat := (List.range 8).filter fun x => bit a x
/-- The highest array of a mask. -/
def topArray (a : Nat) : Nat := Nat.log2 (a % 256)
/-- Bytes of a weight tile of a format. -/
def tileBytes (f : Nat) : Nat := if f = 0 then 1088 else 32 * fmtK f * fmtBits f / 8
/-- Bytes of a row of 32 elements. -/
def accBytes (f : Nat) : Nat := 4 * fmtBits f

/-- Whether a span of n bytes at an alignment lies in the scratchpad. -/
def spanOk (off n align : Nat) : Bool := off % align == 0 && decide (off + n ≤ scratchSize)

/-- R237, R234, Table 08-11: what an asynchronous instruction's operands break at issue: fault code 2 or 5; x and y are the
scalars it reads: DVA and store stride, directory and block base, or s[c]. -/
def asyncFault (i : TileInstr) (x y : Nat) : Option Nat :=
  let spa := i.a % 2 ^ 21
  let mspa := i.b % 2 ^ 21
  let f := mFmt i.a
  let rows := mRows i.c
  let last := (rows - 1) * mStride i.c
  if i.op = 0x20 ∨ i.op = 0x22 then
    if spanOk spa ((tRows i.b - 1) * tStride i.c + tLen i.b) 16 && x % 16 == 0 && y % 16 == 0 then none else some 2
  else if i.op = 0x21 then (if spa % 64 = 0 ∧ x % 4 = 0 ∧ y % 16 = 0 then none else some 2)
  else if i.op = 0x23 then
    let n := i.c % 65536 * 16
    if !spanOk spa n 16 ∨ !spanOk mspa n 16 then some 2 else if overlaps spa n mspa n then some 5 else none
  else if i.op = 0x24 then (if spanOk spa (i.c % 65536 * 16) 16 then none else some 2)
  else if i.op = 0x30 then
    if (maskArrays i.a).all fun a => spanOk (mspa + a * mStride i.c) (tileBytes f) 64 then none else some 2
  else if 512 < i.c % 512 + rows then some 5
  else if i.op = 0x31 then
    if !spanOk mspa (last + fmtK f * fmtBits f / 8) 16 ∨ (f = 0 ∧ scratchSize < x + 2 * rows) then some 2 else none
  else if i.op = 0x33 then
    if !spanOk mspa (last + (topArray i.a + 1) * accBytes f) 64 ∨ (1 < rows ∧ mStride i.c % 64 ≠ 0) ∨
        (f = 0 ∧ scratchSize < x + 8 * (rows - 1) + topArray i.a + 1) then some 2 else none
  else if i.op = 0x34 then
    if !spanOk mspa (last + (topArray i.a + 1) * 128) 64 ∨ (1 < rows ∧ mStride i.c % 64 ≠ 0) then some 2 else none
  else none

/-- The scratchpad traffic of an asynchronous instruction, as (input, address, bytes) (R229). -/
def asyncTraffic (o : AsyncOp) : List (Nat × Nat × Nat) :=
  let spa := o.a % 2 ^ 21
  let mspa := o.b % 2 ^ 21
  if o.op = 0x20 ∨ o.op = 0x22 then [(15, spa, (tRows o.b - 1) * tStride o.c + tLen o.b)]
  else if o.op = 0x21 then [(15, spa, (o.b % 1024 + 1) * 1024)]
  else if o.op = 0x23 then [(15, spa, o.c % 65536 * 16), (15, mspa, o.c % 65536 * 16)]
  else if o.op = 0x24 then [(15, spa, o.c % 65536 * 16)]
  else if o.op = 0x30 then (maskArrays o.a).map fun a => (7 + a, mspa + a * mStride o.c, tileBytes (mFmt o.a))
  else if o.op = 0x31 then
    [(7 + topArray o.a, mspa, (mRows o.c - 1) * mStride o.c + fmtK (mFmt o.a) * fmtBits (mFmt o.a) / 8)]
  else if o.op = 0x33 ∨ o.op = 0x34 then
    (maskArrays o.a).map fun a => (7 + a, mspa, (mRows o.c - 1) * mStride o.c + (a + 1) * accBytes (mFmt o.a))
  else []

/-- The banks a span touches. -/
def spanBanks (off n : Nat) : List Nat :=
  if n = 0 then [] else (List.range 16).filter fun b => decide (off / 131072 ≤ b) && decide (b ≤ (off + n - 1) / 131072)

/-- An asynchronous instruction put in flight; its requests stand at the Pass arbiters until it completes. -/
def Mach.issueAsync (m : Mach) (op die n : Nat) (sx sy sz : TileInstr → Crag → Nat) : Mach :=
  m.issue op die n fun m k c i =>
    match asyncFault i (sx i c) (sy i c) with
    | some code => m.cragFault k code stBadFormat
    | none =>
      let o : AsyncOp := ⟨op, i.a, i.b, i.c, if i.s then some i.tok else none, sx i c, sy i c, sz i c, c.pc⟩
      let m := (asyncTraffic o).foldl (fun m (t : Nat × Nat × Nat) =>
        (spanBanks t.2.1 t.2.2).foldl (fun m b =>
          m.presentBank (bankKey die n b) ⟨t.1, min 64 (ceilDiv t.2.2 64), 0, c.slot.getD 0⟩) m) m
      m.setCrag k { c with asyncs := c.asyncs ++ [o] }.stepPc

/-- s[A[24:21]]. -/
def sregA (i : TileInstr) (c : Crag) : Nat := c.s (bits i.a 24 21)
/-- s[A[28:25]]. -/
def sregB (i : TileInstr) (c : Crag) : Nat := c.s (bits i.a 28 25)
/-- s[C[3:0]]. -/
def sregC (i : TileInstr) (c : Crag) : Nat := c.s (i.c % 16)
/-- s[A[17:14]], the FP4 scale array of format M. -/
def sregM (i : TileInstr) (c : Crag) : Nat := c.s (bits i.a 17 14)
/-- No scalar. -/
def sregNone (_ : TileInstr) (_ : Crag) : Nat := 0

/-- TLOAD. -/
def Mach.rowTload (m : Mach) (die n : Nat) : Mach := m.issueAsync 0x20 die n sregA sregB sregNone
/-- TLOADX. -/
def Mach.rowTloadx (m : Mach) (die n : Nat) : Mach := m.issueAsync 0x21 die n sregA sregB sregC
/-- TSTORE. -/
def Mach.rowTstore (m : Mach) (die n : Nat) : Mach := m.issueAsync 0x22 die n sregA sregB sregNone
/-- TCOPY. -/
def Mach.rowTcopy (m : Mach) (die n : Nat) : Mach := m.issueAsync 0x23 die n sregNone sregNone sregNone
/-- TFILL. -/
def Mach.rowTfill (m : Mach) (die n : Nat) : Mach := m.issueAsync 0x24 die n sregNone sregNone sregNone
/-- WLOAD. -/
def Mach.rowWload (m : Mach) (die n : Nat) : Mach := m.issueAsync 0x30 die n sregM sregNone sregNone
/-- MMA. -/
def Mach.rowMma (m : Mach) (die n : Nat) : Mach := m.issueAsync 0x31 die n sregM sregNone sregNone
/-- ACCZ. -/
def Mach.rowAccz (m : Mach) (die n : Nat) : Mach := m.issueAsync 0x32 die n sregM sregNone sregNone
/-- ACCRD. -/
def Mach.rowAccrd (m : Mach) (die n : Nat) : Mach := m.issueAsync 0x33 die n sregM sregNone sregNone
/-- ACCWR. -/
def Mach.rowAccwr (m : Mach) (die n : Nat) : Mach := m.issueAsync 0x34 die n sregM sregNone sregNone

/-! ## Asynchronous instructions: completion -/

/-- R238: whether an instruction must complete before a later one: the compute queues of shared arrays, and the weight
slot that one loads and the other uses. -/
def asyncBefore (e o : AsyncOp) : Bool :=
  let share := Nat.land (e.a % 256) (o.a % 256) != 0
  let compute (x : AsyncOp) : Bool := decide (0x31 ≤ x.op) && decide (x.op ≤ 0x34)
  let slot (x : AsyncOp) : Bool := bit x.a 8
  share && ((compute e && compute o) ||
    (e.op == 0x30 && (o.op == 0x31 || o.op == 0x30) && slot e == slot o) ||
    (e.op == 0x31 && o.op == 0x30 && slot e == slot o))

/-- The store rows of a transfer read, row by row. -/
def Mach.loadRows (m : Mach) (slot die eng ast base stride len : Nat) : Nat → Got × Mach
  | 0 => (.ok [], m)
  | n + 1 =>
    match m.loadRows slot die eng ast base stride len n with
    | (.failed st, m) => (.failed st, m)
    | (acc, m) =>
      match acc, m.loadDvaOn slot die (eng + 64) ast ((base + n * stride) % 2 ^ 64) len with
      | _, (.failed st, m) => (.failed st, m)
      | .ok a, (.ok b, m) => (.ok (a ++ b), m)
      | _, (_, m) => (.wait, m)

/-- Whether every store row of a TSTORE can be written. -/
def Mach.rowsReady (m : Mach) (die eng ast base stride len : Nat) : Nat → Got × Mach
  | 0 => (.ok [], m)
  | n + 1 =>
    match m.rowsReady die eng ast base stride len n with
    | (.failed st, m) => (.failed st, m)
    | (acc, m) =>
      match acc, m.writeReadyOn die eng ast ((base + n * stride) % 2 ^ 64) len with
      | _, (.failed st, m) => (.failed st, m)
      | .ok _, (.ok _, m) => (.ok [], m)
      | _, (_, m) => (.wait, m)

/-- Rows of bytes written into a scratchpad at a stride. -/
def Crag.writeRows (c : Crag) (off stride len : Nat) (bs : List Byte) : Nat → Crag
  | 0 => c
  | n + 1 => (c.writeRows off stride len bs n).write (off + n * stride) (slice bs (n * len) len)

/-- The four blocks of a ridge-coded tile read and expanded: their KIND, their bytes, and the DVA after them; an error is a
status with its fault code, 0 for a wait. -/
def Mach.ridgeTile (m : Mach) (slot die eng ast : Nat) : Nat → Nat → Nat → List Byte → Except (Nat × Nat) (List Byte) × Mach
  | 0, _, _, acc => (.ok acc, m)
  | n + 1, dva, kind, acc =>
    match m.loadDvaOn slot die (eng + 64) ast dva 32 with
    | (.wait, m) => (.error (0, 0), m)
    | (.failed st, m) => (.error (faultOf st, st), m)
    | (.ok h, m) =>
      match ridgeSize h with
      | none => (.error (6, stBadFormat), m)
      | some size =>
        match m.loadDvaOn slot die (eng + 64) ast dva size with
        | (.wait, m) => (.error (0, 0), m)
        | (.failed st, m) => (.error (faultOf st, st), m)
        | (.ok b, m) =>
          match ridgeExpand b with
          | none => (.error (6, stBadFormat), m)
          | some out =>
            let k := fld b 0 1 % 16
            if kind ≠ 0 ∧ kind ≠ k then (.error (6, stBadFormat), m)
            else m.ridgeTile slot die eng ast n (dva + size) k (acc ++ out)

/-- The tiles of a TLOADX in order. -/
def Mach.ridgeTiles (m : Mach) (slot die eng ast dir base first : Nat) : Nat → Except (Nat × Nat) (List Byte) × Mach
  | 0 => (.ok [], m)
  | n + 1 =>
    match m.ridgeTiles slot die eng ast dir base first n with
    | (.error e, m) => (.error e, m)
    | (.ok acc, m) =>
      match m.loadDvaOn slot die (eng + 64) ast (dir + 4 * (first + n)) 4 with
      | (.wait, m) => (.error (0, 0), m)
      | (.failed st, m) => (.error (faultOf st, st), m)
      | (.ok e, m) =>
        match m.ridgeTile slot die eng ast 4 (base + 16 * leNat e) 0 [] with
        | (.error e, m) => (.error e, m)
        | (.ok bs, m) => (.ok (acc ++ bs), m)

/-- R233: one MMA on one array of a crag: its rows added into the accumulator; the NaN sums counted. -/
def mmaArray (c : Crag) (o : AsyncOp) (array : Nat) : Crag × Nat :=
  let f := mFmt o.a
  let n := fmtK f
  let (wf, w) := tgetD c.weights (array * 2 + b2n (bit o.a 8)) (f, [])
  let rowLen := n * fmtBits f / 8
  let wRowLen := n * fmtBits wf / 8
  let wRow (j : Nat) : List FVal := rowVals wf n (slice w (j * wRowLen) wRowLen) (slice w (1024 + 2 * j) 2)
  let wRows := (List.range 32).map wRow
  (List.range (mRows o.c)).foldl (fun (r : Crag × Nat) i =>
    let off := o.b % 2 ^ 21 + i * mStride o.c
    let row := rowVals f n (c.read off rowLen) (if f = 0 then c.read (o.x + 2 * i) 2 else [])
    let t := o.c % 512 + i
    let old := r.1.accRow array t
    let out := (List.range 32).map fun j =>
      fp32.encode (dotFrom (if bit o.a 13 then fp32.decode (lane old j) else .zero) row (wRows.getD j []))
    (r.1.setAcc array t out, r.2 + nanCount out)) (c, 0)

/-- R234: whether the weights in the slot an MMA uses may meet its operand format: equal, or both FP8. An empty slot holds
zeros of any format. -/
def pairOk (c : Crag) (o : AsyncOp) (array : Nat) : Bool :=
  match tget c.weights (array * 2 + b2n (bit o.a 8)) with
  | none => true
  | some (wf, _) => wf == mFmt o.a || ((wf == 2 || wf == 3) && (mFmt o.a == 2 || mFmt o.a == 3))

/-- R239: one row of ACCRD of one array: its elements, and for FP4 its scale byte. -/
def Crag.accOut (c : Crag) (o : AsyncOp) (array i : Nat) : Crag :=
  let f := mFmt o.a
  let t := o.c % 512 + i
  let codes := c.accRow array t
  let vals := codes.map fp32.decode
  let off := o.b % 2 ^ 21 + i * mStride o.c + array * accBytes f
  let c := if f = 0 then
      let x := fp4Scale vals
      (c.write off (packCodes 0 (fp4Codes x vals))).write (o.x + 8 * i + array) [byteOf x]
    else c.write off (packCodes f (if f = 7 then codes else vals.map (elemCode f)))
  if bit o.a 13 then { c with acc := tdel c.acc (array * 512 + t) } else c

/-- Every (array, row) of an instruction of format M. -/
def accPairs (o : AsyncOp) : List (Nat × Nat) :=
  (maskArrays o.a).flatMap fun a => (List.range (mRows o.c)).map fun i => (a, i)

/-- An instruction that has completed taken off the crag scoreboard, its bank requests with it; an ending crag ends with
its last. -/
def Mach.asyncOver (m : Mach) (k : Nat) (o : AsyncOp) : Mach :=
  let m := (asyncTraffic o).foldl (fun m (t : Nat × Nat × Nat) =>
    (spanBanks t.2.1 t.2.2).foldl (fun m b =>
      m.releaseBank (bankKey (k / 40) (k % 40) b) ((m.crag k).slot.getD 0) t.1) m) m
  let c := m.crag k
  let rest := c.asyncs.erase o
  let m := m.setCrag k { c with asyncs := rest, phase := if c.phase = .ending ∧ rest.isEmpty then .ended else c.phase }
  match c.slot with
  | some s => m.kernelCheck s
  | none => m

/-- An instruction of a crag that faults as it completes: its own index is the one reported (R244, R254). -/
def Mach.asyncFaults (m : Mach) (k : Nat) (o : AsyncOp) (code status : Nat) : Mach :=
  let m := m.asyncOver k o
  (m.setCrag k { m.crag k with pc := o.pc }).cragFault k code status

/-- ASYNC_COMPLETE: the instruction at a place on the crag scoreboard completes: what it moves or computes comes about and
its token count falls by 1 (R236, R238). -/
def Mach.rowAsyncComplete (m : Mach) (die n idx : Nat) : Mach :=
  let k := cragKey die n
  let c := m.crag k
  match c.asyncs[idx]?, c.slot with
  | some o, some slot =>
    if (c.asyncs.take idx).any fun e => asyncBefore e o then m else
    let ast := ((m.cmd? slot).map fun d => fld d.desc 16 2).getD 0
    let spa := o.a % 2 ^ 21
    if o.op = 0x20 then
      match m.loadRows slot die n ast o.x o.y (tLen o.b) (tRows o.b) with
      | (.wait, m) => m
      | (.failed st, m) => m.asyncFaults k o (faultOf st) st
      | (.ok bs, m) => (m.setCrag k ((m.crag k).writeRows spa (tStride o.c) (tLen o.b) bs (tRows o.b))).asyncOver k o
    else if o.op = 0x21 then
      match m.ridgeTiles slot die n ast o.x o.y o.z (o.b % 1024 + 1) with
      | (.error (0, _), m) => m
      | (.error (code, st), m) => m.asyncFaults k o code st
      | (.ok bs, m) =>
        if scratchSize < spa + bs.length then m.asyncFaults k o 2 stBadFormat
        else ((m.setCrag k ((m.crag k).write spa bs)).bumpBy 0x7080 5 0 (4 * (o.b % 1024 + 1))).asyncOver k o
    else if o.op = 0x22 then
      match m.rowsReady die n ast o.x o.y (tLen o.b) (tRows o.b) with
      | (.wait, m) => m
      | (.failed st, m) => m.asyncFaults k o (faultOf st) st
      | (.ok _, m) =>
        let before := ((m.cmd? slot).bind (·.fail)).isSome
        let m := (List.range (tRows o.b)).foldl (fun m i =>
          m.storeDvaOn slot die n ast ((o.x + i * o.y) % 2 ^ 64) (c.read (spa + i * tStride o.c) (tLen o.b))) m
        match before, (m.cmd? slot).bind (·.fail) with
        | false, some st => m.asyncFaults k o (faultOf st) st
        | _, _ => m.asyncOver k o
    else if o.op = 0x23 then
      (m.setCrag k (c.write spa (c.read (o.b % 2 ^ 21) (o.c % 65536 * 16)))).asyncOver k o
    else if o.op = 0x24 then
      (m.setCrag k (c.write spa (List.replicate (o.c % 65536 * 4) (leBytes 4 o.b)).flatten)).asyncOver k o
    else if o.op = 0x30 then
      let f := mFmt o.a
      let w := (maskArrays o.a).foldl (fun (w : Tbl (Nat × List Byte)) a =>
        tput w (a * 2 + b2n (bit o.a 8)) (f, c.read (o.b % 2 ^ 21 + a * mStride o.c) (tileBytes f))) c.weights
      (m.setCrag k { c with weights := w }).asyncOver k o
    else if o.op = 0x31 then
      if (maskArrays o.a).any fun a => !pairOk c o a then m.asyncFaults k o 5 stBadFormat
      else
        let (c', nans) := (maskArrays o.a).foldl (fun (r : Crag × Nat) a =>
          let (c, x) := mmaArray r.1 o a
          (c, r.2 + x)) (c, 0)
        (((m.setCrag k c').bumpBy 0x7080 4 0 (mRows o.c * (maskArrays o.a).length)).bumpBy 0x7080 7 0 nans).asyncOver k o
    else if o.op = 0x32 then
      let acc := (accPairs o).foldl (fun (t : Tbl (List Nat)) (p : Nat × Nat) => tdel t (p.1 * 512 + (o.c % 512 + p.2))) c.acc
      (m.setCrag k { c with acc := acc }).asyncOver k o
    else if o.op = 0x33 then
      (m.setCrag k ((accPairs o).foldl (fun (c : Crag) (p : Nat × Nat) => c.accOut o p.1 p.2) c)).asyncOver k o
    else
      (m.setCrag k ((accPairs o).foldl (fun (c : Crag) (p : Nat × Nat) =>
        c.setAcc p.1 (o.c % 512 + p.2)
          (elemCodes 7 32 (c.read (o.b % 2 ^ 21 + p.2 * mStride o.c + p.1 * 128) 128))) c)).asyncOver k o
  | _, _ => m

/-! ## OPTIM (R249-R252) -/

/-- Bytes of a parameter or gradient or moment of a type code. -/
def optSize (t : Nat) : Nat := if t = 0 then 4 else 2

/-- The fields of an OPTIM descriptor: algorithm, the three types, addresses, element count. -/
structure Optim where
  alg : Nat
  pt : Nat
  gt : Nat
  mt : Nat
  first : Nat
  count : Nat
  p : Nat
  g : Nat
  st : Nat
  n : Nat
  deriving DecidableEq, Repr

/-- The fields read from a descriptor. -/
def optimOf (d : List Byte) : Optim :=
  { alg := fld d 18 1, pt := bits (fld d 19 1) 1 0, gt := bits (fld d 19 1) 3 2, mt := bits (fld d 19 1) 5 4
    first := fld d 21 1, count := fld d 20 1, p := fld d 24 8, g := fld d 32 8, st := fld d 40 8, n := fld d 56 8 }

/-- Whether the algorithm has a second moment. -/
def Optim.adam (o : Optim) : Bool := o.alg == 1 || o.alg == 2
/-- Where the second moment lies (R250). -/
def Optim.v (o : Optim) : Nat := o.st + ceilDiv (o.n * optSize o.mt) 64 * 64
/-- Bytes of the state. -/
def Optim.stateLen (o : Optim) : Nat := if o.adam then o.v - o.st + 4 * o.n else o.n * optSize o.mt

/-- The form checks of Table 08-14, the ranges' overlap among them. -/
def optimOk (d : List Byte) : Bool :=
  let o := optimOf d
  decide (o.alg ≤ 3) && decide (fld d 19 1 < 64) && decide (o.pt < 2) && decide (o.gt < 2) && decide (o.mt < 2) &&
  decide (1 ≤ o.count) && decide (o.count ≤ 40) && decide (o.first + o.count ≤ 40) && fld d 22 2 == 0 &&
  o.p % 64 == 0 && o.g % 64 == 0 && o.st % 64 == 0 && fld d 48 8 % 64 == 0 && decide (1 ≤ o.n) && decide (o.n < 2 ^ 40) &&
  !overlaps o.p (o.n * optSize o.pt) o.g (o.n * optSize o.gt) && !overlaps o.p (o.n * optSize o.pt) o.st o.stateLen &&
  !overlaps o.g (o.n * optSize o.gt) o.st o.stateLen

/-- Hyperparameter j of a block. -/
def hyp (h : List Byte) (j : Nat) : Nat := fld h (4 * j) 4
/-- Step t of a block. -/
def hypT (h : List Byte) : Nat := fld h 24 8

/-- Whether an FP32 code is a finite value in [0, 1). -/
def unitRange (a : Nat) : Bool := !(fp32.decode a).lt .zero && (fp32.decode a).lt (.fin false 1 0) || a == 2 ^ 31

/-- R250: whether a hyperparameter block may be used. -/
def hyperOk (alg : Nat) (h : List Byte) : Bool :=
  ((List.range 6).all fun j => bits (hyp h j) 30 23 != 255) && unitRange (hyp h 1) && unitRange (hyp h 2) &&
  (!bit (hyp h 3) 31 || hyp h 3 == 2 ^ 31) && hypT h != 0 && decide (fld h 32 1 < 2) && !(fld h 32 1 == 1 && alg != 0) &&
  allZero (slice h 33 31)

/-- A power by squaring, exact. -/
def FVal.pow : Nat → FVal → Nat → FVal
  | 0, _, _ => .fin false 1 0
  | fuel + 1, v, t =>
    if t = 0 then .fin false 1 0
    else
      let r := FVal.pow fuel (v.mul v) (t / 2)
      if t % 2 = 1 then r.mul v else r

/-- One as a value. -/
def FVal.one : FVal := .fin false 1 0

/-- An FP32 code with its sign changed. -/
def f32neg (a : Nat) : Nat := if bit a 31 then a - 2 ^ 31 else a + 2 ^ 31

/-- R251: the constants of a command: c1, c2, bc1, bc2, −lr × λ. -/
def optConsts (h : List Byte) : List Nat :=
  let v (j : Nat) : FVal := fp32.decode (hyp h j)
  [fp32.encode (FVal.one.sub (v 1)), fp32.encode (FVal.one.sub (v 2)),
   fp32.encode (FVal.one.sub (FVal.pow 64 (v 1) (hypT h))), fp32.encode (FVal.one.sub (FVal.pow 64 (v 2) (hypT h))),
   fp32.encode ((v 0).mul (v 4)).neg]

/-- R251: one element: its new parameter, first and second moments. -/
def optElem (alg : Nat) (h : List Byte) (k : List Nat) (p g m v : Nat) : Nat × Nat × Nat :=
  let lr := hyp h 0
  let b1 := hyp h 1
  let b2 := hyp h 2
  let wd := hyp h 4
  let g := f32mul g (hyp h 5)
  let wdSet := wd % 2 ^ 31 != 0
  if alg = 0 then
    let g := if wdSet then f32fma wd p g else g
    let m := f32fma b1 m g
    (f32fma (f32neg lr) (if fld h 32 1 = 1 then f32fma b1 m g else m) p, m, v)
  else if alg = 3 then
    let u := f32fma wd p (f32sgn (f32fma b1 m (f32mul (lane k 0) g)))
    (f32fma (f32neg lr) u p, f32fma b2 m (f32mul (lane k 1) g), v)
  else
    let g := if alg = 1 && wdSet then f32fma wd p g else g
    let p := if alg = 2 then f32fma (lane k 4) p p else p
    let m := f32fma b1 m (f32mul (lane k 0) g)
    let v := f32fma b2 v (f32mul (lane k 1) (f32mul g g))
    let den := f32add (f32sqrt (f32op FVal.div v (lane k 3))) (hyp h 3)
    (f32fma (f32neg lr) (f32op FVal.div (f32op FVal.div m (lane k 2)) den) p, m, v)

/-- Elements of a type as FP32 codes. -/
def optIn (t n : Nat) (bs : List Byte) : List Nat :=
  if t = 0 then elemCodes 7 n bs else (elemCodes 5 n bs).map (· * 65536)
/-- FP32 codes as elements of a type. -/
def optOut (t : Nat) (cs : List Nat) : List Byte :=
  if t = 0 then packCodes 7 cs else packCodes 5 (cs.map fun x => elemCode 5 (fp32.decode x))

/-- OPTIM: its fields and hyperparameters checked, its crags asked for. -/
def Mach.rowOptim (m : Mach) (slot : Nat) : Mach :=
  match m.cmd? slot with
  | none => m
  | some c =>
    if descOp c.desc ≠ 0x31 ∨ c.done ∨ (tget m.eng.crag.optims slot).isSome then m else
    let d := c.desc
    let o := optimOf d
    let ast := fld d 16 2
    let die := slotDie slot
    let localOk (m : Mach) (a : Nat) (acc : Acc) : Got × Mach := m.localReady die o.first ast a 1 acc
    if !m.astOk c.queue ast then m.failCmd slot (badAst c.desc)
    else if !optimOk d then m.failCmd slot stInvalDesc
    else match localOk m o.p .write with
    | (.failed st, m) => m.failCmd slot st
    | (.wait, m) => m
    | (.ok _, m) => match localOk m o.g .read with
      | (.failed st, m) => m.failCmd slot st
      | (.wait, m) => m
      | (.ok _, m) => match localOk m o.st .write with
        | (.failed st, m) => m.failCmd slot st
        | (.wait, m) => m
        | (.ok _, m) => match m.loadDva slot o.first ast (fld d 48 8) 64 with
          | (.failed st, m) => m.failCmd slot st
          | (.wait, m) => m
          | (.ok h, m) =>
            if !hyperOk o.alg h then m.failCmd slot stBadFormat else
            let started := List.range (min o.count (ceilDiv o.n 4096))
            let m := { m with eng := { m.eng with crag := { m.eng.crag with
              optims := tput m.eng.crag.optims slot { hyper := h, started := started, written := 0 } } } }
            m.askCrags slot die o.first o.count

/-- A chunk over: the next of its crag starts unless the command has failed; with none in flight the command ends. -/
def Mach.chunkOver (m : Mach) (slot j n : Nat) : Mach :=
  match m.cmd? slot, tget m.eng.crag.optims slot with
  | some c, some r =>
    let o := optimOf c.desc
    let next := j + o.count
    let started := r.started.erase j ++ (if c.fail.isNone ∧ next < ceilDiv o.n 4096 then [next] else [])
    let r := { r with started := started, written := r.written + n }
    let m := { m with eng := { m.eng with crag := { m.eng.crag with optims := tput m.eng.crag.optims slot r } } }
    let m := m.setCmd slot { c with result := r.written }
    if started.isEmpty ∧ c.fail.isNone then m.finish slot (cragDetail 0x3F 0 0xFFFF) r.written else m
  | _, _ => m

/-- A chunk that fails: a fault of its crag (R252). -/
def Mach.chunkFail (m : Mach) (slot j st : Nat) : Mach :=
  match m.cmd? slot with
  | none => m
  | some c =>
    let o := optimOf c.desc
    let k := cragKey (slotDie slot) (o.first + j % o.count)
    ((m.setCrag k { m.crag k with pc := 0xFFFF }).cragFault k (faultOf st) st).chunkOver slot j 0

/-- The reads of chunk j of an OPTIM: parameters, gradients, first and second moments, once its writes can be made as well; a
status is the read or the write that fails, none a wait. -/
def Mach.chunkIn (m : Mach) (slot j : Nat) (c : Cmd) :
    Except (Option Nat) (List Byte × List Byte × List Byte × List Byte) × Mach :=
  let o := optimOf c.desc
  let ast := fld c.desc 16 2
  let die := slotDie slot
  let eng := o.first + j % o.count
  let at' := 4096 * j
  let n := min 4096 (o.n - at')
  match m.loadLocal slot die eng ast (o.p + at' * optSize o.pt) (n * optSize o.pt) with
  | (.failed st, m) => (.error (some st), m)
  | (.wait, m) => (.error none, m)
  | (.ok ps, m) => match m.loadLocal slot die eng ast (o.g + at' * optSize o.gt) (n * optSize o.gt) with
    | (.failed st, m) => (.error (some st), m)
    | (.wait, m) => (.error none, m)
    | (.ok gs, m) => match m.loadLocal slot die eng ast (o.st + at' * optSize o.mt) (n * optSize o.mt) with
      | (.failed st, m) => (.error (some st), m)
      | (.wait, m) => (.error none, m)
      | (.ok ms, m) => match (if o.adam then m.loadLocal slot die eng ast (o.v + at' * 4) (n * 4) else (.ok [], m)) with
        | (.failed st, m) => (.error (some st), m)
        | (.wait, m) => (.error none, m)
        | (.ok vs, m) =>
          let ready := [(o.p + at' * optSize o.pt, n * optSize o.pt), (o.st + at' * optSize o.mt, n * optSize o.mt)] ++
            (if o.adam then [(o.v + at' * 4, n * 4)] else [])
          match ready.foldl (fun (a : Got × Mach) (x : Nat × Nat) =>
            match a with
            | (.failed st, m) => (.failed st, m)
            | (g, m) => match m.localReady die eng ast x.1 x.2 .write with
              | (.failed st, m) => (.failed st, m)
              | (.ok _, m) => (g, m)
              | (.wait, m) => (.wait, m)) (.ok [], m) with
          | (.failed st, m) => (.error (some st), m)
          | (.wait, m) => (.error none, m)
          | (.ok _, m) => (.ok (ps, gs, ms, vs), m)

/-- The writes of chunk j of an OPTIM from what was read: every element by R251. -/
def Mach.chunkOut (m : Mach) (slot j : Nat) (c : Cmd) (hyper ps gs ms vs : List Byte) : Mach :=
  let o := optimOf c.desc
  let ast := fld c.desc 16 2
  let die := slotDie slot
  let eng := o.first + j % o.count
  let at' := 4096 * j
  let n := min 4096 (o.n - at')
  let ks := optConsts hyper
  let outs := (List.range n).map fun i =>
    optElem o.alg hyper ks (lane (optIn o.pt n ps) i) (lane (optIn o.gt n gs) i) (lane (optIn o.mt n ms) i)
      (lane (optIn 0 n vs) i)
  let m := m.storeDvaOn slot die eng ast (o.p + at' * optSize o.pt) (optOut o.pt (outs.map (·.1)))
  let m := m.storeDvaOn slot die eng ast (o.st + at' * optSize o.mt) (optOut o.mt (outs.map (·.2.1)))
  if o.adam then m.storeDvaOn slot die eng ast (o.v + at' * 4) (optOut 0 (outs.map (·.2.2))) else m

/-- OPTIM_CHUNK_READS_DONE: every read of a chunk in flight succeeds and its writes are made; a read that fails leaves it
untouched (R252). -/
def Mach.rowOptimChunkReadsDone (m : Mach) (slot j : Nat) : Mach :=
  match m.cmd? slot, tget m.eng.crag.optims slot with
  | some c, some r =>
    if !r.started.contains j ∨ !m.hasCrags slot then m else
    match m.chunkIn slot j c with
    | (.error none, m) => m
    | (.error (some st), m) => m.chunkFail slot j st
    | (.ok (ps, gs, ms, vs), m) =>
      let m := m.chunkOut slot j c r.hyper ps gs ms vs
      match c.fail.isSome, (m.cmd? slot).bind (·.fail) with
      | false, some st => m.chunkFail slot j st
      | _, _ => m.chunkOver slot j (min 4096 ((optimOf c.desc).n - 4096 * j))
  | _, _ => m

end Sys2Proof.Machine
end

