-- ==== Sys2Proof/Machine/TalusRows.lean ====
section
/-! DEFINITION. Talus (09_talus.md): tables, index classes, remap, GATHER, prefetch sets, POOL and SCATTER. -/

namespace Sys2Proof.Machine

/-! ## Table descriptors (R258, R259) -/

/-- Row format of a table descriptor. -/
def tabFmt (t : List Byte) : Nat := fld t 1 1
/-- Its slot. -/
def tabSlot (t : List Byte) : Nat := fld t 2 1
/-- Elements per row. -/
def tabE (t : List Byte) : Nat := fld t 4 2
/-- Row stride. -/
def tabStride (t : List Byte) : Nat := fld t 16 4
/-- Whether remap is enabled. -/
def tabRemap (t : List Byte) : Bool := bit (fld t 3 1) 0
/-- The remap bank that a command pins. -/
def tabBank (t : List Byte) : Nat := if bit (fld t 3 1) 1 then fld t 40 8 else fld t 32 8
/-- Whether a format carries a row scale. -/
def fmtScaled (f : Nat) : Bool := f == 2 || f == 3 || f == 4
/-- Row bytes. -/
def tabRowBytes (t : List Byte) : Nat :=
  if fmtScaled (tabFmt t) then ceilDiv (tabE t) 4 * 4 + 4 else tabE t * (fmtBits (tabFmt t) / 8)

/-- The rules of Table 09-1. -/
def tableOk (t : List Byte) : Bool :=
  let bankOk (o : Nat) : Bool := if tabRemap t then fld t o 8 % 2 ^ 20 == 0 else fld t o 8 == 0
  fld t 0 1 == 1 && decide (2 ≤ tabFmt t) && decide (tabFmt t ≤ 7) && decide (fld t 3 1 < 4) && decide (1 ≤ tabE t) &&
  decide (tabE t ≤ 4096) && decide (tabRowBytes t ≤ 16384) && decide (1 ≤ fld t 6 1) && decide (fld t 6 1 ≤ 64) &&
  decide (fld t 7 1 ≤ 40) && decide (fld t 8 8 ≤ fld t 6 1 * 2 ^ fld t 7 1) && decide (1 ≤ fld t 8 8) &&
  decide (fld t 8 8 ≤ 2 ^ 40) && tabStride t % 16 == 0 && decide (tabRowBytes t ≤ tabStride t) &&
  decide (tabStride t ≤ 2 ^ 24) && fld t 20 4 == 0 && fld t 24 8 % 64 == 0 && bankOk 32 && bankOk 40 &&
  allZero (slice t 48 16)

/-- R264: whether a queue's owner may use a slot, coded as event blocks are (R217). -/
def Mach.slotOk (m : Mach) (owner slot : Nat) : Bool :=
  let o := m.reg 0x5101 2 slot
  owner == 0xFF || o == 0xFE || o == owner

/-! ## Runs -/

/-- The run of a slot. -/
def Mach.talus? (m : Mach) (slot : Nat) : Option TalusRun := tget m.eng.talus.runs slot
/-- A run replaced. -/
def Mach.setTalus (m : Mach) (slot : Nat) (r : TalusRun) : Mach :=
  { m with eng := { m.eng with talus := { m.eng.talus with runs := tput m.eng.talus.runs slot r } } }

/-- A run at its start. -/
def TalusRun.fresh : TalusRun :=
  { table := [], begun := false, todo := [], dropped := [], stop := none, nulls := 0, negs := 0, oors := 0, bag := 0, hi := 0
    next := 0, acc := [], bagFailed := false, waiting := none }

/-- R257: whether a command may take one of the 16 places of its die's engine: those admitted before it that have none go
first. -/
def Mach.talusTurn (m : Mach) (slot : Nat) : Bool :=
  let order (k : Nat) : Nat := ((m.cmd? k).map (·.order)).getD 0
  decide ((m.eng.talus.runs.filter fun (p : Nat × TalusRun) => slotDie p.1 == slotDie slot).length < 16) &&
  !(m.sched.slots.any fun (p : Nat × Cmd) => slotDie p.1 == slotDie slot && !p.2.done && (m.talus? p.1).isNone &&
    [0x10, 0x11, 0x12].contains (descOp p.2.desc) && decide (p.2.order < order slot))

/-- The prefetch set of a queue. -/
def Mach.prefetchSet (m : Mach) (q : Nat) : Option PrefetchSet := m.eng.talus.sets.find? (·.queue == q)

/-- A Talus command's record: the dropped-index counts, saturated (R279), with DETAIL given where R272 puts the bag there. -/
def Mach.talusEnd (m : Mach) (slot : Nat) (st : Option Nat) (detail : Option Nat) : Mach :=
  match m.talus? slot with
  | none => match st with | some s => m.failCmd slot s | none => m.finish slot 0 0
  | some r =>
    let sat (n : Nat) : Nat := min n (2 ^ 32 - 1)
    let m := m.finish slot (detail.getD (sat r.nulls)) (sat r.oors * 2 ^ 32 + sat r.negs)
    match st with
    | some s => m.failCmd slot s
    | none => m

/-! ## Indices, remap and shards (R260-R263) -/

/-- The class of an index: valid with its number, null, negative, or out of range. -/
inductive IndexClass where
  | valid (i : Nat) | null | negative | outOfRange
  deriving DecidableEq, Repr

/-- R260: an index of a list, of w bytes. -/
def classify (bs : List Byte) (n : Nat) : IndexClass :=
  let i := toSigned (8 * bs.length) (leNat bs)
  if i = -1 then .null else if i < 0 then .negative else if (n : Int) ≤ i then .outOfRange else .valid i.toNat

/-- R261: the set of an index in a remap bank. -/
def remapSet (i : Nat) : Nat := (Nat.xor (Nat.xor i (i / 2 ^ 14)) (i / 2 ^ 28)) % 2 ^ 14

/-- How the place of a row is found. -/
inductive RowPlace where
  | at (r : RowRef) (remapped : Bool)
  | stop (status : Nat)
  | wait
  deriving DecidableEq, Repr

/-- Table 09-2: what a set line says of an index: nothing, a bad entry, or its target and shard. -/
def remapLook (line : List Byte) (p i : Nat) : Option (Option (Nat × Nat)) :=
  ((List.range 4).find? fun w => bit (fld line (16 * w) 8) 63 && fld line (16 * w) 8 % 2 ^ 40 == i).map fun w =>
    let a := fld line (16 * w) 8
    let b := fld line (16 * w + 8) 8
    if bit a 62 ∨ bits a 55 40 ≠ 0 ∨ p ≤ bits a 61 56 ∨ b % 16 ≠ 0 ∨ 2 ^ 48 ≤ b then none else some (b, bits a 61 56)

/-- Whether a valid entry of a set line that names an index, or any other valid entry of it, breaks Table 09-2. -/
def remapBad (line : List Byte) (p : Nat) : Bool :=
  (List.range 4).any fun w =>
    let a := fld line (16 * w) 8
    let b := fld line (16 * w + 8) 8
    bit a 63 && (bit a 62 || bits a 55 40 != 0 || decide (p ≤ bits a 61 56) || b % 16 != 0 || decide (2 ^ 48 ≤ b))

/-- R259, R261: where row i of a table lies, for a command or a prefetch under a slot number. -/
def Mach.placeRow (m : Mach) (slot ast : Nat) (t : List Byte) (pos i : Nat) : RowPlace × Mach :=
  let die := slotDie slot
  let s := i / 2 ^ fld t 7 1
  let direct (m : Mach) : RowPlace × Mach :=
    match m.loadDvaOn slot die engTalus ast (fld t 24 8 + 8 * s) 8 with
    | (.wait, m) => (.wait, m)
    | (.failed st, m) => (.stop st, m)
    | (.ok bs, m) =>
      let d := leNat bs
      if d % 16 ≠ 0 ∨ 2 ^ 48 ≤ d then (.stop stBadFormat, m)
      else (.at ⟨pos, i, d + (i - s * 2 ^ fld t 7 1) * tabStride t, s⟩ false, m)
  if !tabRemap t then direct m else
  match m.loadLocal slot die engTalus ast (tabBank t + 64 * remapSet i) 64 with
  | (.wait, m) => (.wait, m)
  | (.failed st, m) => (.stop st, m)
  | (.ok line, m) =>
    if remapBad line (fld t 6 1) then (.stop stBadFormat, m)
    else match remapLook line (fld t 6 1) i with
      | some (some (dva, sh)) => (.at ⟨pos, i, dva, sh⟩ true, m)
      | some none => (.stop stBadFormat, m)
      | none => direct m

/-- R263: a row read issued, counted at its shard. -/
def Mach.countRow (m : Mach) (t : List Byte) (r : RowRef) : Mach := (m.bumpBy 0x5110 (2 + r.shard) (tabSlot t) 1).bump 0x7090 4

/-- A remap match counted. -/
def Mach.countMatch (m : Mach) (t : List Byte) (hit : Bool) : Mach := if hit then m.bumpBy 0x5110 0x45 (tabSlot t) 1 else m

/-- A dropped index counted in its command and at the table's slot (R260). -/
def Mach.countDrop (m : Mach) (slot : Nat) (t : List Byte) (c : IndexClass) : Mach :=
  match m.talus? slot with
  | none => m
  | some r =>
    match c with
    | .null => (m.setTalus slot { r with nulls := r.nulls + 1 }).bumpBy 0x5110 0x44 (tabSlot t) 1
    | .negative => (m.setTalus slot { r with negs := r.negs + 1 }).bumpBy 0x5110 0x43 (tabSlot t) 1
    | .outOfRange => (m.setTalus slot { r with oors := r.oors + 1 }).bumpBy 0x5110 0x42 (tabSlot t) 1
    | .valid _ => m

/-- Index j of a list, read by its 64 B line. -/
def Mach.indexAt (m : Mach) (slot ast list w j : Nat) : Got × Mach :=
  let a := list + w * j
  match m.loadDvaOn slot (slotDie slot) engTalus ast (a / 64 * 64) 64 with
  | (.ok line, m) => (.ok (slice line (a % 64) w), m)
  | r => r

/-- The rows of positions j to n of a list: those placed, remap matches marked, and classes of dropped ones, until the list
ends or a failure stops it; none while something is awaited. -/
def Mach.placeList (slot ast list w : Nat) (t : List Byte) :
    Nat → Mach → Nat → List (Nat × Except IndexClass (RowRef × Bool)) →
    Option (List (Nat × Except IndexClass (RowRef × Bool)) × Option Nat) × Mach
  | 0, m, _, acc => (some (acc.reverse, none), m)
  | k + 1, m, j, acc =>
    match m.indexAt slot ast list w j with
    | (.wait, m) => (none, m)
    | (.failed st, m) => (some (acc.reverse, some st), m)
    | (.ok bs, m) =>
      match classify bs (fld t 8 8) with
      | .valid i =>
        match m.placeRow slot ast t j i with
        | (.wait, m) => (none, m)
        | (.stop st, m) => (some (acc.reverse, some st), m)
        | (.at r hit, m) => Mach.placeList slot ast list w t k m (j + 1) ((j, .ok (r, hit)) :: acc)
      | c => Mach.placeList slot ast list w t k m (j + 1) ((j, .error c) :: acc)

/-! ## Starting a command -/

/-- Whether a command's destination is a scratchpad. -/
def talusScratch (d : List Byte) : Bool := descOp d != 0x11 && bit (fld d 18 1) 1

/-- The form checks common to GATHER and POOL of a destination. -/
def talusDestOk (d : List Byte) (o : Nat) : Bool :=
  if talusScratch d then decide (fld d 19 1 < 40) && fld d o 8 % 64 == 0 && decide (fld d o 8 < 2 ^ 21)
  else fld d 19 1 == 0 && fld d o 8 % 16 == 0 && decide (fld d o 8 < 2 ^ 48)

/-- The index width of a Talus command, in bytes. -/
def indexWidth (d : List Byte) : Nat := if bit (fld d 18 1) 0 then 8 else 4

/-- Fields that every Talus command has. -/
def talusCommonOk (d : List Byte) : Bool :=
  decide (1 ≤ fld d 20 4) && fld d 24 8 % 64 == 0 && decide (fld d 24 8 < 2 ^ 48) && fld d 32 8 % indexWidth d == 0 &&
  decide (fld d 32 8 < 2 ^ 48)

/-- The form checks of a GATHER (Table 09-3). -/
def gatherOk (d : List Byte) : Bool :=
  talusCommonOk d && decide (fld d 18 1 < 8) && talusDestOk d 40 && fld d 48 4 % (if talusScratch d then 64 else 16) == 0 &&
  (if bit (fld d 18 1) 2 then decide (1 ≤ fld d 52 4) && fld d 56 8 % indexWidth d == 0 && decide (fld d 56 8 < 2 ^ 48)
   else fld d 52 4 == 0 && fld d 56 8 == 0)

/-- The form checks of a POOL (Table 09-4). -/
def poolOk (d : List Byte) : Bool :=
  let f := fld d 18 1
  talusCommonOk d && decide (f < 64) && bits f 5 4 != 3 && decide (fld d 20 4 ≤ 16777216) && talusDestOk d 56 &&
  fld d 40 8 % (if bit f 3 then 8 else 4) == 0 && decide (fld d 40 8 < 2 ^ 48) &&
  (if bit f 2 then fld d 48 8 % 4 == 0 && decide (fld d 48 8 < 2 ^ 48) else fld d 48 8 == 0)

/-- The form checks of a SCATTER (Table 09-5). -/
def scatterOk (d : List Byte) : Bool :=
  talusCommonOk d && decide (fld d 18 1 < 4) && fld d 19 1 == 0 && fld d 40 8 % 16 == 0 && decide (fld d 40 8 < 2 ^ 48) &&
  fld d 48 4 % 16 == 0 && allZero (slice d 52 12)

/-- The output format of a POOL, as a code of Table 08-3. -/
def poolFmt (d : List Byte) : Nat := match bits (fld d 18 1) 5 4 with | 0 => 7 | 1 => 5 | _ => 6

/-- Bytes from one output row of a POOL to the next (R273). -/
def poolStride (d t : List Byte) : Nat := ceilDiv (tabE t * (fmtBits (poolFmt d) / 8)) 64 * 64

/-- What a descriptor and its table must satisfy together: a status, 0 for nothing wrong. -/
def talusTableFail (d t : List Byte) : Nat :=
  let rb := tabRowBytes t
  match descOp d with
  | 0x10 =>
    if fld d 48 4 < rb then stInvalDesc
    else if talusScratch d ∧ scratchSize < fld d 40 8 + (fld d 20 4 - 1) * fld d 48 4 + rb then stInvalDesc else 0
  | 0x12 => if talusScratch d ∧ scratchSize < fld d 56 8 + fld d 20 4 * poolStride d t then stInvalDesc else 0
  | _ =>
    if bit (fld d 18 1) 1 then
      (if tabFmt t ≠ 7 ∧ tabFmt t ≠ 5 then stBadFormat else if fld d 48 4 < 4 * tabE t then stInvalDesc else 0)
    else if fld d 48 4 < rb then stInvalDesc else 0

/-- A Talus command of an opcode brought to its table: its fields checked, its place and its crag taken, the sets that it
frees freed (R269), its table read and checked (R258, R264). `go` runs once the table is there. -/
def Mach.talusStart (m : Mach) (slot op : Nat) (ok : List Byte → Bool) (go : Mach → Cmd → TalusRun → Mach) : Mach :=
  match m.cmd? slot with
  | none => m
  | some c =>
    if descOp c.desc ≠ op ∨ c.done then m else
    let d := c.desc
    let ast := fld d 16 2
    match m.talus? slot with
    | none =>
      if !m.astOk c.queue ast then m.failCmd slot (badAst c.desc)
      else if !ok d then m.failCmd slot stInvalDesc
      else if !m.talusTurn slot then m
      else
        let m := (m.setCmd slot { c with started := true, progress := m.now }).setTalus slot TalusRun.fresh
        let m := m.freeSets fun s => s.queue == c.queue && !(s.ast == ast && s.desc == fld d 24 8)
        let m := if op = 0x11 then m else m.setSets (m.eng.talus.sets.map fun s => if s.queue = c.queue ∧ s.user.isNone ∧ !s.retired then { s with user := some slot } else s)
        if talusScratch d then m.askCrags slot (slotDie slot) (fld d 19 1) 1 else m
    | some r =>
      if talusScratch d ∧ !m.hasCrags slot then m
      else if r.table ≠ [] then go m c r
      else match m.loadDva slot engTalus ast (fld d 24 8) 64 with
      | (.wait, m) => m
      | (.failed st, m) => m.talusEnd slot (some st) none
      | (.ok t, m) =>
        let f := talusTableFail d t
        if !tableOk t then m.talusEnd slot (some stBadFormat) none
        else if !m.slotOk (m.qOwner c.queue) (tabSlot t) then m.talusEnd slot (some stPerm) none
        else if f ≠ 0 then m.talusEnd slot (some f) none
        else
          let r := { r with table := t }
          go (m.setTalus slot r) c r

/-- The crag of a scratchpad destination. -/
def talusCrag (slot : Nat) (d : List Byte) : Nat × Nat := (slotDie slot, fld d 19 1)

/-- A row of output written: its bytes, or what a failed row leaves (R278); false while it must wait. -/
def Mach.outRow (m : Mach) (slot : Nat) (d : List Byte) (dst n : Nat) (v : Option (List Byte)) : Bool × Mach :=
  if talusScratch d then
    (true, m.scratchWrite (slotDie slot) (fld d 19 1) 2 slot dst (v.getD (zeros n)))
  else
    match m.writeReady slot engTalus (fld d 16 2) dst n with
    | (.wait, m) => (false, m)
    | (.failed st, m) => (true, m.noteFail slot st)
    | (.ok _, m) => match v with
      | some bs => (true, m.storeDva slot engTalus (fld d 16 2) dst bs)
      | none => (true, m.poisonDva slot (slotDie slot) engTalus (fld d 16 2) dst n)

/-! ## Prefetch sets (R268-R270) -/

/-- Sets of a die freed, oldest first, until n bytes of the row buffer are free or none is left. -/
def Mach.evictSets : Nat → Mach → Nat → Nat → Mach
  | 0, m, _, _ => m
  | fuel + 1, m, die, n =>
    let mine := m.eng.talus.sets.filter fun s => queueDie s.queue == die
    if m.reg 0x5100 2 0 < sumL (mine.map fun s => s.count * s.rowBytes) + n then
      match mine with
      | [] => m
      | s :: _ => Mach.evictSets fuel ((m.freeSets (· == s)).bump 0x7090 7) die n
    else m

/-- R268: a set made for the rows of a next list, its reads issued and counted. -/
def Mach.makeSet (m : Mach) (slot : Nat) (c : Cmd) (t : List Byte) (rows : List (RowRef × Bool)) : Mach :=
  let distinct := (rows.foldl (fun acc (x : RowRef × Bool) =>
    if acc.any fun (y : RowRef × Bool) => y.1.idx == x.1.idx then acc else x :: acc) []).reverse
  let rb := tabRowBytes t
  let limit := m.reg 0x5100 1 0
  let want := min (distinct.length * rb) limit
  let die := slotDie slot
  let m := Mach.evictSets (m.eng.talus.sets.length + 1) m die want
  let used := sumL ((m.eng.talus.sets.filter fun s => queueDie s.queue == die).map fun s => s.count * s.rowBytes)
  let n := min distinct.length (min limit (m.reg 0x5100 2 0 - used) / rb)
  let m := m.bumpBy 0x7090 6 0 (distinct.length - n)
  let m := distinct.foldl (fun m x => m.countMatch t x.2) m
  let todo := (distinct.take n).map (·.1)
  let m := todo.foldl (fun m r => m.countRow t r) m
  m.setSets (m.eng.talus.sets ++ [⟨c.queue, fld c.desc 16 2, fld c.desc 24 8, [], todo, rb, n, none, false⟩])

/-- PREFETCH_READ_DONE: the read of a row for a queue's set ends: the row is kept, or left out and counted. -/
def Mach.rowPrefetchReadDone (m : Mach) (q idx : Nat) : Mach :=
  match m.prefetchSet q with
  | none => m
  | some s =>
    match s.todo.find? (·.idx == idx) with
    | none => m
    | some r =>
      match m.loadDvaOn (prefetchSlot q) (queueDie q) engTalus s.ast r.dva s.rowBytes with
      | (.wait, m) => m
      | (got, m) =>
        let rest := s.todo.erase r
        let (s', m) := match got with
          | .ok bs => ({ s with todo := rest, rows := s.rows ++ [(idx, bs)] }, m)
          | _ => ({ s with todo := rest }, m.bump 0x7090 8)
        let m := m.setSets (m.eng.talus.sets.map fun x => if x = s then s' else x)
        if rest = [] then { m with xl := { m.xl with fetches := m.xl.fetches.filter fun f => f.slot ≠ prefetchSlot q } } else m

/-- R269: a row of the set that a command uses. -/
def Mach.heldRow (m : Mach) (slot idx : Nat) : Option (List Byte) :=
  match m.eng.talus.sets.find? (·.user == some slot) with
  | none => none
  | some s => (s.rows.find? (·.1 == idx)).map (·.2)

/-- A row of the command's own list asked for: served from its set, or a read issued. Shard 64 marks the former. -/
def Mach.askRow (m : Mach) (slot : Nat) (t : List Byte) (r : RowRef) (hit : Bool) : RowRef × Mach :=
  let m := m.countMatch t hit
  if (m.heldRow slot r.idx).isSome then ({ r with shard := 64 }, m.bump 0x7090 5) else (r, m.countRow t r)

/-- The bytes of a row asked for. -/
def Mach.loadRow (m : Mach) (slot : Nat) (c : Cmd) (t : List Byte) (r : RowRef) : Got × Mach :=
  match (if r.shard = 64 then m.heldRow slot r.idx else none) with
  | some bs => (.ok bs, m)
  | none => m.loadDva slot engTalus (fld c.desc 16 2) r.dva (tabRowBytes t)

/-! ## GATHER (R265-R267) -/

/-- The zeros of dropped positions written, as far as they can be. -/
def Mach.gatherZeros (m : Mach) (slot : Nat) (c : Cmd) : Mach :=
  match m.talus? slot with
  | none => m
  | some r =>
    r.dropped.foldl (fun m j =>
      match m.outRow slot c.desc (fld c.desc 40 8 + j * fld c.desc 48 4) (tabRowBytes r.table)
          (some (zeros (tabRowBytes r.table))) with
      | (true, m) => (match m.talus? slot with
          | some r => m.setTalus slot { r with dropped := remove r.dropped j }
          | none => m)
      | (false, m) => m) m

/-- A GATHER whose rows are all written ends, its next list read and its set made first (R268). -/
def Mach.gatherCheck (m : Mach) (slot : Nat) (c : Cmd) : Mach :=
  match m.talus? slot with
  | none => m
  | some r =>
    if !r.begun ∨ r.todo ≠ [] ∨ r.dropped ≠ [] then m
    else if r.stop.isSome then m.talusEnd slot r.stop none
    else if !bit (fld c.desc 18 1) 2 then m.talusEnd slot none none
    else match Mach.placeList slot (fld c.desc 16 2) (fld c.desc 56 8) (indexWidth c.desc) r.table (fld c.desc 52 4) m 0 [] with
      | (none, m) => m
      | (some (_, some st), m) => m.talusEnd slot (some st) none
      | (some (l, none), m) =>
        let m := m.freeSets (·.queue == c.queue)
        let m := m.makeSet slot c r.table (l.filterMap fun x => match x.2 with | .ok v => some v | .error _ => none)
        m.talusEnd slot none none

/-- GATHER: begun, its list read and every row of it placed and asked for; delivered again, it writes the zeros of dropped
positions and ends once every row is written. -/
def Mach.rowGather (m : Mach) (slot : Nat) : Mach :=
  m.talusStart slot 0x10 gatherOk fun m c r =>
    let d := c.desc
    if r.begun then (m.gatherZeros slot c).gatherCheck slot c
    else match Mach.placeList slot (fld d 16 2) (fld d 32 8) (indexWidth d) r.table (fld d 20 4) m 0 [] with
    | (none, m) => m
    | (some (l, st), m) =>
      let m := m.setTalus slot { r with begun := true, stop := st }
      let m := l.foldl (fun m x =>
        match x.2 with
        | .ok (ref, hit) =>
          let (ref, m) := m.askRow slot r.table ref hit
          (match m.talus? slot with | some r => m.setTalus slot { r with todo := r.todo ++ [ref] } | none => m)
        | .error cl =>
          let m := m.countDrop slot r.table cl
          (match m.talus? slot with | some r => m.setTalus slot { r with dropped := r.dropped ++ [x.1] } | none => m)) m
      (m.gatherZeros slot c).gatherCheck slot c

/-- A row of a GATHER has come: written whole (R266, R278). -/
def Mach.gatherRow (m : Mach) (slot pos : Nat) (c : Cmd) (r : TalusRun) : Mach :=
  match r.todo.find? (·.pos == pos) with
  | none => m
  | some ref =>
    let n := tabRowBytes r.table
    let dst := fld c.desc 40 8 + pos * fld c.desc 48 4
    let ended (x : Bool × Mach) : Mach :=
      match x, x.2.talus? slot with
      | (true, m), some r => (m.setTalus slot { r with todo := r.todo.erase ref }).gatherCheck slot c
      | (_, m), _ => m
    match m.loadRow slot c r.table ref with
    | (.wait, m) => m
    | (.ok bs, m) => ended (m.outRow slot c.desc dst n (some bs))
    | (.failed st, m) =>
      let (ok, m) := m.outRow slot c.desc dst n none
      ended (ok, if ok then m.noteFail slot st else m)

/-! ## POOL (R271-R273) -/

/-- Element e of a row widened to FP32, the row scale applied. -/
def tabElem (t row : List Byte) (e : Nat) : Nat :=
  let f := tabFmt t
  let w := fmtBits f / 8
  let x := fp32.encode (elemVal f (fld row (e * w) w))
  if fmtScaled f then f32mul x (fld row (ceilDiv (tabE t) 4 * 4) 4) else x

/-- An accumulator with a row of a weight added. -/
def poolAdd (t row : List Byte) (w : Nat) (acc : List Nat) : List Nat :=
  (List.range (tabE t)).map fun e => f32fma w (tabElem t row e) (acc.getD e 0)

/-- The bytes of a bag's output row. -/
def poolOut (d t : List Byte) (acc : List Nat) : List Byte :=
  let bs := packCodes (poolFmt d) (acc.map fun x => elemCode (poolFmt d) (fp32.decode x))
  slice bs 0 (poolStride d t)

/-- Entry b of the offsets array of a POOL. -/
def Mach.poolOffset (m : Mach) (slot : Nat) (d : List Byte) (b : Nat) : Got × Mach :=
  let w := if bit (fld d 18 1) 3 then 8 else 4
  m.loadDva slot engTalus (fld d 16 2) (fld d 40 8 + w * b) w

/-- The next thing a POOL does: it reaches a bag, ends it, drops an index, or asks for a row; true when it may go on. -/
def Mach.poolStep (m : Mach) (slot : Nat) (c : Cmd) (r : TalusRun) : Bool × Mach :=
  let d := c.desc
  let t := r.table
  if r.waiting.isSome then (false, m)
  else if fld d 20 4 ≤ r.bag then (false, m.talusEnd slot none none)
  else if r.acc = [] then
    let start (lo : Nat) (m : Mach) : Bool × Mach :=
      match m.poolOffset slot d (r.bag + 1) with
      | (.wait, m) => (false, m)
      | (.failed st, m) => (false, m.talusEnd slot (some st) none)
      | (.ok bs, m) =>
        if leNat bs < lo ∨ 2 ^ 32 ≤ leNat bs then (false, m.talusEnd slot (some stBadFormat) (some r.bag))
        else (true, m.setTalus slot { r with
          acc := List.replicate (tabE t) 0, next := lo, hi := leNat bs, bagFailed := false })
    if r.bag = 0 then
      match m.poolOffset slot d 0 with
      | (.wait, m) => (false, m)
      | (.failed st, m) => (false, m.talusEnd slot (some st) none)
      | (.ok bs, m) => if leNat bs ≠ 0 then (false, m.talusEnd slot (some stBadFormat) (some 0)) else start 0 m
    else start r.hi m
  else if r.next < r.hi then
    match m.indexAt slot (fld d 16 2) (fld d 32 8) (indexWidth d) r.next with
    | (.wait, m) => (false, m)
    | (.failed st, m) => (false, m.talusEnd slot (some st) none)
    | (.ok bs, m) =>
      match classify bs (fld t 8 8) with
      | .valid i =>
        (match m.placeRow slot (fld d 16 2) t r.next i with
        | (.wait, m) => (false, m)
        | (.stop st, m) => (false, m.talusEnd slot (some st) none)
        | (.at ref hit, m) =>
          let (ref, m) := m.askRow slot t ref hit
          (false, m.setTalus slot { r with waiting := some ref }))
      | cl =>
        let m := m.setTalus slot { r with next := r.next + 1 }
        (true, m.countDrop slot t cl)
  else
    match m.outRow slot d (fld d 56 8 + r.bag * poolStride d t) (poolStride d t)
        (if r.bagFailed then none else some (poolOut d t r.acc)) with
    | (false, m) => (false, m)
    | (true, m) => (true, m.setTalus slot { r with bag := r.bag + 1, acc := [] })

/-- A POOL carried on until it waits for a row, a read outside the package or a host's copy. -/
def Mach.poolRun : Nat → Mach → Nat → Cmd → Mach
  | 0, m, _, _ => m
  | fuel + 1, m, slot, c =>
    match m.talus? slot with
    | none => m
    | some r =>
      match m.poolStep slot c r with
      | (true, m) => Mach.poolRun fuel m slot c
      | (false, m) => m

/-- POOL: begun or carried on. -/
def Mach.rowPool (m : Mach) (slot : Nat) : Mach :=
  m.talusStart slot 0x12 poolOk fun m c _ => Mach.poolRun 65536 m slot c

/-- The row that a POOL waits for has come: added with its weight (R273), or its bag failed (R278). -/
def Mach.poolRow (m : Mach) (slot pos : Nat) (c : Cmd) (r : TalusRun) : Mach :=
  match r.waiting with
  | none => m
  | some ref =>
    if ref.pos ≠ pos then m else
    let ended (m : Mach) (r : TalusRun) : Mach :=
      Mach.poolRun 65536 (m.setTalus slot { r with waiting := none, next := r.next + 1 }) slot c
    match m.loadRow slot c r.table ref with
    | (.wait, m) => m
    | (.failed st, m) => ended (m.noteFail slot st) { r with bagFailed := true }
    | (.ok row, m) =>
      if !bit (fld c.desc 18 1) 2 then ended m { r with acc := poolAdd r.table row 0x3F800000 r.acc }
      else match m.loadDva slot engTalus (fld c.desc 16 2) (fld c.desc 48 8 + 4 * pos) 4 with
      | (.wait, m) => m
      | (.failed st, m) => m.talusEnd slot (some st) none
      | (.ok w, m) => ended m { r with acc := poolAdd r.table row (leNat w) r.acc }

/-- ROW_READ_DONE: the read of the row of a list position ends. -/
def Mach.rowRowReadDone (m : Mach) (slot pos : Nat) : Mach :=
  match m.cmd? slot, m.talus? slot with
  | some c, some r =>
    if c.done then m
    else if descOp c.desc = 0x10 then m.gatherRow slot pos c r
    else if descOp c.desc = 0x12 then m.poolRow slot pos c r
    else m
  | _, _ => m

/-! ## SCATTER (R274-R277) -/

/-- One element of a SCATTER in ADD mode: an atomic FADD at its home, a frame to it, or a read and a write through a host
path (R276); none while it waits. -/
def Mach.scatterAdd (m : Mach) (slot ast dva aop v : Nat) : Option Nat × Mach :=
  let w := atomicWidth aop
  match m.xlate (slotDie slot) engTalus ast dva .atomic with
  | (.fault st, m) => (some st, m)
  | (.wait, m) => (none, m)
  | (.local dpa _, m) =>
    match m.recall dpa w true with
    | some m => (none, m)
    | none =>
      match m.atomicAt (m.homeOf dpa) dpa aop v 0 (.cmd slot) with
      | (.ok _, m) => (some 0, m)
      | (.error st, m) => (some st, m)
  | (.gfa a key _, m) =>
    if m.nodeDead (a / 2 ^ 50) then (some stTargetDead, m.bump 0x7060 0x0D)
    else match m.newTag (slotDie slot) false, m.cmd? slot with
    | some tag, some c =>
      let m := m.setCmd slot { c with fabricOut := c.fabricOut + 1 }
      (some 0, m.sendReq slot (m.reqFrame opAtomic 2 0 a key tag 0 aop 0 0 true true (slice (leBytes 16 v) 0 64)) (.publish slot))
    | _, _ => (none, m)
  | (.host p a _, m) =>
    match m.fetchHost slot p a w with
    | (.wait, m) => (none, m)
    | (.failed st, m) => (some st, m)
    | (.ok bs, m) =>
      let m := { m with xl := { m.xl with fetches := m.xl.fetches.filter fun f => !(f.slot == slot && !f.gfa && f.addr == a) } }
      (some 0, m.writeHost slot p a (leBytes w (atomicNew aop (leNat bs) v 0)))

/-- The elements of a row added in order from element e on: the first that must wait, or none when all are done. -/
def Mach.scatterRow (slot ast dva aop : Nat) (codes : List Nat) : Nat → Mach → Nat → Option Nat × Mach
  | 0, m, _ => (none, m)
  | k + 1, m, e =>
    match m.scatterAdd slot ast (dva + e * atomicWidth aop) aop (codes.getD e 0) with
    | (none, m) => (some e, m)
    | (some st, m) => Mach.scatterRow slot ast dva aop codes k (m.noteFail slot st) (e + 1)

/-- The next index of a SCATTER: true when it may go on. -/
def Mach.scatterStep (m : Mach) (slot : Nat) (c : Cmd) (r : TalusRun) : Bool × Mach :=
  let d := c.desc
  let t := r.table
  let ast := fld d 16 2
  let j := r.next
  if fld d 20 4 ≤ j then (false, m.talusEnd slot none none) else
  match m.indexAt slot ast (fld d 32 8) (indexWidth d) j with
  | (.wait, m) => (false, m)
  | (.failed st, m) => (false, m.talusEnd slot (some st) none)
  | (.ok bs, m) =>
    match classify bs (fld t 8 8) with
    | .valid i =>
      let add := bit (fld d 18 1) 1
      let n := if add then 4 * tabE t else tabRowBytes t
      (match m.placeRow slot ast t j i with
      | (.wait, m) => (false, m)
      | (.stop st, m) => (false, m.talusEnd slot (some st) none)
      | (.at ref hit, m) =>
        let src := fld d 40 8 + j * fld d 48 4
        let next (m : Mach) : Bool × Mach := (true, (m.setTalus slot { r with next := j + 1, bag := 0 }).countMatch t hit)
        match m.loadLocal slot (slotDie slot) engTalus ast src n with
        | (.wait, m) => (false, m)
        | (.failed st, m) => if st = stBadFormat then (false, m.talusEnd slot (some st) none) else next (m.noteFail slot st)
        | (.ok row, m) =>
          if add then
            let codes := (List.range (tabE t)).map fun e =>
              if tabFmt t = 7 then fld row (4 * e) 4 else bf16.encode (fp32.decode (fld row (4 * e) 4))
            match Mach.scatterRow slot ast ref.dva (if tabFmt t = 7 then 0x95 else 0x96) codes (tabE t - r.bag) m r.bag with
            | (some e, m) => (false, m.setTalus slot { r with bag := e })
            | (none, m) => next m
          else match m.writeReady slot engTalus ast ref.dva n with
          | (.wait, m) => (false, m)
          | (.failed st, m) => next (m.noteFail slot st)
          | (.ok _, m) => next (m.storeDva slot engTalus ast ref.dva row))
    | cl => (true, (m.setTalus slot { r with next := j + 1 }).countDrop slot t cl)

/-- A SCATTER carried on until it waits. -/
def Mach.scatterRun : Nat → Mach → Nat → Cmd → Mach
  | 0, m, _, _ => m
  | fuel + 1, m, slot, c =>
    match m.talus? slot with
    | none => m
    | some r =>
      match m.scatterStep slot c r with
      | (true, m) => Mach.scatterRun fuel m slot c
      | (false, m) => m

/-- SCATTER: begun or carried on. -/
def Mach.rowScatter (m : Mach) (slot : Nat) : Mach :=
  m.talusStart slot 0x11 scatterOk fun m c _ => Mach.scatterRun 65536 m slot c

/-! ## The end of a command, and the slots -/

/-- What a Talus command's end leaves: its run taken away, the set it used freed (R269). -/
def Mach.talusGone (m : Mach) (slot : Nat) : Mach :=
  ({ m with eng := { m.eng with talus := { m.eng.talus with runs := tdel m.eng.talus.runs slot } } } : Mach).freeSets
    (·.user == some slot)

/-- CLEAR_SLOT_COUNTERS: a write of 1 to 0x5110.46 clears the selected slot's counters (R280). -/
def Mach.rowClearSlotCounters (m : Mach) (s : Src) : Mach :=
  m.dictWrite s 0x5110 0x46 fun m =>
    let row := m.rowOf s.q 0x5110 0x46
    .ok ((List.range 68).foldl (fun m i => m.setReg 0x5110 (2 + i) row 0) m)

end Sys2Proof.Machine
end

