-- ==== Sys2Proof/Machine/CirqueOps.lean ====
section
/-! DEFINITION. What Cirque computes (10_cirque.md R283-R299): index structures, distances, product quantisation, candidates
and the top-k. -/

namespace Sys2Proof.Machine

/-! ## Reads of one command

A search reads many structures; each may fail, or wait for a host's copy to be recalled. -/

/-- A computation of Cirque that may end with a failure (`some`) or a wait (`none`). -/
abbrev Eng (α : Type) := ExceptT (Option Nat) (StateM Mach) α

/-- A computation run on the machine: its value, a failure, or a wait. -/
def Eng.on {α : Type} (x : Eng α) (m : Mach) : Except (Option Nat) α × Mach := x.run.run m

/-- The machine changed within a computation. -/
def Eng.act (f : Mach → Mach) : Eng Unit := modify f

/-- A computation ended with a status. -/
def Eng.fail {α : Type} (st : Nat) : Eng α := throw (some st)

/-- n bytes that must lie behind LOCAL leaves, read through the Col cache of a die (R282). -/
def Eng.need (slot die ast dva n : Nat) : Eng (List Byte) := do
  let (g, m) := (← get).loadLocal slot die engCirque ast dva n
  set m
  match g with
  | .ok bs => pure bs
  | .failed st => Eng.fail st
  | .wait => throw none

/-! ## The index descriptor (Table 10-1) -/

/-- Vector format F. -/
def ixFmt (l : List Byte) : Nat := fld l 2 1
/-- Whether the codes are product-quantised. -/
def ixPq (l : List Byte) : Bool := fld l 3 1 == 1
/-- Dimension D. -/
def ixD (l : List Byte) : Nat := fld l 4 2
/-- Subspaces M. -/
def ixM (l : List Byte) : Nat := fld l 6 1
/-- Whether a raw store is present. -/
def ixRaw (l : List Byte) : Bool := bit (fld l 7 1) 0
/-- List count C. -/
def ixC (l : List Byte) : Nat := fld l 8 4
/-- Side capacity. -/
def ixCap (l : List Byte) : Nat := fld l 40 4
/-- Bytes of an element of F. -/
def ixW (l : List Byte) : Nat := fmtBits (ixFmt l) / 8
/-- Bytes of a vector record. -/
def ixV (l : List Byte) : Nat := ixD l * ixW l + 16
/-- Bytes of a code. -/
def ixCode (l : List Byte) : Nat := if ixPq l then ixM l else ixV l
/-- Bytes of a side entry's raw vector record. -/
def ixRawLen (l : List Byte) : Nat := if ixPq l && ixRaw l then ixV l else 0
/-- Bytes of a side entry (R299). -/
def ixE (l : List Byte) : Nat := 64 * ceilDiv (16 + ixCode l + ixRawLen l) 64

/-- The rules of line 0. -/
def line0Ok (l : List Byte) : Bool :=
  fld l 0 1 == 1 && decide (fld l 1 1 ≤ 2) && decide (2 ≤ ixFmt l) && decide (ixFmt l ≤ 7) &&
  !(ixFmt l == 4 && fld l 1 1 == 2) && decide (fld l 3 1 ≤ 1) && decide (32 ≤ ixD l) && decide (ixD l ≤ 4096) &&
  ixD l % 32 == 0 && (if ixPq l then [8, 16, 32, 64, 128].contains (ixM l) && ixD l % ixM l == 0 else ixM l == 0) &&
  decide (fld l 7 1 ≤ 1) && !(ixRaw l && !ixPq l) && decide (1 ≤ ixC l) && decide (ixC l ≤ 65536) && fld l 12 4 == 0 &&
  fld l 16 8 % 64 == 0 && (if ixPq l then fld l 24 8 % 64 == 0 else fld l 24 8 == 0) && fld l 32 8 % 64 == 0 &&
  decide (1 ≤ ixCap l) && decide (ixCap l ≤ 524288) && allZero (slice l 44 20)

/-- Side count of a state line. -/
def stCount (s : List Byte) : Nat := fld s 8 8
/-- Side merged. -/
def stMerged (s : List Byte) : Nat := fld s 16 8
/-- Generation. -/
def stGen (s : List Byte) : Nat := fld s 24 4

/-- The rules of a state line. -/
def stateOk (l s : List Byte) : Bool :=
  fld s 0 8 % 64 == 0 && decide (stMerged s ≤ stCount s) && decide (stCount s ≤ stMerged s + ixCap l) && fld s 28 4 == 0 &&
  bits (fld s 32 8) 62 16 == 0 && allZero (slice s 40 24)

/-! ## Distances (R285, R286) -/

/-- Element codes of a vector of an index's format. -/
def ixElems (l bs : List Byte) : List Nat := elemCodes (ixFmt l) (ixD l) bs

/-- R285: dot(a, b) of two lists of element codes of a format, as an FP32 code. -/
def dotF (f : Nat) : Nat → List Nat → List Nat → Nat → Nat
  | 0, _, _, acc => acc
  | n + 1, a, b, acc =>
    let k := if f = 7 then 1 else 32
    dotF f n (a.drop k) (b.drop k)
      (fp32.encode (dotFrom (fp32.decode acc) ((a.take k).map (elemVal f)) ((b.take k).map (elemVal f))))

/-- dot(a, b) of whole vectors. -/
def dot (f : Nat) (a b : List Nat) : Nat := dotF f a.length a b 0

/-- The FP32 code of 1. -/
def f32one : Nat := 0x3F800000

/-- A query made ready (R286): for cosine its elements normalised; a zero query stays zero. -/
def prepQuery (l : List Byte) (q : List Nat) : List Nat :=
  let f := ixFmt l
  let zero (c : Nat) : Bool := match elemVal f c with | .fin _ n _ => n == 0 | _ => false
  if fld l 1 1 ≠ 2 then q else if q.all zero then q.map fun _ => 0 else
  let r := f32op FVal.div f32one (f32sqrt (dot f q q))
  q.map fun c => elemCode f (fp32.decode (f32mul (fp32.encode (elemVal f c)) r))

/-- Table 10-2: the distance of a prepared query from a vector record, an L2 result below 0 as +0. -/
def rawDist (l : List Byte) (q : List Nat) (x : List Byte) : Nat :=
  let f := ixFmt l
  let xs := ixElems l x
  match fld l 1 1 with
  | 0 =>
    let d := f32fma 0xC0000000 (dot f q xs) (f32add (dot f q q) (fld x (ixD l * ixW l) 4))
    if (fp32.decode d).lt .zero then 0 else d
  | 1 => f32neg (dot f q xs)
  | _ => f32op FVal.sub f32one (dot f q xs)

/-- The order of FP32 codes as numbers, signed zeros equal. -/
def f32key (d : Nat) : Nat := if bit d 31 then 2 ^ 31 - d % 2 ^ 31 else 2 ^ 31 + d

/-- Whether an FP32 code is a NaN. -/
def f32nan (d : Nat) : Bool := fp32.decode d == .nan

/-- Whether an element code of a format is a NaN or an infinity. -/
def elemBad (f c : Nat) : Bool := match elemVal f c with | .fin _ _ _ => false | _ => true

/-! ## Product quantisation (R288) -/

/-- Entry c of subspace k of the codebooks, as FP32 codes. -/
def bookEntry (l books : List Byte) (k c : Nat) : List Nat :=
  let s := ixD l / ixM l
  elemCodes 7 s (slice books ((256 * k + c) * 4 * s) (4 * s))

/-- The sum by sequential fma of a query's subspace against a codebook entry: of squared differences, or of products. -/
def bookSum (sq : Bool) : List Nat → List Nat → Nat → Nat
  | a :: as, b :: bs, acc =>
    let t := f32op FVal.sub a b
    bookSum sq as bs (if sq then f32fma t t acc else f32fma a b acc)
  | _, _, acc => acc

/-- A look-up table: u[m][c] by m × 256 + c, the scale and the base. -/
structure Lut where
  u : List Nat
  scale : Nat
  base : Nat
  deriving DecidableEq, Repr

/-- R288: a query's look-up table; none when a codebook entry is not finite. -/
def lutOf (l books : List Byte) (q : List Nat) : Option Lut :=
  let s := ixD l / ixM l
  let qs := q.map fun c => fp32.encode (elemVal (ixFmt l) c)
  let l2 := fld l 1 1 = 0
  let tab := (List.range (ixM l)).map fun k => (List.range 256).map fun c =>
    let x := bookSum l2 ((qs.drop (k * s)).take s) (bookEntry l books k c) 0
    if l2 then x else f32neg x
  if tab.any fun row => row.any fun x => elemBad 7 x then none else
  let mins := tab.map fun row => (minBy f32key row).getD 0
  let diffs := (List.range (ixM l)).map fun k => (tab.getD k []).map fun x => f32op FVal.sub x (mins.getD k 0)
  let span := (minBy (fun x => 2 ^ 32 - f32key x) diffs.flatten).getD 0
  let scale := if f32key span = 2 ^ 31 then f32one else f32op FVal.div span (fp32.encode (.fin false 65535 0))
  some {
    u := diffs.flatten.map fun x => min 65535 (intCode 32 (fp32.decode (f32op FVal.div x scale)))
    scale := scale
    base := mins.foldl f32add 0 }

/-- A code's score U, and the distance it reports. -/
def lutScore (l : List Byte) (t : Lut) (code : List Byte) : Nat × Nat :=
  let u := sumL ((List.range (ixM l)).map fun k => t.u.getD (k * 256 + fld code k 1) 0)
  let d := f32fma t.scale (fp32.encode (.fin false u 0)) t.base
  (u, if fld l 1 1 = 2 then f32add d f32one else d)

/-- Code byte m of an input: the entry of least (squared distance, c) in each subspace (R302); none when a codebook entry
is not finite. -/
def pqEncode (l books : List Byte) (x : List Nat) : Option (List Byte) :=
  let s := ixD l / ixM l
  let xs := x.map fun c => fp32.encode (elemVal (ixFmt l) c)
  let all := (List.range (ixM l)).map fun k => (List.range 256).map fun c =>
    bookSum true ((xs.drop (k * s)).take s) (bookEntry l books k c) 0
  if all.any fun row => row.any fun x => elemBad 7 x then none
  else some (all.map fun row => byteOf ((minBy (fun c => f32key (row.getD c 0)) (List.range 256)).getD 0))

/-! ## Structures read for a command (R283, R284, R291, R299, R335) -/

/-- Line 0, the centroids and the codebooks of an index, from the structure cache or the store. -/
structure Structs where
  line0 : List Byte
  cents : List Byte
  books : List Byte
  deriving DecidableEq, Repr

/-- Bytes of an index's line 0, centroids and codebooks. -/
def structLen (l : List Byte) : Nat := 64 + ixC l * ixV l + (if ixPq l then 1024 * ixD l else 0)

/-- An entry put in a die's structure cache, most recently used last: at most four entries and 4 MiB (R335). -/
def Mach.cacheStruct (m : Mach) (e : StructEntry) : Mach :=
  if m.reg 0x5420 2 0 = 0 ∨ 4194304 < structLen e.line0 then m else
  let others := m.eng.cirque.cache.filter fun x => x.die ≠ e.die
  let mine := (m.eng.cirque.cache.filter fun x => x.die == e.die && !(x.ast == e.ast && x.desc == e.desc)) ++ [e]
  let rec trim : Nat → List StructEntry → List StructEntry
    | 0, l => l
    | n + 1, l => if 4 < l.length ∨ 4194304 < sumL (l.map fun x => structLen x.line0) then trim n l.tail else l
  { m with eng := { m.eng with cirque := { m.eng.cirque with cache := others ++ trim 5 mine } } }

/-- The structures of an index for a command of a die. -/
def Eng.structs (slot die ast desc : Nat) : Eng Structs := do
  let m ← get
  match m.eng.cirque.cache.find? fun e => e.die == die && e.ast == ast && e.desc == desc with
  | some e =>
    Eng.act (·.cacheStruct e)
    pure ⟨e.line0, e.cents, e.books⟩
  | none =>
    let l ← Eng.need slot die ast desc 64
    if !line0Ok l then Eng.fail stBadFormat else
    let cents ← Eng.need slot die ast (fld l 16 8) (ixC l * ixV l)
    let books ← if ixPq l then Eng.need slot die ast (fld l 24 8) (1024 * ixD l) else pure []
    Eng.act (·.cacheStruct ⟨die, ast, desc, l, cents, books⟩)
    pure ⟨l, cents, books⟩

/-- A centroid's vector record. -/
def Structs.cent (x : Structs) (c : Nat) : List Byte := slice x.cents (c * ixV x.line0) (ixV x.line0)

/-- The DPA of a DVA that must translate to a LOCAL leaf. -/
def Eng.dpa (die ast dva : Nat) (acc : Acc) : Eng Nat := do
  let (t, m) := (← get).xlate die engCirque ast dva acc
  set m
  match t with
  | .local a _ => pure a
  | .fault st => Eng.fail st
  | .wait => throw none
  | _ => Eng.fail stBadFormat

/-- The state line that a SEARCH pins, registered until its command ends (R291, R304). -/
def Eng.pin (slot die ast desc : Nat) (l : List Byte) : Eng (List Byte) := do
  match (← get).eng.cirque.pins.find? (·.slot == slot) with
  | some p => pure p.state
  | none =>
    let dpa ← Eng.dpa die ast desc .read
    let s ← Eng.need slot die ast (desc + 64) 64
    if !stateOk l s then Eng.fail stBadFormat else
    Eng.act fun m => { m with eng := { m.eng with cirque := { m.eng.cirque with
      pins := m.eng.cirque.pins ++ [⟨slot, dpa, s⟩] } } }
    pure s

/-- A directory entry (R284): code, ID and raw blocks and the entry count. -/
structure DirEntry where
  code : Nat
  ids : Nat
  raw : Nat
  n : Nat
  bytes : List Byte
  deriving DecidableEq, Repr

/-- Entry c of the directory. -/
def Eng.dirEntry (slot die ast : Nat) (l s : List Byte) (c : Nat) : Eng DirEntry := do
  let e ← Eng.need slot die ast (fld s 0 8 + 32 * c) 32
  let d : DirEntry := ⟨fld e 0 8, fld e 8 8, fld e 16 8, fld e 24 4, e⟩
  let ok := d.code % 64 == 0 && d.ids % 8 == 0 && d.raw % 16 == 0 && fld e 28 4 == 0 &&
    (ixRaw l || d.raw == 0) && (d.n != 0 || (d.code == 0 && d.ids == 0 && d.raw == 0))
  if ok then pure d else Eng.fail stBadFormat

/-- An entry of a list or a live insert: its ID, its code, the list it is reported with, where its raw record is (a DVA, or
the bytes in a side entry), and its own bytes. -/
structure Item where
  id : Nat
  list : Nat
  code : List Byte
  rawDva : Nat
  raw : List Byte
  deriving DecidableEq, Repr

/-- The ID at a DVA; bits above 39 must be 0. -/
def checkId (v : Nat) : Eng Nat := if v < 2 ^ 40 then pure v else Eng.fail stBadFormat

/-- The entries of a list. -/
def Eng.listItems (slot die ast : Nat) (l s : List Byte) (c : Nat) : Eng (List Item) := do
  let d ← Eng.dirEntry slot die ast l s c
  let codes ← Eng.need slot die ast d.code (d.n * ixCode l)
  let ids ← Eng.need slot die ast d.ids (d.n * 8)
  (List.range d.n).mapM fun j => do
    let id ← checkId (fld ids (8 * j) 8)
    pure ⟨id, c, slice codes (j * ixCode l) (ixCode l), d.raw + j * ixV l, []⟩

/-- A side entry (R299): kind, list, ID, and the bytes from 16 on. -/
structure SideEntry where
  kind : Nat
  list : Nat
  id : Nat
  rest : List Byte
  deriving DecidableEq, Repr

/-- The side entries of a state line, by position. -/
def Eng.side (slot die ast : Nat) (l s : List Byte) : Eng (List SideEntry) :=
  (List.range (stCount s - stMerged s)).mapM fun j => do
    let p := stMerged s + j
    let e ← Eng.need slot die ast (fld l 32 8 + p % ixCap l * ixE l) (ixE l)
    let kind := fld e 0 1
    let id ← checkId (fld e 8 8)
    if kind ≠ 1 ∧ kind ≠ 2 ∨ fld e 1 3 ≠ 0 ∨ (kind = 1 ∧ ixC l ≤ fld e 4 4) then Eng.fail stBadFormat
    else pure ⟨kind, fld e 4 4, id, e.drop 16⟩

/-- R291: the live inserts of a side list, by position: the inserts that are the latest of their ID. -/
def liveOf : List SideEntry → List SideEntry
  | [] => []
  | e :: t => if e.kind = 1 ∧ !(t.any fun x => x.id == e.id) then e :: liveOf t else liveOf t

/-- A live insert as a candidate's item. -/
def sideItem (l : List Byte) (e : SideEntry) : Item :=
  ⟨e.id, 2 ^ 32 - 1, slice e.rest 0 (ixCode l), 0, if ixPq l then slice e.rest (ixCode l) (ixRawLen l) else slice e.rest 0 (ixV l)⟩

/-! ## A search (R287, R290-R297) -/

/-- What a SEARCH or a request asks of an index. `filter` holds base, count and how a byte of the bitmap is read. -/
structure Ask where
  slot : Nat
  die : Nat
  ast : Nat
  desc : Nat
  exact : Bool
  outside : Bool
  k : Nat
  nprobe : Nat
  r : Nat
  queries : List (List Nat)

/-- A candidate scored: its key and ID in order, and what is reported. -/
structure Cand where
  key : Nat
  item : Item
  d : Nat
  deriving DecidableEq, Repr

/-- The order of R293. -/
def Cand.lt (a b : Cand) : Bool := decide (a.key < b.key) || (a.key == b.key && decide (a.item.id < b.item.id))

/-- The n least of a list of candidates. -/
def bestOf (n : Nat) (cs : List Cand) : List Cand := (sortBy Cand.lt cs).take n

/-- R294: the bytes of a query's results, empty entries at the end. -/
def resultBytes (k : Nat) (cs : List Cand) : List Byte :=
  ((cs.map fun c => leBytes 8 c.item.id ++ leBytes 4 c.d ++ leBytes 4 c.item.list) ++
    List.replicate (k - cs.length) (leBytes 8 (2 ^ 64 - 1) ++ leBytes 4 0x7F800000 ++ leBytes 4 (2 ^ 32 - 1))).flatten

/-- R292: whether a filter allows an ID. -/
def filterAllows (outside : Bool) (filter : Option (Nat × Nat × (Nat → Eng Nat))) (id : Nat) : Eng Bool :=
  match filter with
  | none => pure true
  | some (base, n, byte) =>
    if base ≤ id ∧ id < base + n then do
      let b ← byte ((id - base) / 8)
      pure (bit b ((id - base) % 8))
    else pure outside

/-- The raw record of an item. -/
def Eng.rawOf (a : Ask) (l : List Byte) (x : Item) : Eng (List Byte) :=
  if !ixPq l then pure x.code
  else if x.raw ≠ [] then pure x.raw
  else Eng.need a.slot a.die a.ast x.rawDva (ixV l)

/-- A candidate dropped because its distance is NaN, counted (R287). -/
def Eng.dropNan : Eng Unit := Eng.act (·.bump 0x70A0 8)

/-- The items of a list scored against a query: the candidates, and how many were scored. -/
def Eng.score (a : Ask) (l : List Byte) (lut : Option Lut) (q : List Nat)
    (filter : Option (Nat × Nat × (Nat → Eng Nat))) (items : List Item) : Eng (List Cand × Nat) :=
  items.foldlM (fun (acc : List Cand × Nat) x => do
    if !(← filterAllows a.outside filter x.id) then pure acc else
    match lut with
    | some t =>
      Eng.act (·.bump 0x70A0 5)
      let (u, d) := lutScore l t x.code
      if f32nan d then Eng.dropNan; pure (acc.1, acc.2 + 1)
      else pure (⟨u, x, d⟩ :: acc.1, acc.2 + 1)
    | none =>
      let raw ← Eng.rawOf a l x
      Eng.act (·.bump 0x70A0 6)
      let d := rawDist l q raw
      if f32nan d then Eng.dropNan; pure (acc.1, acc.2 + 1)
      else pure (⟨f32key d, x, d⟩ :: acc.1, acc.2 + 1)) ([], 0)

/-- R290: the lists that a query probes. -/
def Eng.probes (x : Structs) (q : List Nat) (nprobe : Nat) : Eng (List Nat) := do
  let ds ← (List.range (ixC x.line0)).filterMapM fun c => do
    Eng.act (·.bump 0x70A0 6)
    let d := rawDist x.line0 q (x.cent c)
    if f32nan d then Eng.dropNan; pure none else pure (some (f32key d, c))
  pure (((sortBy (fun (u v : Nat × Nat) => decide (u.1 < v.1) || (u.1 == v.1 && decide (u.2 < v.2))) ds).take nprobe).map (·.2))

/-- One query searched: its best candidates and how many were scored; none when the query is refused (R287). -/
def Eng.query (a : Ask) (x : Structs) (s : List Byte) (side : List SideEntry)
    (filter : Option (Nat × Nat × (Nat → Eng Nat))) (q : List Nat) : Eng (Option (List Cand × Nat)) := do
  let l := x.line0
  if q.any (elemBad (ixFmt l)) then
    Eng.act (·.bump 0x70A0 7)
    pure none
  else
  let q := prepQuery l q
  let pq := ixPq l && !a.exact
  let lists ← if a.exact then pure (List.range (ixC l)) else Eng.probes x q a.nprobe
  let lut ← if pq then (match lutOf l x.books q with | some t => pure (some t) | none => Eng.fail stBadFormat) else pure none
  let keep := if pq ∧ a.r ≠ 0 then a.r else a.k
  let step (acc : List Cand × Nat) (items : List Item) : Eng (List Cand × Nat) := do
    let (cs, n) ← Eng.score a l lut q filter items
    pure (bestOf keep (acc.1 ++ cs), acc.2 + n)
  let found ← lists.foldlM (fun acc c => do
    let items ← Eng.listItems a.slot a.die a.ast l s c
    step acc (items.filter fun i => !(side.any fun e => e.id == i.id))) ([], 0)
  let found ← step found ((liveOf side).map (sideItem l))
  if pq ∧ a.r ≠ 0 then
    let cs ← found.1.filterMapM fun c => do
      let raw ← Eng.rawOf a l c.item
      Eng.act (·.bump 0x70A0 6)
      let d := rawDist l q raw
      if f32nan d then Eng.dropNan; pure none else pure (some (⟨f32key d, c.item, d⟩ : Cand))
    pure (some (bestOf a.k cs, found.2))
  else pure (some found)

/-- A whole search: the bytes of every query's results, the queries refused, the candidates scored (R298). -/
def Eng.search (a : Ask) (x : Structs) (filter : Option (Nat × Nat × (Nat → Eng Nat))) : Eng (List Byte × Nat × Nat) := do
  let l := x.line0
  if ixC l < a.nprobe ∧ !a.exact ∨ (a.r ≠ 0 ∧ !a.exact ∧ !(ixPq l && ixRaw l)) ∨ (a.exact ∧ ixPq l ∧ !ixRaw l) then
    Eng.fail stBadFormat
  else
  let s ← Eng.pin a.slot a.die a.ast a.desc l
  let side ← Eng.side a.slot a.die a.ast l s
  a.queries.foldlM (fun (acc : List Byte × Nat × Nat) q => do
    match ← Eng.query a x s side filter q with
    | none => pure (acc.1 ++ resultBytes a.k [], acc.2.1 + 1, acc.2.2)
    | some (cs, n) => pure (acc.1 ++ resultBytes a.k cs, acc.2.1, acc.2.2 + n)) ([], 0, 0)

end Sys2Proof.Machine
end

