-- ==== Sys2Proof/Machine/CirqueRows.lean ====
section
/-! DEFINITION. The commands of Cirque (10_cirque.md): SEARCH, INSERT, DELETE, MERGE, the index lock, and fan-out at the
origin and at a member. -/

namespace Sys2Proof.Machine

/-! ## Runs -/

/-- The run of a slot. -/
def Mach.cirque? (m : Mach) (slot : Nat) : Option CirqueRun := tget m.eng.cirque.runs slot
/-- A run replaced. -/
def Mach.setCirque (m : Mach) (slot : Nat) (r : CirqueRun) : Mach :=
  { m with eng := { m.eng with cirque := { m.eng.cirque with runs := tput m.eng.cirque.runs slot r } } }

/-- A run at its start. -/
def CirqueRun.fresh : CirqueRun :=
  { lockDpa := none, waited := false, wrote := false, published := false, state := [], detail := 0, result := 0 }

/-- R281: whether a command may take one of the 8 places of its die's engine, in admission order. -/
def Mach.cirqueTurn (m : Mach) (slot : Nat) : Bool :=
  let order (k : Nat) : Nat := ((m.cmd? k).map (·.order)).getD 0
  decide ((m.eng.cirque.runs.filter fun (p : Nat × CirqueRun) => slotDie p.1 == slotDie slot).length < 8) &&
  !(m.sched.slots.any fun (p : Nat × Cmd) => slotDie p.1 == slotDie slot && !p.2.done && (m.cirque? p.1).isNone &&
    [0x20, 0x21, 0x22, 0x23].contains (descOp p.2.desc) && decide (p.2.order < order slot))

/-- A Cirque command of an opcode brought to its place and its crags: `go` runs once it has them. -/
def Mach.cirqueStart (m : Mach) (slot op : Nat) (ok : List Byte → Bool) (go : Mach → Cmd → CirqueRun → Mach) : Mach :=
  match m.cmd? slot with
  | none => m
  | some c =>
    if descOp c.desc ≠ op ∨ c.done then m else
    let d := c.desc
    match m.cirque? slot with
    | none =>
      if !m.astOk c.queue (fld d 16 2) then m.failCmd slot (badAst c.desc)
      else if !ok d then m.failCmd slot stInvalDesc
      else if !m.cirqueTurn slot then m
      else
        let m := (m.setCmd slot { c with started := true, progress := m.now }).setCirque slot CirqueRun.fresh
        if fld d 19 1 = 0 then m else m.askCrags slot (slotDie slot) (fld d 20 1) (fld d 19 1)
    | some r => if fld d 19 1 ≠ 0 ∧ !m.hasCrags slot then m else go m c r

/-- A computation of a command run: its failure ends the command, a wait leaves it to be tried again. -/
def Mach.runEng {α : Type} (m : Mach) (slot : Nat) (x : Eng α) (go : Mach → α → Mach) : Mach :=
  match x.on m with
  | (.ok a, m) => go m a
  | (.error (some st), m) => m.failCmd slot st
  | (.error none, m) => m

/-- Bytes written at a DVA that must lie behind LOCAL leaves. -/
def Eng.put (slot die ast dva : Nat) (bs : List Byte) : Eng Unit := do
  let (g, m) := (← get).localReady die engCirque ast dva bs.length .write
  set m
  match g with
  | .failed st => Eng.fail st
  | .wait => throw none
  | .ok _ => Eng.act fun m => m.storeDvaOn slot die engCirque ast dva bs

/-- Whether bytes can be written at a DVA behind LOCAL leaves now. -/
def Eng.ready (die ast dva n : Nat) : Eng Unit := do
  let (g, m) := (← get).localReady die engCirque ast dva n .write
  set m
  match g with
  | .failed st => Eng.fail st
  | .wait => throw none
  | .ok _ => pure ()

/-! ## SEARCH (R295-R298) -/

/-- The form checks of a SEARCH (Table 10-3). -/
def searchOk (d : List Byte) : Bool :=
  let f := fld d 18 1
  let k := fld d 22 2
  let r := fld d 52 2
  decide (f < 16) && (if bit f 3 then fld d 19 1 == 0 && fld d 20 1 == 0 && decide (fld d 21 1 < 64) && fld d 24 8 == 0
    else decide (1 ≤ fld d 19 1) && decide (fld d 19 1 ≤ 40) && decide (fld d 20 1 + fld d 19 1 ≤ 40) && fld d 21 1 == 0 &&
      fld d 24 8 % 64 == 0 && decide (fld d 24 8 < 2 ^ 48)) &&
  decide (1 ≤ k) && decide (k ≤ 1024) && fld d 32 8 % 64 == 0 && decide (fld d 32 8 < 2 ^ 48) && fld d 40 8 % 16 == 0 &&
  decide (fld d 40 8 < 2 ^ 48) && decide (1 ≤ fld d 48 2) && decide (fld d 48 2 ≤ 1024) &&
  decide (fld d 48 2 * max k r ≤ 1048576) && decide (1 ≤ fld d 50 2) && decide (fld d 50 2 ≤ 4096) &&
  (r == 0 || (decide (k ≤ r) && decide (r ≤ 4096))) && fld d 54 2 == 0 &&
  (if bit f 1 then fld d 56 8 % 8 == 0 && decide (fld d 56 8 < 2 ^ 48) else fld d 56 8 == 0)

/-- A filter descriptor (R292): bitmap DVA, base and count. -/
def Eng.filterDesc (slot die ast dva : Nat) : Eng (Nat × Nat × Nat) := do
  let f ← Eng.need slot die ast dva 32
  let n := fld f 16 8
  if fld f 0 8 % 8 ≠ 0 ∨ n = 0 ∨ 2 ^ 40 < n ∨ !allZero (slice f 24 8) then Eng.fail stBadFormat
  else pure (fld f 0 8, fld f 8 8, n)

/-- Query j of a batch, as element codes of a format. -/
def splitQueries (f dim n : Nat) (bs : List Byte) : List (List Nat) :=
  let w := fmtBits f / 8
  (List.range n).map fun j => elemCodes f dim (slice bs (j * dim * w) (dim * w))

/-- A local SEARCH on its queue's die: the search, then its results written. -/
def Eng.localSearch (slot : Nat) (d : List Byte) : Eng (Nat × Nat) := do
  let die := slotDie slot
  let ast := fld d 16 2
  let f := fld d 18 1
  let x ← Eng.structs slot die ast (fld d 24 8)
  let l := x.line0
  let filter ← if bit f 1 then do
      let (dva, base, n) ← Eng.filterDesc slot die ast (fld d 56 8)
      pure (some (base, n, fun (b : Nat) => (do pure (fld (← Eng.need slot die ast (dva + b) 1) 0 1) : Eng Nat)))
    else pure none
  let qs ← Eng.need slot die ast (fld d 32 8) (fld d 48 2 * ixD l * ixW l)
  let a : Ask := ⟨slot, die, ast, fld d 24 8, bit f 0, bit f 2, fld d 22 2, fld d 50 2, fld d 52 2,
    splitQueries (ixFmt l) (ixD l) (fld d 48 2) qs⟩
  let (out, refused, scored) ← Eng.search a x filter
  Eng.put slot die ast (fld d 40 8) out
  pure (refused, scored)

/-! ## Fan-out at the origin (R305, R306, R308) -/

/-- The fan-out window of this device: its base and length; none when 0x5220.04 names none. -/
def Mach.fanWindow (m : Mach) : Option (Nat × Nat) :=
  let w := m.reg 0x5220 4 0
  if w = 0xFFFF then none else some (m.reg 0x4410 2 w, m.reg 0x4410 3 w)

/-- The inbox window's base. -/
def Mach.inboxBase (m : Mach) : Nat := m.reg 0x4410 2 (m.reg 0x5220 1 0)

/-- Offsets of a fan-out window (R305): of the queries, the bitmap and the n results areas, and the end. -/
structure FanLayout where
  bitmap : Nat
  results : Nat
  each : Nat
  total : Nat
  deriving DecidableEq, Repr

/-- The layout for nq query bytes, nb bitmap bytes, n members and a results area of nr bytes. -/
def fanLayout (nq nb n nr : Nat) : FanLayout :=
  let up (x : Nat) : Nat := ceilDiv x 64 * 64
  let b := up (8192 + nq)
  let r := up (b + nb)
  { bitmap := b, results := r, each := up nr, total := r + up nr * (n - 1) + nr }

/-- The members of a fan-out set: index, node and shard. -/
def Mach.fanMembers (m : Mach) (set : Nat) : List (Nat × Nat × Nat) :=
  (List.range 64).filterMap fun i =>
    let v := m.reg 0x5231 (1 + i) set
    if bit v 31 then some (i, bits v 24 16, v % 256) else none

/-- Table 10-5: the request for a member; `d` is the SEARCH's descriptor, `pos` the member's place among the valid ones. -/
def Mach.fanRequest (m : Mach) (number set index shard pos : Nat) (d : List Byte) (lay : FanLayout) (nb base n : Nat) : List Byte :=
  leBytes 8 number ++ leBytes 2 m.node ++ [byteOf index, byteOf (setBit (fld d 18 1) 3 false)] ++ leBytes 2 (fld d 22 2) ++
  leBytes 2 (fld d 50 2) ++ leBytes 2 (fld d 52 2) ++ leBytes 2 (fld d 48 2) ++ leBytes 2 (m.reg 0x5230 2 set) ++
  [byteOf (m.reg 0x5230 3 set), byteOf (m.reg 0x5230 4 set)] ++ leBytes 8 (m.reg 0x5220 5 0) ++
  leBytes 2 (m.reg 0x5220 4 0) ++ [byteOf shard] ++ zeros 5 ++ leBytes 8 8192 ++ leBytes 8 lay.bitmap ++ leBytes 8 nb ++
  leBytes 8 base ++ leBytes 8 n ++ leBytes 8 (lay.results + pos * lay.each) ++ leBytes 8 (4096 + 64 * index) ++ zeros 32

/-- A posted write of Cirque itself, in pieces of at most 4 KiB. -/
def Mach.postRaw : Nat → Mach → Nat → Nat → Nat → List Byte → Mach
  | 0, m, _, _, _, _ => m
  | fuel + 1, m, slot, gfa, key, bs =>
    if bs.isEmpty then m else
    let (n, m) := m.takeSeq (streamKey (gfa / 2 ^ 50) 2)
    let part := bs.take 4096
    let f := m.reqFrame opWritePosted 2 0 gfa key (slotDie slot * 8192 + n % 8192) part.length 0 0 0 false false part
    Mach.postRaw fuel (m.launch ⟨{ f with sequence := n }, slot, 0⟩) slot (gfa + 4096) key (bs.drop 4096)

/-- A request of Cirque itself, whose answer is kept as a read that the slot made under a number. -/
def Mach.askRaw (m : Mach) (slot id opcode gfa key nbytes aop w5 : Nat) (seqchk : Bool) (payload : List Byte) : Mach :=
  match m.newTag (slotDie slot) false with
  | none => m
  | some tag =>
    let m := { m with xl := { m.xl with fetches := m.xl.fetches ++ [(⟨slot, true, id, 0, tag, none⟩ : Fetch)] } }
    m.sendReq slot (m.reqFrame opcode 2 0 gfa key tag nbytes aop 0 w5 seqchk false payload) (.fanout slot id)

/-- Whether a die has n free TAGs. -/
def Mach.tagsFree (m : Mach) (die n : Nat) : Bool :=
  decide (n ≤ 7936 - (m.fab.reqs.filter fun (p : Nat × OutReq) => p.1 / 8192 == die && decide (p.1 % 8192 < 7936)).length)

/-- R306: FENCE, then ATOMIC ADD 1 with SEQCHK, to a GFA's node. -/
def Mach.fenceAndBell (m : Mach) (slot id gfa key bell : Nat) : Mach :=
  let node := gfa / 2 ^ 50
  let m := m.askRaw slot id opFence gfa key 0 0 (tgetD m.fab.nextSeq (streamKey node 3) 0) false []
  m.askRaw slot (64 + id) opAtomic bell key 0 0x11 0 true (slice (leBytes 8 1) 0 64)

/-- The number under which a service works: its shard's die, and its origin, or its member on this node. -/
def Mach.serviceSlot (m : Mach) (s : FanService) : Nat :=
  16384 + s.die * 1024 + (if s.origin = m.node then 512 + fld s.request 10 1 else s.origin)

/-- The fan-out under way changed. -/
def Mach.setFan (m : Mach) (f : Option Fanout) : Mach :=
  { m with eng := { m.eng with cirque := { m.eng.cirque with fan := f } } }

/-- Services replaced. -/
def Mach.setServices (m : Mach) (l : List FanService) : Mach :=
  { m with eng := { m.eng with cirque := { m.eng.cirque with services := l } } }

/-- A request taken to be served. -/
def Mach.addService (m : Mach) (origin : Nat) (request : List Byte) : Mach :=
  let die := m.reg 0x5210 4 (fld request 34 1)
  (m.setServices (m.eng.cirque.services ++ [⟨origin, die, request, none, [], 0⟩])).bump 0x70A0 9

/-- The origin's part of a fan-out: queries and bitmap copied into the window, requests sent (R306). -/
def Mach.fanSend (m : Mach) (slot : Nat) (c : Cmd) (r : CirqueRun) : Mach :=
  let d := c.desc
  let set := fld d 21 1
  let die := slotDie slot
  let ast := fld d 16 2
  let f := m.reg 0x5230 3 set
  let dim := m.reg 0x5230 2 set
  let prep : Eng (List Byte × List Byte × Nat × Nat) := do
    let (dva, base, n) ← if bit (fld d 18 1) 1 then Eng.filterDesc slot die ast (fld d 56 8) else pure (0, 0, 0)
    let qs ← Eng.need slot die ast (fld d 32 8) (fld d 48 2 * dim * (fmtBits f / 8))
    let bm ← Eng.need slot die ast dva (ceilDiv n 8)
    pure (qs, bm, base, n)
  m.runEng slot prep fun m (qs, bm, base, n) =>
    let members := m.fanMembers set
    let lay := fanLayout qs.length bm.length members.length (fld d 48 2 * fld d 22 2 * 16)
    match m.fanWindow with
    | none => m.failCmd slot stQuota
    | some (w, len) =>
      if len < lay.total then m.failCmd slot stQuota
      else match (m.recall (w + 8192) qs.length true).orElse fun _ => m.recall (w + lay.bitmap) bm.length true with
      | some m => m
      | none =>
        if !m.tagsFree die (2 * members.length) then m else
        let (st, m) := m.storeDpa die (w + 8192) qs (.cmd slot)
        let (st', m) := m.storeDpa die (w + lay.bitmap) bm (.cmd slot)
        let m := (m.noteFail slot st).noteFail slot st'
        let number := m.eng.cirque.fanNumber + 1
        let m := { m with eng := { m.eng with cirque := { m.eng.cirque with fanNumber := number } } }
        let refused := ((splitQueries f dim (fld d 48 2) qs).filter fun q => q.any (elemBad f)).length
        let m := m.setCirque slot { r with wrote := true, detail := refused }
        let m := m.setFan (some ⟨slot, number, members, lay.results, lay.each, [], [], 0⟩)
        (List.range members.length).foldl (fun m pos =>
          match members[pos]? with
          | none => m
          | some (i, node, shard) =>
            let req := m.fanRequest number set i shard pos d lay bm.length base n
            if node = m.node then m.addService node req
            else
              let key := m.reg 0x5220 2 0
              let inbox := node * 2 ^ 50 + m.reg 0x5220 1 0 * 2 ^ 38
              if m.nodeDead node then
                let m := m.bump 0x7060 0x0D
                { m with xl := { m.xl with fetches := m.xl.fetches ++ [(⟨slot, true, i, 0, 0, some (.failed stTargetDead)⟩ : Fetch)] } }
              else (Mach.postRaw 2 m slot (inbox + 4096 + m.node * m.reg 0x5220 3 0) key req).fenceAndBell slot i inbox key inbox)
          m

/-- A member accepted with a status and, when it is OK, its results. -/
def Mach.fanAccept (m : Mach) (i status scored : Nat) (results : List Byte) : Mach :=
  match m.eng.cirque.fan with
  | none => m
  | some f =>
    if (tget f.accepted i).isSome then m else
    (m.setFan (some { f with
      accepted := tput f.accepted i status
      results := if status = 0 then tput f.results i results else f.results
      scored := f.scored + scored })).noteFail f.slot status

/-- The result entries of a query in a member's results, empty ones left out. -/
def fanEntries (k q : Nat) (bs : List Byte) : List (List Byte) :=
  ((List.range k).map fun e => slice bs ((q * k + e) * 16) 16).filter fun e => fld e 0 8 != 2 ^ 64 - 1

/-- R308: the k best of every member's entries of a query, by (d, item ID, member index). -/
def fanMerge (k q : Nat) (rs : Tbl (List Byte)) : List Byte :=
  let all := rs.flatMap fun (p : Nat × List Byte) => (fanEntries k q p.2).map fun e => (f32key (fld e 8 4), fld e 0 8, p.1, e)
  let lt (a b : Nat × Nat × Nat × List Byte) : Bool :=
    decide (a.1 < b.1) || (a.1 == b.1 && (decide (a.2.1 < b.2.1) || (a.2.1 == b.2.1 && decide (a.2.2.1 < b.2.2.1))))
  let best := ((sortBy lt all).take k).map fun x => x.2.2.2
  best.flatten ++ (List.replicate (k - best.length)
    (leBytes 8 (2 ^ 64 - 1) ++ leBytes 4 0x7F800000 ++ leBytes 4 (2 ^ 32 - 1))).flatten

/-- A fan-out whose members are all accepted: its results merged and written, its command ended. -/
def Mach.fanFinish (m : Mach) : Mach :=
  match m.eng.cirque.fan with
  | none => m
  | some f =>
    match m.cmd? f.slot, m.cirque? f.slot with
    | some c, some r =>
      let d := c.desc
      if c.done ∨ !(f.members.all fun x => (tget f.accepted x.1).isSome) then m else
      let k := fld d 22 2
      let out := ((List.range (fld d 48 2)).map fun q => fanMerge k q f.results).flatten
      m.runEng f.slot (Eng.put f.slot (slotDie f.slot) (fld d 16 2) (fld d 40 8) out) fun m _ =>
        (m.finish f.slot (r.detail + f.results.length * 2 ^ 16) f.scored).setFan none
    | _, _ => m

/-- FANOUT_COUNTER: a counter atomic wakes the origin: it accepts each member whose status line carries the request number,
and each whose frames have failed; with the last one it merges (R308). -/
def Mach.rowFanoutCounter (m : Mach) : Mach :=
  match m.eng.cirque.fan, m.fanWindow with
  | some f, some (w, _) =>
    match m.cmd? f.slot with
    | none => m
    | some c =>
      let d := c.desc
      let die := slotDie f.slot
      let nr := fld d 48 2 * fld d 22 2 * 16
      let m := (List.range f.members.length).foldl (fun m pos =>
        match f.members[pos]? with
        | none => m
        | some (i, node, _) =>
          if node = m.node then m else
          match m.xl.fetches.findSome? fun x =>
              if x.slot = f.slot ∧ x.gfa ∧ x.len = 0 ∧ x.addr % 64 = i then
                (match x.ended with | some (.failed st) => some st | _ => none) else none with
          | some st => m.fanAccept i st 0 []
          | none =>
            let line := w + 4096 + 64 * i
            match m.recall line 64 false with
            | some m => m
            | none =>
              match m.loadDpa die line 64 with
              | (.ok s, m) =>
                if fld s 0 8 ≠ f.number then m
                else if fld s 8 2 ≠ 0 then m.fanAccept i (fld s 8 2) (fld s 16 8) []
                else
                  let at' := w + f.resultsAt + pos * f.each
                  (match m.recall at' nr false with
                  | some m => m
                  | none =>
                    match m.loadDpa die at' nr with
                    | (.ok bs, m) => m.fanAccept i 0 (fld s 16 8) bs
                    | (.failed st, m) => m.fanAccept i st 0 [])
              | (.failed st, m) => m.fanAccept i st 0 []) m
      m.fanFinish
  | _, _ => m

/-- FANOUT_RESPONSE_BOUND_EXPIRY: members not accepted end with TIMEOUT, each counted; the others' results are merged. -/
def Mach.rowFanoutResponseBoundExpiry (m : Mach) : Mach :=
  match m.eng.cirque.fan with
  | none => m
  | some f =>
    (f.members.foldl (fun m (x : Nat × Nat × Nat) =>
      if (tget f.accepted x.1).isSome then m else (m.bump 0x70A0 0x0A).fanAccept x.1 stTimeout 0 []) m).fanFinish

/-- SEARCH: begun, or carried on once it holds its crags; with FAN-OUT, begun once no other fan-out runs. -/
def Mach.rowSearch (m : Mach) (slot : Nat) : Mach :=
  m.cirqueStart slot 0x20 searchOk fun m c r =>
    if bit (fld c.desc 18 1) 3 then
      if r.wrote then m.fanFinish
      else if m.eng.cirque.fan.isSome then m
      else (m.fanSend slot c r).fanFinish
    else m.runEng slot (Eng.localSearch slot c.desc) fun m (refused, scored) => m.finish slot (refused % 65536) scored

/-! ## Fan-out at a member (R307) -/

/-- The bytes of a window of another node, read by fabric READs under a service's number, in pieces of 4 KiB. -/
def Mach.fetchWindow (slot gfa key : Nat) : Nat → Mach → Nat → Nat → List Byte → Got × Mach
  | 0, m, _, _, acc => (.ok acc, m)
  | fuel + 1, m, off, n, acc =>
    if n = 0 then (.ok acc, m) else
    match m.fetchGfa slot (gfa + off) key (min n 4096) with
    | (.ok bs, m) => Mach.fetchWindow slot gfa key fuel m (off + 4096) (n - min n 4096) (acc ++ bs)
    | r => r

/-- A window of this node read in place; of another node, through the fabric. -/
def Mach.readWindow (m : Mach) (slot node window key off n : Nat) : Got × Mach :=
  if node = m.node then
    let a := m.reg 0x4410 2 window + off
    match m.recall a n false with
    | some m => (.wait, m)
    | none => match m.loadDpa (slotDie slot) a n with
      | (.ok bs, m) => (.ok bs, m)
      | (.failed st, m) => (.failed st, m)
  else Mach.fetchWindow slot (node * 2 ^ 50 + window * 2 ^ 38 + off) key (n / 4096 + 1) m 0 n []

/-- What a service comes to: not yet, or a status with its results and its count. -/
def Mach.serve? (m : Mach) (s : FanService) : Option (Nat × List Byte × Nat) × Mach :=
  let q := s.request
  let k := m.serviceSlot s
  let shard := fld q 34 1
  let ast := m.reg 0x5210 3 shard
  let desc := m.reg 0x5210 2 shard
  let tenantBusy := m.confState ≠ 0 ∧ m.confState ≠ 3 ∧ ((m.ast? ast).map (·.owner)) ≠ some m.tenant
  let nb := fld q 56 8
  let dim := fld q 20 2
  let f := fld q 22 1
  if s.origin ≠ m.node ∧ m.reg 0x5220 3 0 - 4096 < nb then (some (stQuota, [], 0), m)
  else if m.reg 0x5210 7 shard = 0 ∨ (m.ast? ast).isNone ∨ !m.dieActive s.die then (some (stBadFormat, [], 0), m)
  else if tenantBusy then (some (stTenantBusy, [], 0), m)
  else
  let m := m.askCrags k s.die (m.reg 0x5210 5 shard) (m.reg 0x5210 6 shard)
  match m.readWindow k s.origin (fld q 32 2) (fld q 24 8) (fld q 48 8) nb with
  | (.wait, m) => (none, m)
  | (.failed st, m) => (some (st, [], 0), m)
  | (.ok bm, m) =>
    match m.readWindow k s.origin (fld q 32 2) (fld q 24 8) (fld q 40 8) (fld q 18 2 * dim * (fmtBits f / 8)) with
    | (.wait, m) => (none, m)
    | (.failed st, m) => (some (st, [], 0), m)
    | (.ok qs, m) =>
      if !m.hasCrags k then (none, m) else
      let copy := m.inboxBase + 4096 + s.origin * m.reg 0x5220 3 0 + 4096
      match (if s.origin = m.node ∨ nb = 0 then none else m.recall copy nb true) with
      | some m => (none, m)
      | none =>
        let (st, m) := if s.origin = m.node then (0, m) else m.storeDpa s.die copy bm .none
        if st ≠ 0 then (some (st, [], 0), m) else
        let flags := fld q 11 1
        let x : Eng (List Byte × Nat × Nat) := do
          let x ← Eng.structs k s.die ast desc
          let l := x.line0
          if ixD l ≠ dim ∨ ixFmt l ≠ f ∨ fld l 1 1 ≠ fld q 23 1 then Eng.fail stBadFormat else
          let filter := if bit flags 1 then some (fld q 64 8, fld q 72 8, fun (b : Nat) => (pure (fld bm b 1) : Eng Nat)) else none
          Eng.search ⟨k, s.die, ast, desc, bit flags 0, bit flags 2, fld q 12 2, fld q 14 2, fld q 16 2,
            splitQueries f dim (fld q 18 2) qs⟩ x filter
        match x.on m with
        | (.ok (out, _, scored), m) => (some (0, out, scored), m)
        | (.error (some st), m) => (some (st, [], 0), m)
        | (.error none, m) => (none, m)

/-- Everything that a service holds given back. -/
def Mach.serviceOver (m : Mach) (s : FanService) : Mach :=
  let k := m.serviceSlot s
  let m := m.releaseCrags k
  let m := { m with xl := { m.xl with fetches := m.xl.fetches.filter fun f => f.slot ≠ k } }
  { m with eng := { m.eng with cirque := { m.eng.cirque with
    pins := m.eng.cirque.pins.filter fun p => p.slot ≠ k
    services := m.eng.cirque.services.erase s } } }

/-- A service answered: to the fan-out of this node, or to its origin: results, FENCE, status line, counter (R307). -/
def Mach.serviceAnswer (m : Mach) (s : FanService) (st : Nat) (out : List Byte) (scored : Nat) : Mach :=
  let q := s.request
  if s.origin = m.node then (m.serviceOver s).fanAccept (fld q 10 1) st scored out
  else
    let k := m.serviceSlot s
    if !m.tagsFree s.die 3 then m else
    let base := s.origin * 2 ^ 50 + fld q 32 2 * 2 ^ 38
    let key := fld q 24 8
    let line := slice (leBytes 8 (fld q 0 8) ++ leBytes 2 st ++ leBytes 2 (if st = 0 then fld q 18 2 else 0) ++ zeros 4 ++
      leBytes 8 scored) 0 64
    let m := Mach.postRaw (out.length / 4096 + 2) m k (base + fld q 80 8) key out
    let m := m.askRaw k 0 opFence base key 0 0 (tgetD m.fab.nextSeq (streamKey s.origin 3) 0) false []
    let m := m.askRaw k 1 opWrite (base + fld q 88 8) key 64 0 0 false line
    (m.askRaw k 2 opAtomic base key 0 0x11 0 true (slice (leBytes 8 1) 0 64)).serviceOver s

/-- One service carried on; one that a newer request of its slot has replaced is stopped. -/
def Mach.runService (m : Mach) (s : FanService) : Mach :=
  match m.serve? s with
  | (some (st, out, scored), m) => m.serviceAnswer s st out scored
  | (none, m) => m

/-- The slot of an origin read: a new request number starts a service, in place of the one before. -/
def Mach.readInbox (m : Mach) (o : Nat) : Mach :=
  let a := m.inboxBase + 4096 + o * m.reg 0x5220 3 0
  if o = m.node ∨ m.reg 0x4410 3 (m.reg 0x5220 1 0) < 4096 + (o + 1) * m.reg 0x5220 3 0 then m else
  match m.recall a 128 false with
  | some m => m
  | none =>
    match m.loadDpa 0 a 128 with
    | (.failed _, m) => m
    | (.ok q, m) =>
      if fld q 0 8 = tgetD m.eng.cirque.served o 0 then m
      else
        let m := match m.eng.cirque.services.find? (·.origin == o) with | some s => m.serviceOver s | none => m
        let m := { m with eng := { m.eng with cirque := { m.eng.cirque with
          served := tput m.eng.cirque.served o (fld q 0 8) } } }
        m.addService o q

/-- FANOUT_BELL: the member reads its slots and carries its services on, in the order of their slots (R307); those of this
node's own fan-out as well. With the inbox disabled, bells are ignored. -/
def Mach.rowFanoutBell (m : Mach) : Mach :=
  let m := if m.reg 0x5220 6 0 = 1 ∧ m.reg 0x5220 1 0 ≠ 0xFFFF then (List.range 512).foldl Mach.readInbox m else m
  (m.eng.cirque.services.foldl Mach.runService m).fanFinish

/-! ## The index lock (R300) -/

/-- Whether a lock word is free: not held, or held from a queue of a FENCED die. -/
def Mach.lockFree (m : Mach) (w : Nat) : Bool := !bit w 63 || m.dieState (queueDie (w % 65536)) == 3

/-- The lock of an index taken by a compare-and-swap at its home: true once the command holds it. -/
def Eng.lock (slot : Nat) (c : Cmd) (r : CirqueRun) : Eng Bool := do
  if r.lockDpa.isSome then pure true else
  let die := slotDie slot
  let dpa ← Eng.dpa die (fld c.desc 16 2) (fld c.desc 24 8 + 96) .atomic
  let m ← get
  match m.recall dpa 8 true with
  | some m => set m; throw none
  | none =>
    match m.loadDpa die dpa 8 with
    | (.failed st, m) => set m; Eng.fail st
    | (.ok bs, m) =>
      set m
      if bits (leNat bs) 62 16 ≠ 0 then Eng.fail stBadFormat
      else if !m.lockFree (leNat bs) then pure false
      else
        match m.atomicAt (m.homeOf dpa) dpa 0x21 (leNat bs) (2 ^ 63 + c.queue) (.cmd slot) with
        | (.error st, m) => set m; Eng.fail st
        | (.ok _, m) =>
          set (m.setCirque slot { r with lockDpa := some dpa })
          pure true

/-- What a command that needs the lock does once it holds it; while the lock is held by another it waits. -/
def Mach.withLock (m : Mach) (slot : Nat) (c : Cmd) (r : CirqueRun) (go : Mach → CirqueRun → Mach) : Mach :=
  m.runEng slot (Eng.lock slot c r) fun m got =>
    match got, m.cirque? slot with
    | true, some r => go m r
    | _, _ => m

/-- The state line published once the entries or lists before it are written and no write of the command waits; a failed
write publishes nothing (R302, R303). -/
def Mach.publishState (m : Mach) (slot : Nat) (c : Cmd) (r : CirqueRun) (go : Mach → Mach) : Mach :=
  if r.published then go m
  else if m.writesPending slot then m
  else if ((m.cmd? slot).bind (·.fail)).isSome then m.finish slot 0 0
  else m.runEng slot (Eng.put slot (slotDie slot) (fld c.desc 16 2) (fld c.desc 24 8 + 64) r.state) fun m _ =>
    go (m.setCirque slot { r with published := true })

/-! ## INSERT and DELETE (R301, R302) -/

/-- The form checks of INSERT and DELETE (Table 10-4). -/
def insertOk (d : List Byte) : Bool :=
  let ins := descOp d == 0x21
  fld d 18 1 == 0 && (if ins then decide (1 ≤ fld d 19 1) && decide (fld d 20 1 + fld d 19 1 ≤ 40) else fld d 19 2 == 0) &&
  fld d 21 3 == 0 && fld d 24 8 % 64 == 0 && decide (fld d 24 8 < 2 ^ 48) &&
  (if ins then fld d 32 8 % 64 == 0 && decide (fld d 32 8 < 2 ^ 48) else fld d 32 8 == 0) && fld d 40 8 % 8 == 0 &&
  decide (fld d 40 8 < 2 ^ 48) && decide (1 ≤ fld d 48 4) && decide (fld d 48 4 ≤ 65536) && fld d 52 4 == 0 && fld d 56 8 == 0

/-- The list that an input is assigned: the least key (d, list number) over the centroids; an open value when every distance
is NaN. -/
def Eng.assign (x : Structs) (q : List Nat) : Eng Nat := do
  let best ← Eng.probes x (prepQuery x.line0 q) 1
  match best with
  | c :: _ => pure c
  | [] =>
    let (v, m) := (← get).fresh (ixC x.line0)
    set m
    pure v

/-- The bytes of an appended entry of INSERT (R299, R302). -/
def Eng.insertEntry (x : Structs) (bs : List Byte) (id : Nat) : Eng (List Byte) := do
  let l := x.line0
  let q := ixElems l bs
  if q.any (elemBad (ixFmt l)) then Eng.fail stBadFormat else
  let list ← Eng.assign x q
  let rec' := bs ++ leBytes 4 (dot (ixFmt l) q q) ++ zeros 12
  let head := [(1 : Byte), 0, 0, 0] ++ leBytes 4 list ++ leBytes 8 id
  if ixPq l then
    match pqEncode l x.books q with
    | none => Eng.fail stBadFormat
    | some code => pure (slice (head ++ code ++ (if ixRaw l then rec' else [])) 0 (ixE l))
  else pure (slice (head ++ rec') 0 (ixE l))

/-- Everything an INSERT or DELETE does under the lock up to its state line: none while searches hold its positions. -/
def Eng.append (slot : Nat) (d : List Byte) : Eng (Option (List Byte)) := do
  let die := slotDie slot
  let ast := fld d 16 2
  let desc := fld d 24 8
  let n := fld d 48 4
  let ins := descOp d == 0x21
  let x ← if ins then Eng.structs slot die ast desc else do
    let l ← Eng.need slot die ast desc 64
    if !line0Ok l then Eng.fail stBadFormat else pure ⟨l, [], []⟩
  let l := x.line0
  let s ← Eng.need slot die ast (desc + 64) 64
  if !stateOk l s then Eng.fail stBadFormat
  else if stMerged s + ixCap l < stCount s + n then Eng.fail stQuota
  else
  let dpa ← Eng.dpa die ast desc .read
  let m ← get
  if m.eng.cirque.pins.any fun p => p.dpa == dpa && decide (stMerged p.state + ixCap l < stCount s + n) then pure none else
  let ids ← Eng.need slot die ast (fld d 40 8) (8 * n)
  let vs ← if ins then Eng.need slot die ast (fld d 32 8) (n * ixD l * ixW l) else pure []
  let entries ← (List.range n).mapM fun j => do
    let id ← checkId (fld ids (8 * j) 8)
    if ins then Eng.insertEntry x (slice vs (j * ixD l * ixW l) (ixD l * ixW l)) id
    else pure (slice ([(2 : Byte), 0, 0, 0] ++ leBytes 4 (2 ^ 32 - 1) ++ leBytes 8 id) 0 (ixE l))
  let place (j : Nat) : Nat := fld l 32 8 + (stCount s + j) % ixCap l * ixE l
  (List.range n).forM fun j => Eng.ready die ast (place j) (ixE l)
  (List.range n).forM fun j => Eng.act fun m => m.storeDvaOn slot die engCirque ast (place j) (entries.getD j [])
  pure (some (patch s 8 (leBytes 8 (stCount s + n))))

/-- INSERT and DELETE once they hold what they need. -/
def Mach.appendRun (m : Mach) (slot : Nat) (c : Cmd) (r : CirqueRun) : Mach :=
  m.withLock slot c r fun m r =>
    let ended (m : Mach) (r : CirqueRun) : Mach := m.publishState slot c r fun m => m.finish slot 0 0
    if r.wrote then ended m r
    else m.runEng slot (Eng.append slot c.desc) fun m s =>
      match s with
      | none => if r.waited then m else (m.setCirque slot { r with waited := true }).bump 0x70A0 0x0B
      | some s =>
        let r := { r with wrote := true, state := s }
        ended (m.setCirque slot r) r

/-- INSERT: begun or carried on. -/
def Mach.rowInsert (m : Mach) (slot : Nat) : Mach := m.cirqueStart slot 0x21 insertOk fun m c r => m.appendRun slot c r
/-- DELETE: begun or carried on. -/
def Mach.rowDelete (m : Mach) (slot : Nat) : Mach := m.cirqueStart slot 0x22 insertOk fun m c r => m.appendRun slot c r

/-! ## MERGE (R303, R304) -/

/-- The form checks of MERGE. -/
def mergeOk (d : List Byte) : Bool :=
  decide (fld d 18 1 ≤ 1) && fld d 19 2 == 0 && fld d 21 3 == 0 && fld d 24 8 % 64 == 0 && decide (fld d 24 8 < 2 ^ 48) &&
  fld d 32 8 % 64 == 0 && decide (fld d 32 8 < 2 ^ 48) && fld d 40 8 % 64 == 0 && fld d 48 4 == 0 && fld d 52 4 == 0 &&
  fld d 56 8 == 0

/-- A list rewritten: its surviving entries, then its live inserts; code, ID and raw blocks each 64 B aligned from an offset
of the arena. Gives the new directory entry, the bytes and the next offset. -/
def mergedList (l : List Byte) (arena off : Nat) (items : List (Item × List Byte)) : List Byte × List Byte × Nat :=
  let up (bs : List Byte) : List Byte := slice bs 0 (ceilDiv bs.length 64 * 64)
  if items = [] then (zeros 32, [], off) else
  let codes := up (items.flatMap (·.1.code))
  let ids := up (items.flatMap fun x => leBytes 8 x.1.id)
  let raws := if ixRaw l then up (items.flatMap (·.2)) else []
  let a := arena + off
  (leBytes 8 a ++ leBytes 8 (a + codes.length) ++ leBytes 8 (if ixRaw l then a + codes.length + ids.length else 0) ++
    leBytes 4 items.length ++ zeros 4, codes ++ ids ++ raws, off + codes.length + ids.length + raws.length)

/-- Everything a MERGE does under the lock up to its state line: the new state line, lists rewritten, entries folded. -/
def Eng.merge (slot : Nat) (d : List Byte) : Eng (List Byte × Nat × Nat) := do
  let die := slotDie slot
  let ast := fld d 16 2
  let desc := fld d 24 8
  let l ← Eng.need slot die ast desc 64
  let s ← Eng.need slot die ast (desc + 64) 64
  if !line0Ok l ∨ !stateOk l s then Eng.fail stBadFormat else
  let side ← Eng.side slot die ast l s
  let live := liveOf side
  let a : Ask := ⟨slot, die, ast, desc, false, false, 0, 0, 0, []⟩
  let (dir, out, off, changed) ← (List.range (ixC l)).foldlM
    (fun (acc : List Byte × List Byte × Nat × Nat) c => do
      let e ← Eng.dirEntry slot die ast l s c
      let items ← Eng.listItems slot die ast l s c
      let keep := items.filter fun i => !(side.any fun e => e.id == i.id)
      let ins := (live.filter fun e => e.list == c).map fun e => { sideItem l e with list := c }
      if keep.length = items.length ∧ ins = [] then pure (acc.1 ++ e.bytes, acc.2.1, acc.2.2.1, acc.2.2.2)
      else do
        let all ← (keep ++ ins).mapM fun i => do
          let raw ← if ixRaw l then Eng.rawOf a l i else pure []
          pure (i, raw)
        let (de, bs, next) := mergedList l (fld d 32 8) acc.2.2.1 all
        pure (acc.1 ++ de, acc.2.1 ++ bs, next, acc.2.2.2 + 1)) ([], [], 0, 0)
  if fld d 40 8 < off + dir.length then Eng.fail stQuota else
  Eng.put slot die ast (fld d 32 8) (out ++ dir)
  let s' := patch (patch (patch s 0 (leBytes 8 (fld d 32 8 + off))) 16 (leBytes 8 (stCount s))) 24
    (leBytes 4 ((stGen s + 1) % 2 ^ 32))
  pure (s', changed, stCount s - stMerged s)

/-- R304: whether registered searches of an index of a lower generation have ended. -/
def Mach.oldSearches (m : Mach) (dpa gen : Nat) : Bool :=
  m.eng.cirque.pins.any fun p => p.dpa == dpa && decide (stGen p.state < gen)

/-- MERGE: begun or carried on; with WAIT_OLD it ends once older searches have. -/
def Mach.rowMerge (m : Mach) (slot : Nat) : Mach :=
  m.cirqueStart slot 0x23 mergeOk fun m c r =>
    m.withLock slot c r fun m r =>
      let ended (m : Mach) (r : CirqueRun) : Mach := m.publishState slot c r fun m =>
        if fld c.desc 18 1 = 1 ∧ m.oldSearches (r.lockDpa.getD 0 - 96) (stGen r.state) then m
        else m.finish slot r.detail r.result
      if r.wrote then ended m r
      else m.runEng slot (Eng.merge slot c.desc) fun m (s, changed, folded) =>
        let r := { r with wrote := true, state := s, detail := changed, result := folded }
        ended (m.setCirque slot r) r

/-- INDEX_LOCK_RETRY: a command that found the lock held tries again. -/
def Mach.rowIndexLockRetry (m : Mach) (slot : Nat) : Mach :=
  match (m.cmd? slot).map fun c => descOp c.desc with
  | some 0x21 => m.rowInsert slot
  | some 0x22 => m.rowDelete slot
  | some 0x23 => m.rowMerge slot
  | _ => m

/-! ## The end of a command -/

/-- The lock of a command released, once no host's copy of its line is in the way; false while one is (R300). -/
def Mach.releaseLock (m : Mach) (slot : Nat) : Bool × Mach :=
  match m.cirque? slot with
  | none => (true, m)
  | some r =>
    match r.lockDpa with
    | none => (true, m)
    | some dpa =>
      match m.recall dpa 8 true with
      | some m => (false, m)
      | none => (true, ((m.storeDpa (slotDie slot) dpa (zeros 8) .none).2).setCirque slot { r with lockDpa := none })

/-- What a Cirque command's end leaves: its run, its pin and its fan-out taken away. -/
def Mach.cirqueGone (m : Mach) (slot : Nat) : Mach :=
  let c := m.eng.cirque
  let mine := c.fan.any (·.slot == slot)
  let m := { m with eng := { m.eng with cirque := { c with
    runs := tdel c.runs slot
    pins := c.pins.filter fun p => p.slot ≠ slot
    fan := if mine then none else c.fan } } }
  if mine then (m.eng.cirque.services.filter fun s => s.origin == m.node).foldl Mach.serviceOver m else m

end Sys2Proof.Machine
end

