-- ==== Sys2Proof/Machine/CouloirRows.lean ====
section
/-! DEFINITION. Couloir (11_couloir.md): COPY and TRANSFORM, transfer elements, slices, failures and controls. -/

namespace Sys2Proof.Machine

/-! ## Transfer elements (R313-R320) -/

/-- The geometry and the work of an element; a COPY is one element of bytes in a single row. -/
structure Xfer where
  src : Nat
  dst : Nat
  sw : Nat
  dw : Nat
  tr : Nat
  par : Nat
  conv : Nat
  sides : Nat
  sX : Nat
  sY : Nat
  sZ : Nat
  dX : Nat
  dY : Nat
  dZ : Nat
  sRow : Int
  sSlab : Int
  dRow : Int
  dSlab : Int
  plane : Nat
  deriving DecidableEq, Repr

/-- The element of 64 bytes (Table 11-3). -/
def xferOf (e : List Byte) : Xfer :=
  let s32 (o : Nat) : Int := toSigned 32 (fld e o 4)
  { src := fld e 0 8, dst := fld e 8 8, sw := fld e 24 2, dw := fld e 26 2, tr := fld e 28 1, par := fld e 29 1
    conv := fld e 30 1, sides := fld e 31 1, sX := fld e 32 2 + 1, sY := fld e 34 2 + 1, sZ := fld e 36 2 + 1
    dX := fld e 38 2 + 1, dY := fld e 40 2 + 1, dZ := fld e 42 2 + 1, sRow := s32 44, sSlab := s32 48, dRow := s32 52
    dSlab := s32 56, plane := fld e 60 4 }

/-- A COPY's move (R313). -/
def xferCopy (d : List Byte) : Xfer :=
  { src := fld d 24 8, dst := fld d 32 8, sw := 8, dw := 8, tr := 0, par := 0, conv := 0, sides := 0, sX := fld d 40 8, sY := 1
    sZ := 1, dX := fld d 40 8, dY := 1, dZ := 1, sRow := 0, sSlab := 0, dRow := 0, dSlab := 0, plane := 0 }

/-- Planes of the source and of the destination (R319). -/
def Xfer.sPlanes (x : Xfer) : Nat := if x.tr = 2 ∨ x.tr = 3 then x.par else 1
/-- Planes of the destination. -/
def Xfer.dPlanes (x : Xfer) : Nat := if x.tr = 1 ∨ x.tr = 4 then x.par else 1
/-- Bits of an element of a source plane. -/
def Xfer.sBits (x : Xfer) : Nat := if x.tr = 2 then x.sw / x.par else x.sw
/-- Bits of an element of a destination plane. -/
def Xfer.dBits (x : Xfer) : Nat := if x.tr = 1 then x.dw / x.par else x.dw
/-- Bytes of a source row. -/
def Xfer.sRowBytes (x : Xfer) : Nat := x.sX * x.sBits / 8
/-- Bytes of a destination row. -/
def Xfer.dRowBytes (x : Xfer) : Nat := x.dX * x.dBits / 8
/-- Whether the source, or the destination, is a scratchpad. -/
def Xfer.sScratch (x : Xfer) : Bool := bit x.sides 0
/-- Whether the destination is a scratchpad. -/
def Xfer.dScratch (x : Xfer) : Bool := bit x.sides 1

/-- A row's first byte; the stride of a dimension whose count is 1 is ignored (R316). -/
def rowAt (base : Nat) (Y Z : Nat) (row slab : Int) (plane k y z : Nat) : Int :=
  (base : Int) + (k * plane : Nat) + (if Z = 1 then 0 else slab * z) + (if Y = 1 then 0 else row * y)

/-- The bounding byte range [lo, hi) of a side, over every plane (R317). -/
def boundOf (base Y Z : Nat) (row slab : Int) (plane planes rowBytes : Nat) : Int × Int :=
  let y : Int := if Y = 1 then 0 else row * (Y - 1 : Nat)
  let z : Int := if Z = 1 then 0 else slab * (Z - 1 : Nat)
  ((base : Int) + min 0 y + min 0 z, (base : Int) + max 0 y + max 0 z + (plane * (planes - 1) + rowBytes : Nat))

/-- The bounding range of the source. -/
def Xfer.sBound (x : Xfer) : Int × Int := boundOf x.src x.sY x.sZ x.sRow x.sSlab x.plane x.sPlanes x.sRowBytes
/-- The bounding range of the destination. -/
def Xfer.dBound (x : Xfer) : Int × Int := boundOf x.dst x.dY x.dZ x.dRow x.dSlab x.plane x.dPlanes x.dRowBytes

/-- R317: rows of whole bytes, stream counts, ranges within their media, no overlap. -/
def Xfer.geometryOk (x : Xfer) : Bool :=
  let sN := x.sX * x.sY * x.sZ
  let dN := x.dX * x.dY * x.dZ
  let counts := match x.tr with
    | 3 => dN == sN * x.par
    | 4 => sN == dN * x.par
    | _ => sN == dN
  let inside (scratch : Bool) (b : Int × Int) : Bool :=
    decide (0 ≤ b.1) && decide (b.2 ≤ (if scratch then 2 ^ 21 else 2 ^ 48 : Int))
  x.sX * x.sBits % 8 == 0 && x.dX * x.dBits % 8 == 0 && counts && inside x.sScratch x.sBound && inside x.dScratch x.dBound &&
  !(x.sScratch == x.dScratch && decide (x.sBound.1 < x.dBound.2) && decide (x.dBound.1 < x.sBound.2))

/-- The LD that a REBASE names, as link and LD (Table 11-4). -/
def Xfer.ld (x : Xfer) : Nat × Nat := (bits x.par 2 0 * 2 + bits x.par 3 3, bits x.par 7 4)

/-- R320: whether a REBASE's parameter names an LD whose decoder 0 is committed. -/
def Mach.rebaseOk (m : Mach) (x : Xfer) : Bool :=
  let port := x.ld.1 / 2
  m.dieActive port && (x.ld.1 % 2 == 0 || m.reg 0x3400 2 port == 1) && decide (x.ld.2 < m.reg 0x3400 3 port) &&
  (m.ld? x.ld.1 x.ld.2).any fun l => (l.decoders.headD Decoder.reset).committed

/-- Table 11-3 and R317 for an element of a command with a crag or none. -/
def Mach.elementOk (m : Mach) (e : List Byte) (crag : Bool) : Bool :=
  let x := xferOf e
  let widthOk (w : Nat) : Bool := decide (8 ≤ w) && decide (w ≤ 512)
  let addrOk (scratch : Bool) (a : Nat) : Bool := decide (a < if scratch then 2 ^ 21 else 2 ^ 48)
  let parOk := match x.tr with
    | 0 => x.par == 0
    | 1 => decide (1 ≤ x.par) && decide (x.par ≤ 16) && x.dw % x.par == 0
    | 2 => decide (1 ≤ x.par) && decide (x.par ≤ 16) && x.sw % x.par == 0
    | 3 => decide (1 ≤ x.par) && decide (x.par ≤ 64)
    | 4 => decide (1 ≤ x.par) && decide (x.par ≤ 64)
    | _ => x.sw == 64 && x.dw == 64 && m.rebaseOk x
  addrOk x.sScratch x.src && addrOk x.dScratch x.dst && fld e 16 8 % 64 == 0 && decide (fld e 16 8 < 2 ^ 48) && widthOk x.sw &&
  widthOk x.dw && decide (x.tr ≤ 5) && parOk && decide (x.conv ≤ 2) && decide (x.sides < 4) && (x.sides == 0 || crag) &&
  !((x.tr == 0 || x.tr == 5) && x.plane != 0) && x.geometryOk

/-- R318: an element converted. -/
def convElem (v sw dw mode : Nat) : Nat :=
  if sw ≤ dw then
    if mode = 2 then v * 2 ^ (dw - sw)
    else if mode = 1 ∧ bit v (sw - 1) then v + (2 ^ dw - 2 ^ sw)
    else v
  else if mode = 2 then v / 2 ^ (sw - dw) else v % 2 ^ dw

/-- Where stream element j of a side's plane begins: the byte of its row, and its bit within the row. -/
def elemAt (base X Y Z w : Nat) (row slab : Int) (plane k j : Nat) : Nat × Nat :=
  ((rowAt base Y Z row slab plane k (j / X % Y) (j / X / Y)).toNat, j % X * w)

/-- Source elements that an output element (plane p, index j) is made of, as (plane, index). -/
def Xfer.needs (x : Xfer) (p j : Nat) : List (Nat × Nat) :=
  match x.tr with
  | 2 => (List.range x.par).map fun k => (k, j)
  | 3 => [(j % x.par, j / x.par)]
  | 4 => [(0, j * x.par + p)]
  | _ => [(0, j)]

/-- The bytes of the source that hold an element: first byte and count. -/
def Xfer.sSpan (x : Xfer) (s : Nat × Nat) : Nat × Nat :=
  let a := elemAt x.src x.sX x.sY x.sZ x.sBits x.sRow x.sSlab x.plane s.1 s.2
  let b0 := a.2 / 8
  (a.1 + b0, (a.2 + x.sBits - 1) / 8 + 1 - b0)

/-- R320: a host pointer converted, and whether it was left. -/
def rebase (h v : Nat) : Nat × Bool :=
  if h ≤ v ∧ v < h + 2 ^ 46 then (v - h + 2 ^ 46, false) else if v = 0 then (0, false) else (v, true)

/-- The value of an output element (plane p, index j) from a reader of source bytes, and pointers not rebased. -/
def Xfer.value (x : Xfer) (h : Nat) (read : Nat → Nat → List Byte) (p j : Nat) : Nat × Nat :=
  let get (s : Nat × Nat) : Nat :=
    let span := x.sSpan s
    let a := elemAt x.src x.sX x.sY x.sZ x.sBits x.sRow x.sSlab x.plane s.1 s.2
    leNat (read span.1 span.2) / 2 ^ (a.2 % 8) % 2 ^ x.sBits
  let v := sumL ((x.needs p j).zipIdx.map fun (s : (Nat × Nat) × Nat) => get s.1 * 2 ^ (s.2 * x.sBits))
  if x.tr = 5 then
    let r := rebase h v
    (r.1, b2n r.2)
  else
    let c := convElem v x.sw x.dw x.conv
    (if x.tr = 1 then c / 2 ^ (p * x.dBits) % 2 ^ x.dBits else c, 0)

/-! ## Beats -/

/-- An output beat: plane, row (y, z), its first byte in the row, and its bytes. -/
structure Beat where
  plane : Nat
  y : Nat
  z : Nat
  off : Nat
  n : Nat
  deriving DecidableEq, Repr

/-- Beats of a row. -/
def Xfer.rowBeats (x : Xfer) : Nat := ceilDiv x.dRowBytes 64
/-- Output beats of an element. -/
def Xfer.beats (x : Xfer) : Nat := x.dPlanes * x.dY * x.dZ * x.rowBeats

/-- Beat b in the order in which rows, and the planes of each row, are given out. -/
def Xfer.beat (x : Xfer) (b : Nat) : Beat :=
  let row := b / (x.rowBeats * x.dPlanes)
  let r := b % (x.rowBeats * x.dPlanes)
  let off := r / x.dPlanes * 64
  { plane := r % x.dPlanes, y := row % x.dY, z := row / x.dY, off := off, n := min 64 (x.dRowBytes - off) }

/-- The address of a beat's first byte. -/
def Xfer.beatAt (x : Xfer) (b : Beat) : Nat := (rowAt x.dst x.dY x.dZ x.dRow x.dSlab x.plane b.plane b.y b.z).toNat + b.off

/-- R324: the offset of a beat in an element's output, summed over planes in plane order. -/
def Xfer.offset (x : Xfer) (b : Beat) : Nat :=
  (b.plane * x.dY * x.dZ + b.z * x.dY + b.y) * x.dRowBytes + b.off

/-- The stream indices of a beat's output elements: the first, and how many. -/
def Xfer.beatElems (x : Xfer) (b : Beat) : Nat × Nat :=
  let first := b.off * 8 / x.dBits
  let last := ((b.off + b.n) * 8 - 1) / x.dBits
  ((b.z * x.dY + b.y) * x.dX + first, last + 1 - first)

/-- The bytes of a beat, and pointers not rebased. -/
def Xfer.beatBytes (x : Xfer) (h : Nat) (read : Nat → Nat → List Byte) (b : Beat) : List Byte × Nat :=
  let e := x.beatElems b
  let vs := (List.range e.2).map fun i => x.value h read b.plane (e.1 + i)
  let whole := (vs.zipIdx.map fun (v : (Nat × Nat) × Nat) => v.1.1 * 2 ^ (v.2 * x.dBits)).foldl (· + ·) 0
  (leBytes b.n (whole / 2 ^ (b.off * 8 % x.dBits)), sumL (vs.map (·.2)))

/-- The 64 B lines of the source that a beat needs, in the order of its stream. -/
def Xfer.beatLines (x : Xfer) (b : Beat) : List Nat :=
  let e := x.beatElems b
  ((List.range e.2).flatMap fun i => (x.needs b.plane (e.1 + i)).flatMap fun s =>
    let span := x.sSpan s
    [span.1 / 64, (span.1 + span.2 - 1) / 64]).eraseDups

/-! ## A step of a channel (R311, R321, R323) -/

/-- What a channel's next step comes to. -/
inductive StepEnd where
  | moved (m : Mach)
  | wait (m : Mach)
  | failed (m : Mach) (addr dir status : Nat)

/-- Lines read for a channel: those that came, a poisoned one, the first that failed, or a wait. -/
def Mach.chanLines (m : Mach) (slot ast : Nat) : List Nat → Tbl (List Byte) → Bool → Bool → Option (Nat × Nat) →
    (Tbl (List Byte) × Bool × Bool × Option (Nat × Nat)) × Mach
  | [], t, poison, wait, bad => ((t, poison, wait, bad), m)
  | l :: rest, t, poison, wait, bad =>
    match m.loadDvaOn slot (slotDie slot) engCouloir ast (l * 64) 64 with
    | (.ok bs, m) => m.chanLines slot ast rest (tput t l bs) poison wait bad
    | (.wait, m) => m.chanLines slot ast rest t poison true bad
    | (.failed st, m) =>
      if st = stPoison then m.chanLines slot ast rest (tput t l (zeros 64)) true wait bad
      else m.chanLines slot ast rest t poison wait (some (bad.getD (l * 64, st)))

/-- n bytes from lines that were read. -/
def lineBytes (t : Tbl (List Byte)) (a n : Nat) : List Byte :=
  let l := a / 64
  slice (tgetD t l (zeros 64) ++ tgetD t (l + 1) (zeros 64) ++ tgetD t (l + 2) (zeros 64)) (a % 64) n

/-- The crag of a TRANSFORM, none for 0xFF and for a COPY. -/
def couloirCrag (d : List Byte) : Option Nat := if descOp d = 0x02 ∧ fld d 20 1 ≠ 0xFF then some (fld d 20 1) else none

/-- The element in progress on a channel. -/
def ChanRun.xfer? (r : ChanRun) (d : List Byte) : Option Xfer :=
  if descOp d = 0x01 then some (xferCopy d) else r.elem.map xferOf

/-- One output beat moved: its source lines read, its bytes made, written where they go. -/
def Mach.chanStep (m : Mach) (k : Nat) (r : ChanRun) (c : Cmd) (x : Xfer) : StepEnd :=
  let d := c.desc
  let slot := r.slot
  let die := k / 64
  let ast := fld d 16 2
  let b := x.beat r.beat
  let crag := (couloirCrag d).getD 0
  let ((t, poison, wait, bad), m) :=
    if x.sScratch then (([], false, false, none), m) else m.chanLines slot ast (x.beatLines b) [] false false none
  match bad with
  | some (a, st) => if wait then .wait m else .failed m a 0 st
  | none =>
    if wait then .wait m else
    let sp := m.crag (cragKey die crag)
    let read (a n : Nat) : List Byte := if x.sScratch then sp.read a n else lineBytes t a n
    let m := if x.sScratch then m.touchBanks die crag 4 slot ((x.sSpan ((x.needs b.plane (x.beatElems b).1).headD (0, 0))).1) 1 else m
    let h := ((m.ld? x.ld.1 x.ld.2).map fun l => (l.decoders.headD Decoder.reset).base).getD 0
    let (bs, left) := x.beatBytes h read b
    let a := x.beatAt b
    let ended (m : Mach) : StepEnd :=
      let m := if poison then (m.bump 0x70B0 0x0C).noteFail slot stPoison else m
      let m := (m.bumpBy 0x70B0 9 0 left).bumpBy 0x70B0 3 0 b.n
      let r := { r with beat := r.beat + 1, written := r.written + b.n }
      .moved ((m.setChan k r).setReg 0x5301 7 k r.written)
    if x.dScratch then ended (m.scratchWrite die crag 3 slot a (if poison then zeros b.n else bs))
    else match m.writeReadyOn die engCouloir ast a b.n with
    | (.wait, m) => .wait m
    | (.failed st, m) => .failed m a 1 st
    | (.ok _, m) =>
      let clean := m.setCmd slot { c with fail := none }
      let m := if poison then clean.poisonDva slot die engCouloir ast a b.n else clean.storeDvaOn slot die engCouloir ast a bs
      match (m.cmd? slot).bind (·.fail) with
      | none => ended (match m.cmd? slot with | some x => m.setCmd slot { x with fail := c.fail } | none => m)
      | some st =>
        let m := match m.cmd? slot with | some x => m.setCmd slot { x with fail := c.fail } | none => m
        if st = stTargetDead then ended (m.noteFail slot st) else .failed m a 1 st

/-! ## A COPY of the tenant's between the bounce and the sealed region (16_security.md R459, R460) -/

/-- How a COPY moves: plainly; not at all, as it would join the regions otherwise than by records; or by n records unsealed or
sealed. -/
inductive CopyPlan where
  | plain
  | perm
  | unseal (n : Nat)
  | seal (n : Nat)
  deriving DecidableEq, Repr

/-- The DPA behind a LOCAL leaf, as a look-up that leaves no trace. -/
def Mach.peekDpa (m : Mach) (die ast dva : Nat) (acc : Acc) : Option Nat :=
  match (m.xlate die engCouloir ast dva acc).1 with
  | .local a _ => some a
  | _ => none

/-- Whether a DPA lies in the bounce region. -/
def Mach.inBounce (m : Mach) (dpa : Nat) : Bool :=
  decide (m.reg 0x6020 2 0 ≤ dpa) && decide (dpa < m.reg 0x6020 2 0 + m.reg 0x6020 3 0)

/-- The region of a DVA range, looked up once in each 64 KiB: 1 bounce, 2 sealed, 0 both, none when nothing translates. -/
def Mach.regionOf (m : Mach) (die ast a n : Nat) (acc : Acc) : Option Nat :=
  let ps := (a :: (List.range (n / 65536 + 1)).filterMap fun i =>
    let p := (a / 65536 + 1 + i) * 65536
    if p < a + n then some p else none).filterMap fun p => m.peekDpa die ast p acc
  if ps = [] then none else some (if ps.all m.inBounce then 1 else if ps.any m.inBounce then 0 else 2)

/-- R460: how a COPY of a queue moves. -/
def Mach.copyPlan (m : Mach) (die : Nat) (c : Cmd) : CopyPlan :=
  if m.confState ≠ 2 ∨ m.qOwner c.queue ≠ m.tenant ∨ descOp c.desc ≠ 0x01 then .plain else
  let d := c.desc
  let ast := fld d 16 2
  let src := fld d 24 8
  let dst := fld d 32 8
  let n := fld d 40 8
  let recs := ceilDiv n 4064
  match m.regionOf die ast src n .read with
  | none => .plain
  | some 1 =>
    match m.regionOf die ast dst (if n % 4096 = 0 then n / 4096 * 4064 else n) .write with
    | some 2 => if src % 4096 = 0 ∧ n % 4096 = 0 then .unseal (n / 4096) else .perm
    | some 0 => .perm
    | _ => .plain
  | some 2 =>
    match m.regionOf die ast dst n .write with
    | some 2 => .plain
    | none => .plain
    | some 1 => if dst % 4096 = 0 ∧ m.regionOf die ast dst (recs * 4096) .write = some 1 then .seal recs else .perm
    | some _ => .perm
  | some _ => .perm

/-- The nonce of a bounce record: bytes 12-15, then bytes 0-7 (R459). -/
def recordNonce (h : List Byte) : List Byte := slice h 12 4 ++ slice h 0 8

/-- R460: the payload of a record read at a DPA, none when it fails. -/
def Mach.openRecord (m : Mach) (rec : List Byte) (dpa : Nat) : Option (List Byte) :=
  let n := fld rec 8 4
  if fld rec 12 4 ≠ 1 ∨ n = 0 ∨ 4064 < n ∨ fld rec 0 8 ≤ m.reg 0x6020 0x0A 0 ∨ !allZero (slice rec (16 + n) (4064 - n)) then none
  else Config.gcmOpen m.sec.bounceKey (recordNonce rec) (slice rec 0 16 ++ leBytes 8 dpa) (slice rec 16 n) (slice rec 4080 16)

/-- R459: a payload sealed as a record for a DPA under a device sequence. -/
def Mach.sealRecord (m : Mach) (payload : List Byte) (sequence dpa : Nat) : List Byte :=
  let h := leBytes 8 sequence ++ leBytes 4 payload.length ++ leBytes 4 2
  let (ct, tag) := Config.gcmSeal m.sec.bounceKey (recordNonce h) (h ++ leBytes 8 dpa) payload
  h ++ slice ct 0 payload.length ++ zeros (4064 - payload.length) ++ slice tag 0 16

/-- Bytes written by a channel at a DVA: the channel goes on, or the access fails. -/
def Mach.chanPut (m : Mach) (slot die ast a : Nat) (bs : List Byte) (c : Cmd) (ended : Mach → StepEnd) : StepEnd :=
  match m.writeReadyOn die engCouloir ast a bs.length with
  | (.wait, m) => .wait m
  | (.failed st, m) => .failed m a 1 st
  | (.ok _, m) =>
    let m := (m.setCmd slot { c with fail := none }).storeDvaOn slot die engCouloir ast a bs
    let bad := (m.cmd? slot).bind (·.fail)
    let m := match m.cmd? slot with | some x => m.setCmd slot { x with fail := c.fail } | none => m
    match bad with
    | none => ended m
    | some st => .failed m a 1 st

/-! ## Steps, plain or by records -/

/-- Notice 0x8133 and its count: a record refused; the coding of its cause is not stated. -/
def Mach.recordRefused (m : Mach) (q dpa : Nat) : Mach :=
  let (cause, m) := m.fresh 256
  (m.bump 0x7130 5).notice 0x8133 (leBytes 2 q ++ leBytes 8 dpa ++ [byteOf cause])

/-- A channel's command over, with a failure or none: what its record carries (R326). -/
def Mach.chanEnd (m : Mach) (k : Nat) (st : Option Nat) : Mach :=
  match m.chan? k with
  | none => m
  | some r =>
    let m := m.finish r.slot (r.last % 65536 + min 0xFFFF r.skipped * 65536) r.written
    match st with
    | some s => m.failCmd r.slot s
    | none => m

/-- One record unsealed: the failing one ends the COPY with BAD_FORMAT. -/
def Mach.unsealStep (m : Mach) (k : Nat) (r : ChanRun) (c : Cmd) : StepEnd :=
  let die := k / 64
  let ast := fld c.desc 16 2
  let a := fld c.desc 24 8 + 4096 * r.beat
  match m.loadDvaOn r.slot die engCouloir ast a 4096 with
  | (.wait, m) => .wait m
  | (.failed st, m) => .failed m a 0 st
  | (.ok rec, m) =>
    let dpa := (m.peekDpa die ast a .read).getD 0
    match m.openRecord rec dpa with
    | none => .moved ((m.recordRefused c.queue dpa).chanEnd k (some stBadFormat))
    | some p => m.chanPut r.slot die ast (fld c.desc 32 8 + r.written) p c fun m =>
      let r := { r with beat := r.beat + 1, written := r.written + p.length }
      .moved ((((m.setReg 0x6020 0x0A 0 (fld rec 0 8)).bumpBy 0x70B0 3 0 p.length).setChan k r).setReg 0x5301 7 k r.written)

/-- One record sealed. -/
def Mach.sealStep (m : Mach) (k : Nat) (r : ChanRun) (c : Cmd) : StepEnd :=
  let die := k / 64
  let ast := fld c.desc 16 2
  let a := fld c.desc 24 8 + 4064 * r.beat
  match m.loadDvaOn r.slot die engCouloir ast a (min 4064 (fld c.desc 40 8 - 4064 * r.beat)) with
  | (.wait, m) => .wait m
  | (.failed st, m) => .failed m a 0 st
  | (.ok p, m) =>
    let to' := fld c.desc 32 8 + 4096 * r.beat
    let sq := m.reg 0x6020 9 0 + 1
    m.chanPut r.slot die ast to' (m.sealRecord p sq ((m.peekDpa die ast to' .write).getD 0)) c fun m =>
      let r := { r with beat := r.beat + 1, written := r.written + 4096 }
      .moved ((((m.setReg 0x6020 9 0 sq).bumpBy 0x70B0 3 0 4096).setChan k r).setReg 0x5301 7 k r.written)

/-- The steps that an element takes under a plan. -/
def CopyPlan.steps (p : CopyPlan) (x : Xfer) : Nat :=
  match p with
  | .unseal n => n
  | .seal n => n
  | _ => x.beats

/-- One step of a channel under a plan. -/
def Mach.planStep (m : Mach) (k : Nat) (r : ChanRun) (c : Cmd) (x : Xfer) (p : CopyPlan) : StepEnd :=
  match p with
  | .plain => m.chanStep k r c x
  | .perm => .moved (m.chanEnd k (some stPerm))
  | .unseal _ => m.unsealStep k r c
  | .seal _ => m.sealStep k r c

/-- A channel past the end of its element: at NEXT, or at the end of the chain. -/
def Mach.nextElement (m : Mach) (k : Nat) (r : ChanRun) (d : List Byte) : Mach :=
  let next := match r.elem with | some e => if descOp d = 0x02 then fld e 16 8 else 0 | none => 0
  if next = 0 then (m.setChan k r).chanEnd k none
  else (m.setChan k { r with elem := none, elemDva := next, index := r.index + 1, beat := 0 }).setReg 0x5301 6 k (r.index + 1)

/-- Whether a channel may begin steps: RUNNING, its command at work and holding the crag it names. -/
def Mach.chanReady (m : Mach) (k : Nat) : Option (ChanRun × Cmd) :=
  if m.channel k ≠ 1 then none else
  match m.chan? k with
  | none => none
  | some r =>
    match m.cmd? r.slot with
    | none => none
    | some c => if c.done ∨ ((couloirCrag c.desc).isSome ∧ !m.hasCrags r.slot) then none
      else if descOp c.desc = 0x01 ∨ descOp c.desc = 0x02 then some (r, c) else none

/-- At most n steps of a channel's slice: how many were taken, and whether the command goes on. -/
def Mach.sliceSteps : Nat → Mach → Nat → Nat → Nat × Mach
  | 0, m, _, taken => (taken, m)
  | n + 1, m, k, taken =>
    match m.chanReady k with
    | none => (taken, m)
    | some (r, c) =>
      match r.xfer? c.desc with
      | none => (taken, m)
      | some x =>
        let plan := m.copyPlan (k / 64) c
        let total := plan.steps x
        if total ≤ r.beat then (taken, m.nextElement k r c.desc)
        else match m.planStep k r c x plan with
        | .wait m => (taken, m)
        | .failed _ _ _ _ => (taken, m)
        | .moved m =>
          match m.chan? k with
          | some r => if total ≤ r.beat then
              (let m := m.nextElement k r c.desc
               match (m.chan? k).bind (·.elem) with
               | some _ => Mach.sliceSteps n m k (taken + 1)
               | none => (taken + 1, m))
            else Mach.sliceSteps n m k (taken + 1)
          | none => (taken + 1, m)

/-- SLICE_END: a channel's slice of at most 256 steps ends; counted as full, or as ended by a stall (R321). -/
def Mach.rowSliceEnd (m : Mach) (die ch steps : Nat) : Mach :=
  let k := chanKey die ch
  match m.chanReady k with
  | none => m
  | some (r, _) =>
    let (taken, m) := Mach.sliceSteps (min steps 256) m k 0
    let ended := ((m.cmd? r.slot).map (·.done)).getD true
    if ended then m else if taken = 256 then m.bump 0x70B0 0x0B else m.bump 0x70B0 0x0A

/-- ELEMENT_READ_DONE: the read of a TRANSFORM's next element completes: checked before any of its bytes move (R314, R315).
A read that fails is left to CHANNEL_ACCESS_FAILED. -/
def Mach.rowElementReadDone (m : Mach) (die ch : Nat) : Mach :=
  let k := chanKey die ch
  match m.chanReady k with
  | none => m
  | some (r, c) =>
    let d := c.desc
    if descOp d ≠ 0x02 ∨ r.elem.isSome then m
    else if fld d 32 4 ≤ r.index then m.chanEnd k (some stBadFormat)
    else match m.loadLocal r.slot die engCouloir (fld d 16 2) r.elemDva 64 with
    | (.wait, m) => m
    | (.failed st, m') => if st = stBadFormat ∨ st = stPoison then m'.chanEnd k (some st) else m
    | (.ok e, m) =>
      if m.elementOk e (couloirCrag d).isSome then m.setChan k { r with elem := some e, beat := 0 }
      else m.chanEnd k (some stBadFormat)

/-! ## Failures and halts (R322-R324) -/

/-- A failed access of a channel: the command ends under NOHALT; otherwise the channel halts with its latch. -/
def Mach.chanFailed (m : Mach) (k : Nat) (r : ChanRun) (c : Cmd) (addr dir status offset : Nat) : Mach :=
  if bit (fld c.desc 19 1) 0 then m.chanEnd k (some status) else
  let m := (m.setChanState k 3).setReg 0x5302 1 k addr
  let m := ((m.setReg 0x5302 2 k dir).setReg 0x5302 3 k status).setReg 0x5302 4 k r.index
  let m := ((m.setReg 0x5302 5 k offset).setReg 0x5302 6 k m.now).bump 0x70B0 4
  m.notice 0x80B0 ([byteOf (k / 64), byteOf (k % 64)] ++ leBytes 2 c.queue ++ leBytes 8 addr ++ [byteOf dir] ++
    leBytes 2 status ++ leBytes 4 r.index ++ leBytes 8 offset)

/-- CHANNEL_ACCESS_FAILED: the access that a channel makes next has failed. A STOPPED channel meets only the failure of a
read that it issued before. -/
def Mach.rowChannelAccessFailed (m : Mach) (die ch : Nat) : Mach :=
  let k := chanKey die ch
  match m.chan? k with
  | none => m
  | some r =>
    match m.cmd? r.slot with
    | none => m
    | some c =>
      let d := c.desc
      let old := m.xl.fetches.any fun f => f.slot == r.slot && (match f.ended with | some (.failed _) => true | _ => false)
      if c.done ∨ (descOp d ≠ 0x01 ∧ descOp d ≠ 0x02) ∨ ((couloirCrag d).isSome ∧ !m.hasCrags r.slot) then m
      else if !(m.channel k = 1 ∨ (m.channel k = 2 ∧ old)) then m
      else match r.xfer? d with
      | none =>
        if fld d 32 4 ≤ r.index then m else
        (match m.loadLocal r.slot die engCouloir (fld d 16 2) r.elemDva 64 with
        | (.failed st, m') => if st = stBadFormat ∨ st = stPoison then m else m'.chanFailed k r c r.elemDva 2 st 0
        | _ => m)
      | some x =>
        let plan := m.copyPlan die c
        if plan.steps x ≤ r.beat then m else
        match m.planStep k r c x plan with
        | .failed m a dir st => m.chanFailed k r c a dir st (if plan = .plain then x.offset (x.beat r.beat) else r.written)
        | _ => m

/-! ## COPY and TRANSFORM -/

/-- The form checks of a COPY (Table 11-1). -/
def copyOk (d : List Byte) : Bool :=
  let n := fld d 40 8
  (decide (fld d 18 1 < 64) || fld d 18 1 == 0xFF) && decide (fld d 19 1 < 2) && fld d 20 4 == 0 && decide (1 ≤ n) &&
  decide (n ≤ 2 ^ 44) && decide (fld d 24 8 + n ≤ 2 ^ 48) && decide (fld d 32 8 + n ≤ 2 ^ 48) && allZero (slice d 52 12)

/-- The form checks of a TRANSFORM (Table 11-2). -/
def transformOk (d : List Byte) : Bool :=
  (decide (fld d 18 1 < 64) || fld d 18 1 == 0xFF) && decide (fld d 19 1 < 2) && (decide (fld d 20 1 < 40) || fld d 20 1 == 0xFF) &&
  fld d 21 3 == 0 && fld d 24 8 % 64 == 0 && decide (fld d 24 8 < 2 ^ 48) && decide (1 ≤ fld d 32 4) &&
  decide (fld d 32 4 ≤ 65536) && allZero (slice d 40 24)

/-- COPY: its fields checked, a channel asked for; with the channel, its ranges checked (R313, R317). -/
def Mach.rowCopy (m : Mach) (slot : Nat) : Mach :=
  match m.cmd? slot with
  | none => m
  | some c =>
    if descOp c.desc ≠ 0x01 ∨ c.done ∨ (m.chanOf slot).isSome then m
    else if !m.astOk c.queue (fld c.desc 16 2) then m.failCmd slot (badAst c.desc)
    else if !copyOk c.desc then m.failCmd slot stInvalDesc
    else if !(xferCopy c.desc).geometryOk then m.failCmd slot stBadFormat
    else m.askChan slot (fld c.desc 18 1)

/-- TRANSFORM: its fields checked, its crag asked for when it names one, then a channel. -/
def Mach.rowTransform (m : Mach) (slot : Nat) : Mach :=
  match m.cmd? slot with
  | none => m
  | some c =>
    let d := c.desc
    if descOp d ≠ 0x02 ∨ c.done ∨ (m.chanOf slot).isSome then m
    else if !m.astOk c.queue (fld d 16 2) then m.failCmd slot (badAst c.desc)
    else if !transformOk d then m.failCmd slot stInvalDesc
    else
      let m := match couloirCrag d with | some n => m.askCrags slot (slotDie slot) n 1 | none => m
      m.askChan slot (fld d 18 1)

/-! ## Controls (R322, R325, R327) -/

/-- A control of Table 11-5 on a channel, under R327: in band only by the owner of its command's queue. -/
def Mach.control (m : Mach) (s : Src) (f : Nat → Mach → Except Nat Mach) : Mach :=
  m.dictWrite s 0x5301 4 fun m =>
    let k := m.rowOf s.q 0x5301 4
    let owner := ((m.chan? k).bind fun r => m.cmd? r.slot).map fun c => m.qOwner c.queue
    match m.identOf s.q, owner with
    | some i, some o => if i = o then f k m else .error abRole
    | _, _ => f k m

/-- A control that changes nothing, counted. -/
def Mach.controlNoop (m : Mach) : Mach := m.bump 0x70B0 8

/-- Whether the ENG domain of a die is down (0x2220, domain 1): neither ON nor coming up. -/
def Mach.engDown (m : Mach) (die : Nat) : Bool := m.reg 0x2220 3 (die * 16 + 1) != 1

/-- CHANNEL_START: a STOPPED channel runs again; refused while ENG is down (15_clocks_power.md R433). -/
def Mach.rowChannelStart (m : Mach) (s : Src) : Mach :=
  m.control s fun k m =>
    if m.engDown (k / 64) then .error abBusy
    else .ok (if m.channel k = 2 then m.setChanState k 1 else m.controlNoop)

/-- CHANNEL_STOP. -/
def Mach.rowChannelStop (m : Mach) (s : Src) : Mach :=
  m.control s fun k m => .ok (if m.channel k = 1 then m.setChanState k 2 else m.controlNoop)

/-- An ABORT, CLEAR or RESUME by the Steward reaches the audit log. -/
def Mach.auditControl (m : Mach) (q : Requester) (k what : Nat) : Mach :=
  if hasRole (m.roles q) .steward then m.auditReq q 0x0036 ([byteOf (k / 64), byteOf (k % 64), byteOf what]) else m

/-- CHANNEL_CLEAR: the rest of a HALTED channel's element is skipped; the command's status is then BUSERR. -/
def Mach.rowChannelClear (m : Mach) (s : Src) : Mach :=
  m.control s fun k m =>
    match m.channel k, m.chan? k with
    | 3, some r =>
      let d := ((m.cmd? r.slot).map (·.desc)).getD []
      let m := ((m.bump 0x70B0 6).noteFail r.slot stBusErr).auditControl s.q k 3
      .ok ((m.setChanState k 1).nextElement k
        { r with skipped := r.skipped + 1, last := m.reg 0x5302 3 k, since := some m.now } d)
    | _, _ => .error abBusy

/-- CHANNEL_RESUME: a HALTED channel issues its accesses again from the latched point. -/
def Mach.rowChannelResume (m : Mach) (s : Src) : Mach :=
  m.control s fun k m =>
    match m.channel k, m.chan? k with
    | 3, some r =>
      if m.engDown (k / 64) then .error abBusy else
      let m := { m with xl := { m.xl with fetches := m.xl.fetches.filter fun f => f.slot ≠ r.slot } }
      .ok (((m.bump 0x70B0 5).auditControl s.q k 4).setChanState k 1)
    | _, _ => .error abBusy

/-- A channel's command aborted (R326): BUSERR, with the latch's status when it was HALTED. -/
def Mach.abortChan (m : Mach) (k : Nat) : Mach :=
  match m.chan? k with
  | none => m
  | some r =>
    let last := if m.channel k = 3 then m.reg 0x5302 3 k else 0
    ((m.bump 0x70B0 7).setChan k { r with last := last }).chanEnd k (some stBusErr)

/-- CHANNEL_ABORT. -/
def Mach.rowChannelAbort (m : Mach) (s : Src) : Mach :=
  m.control s fun k m =>
    if m.channel k = 1 ∨ m.channel k = 2 ∨ m.channel k = 3 then .ok ((m.abortChan k).auditControl s.q k 5)
    else .ok m.controlNoop

/-- HALT_BOUND_EXPIRY: a channel stays HALTED for the halt bound: as ABORT. -/
def Mach.rowHaltBoundExpiry (m : Mach) (die ch : Nat) : Mach :=
  let k := chanKey die ch
  if m.channel k = 3 ∧ m.reg 0x5300 2 0 ≠ 0 then m.abortChan k else m

end Sys2Proof.Machine
end

