-- ==== Sys2Proof/Machine/CollRows.lean ====
section
/-! DEFINITION. ATOMIC, PUBLISH and COLLECTIVE (06_ridgeline_memory.md R175-R183, R192-R195; 13_acting_as_one.md R369-R373). -/

namespace Sys2Proof.Machine

/-! ## ATOMIC (R177) -/

/-- Table 06-6: whether a descriptor's fields are legal. -/
def atomicOk (d : List Byte) : Bool :=
  let w := atomicWidth (fld d 18 1)
  let aop := fld d 18 1
  w != 0 && decide (fld d 19 1 < 4) && fld d 20 4 == 0 && fld d 24 8 % w == 0 && decide (fld d 24 8 < 2 ^ 48) &&
  (bit (fld d 19 1) 0 || fld d 32 8 % w == 0) &&
  (if aop = 0x24 then fld d 40 8 % 16 == 0 else decide (w = 8 ∨ fld d 40 8 < 2 ^ (8 * w))) &&
  (aop == 0x21 || fld d 48 8 == 0) && allZero (slice d 56 8)

/-- The operands A and B of an ATOMIC: from its descriptor, or for CAS u128 from the block it names. -/
def Mach.atomicOperands (m : Mach) (slot : Nat) (d : List Byte) : Got × Mach :=
  if fld d 18 1 = 0x24 then m.loadDva slot engOther (fld d 16 2) (fld d 40 8) 32
  else (.ok (leBytes 16 (fld d 40 8) ++ leBytes 16 (fld d 48 8)), m)

/-- An ATOMIC that has its old value: written to the result DVA unless NORESULT, and the command's work over. -/
def Mach.atomicResult (m : Mach) (slot : Nat) (d : List Byte) (old : List Byte) : Mach :=
  let m := if bit (fld d 19 1) 0 then m
    else m.storeDva slot engOther (fld d 16 2) (fld d 32 8) (slice old 0 (atomicWidth (fld d 18 1)))
  m.finish slot 0 0

/-- Whether an ATOMIC's result can be written now: ready, failing with a status once the atomic is applied, or a wait. -/
def Mach.atomicReady (m : Mach) (slot : Nat) (d : List Byte) : Got × Mach :=
  if bit (fld d 19 1) 0 then (.ok [], m)
  else m.writeReady slot engOther (fld d 16 2) (fld d 32 8) (atomicWidth (fld d 18 1))

/-- An ATOMIC on a GFA: its frame sent once, its answer taken when it has come. -/
def Mach.atomicRemote (m : Mach) (slot : Nat) (d : List Byte) (gfa key : Nat) (ops : List Byte) : Got × Mach :=
  let w := atomicWidth (fld d 18 1)
  match m.xl.fetches.find? fun f => f.slot == slot && f.gfa && f.addr == gfa && f.len == w with
  | some f => match f.ended with
    | some (.ok bs) => (.ok bs, m)
    | some (.failed st) => (.failed st, m)
    | none => (.wait, m)
  | none =>
    if m.nodeDead (gfa / 2 ^ 50) then (.failed stTargetDead, m.bump 0x7060 0x0D)
    else match m.newTag (slotDie slot) false with
    | none => (.wait, m)
    | some tag =>
      let m := { m with xl := { m.xl with fetches := m.xl.fetches ++ [(⟨slot, true, gfa, w, tag, none⟩ : Fetch)] } }
      (.wait, m.sendReq slot (m.reqFrame opAtomic 2 0 gfa key tag w (fld d 18 1) 0 0 (bit (fld d 19 1) 1) (bit (fld d 19 1) 0)
        (slice ops 0 64)) (.atomic slot))

/-- ATOMIC: LOCAL at the home die, GFA by a frame, HOST refused; then the old value is written. -/
def Mach.rowAtomic (m : Mach) (slot : Nat) : Mach :=
  match m.cmd? slot with
  | none => m
  | some c =>
    let d := c.desc
    let w := atomicWidth (fld d 18 1)
    if descOp d ≠ 0x42 ∨ c.done then m
    else if !m.astOk c.queue (fld d 16 2) then m.failCmd slot (badAst c.desc)
    else if !atomicOk d then m.failCmd slot stInvalDesc
    else match m.xlate (slotDie slot) engOther (fld d 16 2) (fld d 24 8) .atomic with
    | (.fault st, m) => m.failCmd slot st
    | (.wait, m) => m
    | (.host _ _ _, m) => m.failCmd slot stBadFormat
    | (.local dpa _, m) =>
      match m.atomicOperands slot d with
      | (.wait, m) => m
      | (.failed st, m) => m.failCmd slot st
      | (.ok ops, m) =>
        match m.atomicReady slot d with
        | (.wait, m) => m
        | (_, m) =>
          match m.recall dpa w true with
          | some m => m
          | none =>
            match m.atomicAt (m.homeOf dpa) dpa (fld d 18 1) (fld ops 0 16) (fld ops 16 16) (.cmd slot) with
            | (.error st, m) => m.failCmd slot st
            | (.ok old, m) => m.atomicResult slot d (leBytes 16 old)
    | (.gfa a key _, m) =>
      match m.atomicOperands slot d with
      | (.wait, m) => m
      | (.failed st, m) => m.failCmd slot st
      | (.ok ops, m) =>
        match m.atomicRemote slot d a key ops with
        | (.wait, m) => m
        | (.failed st, m) => m.failCmd slot st
        | (.ok old, m) =>
          match m.atomicReady slot d with
          | (.wait, m) => m
          | (_, m) => m.atomicResult slot d old

/-! ## PUBLISH (R183) -/

/-- Table 06-7: whether a descriptor's fields are legal. -/
def publishOk (d : List Byte) : Bool :=
  allZero (slice d 18 6) && fld d 24 8 % 64 == 0 && decide (fld d 24 8 < 2 ^ 48) && fld d 32 8 % 64 == 0 &&
  decide (fld d 32 8 < 2 ^ 48) && decide (64 ≤ fld d 40 8) && decide (fld d 40 8 ≤ 2 ^ 30) && fld d 40 8 % 64 == 0 &&
  allZero (slice d 48 16)

/-- Whether a range leads to members of replica sets alone: `ok`, a status, or a wait. -/
def Mach.memberRange : Nat → Mach → Nat → Nat → Nat → Nat → Got × Mach
  | 0, m, _, _, _, _ => (.ok [], m)
  | fuel + 1, m, die, ast, dva, n =>
    if n = 0 then (.ok [], m) else
    match m.xlate die engOther ast dva .write with
    | (.fault st, m) => (.failed st, m)
    | (.wait, m) => (.wait, m)
    | (.gfa a _ span, m) =>
      if (m.setOf (a / 2 ^ 50) (bits a 49 38)).isSome then Mach.memberRange fuel m die ast (dva + span) (n - span)
      else (.failed stBadFormat, m)
    | (_, m) => (.failed stBadFormat, m)

/-- One PUBLISH frame: n bytes from an offset, sent to the publisher (R181). `wait` when there is no TAG yet. -/
def Mach.publishPiece (m : Mach) (slot : Nat) (c : Cmd) (off n : Nat) : Got × Mach :=
  let d := c.desc
  match m.xlate (slotDie slot) engOther (fld d 16 2) (fld d 32 8 + off) .write with
  | (.fault st, m) => (.failed st, m)
  | (.gfa a key _, m) =>
    match m.setOf (a / 2 ^ 50) (bits a 49 38) with
    | none => (.failed stBadFormat, m)
    | some s =>
      let p := m.reg 0x4440 2 s
      match m.loadDva slot engOther (fld d 16 2) (fld d 24 8 + off) n with
      | (.wait, m) => (.wait, m)
      | (.failed st, m) => (.failed st, m)
      | (.ok bs, m) =>
        if !bit p 31 ∨ m.nodeDead (bits p 24 16) then (.failed stTargetDead, m.bump 0x7060 0x0D)
        else match m.newTag (slotDie slot) false, m.cmd? slot with
        | some tag, some c =>
          let m := m.setCmd slot { c with fabricOut := c.fabricOut + 1 }
          let gfa := bits p 24 16 * 2 ^ 50 + p % 4096 * 2 ^ 38 + a % 2 ^ 38
          (.ok [], (m.sendReq slot (m.reqFrame opPublish 2 0 gfa key tag n 0 s 0 false false bs) (.publish slot)).bumpBy
            0x70B0 3 0 n)
        | _, _ => (.wait, m)
  | (_, m) => (.wait, m)

/-- The frames of a PUBLISH sent in order, as far as TAGs go. -/
def Mach.publishRun : Nat → Mach → Nat → Mach
  | 0, m, _ => m
  | fuel + 1, m, slot =>
    match m.cmd? slot, m.chanOf slot with
    | some c, some k =>
      match m.chan? k with
      | none => m
      | some r =>
        let len := fld c.desc 40 8
        let off := r.written
        if c.fail.isSome then m.finish slot 0 0
        else if len ≤ off then m.finish slot 0 0
        else
          let room := 4096 - (fld c.desc 32 8 + off) % 4096
          let n := min (len - off) room
          match m.publishPiece slot c off n with
          | (.failed st, m) => m.failCmd slot st
          | (.wait, m) => m
          | (.ok _, m) => Mach.publishRun fuel (m.setChan k { r with written := off + n }) slot
    | _, _ => m

/-- PUBLISH: its fields and ranges checked, a channel asked for; with a running one, its frames go to the publisher. -/
def Mach.rowPublish (m : Mach) (slot : Nat) : Mach :=
  match m.cmd? slot with
  | none => m
  | some c =>
    let d := c.desc
    if descOp d ≠ 0x43 ∨ c.done then m
    else if !m.astOk c.queue (fld d 16 2) then m.failCmd slot (badAst c.desc)
    else if !publishOk d then m.failCmd slot stInvalDesc
    else if (m.chanOf slot).isSome then
      (if m.chanRunning slot then Mach.publishRun 300000 m slot else m)
    else match m.localReady (slotDie slot) engOther (fld d 16 2) (fld d 24 8) (fld d 40 8) .read with
    | (.failed st, m) => m.failCmd slot st
    | (.wait, m) => m
    | (.ok _, m) =>
      match Mach.memberRange (fld d 40 8 / 65536 + 4) m (slotDie slot) (fld d 16 2) (fld d 32 8) (fld d 40 8) with
      | (.failed st, m) => m.failCmd slot st
      | (.wait, m) => m
      | (.ok _, m) => m.askChan slot 0xFF

/-! ## Reduction (R192) -/

/-- Bytes of an element of a data type: FP32, BF16, FP16, S32, S64. -/
def collWidth (dtype : Nat) : Nat := match dtype with | 0 => 4 | 1 => 2 | 2 => 2 | 3 => 4 | _ => 8

/-- Whether a reduction travels as FP32 partial sums. -/
def collWide (op dtype : Nat) : Bool := op == 0 && (dtype == 1 || dtype == 2)

/-- The format of a floating data type. -/
def collFmt (dtype : Nat) : Fmt := match dtype with | 0 => fp32 | 1 => bf16 | _ => fp16

/-- Two elements combined: the received partial result and the own contribution. -/
def collCombine (op dtype a b : Nat) : Nat :=
  if dtype < 3 then
    match op with
    | 0 => f32add a b
    | 1 => (collFmt dtype).encode (((collFmt dtype).decode a).min ((collFmt dtype).decode b))
    | _ => (collFmt dtype).encode (((collFmt dtype).decode a).max ((collFmt dtype).decode b))
  else
    let w := 8 * collWidth dtype
    match op with
    | 0 => (a + b) % 2 ^ w
    | 1 => if toSigned w b < toSigned w a then b else a
    | _ => if toSigned w a < toSigned w b then b else a

/-- A byte string cut into elements of w bytes. -/
def elemsOf (w : Nat) : Nat → List Byte → List Nat
  | 0, _ => []
  | n + 1, bs => leNat (bs.take w) :: elemsOf w n (bs.drop w)

/-- The bytes of elements of w bytes. -/
def elemBytes (w : Nat) (es : List Nat) : List Byte := (es.map (leBytes w)).flatten

/-- A vector with elements from a position replaced. -/
def vecPut (v : List Nat) (at' : Nat) (es : List Nat) : List Nat := v.take at' ++ es ++ v.drop (at' + es.length)

/-! ## Rings (R193, R369) -/

/-- The rings of a group as this member stands in them: (size, own index, next node), in reduce-scatter order. -/
def Mach.rings (m : Mach) (g : Nat) : List (Nat × Nat × Nat) :=
  let ms := m.groupMembers g
  if m.reg 0x4510 2 g = 1 then
    let k := ms.length
    let i := (m.ownBlock g).getD 0
    [(k, i, ms.getD ((i + 1) % k) 0)]
  else
    let low := m.reg 0x4510 3 g
    let rel (d : Nat) : Nat := m.coord m.node d - m.coord low d
    let place (d r : Nat) : Nat :=
      let c (e : Nat) : Nat := m.coord low e + (if e = d then r else rel e)
      m.nodeAt (c 0) (c 1) (c 2)
    ([0, 1, 2].filter fun d => 1 < m.boxSize g d).map fun d =>
      let k := m.boxSize g d
      (k, rel d, place d ((rel d + 1) % k))

/-- The reduce-scatter rings over a range, and the range they leave to this member. -/
def scatterStages : List (Nat × Nat × Nat) → Nat → Nat → Nat → List CollStage
  | [], _, _, _ => []
  | (k, i, next) :: rest, lo, len, base =>
    ⟨0, k, i, next, lo, len, base⟩ :: scatterStages rest (lo + i * (len / k)) (len / k) (base + k - 1)

/-- All-gather rings: those of the reduce-scatter backward, their steps numbered from 0. -/
def gatherStages : List CollStage → Nat → List CollStage
  | [], _ => []
  | s :: rest, base => { s with phase := 1, base := base } :: gatherStages rest (base + s.k - 1)

/-- The rings of a collective of a kind over N elements. -/
def Mach.collStages (m : Mach) (g kind n : Nat) : List CollStage :=
  let rs := scatterStages (m.rings g) 0 n 0
  let ag := gatherStages rs.reverse 0
  match kind with
  | 0 => rs ++ ag
  | 1 => rs
  | 2 => ag
  | _ => []

/-- R193, R369: the nodes that this member passes a BROADCAST's data on to, with the number of the step: along x from the
root, then y, then z; a LIST along its one ring. -/
def Mach.passNodes (m : Mach) (g root : Nat) : List (Nat × Nat) :=
  let b := (m.ownBlock g).getD 0
  let rs := m.rings g
  if m.reg 0x4510 2 g = 1 then
    match rs.head? with
    | some (k, i, next) => let d := (i + k - root % k) % k; if d + 1 < k then [(next, d)] else []
    | none => []
  else
    let sizes := [0, 1, 2].map fun d => m.boxSize g d
    let part (x d : Nat) : Nat :=
      let below := (sizes.drop (d + 1)).foldl (· * ·) 1
      x / below % sizes.getD d 1
    let away (d : Nat) : Nat := let k := sizes.getD d 1; (part b d + k - part root d) % k
    let dims := [0, 1, 2].filter fun d => 1 < sizes.getD d 1
    let hops := away 0 + away 1 + away 2
    ((dims.zip rs).filter fun (p : Nat × Nat × Nat × Nat) =>
      decide (away p.1 + 1 < p.2.1) && ([0, 1, 2].all fun e => decide (e ≤ p.1) || away e == 0)).map fun p => (p.2.2.2, hops)

/-! ## COLL frames (Table 06-3) -/

/-- A COLL frame's word 5. -/
def collWord5 (c : Coll) (step phase : Nat) : Nat :=
  c.group + c.epoch * 2 ^ 16 + step % 256 * 2 ^ 24 + phase * 2 ^ 32

/-- One COLL frame sent. The manual gives it no window, offset or key: those header fields are free values. -/
def Mach.collFrame (m : Mach) (c : Coll) (next phase step chunk off width : Nat) (es : List Nat) : Mach :=
  let (w, m) := m.fresh (2 ^ 12)
  let (o, m) := m.fresh (2 ^ 38)
  let (k, m) := m.fresh (2 ^ 64)
  let bs := elemBytes width es
  m.sendFrame { dst := next, src := m.node, cls := 2, vc := 0, colour := 0, epoch := m.epoch, opcode := opColl
                len := ceilDiv bs.length 64, hops := 0, detour := false, rerouted := false, mg := false, sequence := 0
                tag := c.tag, window := w, offset := o, key := k
                ext := extWords (word4 0 bs.length 0 false false) (collWord5 c step phase) 0
                  (off + chunk * 2 ^ 36 + c.dtype * 2 ^ 52 + c.op * 2 ^ 56)
                payload := bs }

/-- Elements sent in frames of at most 4 KiB. -/
def Mach.collFrames : Nat → Mach → Coll → Nat → Nat → Nat → Nat → Nat → Nat → List Nat → Mach
  | 0, m, _, _, _, _, _, _, _, _ => m
  | fuel + 1, m, c, next, phase, step, chunk, off, width, es =>
    if es.isEmpty then m else
    let n := 4096 / width
    Mach.collFrames fuel (m.collFrame c next phase step chunk off width (es.take n)) c next phase step chunk (off + n) width
      (es.drop n)

/-- The bytes of an element on its way. -/
def Coll.wire (c : Coll) (phase : Nat) : Nat := if phase = 0 ∧ collWide c.op c.dtype then 4 else collWidth c.dtype

/-- The chunk that a ring's step sends. -/
def CollStage.sends (s : CollStage) (step : Nat) : Nat :=
  if s.phase = 0 then (s.i + 2 * s.k - 1 - step) % s.k else (s.i + s.k - step) % s.k
/-- The chunk that a ring's step receives. -/
def CollStage.takes (s : CollStage) (step : Nat) : Nat :=
  if s.phase = 0 then (s.i + 2 * s.k - 2 - step) % s.k else (s.i + 2 * s.k - 1 - step) % s.k
/-- The first element of a chunk. -/
def CollStage.start (s : CollStage) (chunk : Nat) : Nat := s.lo + chunk * (s.len / s.k)

/-- The chunk of the present step sent. -/
def Mach.collStep (m : Mach) (c : Coll) : Mach :=
  match c.stages[c.stage]? with
  | none => m
  | some s =>
    if s.k ≤ c.step + 1 then m else
    let ch := s.sends c.step
    let n := s.len / s.k
    let m := { m with fab := { m.fab with reqs := tmod m.fab.reqs c.tag fun (r : OutReq) =>
      { r with frame := { r.frame with dst := s.next } } } }
    Mach.collFrames (n / 64 + 1) m c s.next s.phase (s.base + c.step) ch 0 (c.wire s.phase) ((c.vec.drop (s.start ch)).take n)

/-! ## A collective's run (R193, R195) -/

/-- A collective replaced. -/
def Mach.setColl (m : Mach) (c : Coll) : Mach :=
  { m with hall := { m.hall with colls := m.hall.colls.map fun x => if x.slot = c.slot then c else x } }

/-- The vector once its reduction is complete: wide partial sums rounded once to the element type. -/
def Coll.rounded (c : Coll) : List Nat :=
  if collWide c.op c.dtype then c.vec.map fun x => (collFmt c.dtype).encode (fp32.decode x) else c.vec

/-- A frame's elements taken into the vector: combined during reduce-scatter, placed otherwise. -/
def Coll.absorb (c : Coll) (at' : Nat) (reduce : Bool) (es : List Nat) : Coll :=
  let own := (c.vec.drop at').take es.length
  let new := if reduce then List.zipWith (fun a b => collCombine c.op c.dtype a b) es own else es
  { c with vec := vecPut c.vec at' new, got := c.got + es.length }

/-- The rings worked on as far as the frames that have come allow. -/
def Mach.collRun : Nat → Mach → Coll → Mach × Coll
  | 0, m, c => (m, c)
  | fuel + 1, m, c =>
    match c.stages[c.stage]? with
    | none => (m, { c with ended := true })
    | some s =>
      if s.k ≤ c.step + 1 then
        let nextReduces := (c.stages[c.stage + 1]?).any fun t => t.phase == 0
        let c := { c with vec := if s.phase = 0 && !nextReduces then c.rounded else c.vec, stage := c.stage + 1, step := 0, got := 0 }
        Mach.collRun fuel (m.collStep c) c
      else
        let mine (x : CollIn) : Bool := x.phase == s.phase && x.step == (s.base + c.step) % 256 && x.chunk == s.takes c.step
        match c.inbox.find? mine with
        | none => (m, c)
        | some x =>
          let c := { c with inbox := c.inbox.erase x }.absorb (s.start (s.takes c.step) + x.off) (s.phase == 0) x.elems
          if c.got < s.len / s.k then Mach.collRun fuel m c
          else
            let c := { c with step := c.step + 1, got := 0 }
            Mach.collRun fuel (m.collStep c) c

/-- A BROADCAST's frames that have come: placed, and passed on as they are. -/
def Mach.broadcastRun : List CollIn → Mach → Coll → Mach × Coll
  | [], m, c => (m, c)
  | x :: rest, m, c =>
    let c := c.absorb x.off false x.elems
    let m := c.passOn.foldl (fun m (p : Nat × Nat) => m.collFrame c p.1 2 p.2 0 x.off (collWidth c.dtype) x.elems) m
    Mach.broadcastRun rest m { c with ended := decide (c.vec.length ≤ c.got) }

/-- A collective whose vector is complete: the destination written once it can be, and its work over. -/
def Mach.collEnd (m : Mach) (c : Coll) : Mach :=
  let m := m.setColl c
  if !c.ended then m else
  match m.cmd? c.slot with
  | none => m
  | some x =>
    let w := collWidth c.dtype
    let d := x.desc
    let p := (m.groupMembers c.group).length
    let n := fld d 40 8 / max 1 p
    let out := if c.kind = 1 then (c.vec.drop ((m.ownBlock c.group).getD 0 * n)).take n else c.vec
    let bs := elemBytes w out
    match m.writeReady c.slot engOther (fld d 16 2) (fld d 32 8) bs.length with
    | (.wait, m) => m
    | (.failed st, m) => m.collFailed c.slot st
    | (.ok _, m) =>
      let m := { m with
        hall := { m.hall with colls := m.hall.colls.filter (·.slot ≠ c.slot) }
        fab := { m.fab with reqs := tdel m.fab.reqs c.tag } }
      (m.storeDva c.slot engOther (fld d 16 2) (fld d 32 8) bs).finish c.slot 0 0

/-- A collective worked on. -/
def Mach.collWork (m : Mach) (c : Coll) : Mach :=
  if c.kind = 3 then
    let (m, c) := Mach.broadcastRun c.inbox m { c with inbox := [] }
    m.collEnd c
  else
    let (m, c) := Mach.collRun (c.inbox.length + 2 * sumL (c.stages.map (·.k)) + 16) m c
    m.collEnd c

/-! ## COLLECTIVE (R194, R370, R373) -/

/-- Table 06-9: the status of a descriptor's own fields for a group of p members, 0 for none. -/
def collFail (d : List Byte) (p : Nat) : Nat :=
  let kind := fld d 18 1
  let n := fld d 40 8
  let w := collWidth (fld d 20 1)
  let total := n * w
  let part := n / max 1 p * w
  let ended := if kind = 1 then overlaps (fld d 24 8) total (fld d 32 8) part
    else if kind = 2 then overlaps (fld d 24 8) part (fld d 32 8) total else false
  if 3 < kind ∨ (kind < 2 ∧ 2 < fld d 19 1) ∨ 4 < fld d 20 1 ∨ fld d 21 1 ≠ 0 ∨ p = 0 ∨ fld d 24 8 % 64 ≠ 0 ∨
      fld d 32 8 % 64 ≠ 0 ∨ n < 32 * p ∨ 2 ^ 34 < n ∨ n % (32 * max 1 p) ≠ 0 ∨
      (if kind = 3 then p ≤ fld d 48 2 else fld d 48 2 ≠ 0) ∨ !allZero (slice d 50 14) ∨ ended then stInvalDesc
  else 0

/-- Bytes of a collective's source and of its destination (R194). -/
def collSpans (d : List Byte) (p : Nat) : Nat × Nat :=
  let total := fld d 40 8 * collWidth (fld d 20 1)
  match fld d 18 1 with
  | 1 => (total, total / max 1 p)
  | 2 => (total / max 1 p, total)
  | _ => (total, total)

/-- A COLLECTIVE that fails before it runs: the group aborts with its status when this device is a member (R371). -/
def Mach.collReject (m : Mach) (slot g status : Nat) : Mach :=
  let m := m.failCmd slot status
  if (m.ownBlock g).isSome then m.abortGroup g status else m

/-- A collective begun on the source it has read (R370): a TAG, its rings, the vector. -/
def Mach.collBegin (m : Mach) (slot g tag : Nat) (d src : List Byte) : Mach :=
  let kind := fld d 18 1
  let op := fld d 19 1
  let dtype := fld d 20 1
  let n := fld d 40 8
  let w := collWidth dtype
  let es := elemsOf w (src.length / w) src
  let own := (m.ownBlock g).getD 0
  let root := kind == 3 && own == fld d 48 2
  let vec := match kind with
    | 2 => vecPut (List.replicate n 0) (own * es.length) es
    | 3 => if root then es else List.replicate n 0
    | _ => if collWide op dtype then es.map fun x => fp32.encode ((collFmt dtype).decode x) else es
  let c : Coll := { slot := slot, group := g, epoch := m.reg 0x4510 9 g, kind := kind, op := if kind < 2 then op else 0
                    dtype := dtype, tag := tag, stages := m.collStages g kind n, stage := 0, step := 0, got := 0, vec := vec
                    inbox := [], passOn := if kind = 3 then m.passNodes g (fld d 48 2) else [], ended := root }
  let f := { m.reqFrame opColl 2 0 0 0 tag 0 0 0 0 false false [] with dst := m.node }
  let m := { m with
    hall := { m.hall with colls := m.hall.colls ++ [c] }
    fab := { m.fab with reqs := tput m.fab.reqs tag ⟨f, .coll slot, 0, 0⟩ } }
  if kind = 3 then
    let m := if root then c.passOn.foldl (fun m (p : Nat × Nat) => Mach.collFrames (n / 64 + 1) m c p.1 2 p.2 0 0 w vec) m else m
    m.collEnd c
  else (m.collStep c).collWork c

/-- COLLECTIVE: its fields and ranges checked; it waits for its group to be READY, then reads its source and runs; one whose
vector is complete writes it when it is delivered again. A group of one copies. -/
def Mach.rowCollective (m : Mach) (slot : Nat) : Mach :=
  match m.cmd? slot with
  | none => m
  | some c =>
    let d := c.desc
    let g := fld d 22 2
    let p := (m.groupMembers g).length
    if descOp d ≠ 0x60 ∨ c.done then m
    else match m.hall.colls.find? (·.slot == slot) with
    | some x => m.collEnd x
    | none =>
      if !m.astOk c.queue (fld d 16 2) then m.collReject slot g (badAst d)
      else if 1024 ≤ g ∨ (m.ownBlock g).isNone then m.failCmd slot stInvalDesc
      else if collFail d p ≠ 0 then m.collReject slot g (collFail d p)
      else if m.reg 0x4510 0x0A g ≠ 1 ∨ m.hall.colls.any (·.group == g) then m
      else
        let (sn, dn) := collSpans d p
        let own := (m.ownBlock g).getD 0
        let reads := fld d 18 1 ≠ 3 ∨ own = fld d 48 2
        match m.localReady (slotDie slot) engOther (fld d 16 2) (fld d 32 8) dn .write with
        | (.failed st, m) => m.collReject slot g st
        | (.wait, m) => m
        | (.ok _, m) =>
          match (if reads then m.loadLocal slot (slotDie slot) engOther (fld d 16 2) (fld d 24 8) sn else (.ok [], m)) with
          | (.failed st, m) => m.collReject slot g st
          | (.wait, m) => m
          | (.ok src, m) =>
            if p = 1 then (m.storeDva slot engOther (fld d 16 2) (fld d 32 8) src).finish slot 0 0
            else match m.newTag (slotDie slot) false with
            | none => m
            | some tag => m.collBegin slot g tag d src

/-- FRAME_COLL (R174, R195): rows 1 and 2, then the group's epoch; a frame of a member whose COLLECTIVE has not begun waits for
it. -/
def Mach.rowFrameColl (m : Mach) (port : Nat) (f : RFrame) : Mach :=
  if f.opcode ≠ opColl ∨ !RFrameFormOk f then (m.takeArrived port f).refuseFrame f else
  let g := f.word 5 % 65536
  let epoch := bits (f.word 5) 23 16
  match m.keyCheck f with
  | (st, m) =>
    if st ≠ 0 then m.takeArrived port f
    else if epoch ≠ m.reg 0x4510 9 g ∨ (m.ownBlock g).isNone then (m.takeArrived port f).bump 0x7060 0x0C
    else match m.hall.colls.find? (·.group == g) with
    | none => m
    | some c =>
      let m := m.takeArrived port f
      let phase := bits (f.word 5) 33 32
      let w := c.wire phase
      let x : CollIn := ⟨phase, bits (f.word 5) 31 24, bits (f.word 7) 51 36, f.word 7 % 2 ^ 36, elemsOf w (f.nbytes / w) f.payload⟩
      m.collWork { c with inbox := c.inbox ++ [x] }

/-- PROGRESS_BOUND_EXPIRY (R371, R373): a member has waited too long for a COLL frame, or its COLLECTIVE for READY. -/
def Mach.rowProgressBound (m : Mach) (g : Nat) : Mach :=
  let waiting := (m.sched.slots.filter fun (p : Nat × Cmd) => descOp p.2.desc == 0x60 && fld p.2.desc 22 2 == g && !p.2.done &&
    !m.hall.colls.any (·.slot == p.1)).map Prod.fst
  if (m.ownBlock g).isNone ∨ (waiting = [] ∧ !m.hall.colls.any (·.group == g)) then m
  else
    let e := m.reg 0x4510 9 g
    let m := waiting.foldl (fun m k =>
      match m.cmd? k with
      | some x => m.setCmd k { x with fail := some (x.fail.getD stCollAbort), done := true, detail := e % 256 }
      | none => m) m
    m.abortGroup g stCollAbort

end Sys2Proof.Machine
end

