-- ==== Sys2Proof/Machine/HallRows.lean ====
section
/-! DEFINITION. Acting as one (13_acting_as_one.md): digests, floods, the timebase and its beacons, group epochs. -/

namespace Sys2Proof.Machine

/-! ## Digests and quarantine (R355-R358) -/

/-- DIGEST_PERIOD_EXPIRY: a port in ACTIVE, QUARANTINE or RESTORED sends a DIGEST. -/
def Mach.rowDigestPeriod (m : Mach) (p : Nat) : Mach :=
  if [7, 8, 9].contains (m.pState p) then m.sendDigest p false else m

/-- DIGEST_MISSING_EXPIRY (R356 row 5, R357): the missing check fails, so the port disagrees. -/
def Mach.rowDigestMissing (m : Mach) (p : Nat) : Mach :=
  if !m.digestState p ∨ m.edgePort p then m else
  ((m.setReg 0x4501 2 p (setBit (m.reg 0x4501 2 p) 5 true)).setReg 0x4501 7 p 0).quarantine p

/-- CLEAR_QUARANTINE (R358): 0x4501.03, refused with "Busy" unless the most recent digest agreed. -/
def Mach.rowClearQuarantine (m : Mach) (s : Src) (p : Nat) : Mach :=
  m.dictWrite s 0x4501 3 fun m =>
    if 8 ≤ p then .error abRange
    else if m.reg 0x4501 7 p = 0 then .error abBusy
    else if m.pState p ≠ 8 then .ok m
    else .ok (((m.setPState p 7).notice 0x80D1 [byteOf p]).auditReq s.q 0x0033 [byteOf p])

/-! ## The timebase (R363-R367) -/

/-- 0x1320.05: 0 UNSYNC, 1 LOCKED, 2 HOLDOVER, 3 FREERUN. -/
def Mach.timeState (m : Mach) : Nat := m.reg 0x1320 5 0

/-- The timebase's state changed: notice 0x80D2 with the old and the new state, HOLDOVER counted, a DIGEST on every port. -/
def Mach.setTimeState (m : Mach) (st : Nat) : Mach :=
  let old := m.timeState
  if old = st then m else
  let m := (m.setReg 0x1320 5 0 st).notice 0x80D2 [byteOf old, byteOf st]
  (if st = 2 then m.bump 0x70D0 0x0B else m).digestChanged

/-- Steering toward the reference within ±100 ppm: the rate's amount is left open. -/
def Mach.steer (m : Mach) (e : Int) : Mach :=
  let (r, m) := m.fresh 100001
  m.setReg 0x1320 0x0B 0 (ofSigned 32 (if e < 0 then -(r : Int) else if e = 0 then 0 else r))

/-- Table 13-4: an error e in ps against an available reference. -/
def Mach.timeError (m : Mach) (e : Int) : Mach :=
  let m := m.setReg 0x1320 9 0 (ofSigned 64 e)
  let small := decide (e.natAbs ≤ m.reg 0x1320 0x0C 0 * 1000000)
  match m.timeState with
  | 0 =>
    if 0 < e then
      let first := !m.time.stepped
      let m := { m with time := { m.time with count := m.time.count + e.natAbs / 1250, stepped := true } }
      let m := if first then m.calendarStepped (0, 0) (e / 1000) (toSigned 64 (m.reg 0x1300 6 0)) m.utcOffset else m
      (if m.reg 0x1300 5 0 = 0 then m.setReg 0x1300 7 0 1 else m).setTimeState 1
    else if m.hall.behindNoticed then m
    else ({ m with hall := { m.hall with behindNoticed := true } } : Mach).notice 0x80D2 [0, 0]
  | 1 =>
    if small then ({ m with hall := { m.hall with resync := false } } : Mach).steer e
    else if m.hall.resync then m
    else m.setTimeState 2
  | 2 => { m with hall := { m.hall with smallSince := if small then some (m.hall.smallSince.getD m.now) else none } }
  | _ => if small then (m.setTimeState 1).steer e else m.setTimeState 2

/-- The key by which roots are compared (R367), smallest best. -/
def rootKey (forced locked : Bool) (node : Nat) : Nat := (1 - b2n forced) * 2048 + (1 - b2n locked) * 1024 + node

/-- What this device advertises: the root's node, its forced and locked flags, its distance. -/
def Mach.rootFlags (m : Mach) : Nat × Bool × Bool × Nat :=
  let r := m.reg 0x1320 6 0
  if r = m.node then (r, m.reg 0x1320 1 0 == 1, m.hall.ptpLocked, 0)
  else match (m.portHall (m.reg 0x1320 8 0)).beacon with
    | some b => (b.root, b.forced, b.locked, if b.dist < 64 then b.dist + 1 else 255)
    | none => (511, false, false, 255)

/-- R367: the root and the parent chosen from the beacons of the ports that carry them. -/
def Mach.chooseRoot (m : Mach) : Mach :=
  if m.hall.selfRoot then m else
  let heard := (List.range m.dies).filterMap fun p =>
    if m.torusPort p && m.digestState p then
      match (m.portHall p).beacon with
      | some b => if b.dist ≤ 64 ∧ b.root ≠ m.node ∧ !maskBit (m.oct 0x4502 1 0) b.root then some (p, b) else none
      | none => none
    else none
  let best := minBy (fun (x : Nat × BeaconIn) => (rootKey x.2.forced x.2.locked x.2.root * 256 + x.2.dist) * 8 + x.1) heard
  let own := rootKey (m.reg 0x1320 1 0 == 1) m.hall.ptpLocked m.node
  let set (m : Mach) (r d p : Nat) : Mach := ((m.setReg 0x1320 6 0 r).setReg 0x1320 7 0 d).setReg 0x1320 8 0 p
  let self := m.reg 0x1320 1 0 ≠ 2
  match best with
  | some (p, b) =>
    if self ∧ own < rootKey b.forced b.locked b.root then set m m.node 0 0xFF
    else set m b.root (if b.dist < 64 then b.dist + 1 else 255) p
  | none => if self then set m m.node 0 0xFF else set m 0xFFFF 255 0xFF

/-- ps of a difference in 1/65,536 ticks. -/
def psOf (d : Int) : Int := d * 1250 / 65536

/-- BEACON (R366, R367): delay and offset from the echo, the root chosen again, and the parent's offset taken as the error. -/
def Mach.rowBeacon (m : Mach) (p : Nat) (f : RFrame) : Mach :=
  let m := m.takeArrived p f
  if f.opcode ≠ 0xC0 ∨ !m.torusPort p ∨ !m.digestState p then m else
  let (frac, m) := m.fresh 65536
  let w5 := f.word 5
  let a4 := m.now * 65536 + frac
  let b3 := f.word 4 * 65536 + bits w5 63 48
  let b2 := f.word 6 * 65536 + bits (f.word 7) 63 48
  let b : BeaconIn := { number := f.sequence, arrived := a4, dist := bits w5 47 40, root := bits w5 39 31, forced := bit w5 30
                        locked := bit w5 29, synced := bit w5 27 }
  let h := m.portHall p
  let echo := h.sentAt.find? fun (x : Nat × Nat) => x.1 == bits (f.word 7) 47 32
  let m := (m.setPortHall p { h with beacon := some b }).bumpBy 0x4501 9 p 1
  let m := m.chooseRoot
  match echo with
  | none => m
  | some (_, a1) =>
    let delay := psOf (((a4 : Int) - a1 - ((b3 : Int) - b2)) / 2)
    let offset := psOf (((b2 : Int) - a1 - ((a4 : Int) - b3)) / 2)
    let m := (m.setReg 0x4501 5 p (ofSigned 32 delay)).setReg 0x4501 6 p (ofSigned 32 offset)
    if m.reg 0x1320 8 0 = p ∧ b.synced then m.timeError offset else m

/-- BEACON_INTERVAL_EXPIRY (R366, R367): a BEACON on every torus port above HELLO; an interval of advertising itself over. -/
def Mach.rowBeaconInterval (m : Mach) : Mach :=
  let (root, forced, locked, dist) := m.rootFlags
  let st := m.timeState
  let m := ((List.range m.dies).filter fun p => m.torusPort p && m.digestState p).foldl (fun m p =>
    let h := m.portHall p
    let n := h.nextBeacon
    let w5 := dist * 2 ^ 40 + root * 2 ^ 31 + b2n forced * 2 ^ 30 + b2n locked * 2 ^ 29 + b2n (st == 2) * 2 ^ 28 +
      b2n (st != 0) * 2 ^ 27
    let (w6, w7) := match h.beacon with
      | some b => (b.arrived / 65536, b.arrived % 65536 * 2 ^ 48 + b.number * 2 ^ 32)
      | none => (0, 0)
    let m := (m.setPortHall p { h with nextBeacon := (n + 1) % 65536 }).bump 0x70D0 0x0A
    m.enqueue p 8 false false (m.urgent 0xC0 (m.neighbour p) m.node 0 n 0 w5 w6 w7)) m
  if m.hall.selfRoot then ({ m with hall := { m.hall with selfRoot := false } } : Mach).chooseRoot else m

/-- The UTC offset of an announce message: in force while it is valid (14_cairn.md R406). -/
def Mach.ptpUtc (m : Mach) (utc : Option Int) : Mach :=
  m.setUtc (0, 0) fun m => match utc with
    | some v => (m.setReg 0x1300 4 1 (ofSigned 32 v)).setReg 0x1300 0x0A 0 1
    | none => m.setReg 0x1300 0x0A 0 0

/-- PTP_MESSAGE (R365): a message of a domain; an announce message carries its currentUtcOffset, when that is valid; once an
exchange gives it, the error in ns; the time root steers by it. -/
def Mach.rowPtpMessage (m : Mach) (domain : Nat) (announce : Option (Option Int)) (err : Option Int) : Mach :=
  if m.reg 0x1320 3 0 ≠ 1 ∨ m.reg 0x1320 2 0 ≠ domain ∨ !m.cairnUp then m else
  let m := match announce with | some utc => m.ptpUtc utc | none => m
  match err with
  | none => m
  | some e =>
    let m := m.setReg 0x1320 0x0A 0 (ofSigned 64 e)
    let m := ({ m with hall := { m.hall with ptpLocked := true } } : Mach).chooseRoot
    if m.reg 0x1320 6 0 = m.node then m.timeError (e * 1000) else m

/-- TIMEBASE_REFERENCE_LOSS (R364): a root's PTP or another device's parent is lost: LOCKED goes FREERUN. -/
def Mach.rowReferenceLoss (m : Mach) : Mach :=
  let m := if m.reg 0x1320 6 0 = m.node then { m with hall := { m.hall with ptpLocked := false } }
    else
      let p := m.reg 0x1320 8 0
      m.setPortHall p { m.portHall p with beacon := none }
  let m := ({ m with hall := { m.hall with smallSince := none } } : Mach).chooseRoot
  if m.timeState = 1 then m.setTimeState 3 else m

/-- HOLDOVER_EXIT_EXPIRY (R364): the error has been small for the exit time. -/
def Mach.rowHoldoverExit (m : Mach) : Mach :=
  if m.timeState = 2 ∧ m.hall.smallSince.isSome then
    (({ m with hall := { m.hall with smallSince := none } } : Mach).setTimeState 1).steer (toSigned 64 (m.reg 0x1320 9 0))
  else m

/-- RESYNCHRONISE (R364): 1 written to 0x1320.0D; steered at ±100 ppm whatever the error is. -/
def Mach.rowResynchronise (m : Mach) (s : Src) : Mach :=
  m.dictWrite s 0x1320 0x0D fun m =>
    if m.timeState ≠ 2 then .error abBusy
    else
      let e := toSigned 64 (m.reg 0x1320 9 0)
      let m := { m with hall := { m.hall with smallSince := none, resync := true } }
      let m := (m.setTimeState 1).setReg 0x1320 0x0B 0 (ofSigned 32 (if e < 0 then -100000 else 100000))
      .ok (m.auditReq s.q 0x0034 (leBytes 8 (ofSigned 64 e)))

/-! ## Floods (R360-R362, R372) -/

/-- A flood that has come: a duplicate dropped and counted; otherwise recorded, acted on, and sent on. -/
def Mach.flood (m : Mach) (p : Nat) (f : RFrame) (act : Mach → Mach) : Mach :=
  let m := m.takeArrived p f
  if p < 8 ∧ m.edgePort p then m
  else if m.hall.seen.any fun (s : Nat × Nat × Nat) => s.1 == f.src && s.2.1 == f.sequence then m.bump 0x70D0 7
  else (act (m.floodSeen f.opcode f.src f.sequence)).floodOut f p

/-- FLOOD_FAULT. -/
def Mach.rowFloodFault (m : Mach) (p : Nat) (f : RFrame) : Mach :=
  if f.opcode ≠ 0xC1 then m else m.flood p f fun m => m.acceptFault f.src (f.word 5)

/-- FLOOD_COLL_ABORT. -/
def Mach.rowFloodCollAbort (m : Mach) (p : Nat) (f : RFrame) : Mach :=
  if f.opcode ≠ 0xC2 then m else m.flood p f fun m => m.acceptAbort (f.word 5 % 65536) (bits (f.word 5) 23 16)

/-- FLOOD_WARN. -/
def Mach.rowFloodWarn (m : Mach) (p : Nat) (f : RFrame) : Mach :=
  if f.opcode ≠ 0xC3 then m else m.flood p f fun m => m

/-- FLOOD_RECORD_EXPIRY: a flood number held for 10 ms is forgotten. -/
def Mach.rowFloodRecordExpiry (m : Mach) (origin number : Nat) : Mach :=
  { m with hall := { m.hall with seen := m.hall.seen.filter fun (s : Nat × Nat × Nat) => !(s.1 == origin && s.2.1 == number) } }

/-! ## Groups (R370, R373, R374) -/

/-- GROUP_SETTLE_EXPIRY. -/
def Mach.rowGroupSettle (m : Mach) (g : Nat) : Mach := m.settleGroup g

/-- GROUP_EPOCH_WRITE (R373): 0x4510.09 written: the device's COLLECTIVE of the group ends, nothing is flooded. -/
def Mach.rowGroupEpochWrite (m : Mach) (s : Src) (v : Nat) : Mach :=
  m.dictWrite s 0x4510 9 fun m =>
    let g := m.rowOf s.q 0x4510 9
    if 256 ≤ v then .error abRange else .ok ((m.endColl g).setGroupEpoch g v)

end Sys2Proof.Machine
end

