-- ==== Sys2Proof/Machine/QueueRows.lean ====
section
/-! DEFINITION. The commands of the queues, the scheduler, events and the Pass arbiters (07_command_queues.md), the end of
every command (12_visibility.md R331-R333) and FENCE (R336-R339). -/

namespace Sys2Proof.Machine

/-! ## Queue control (R204, R207, R209) -/

/-- R204: whether the rings and the pointer block of a queue lie within its owner's grant set. -/
def Mach.ringsGranted (m : Mach) (q : Nat) : Bool :=
  let o := m.qOwner q
  m.inGrant o (m.reg 0x5401 6 q) (64 * m.sqSize q) && m.inGrant o (m.reg 0x5401 8 q) (32 * m.cqSize q) &&
  m.inGrant o (m.reg 0x5401 0x0A q) 64

/-- R204: sizes and alignments of a queue. -/
def Mach.ringsOk (m : Mach) (q : Nat) : Bool :=
  let sq := m.reg 0x5401 7 q
  let cq := m.reg 0x5401 9 q
  decide (4 ≤ sq) && decide (sq ≤ 16) && decide (4 ≤ cq) && decide (cq ≤ 16) && m.reg 0x5401 6 q % (64 * 2 ^ sq) == 0 &&
  m.reg 0x5401 8 q % (32 * 2 ^ cq) == 0 && m.reg 0x5401 0x0A q % 64 == 0 && m.ringsGranted q

/-- A DISABLED queue started with its pointer block initialised; a write that fails leaves it in ERROR. -/
def Mach.startQueue (m : Mach) (q : Nat) : Mach :=
  let m := (m.setQState q 1).setQueue q Queue.fresh
  let pb := m.reg 0x5401 0x0A q
  match m.queueWrite q pb (zeros 8) with
  | (0, m) => match m.queueWrite q (pb + 16) (zeros 8) with
    | (0, m) => m
    | (_, m) => m.queueError q
  | (_, m) => m.queueError q

/-- QUEUE_ENABLE: a write of 1 to 0x5401.0F. While a host holds the pointer block's line, the write waits for it. -/
def Mach.rowQueueEnable (m : Mach) (s : Src) : Mach :=
  let q := m.rowOf s.q 0x5401 0x0F
  match (if m.qState q = 0 ∧ m.ringsOk q ∧ (m.gate s.q 0x5401 0x0F).isNone ∧ (m.kept? s.q s.txn).isNone then
      m.recall (m.reg 0x5401 0x0A q) 24 true else none) with
  | some m => m
  | none =>
    m.dictWrite s 0x5401 0x0F fun m =>
      if m.qState q ≠ 0 then .error abBusy
      else if !m.ringsOk q then .error abRange
      else .ok ((m.setReg 0x5401 0x0F q 1).startQueue q)

/-- QUEUE_DISABLE: a write of 0 to 0x5401.0F. -/
def Mach.rowQueueDisable (m : Mach) (s : Src) : Mach :=
  m.dictWrite s 0x5401 0x0F fun m =>
    let q := m.rowOf s.q 0x5401 0x0F
    if m.qState q = 0 then .ok m
    else if m.qState q = 4 ∨ m.inFlight q ≠ [] then .error abBusy
    else .ok (((m.setReg 0x5401 0x0F q 0).setQState q 0).setQueue q Queue.fresh)

/-- R227: an Operator in band names only its own queues. -/
def Mach.ownQueue (m : Mach) (s : Src) (q : Nat) : Bool :=
  match m.identOf s.q with
  | none => true
  | some i => hasRole (m.roles s.q) .steward || m.qOwner q == i

/-- QUEUE_STOP: 0x5402.02. -/
def Mach.rowQueueStop (m : Mach) (s : Src) (q : Nat) : Mach :=
  m.dictWrite s 0x5402 2 fun m =>
    if !m.ownQueue s q then .error abRole
    else if 512 * m.dies ≤ q then .error abRange
    else if m.qState q ≠ 1 then .error abBusy
    else .ok (m.setQState q 2)

/-- QUEUE_RESTART: 0x5402.01. -/
def Mach.rowQueueRestart (m : Mach) (s : Src) (q : Nat) : Mach :=
  m.dictWrite s 0x5402 1 fun m =>
    if !m.ownQueue s q then .error abRole
    else if 512 * m.dies ≤ q then .error abRange
    else if m.qState q ≠ 2 ∧ m.qState q ≠ 3 then .error abBusy
    else if !m.ringsGranted q then .error abRange
    else .ok (m.setQState q 1)

/-- RING_DOORBELL_REGISTER: 0x5402.03 (R207). -/
def Mach.rowRingDoorbellRegister (m : Mach) (s : Src) (v : Nat) : Mach :=
  m.dictWrite s 0x5402 3 fun m =>
    let q := bits v 27 16
    if v / 2 ^ 28 ≠ 0 ∨ 512 * m.dies ≤ q then .error abRange
    else if m.dieState (queueDie q) ≠ 1 then .error abBusy
    else .ok (m.doorbell q (v % 65536))

/-! ## Fetch and admission (R206, R208, R210, R214-R216) -/

/-- Whether a record of a queue can be written now: no host's copy of its lines is in the way. -/
def Mach.recordBlocked (m : Mach) (q : Nat) : Option Mach :=
  if m.qState q = 3 then none
  else (m.recall (m.reg 0x5401 8 q + 32 * (m.queue q).cqTail) 32 true).orElse fun _ => m.recall (m.reg 0x5401 0x0A q) 24 true

/-- The first head that failed its checks ended with its record, when an entry is free for it (R210). -/
def Mach.endFailed : Nat → Mach → Nat → Mach
  | 0, m, _ => m
  | fuel + 1, m, q =>
    match (m.queue q).heads.find? (·.fail.isSome) with
    | none => m
    | some h =>
      if !m.cqRoom q then m else
      match m.recordBlocked q with
      | some m => m
      | none =>
        let m := m.setQueue q { m.queue q with heads := (m.queue q).heads.erase h }
        Mach.endFailed fuel (m.endHead q h.index (h.fail.getD 0) h.desc) q

/-- SQ_HEAD written to the pointer block: after 16 descriptors, and when the posted ones run out (R206). -/
def Mach.writeSqHead (m : Mach) (q : Nat) : Mach :=
  let s := m.queue q
  let n := m.sqSize q
  if s.sqHead = s.tail ∨ 16 ≤ (s.sqHead + n - s.sqWritten) % n then
    match m.queueWrite q (m.reg 0x5401 0x0A q) (leBytes 4 s.sqHead) with
    | (0, m) => m.setQueue q { m.queue q with sqWritten := s.sqHead }
    | (_, m) => m.queueError q
  else m

/-- DESCRIPTOR_FETCH_DONE: the read of a RUNNING queue's next posted descriptor completes: its header is checked and it
becomes a head, or a command that ends at once (R206, R210). -/
def Mach.rowDescriptorFetchDone (m : Mach) (q : Nat) : Mach :=
  let m := Mach.endFailed 65536 m q
  let s := m.queue q
  if m.qState q ≠ 1 ∨ !m.dieTakes (queueDie q) ∨ s.sqHead = s.tail then m else
  let at' := m.reg 0x5401 6 q + 64 * s.sqHead
  match (m.recall at' 64 false).orElse fun _ => m.recall (m.reg 0x5401 0x0A q) 4 true with
  | some m => m
  | none =>
    let (got, m) := m.loadDpa (queueDie q) at' 64
    let (d, fail) := match got with
      | .ok d => (d, m.headerFail q d)
      | .failed st => (zeros 64, some st)
    let e := !descFlag d 0 || m.reached (fld d 2 2) (fld d 4 4)
    let s := { m.queue q with
      sqHead := (s.sqHead + 1) % m.sqSize q
      heads := (m.queue q).heads ++ [⟨s.sqHead, d, m.now, e, fail⟩] }
    Mach.endFailed 65536 ((m.setQueue q s).writeSqHead q) q

/-- The head of a queue: its first descriptor that passed its checks. -/
def Mach.headOf (m : Mach) (q : Nat) : Option Head := (m.queue q).heads.find? (·.fail.isNone)

/-- Commands whose queue admits nothing until they end: FENCE and WAIT (R218, R336). -/
def holdsQueue (d : List Byte) : Bool := descOp d == 0x50 || descOp d == 0x52

/-- A WAIT of kind MEMORY. -/
def memoryWait (d : List Byte) : Bool := descOp d == 0x52 && fld d 18 1 == 1

/-- The opcodes whose commands need the ENG domain of their die (Table 07-4, 15_clocks_power.md R432). -/
def needsEng (op : Nat) : Bool := [0x01, 0x02, 0x10, 0x11, 0x12, 0x20, 0x21, 0x22, 0x23, 0x30, 0x31, 0x40, 0x43].contains op

/-- The engine of an opcode as 0x2201.02 codes it, crags apart. -/
def engineOf (op : Nat) : Option Nat :=
  if op = 0x01 ∨ op = 0x02 then some 2 else if 0x10 ≤ op ∧ op ≤ 0x12 then some 0 else if 0x20 ≤ op ∧ op ≤ 0x23 then some 1 else none

/-- R216: whether the head of a queue is ready. A head whose engine is in reset (15_clocks_power.md R427) waits. -/
def Mach.headReady (m : Mach) (q : Nat) (h : Head) : Bool :=
  let mine := m.sched.slots.filter fun (p : Nat × Cmd) => p.2.queue == q
  m.qState q == 1 && !((engineOf (descOp h.desc)).any fun e => m.clk.engReset.contains (queueDie q, e)) && (h.eligible || m.reached (fld h.desc 2 2) (fld h.desc 4 4)) &&
  (mine.isEmpty || !(descFlag h.desc 3 || descOp h.desc == 0x50 || descOp h.desc == 0x51)) &&
  !(mine.any fun (p : Nat × Cmd) => holdsQueue p.2.desc) && m.cqRoom q && decide (mine.length < m.reg 0x5401 0x0E q) &&
  (m.freeSlot (queueDie q)).isSome &&
  (!memoryWait h.desc || decide ((m.sched.slots.filter fun (p : Nat × Cmd) =>
    slotDie p.1 == queueDie q && memoryWait p.2.desc).length < 64))

/-- The ready heads of a die, as (queue, head). -/
def Mach.readyHeads (m : Mach) (die : Nat) : List (Nat × Head) :=
  (tkeys m.sched.queues).filterMap fun q =>
    if queueDie q = die then (m.headOf q).bind fun h => if m.headReady q h then some (q, h) else none else none

/-- R216: the head that the scheduler of a die chooses, and whether by age. -/
def Mach.chooseHead (m : Mach) (die : Nat) : Option (Nat × Head × Bool) :=
  let rs := m.readyHeads die
  let bound := m.reg 0x5400 1 0 * ticksPerUs
  let old := rs.filter fun r => bound != 0 && decide (r.2.readyAt + bound < m.now)
  match minBy (fun r => r.2.readyAt) old with
  | some r => some (r.1, r.2, true)
  | none =>
    match minBy (fun r => 7 - m.reg 0x5401 5 r.1) rs with
    | none => none
    | some top =>
      let pr := m.reg 0x5401 5 top.1
      let same := rs.filter fun r => m.reg 0x5401 5 r.1 == pr
      let ptr := tgetD m.sched.rr (die * 8 + pr) 0
      (minBy (fun r => (r.1 % 512 + 512 - ptr) % 512) same).map fun r => (r.1, r.2, false)

/-- A command on a scoreboard slot at its admission. -/
def Cmd.fresh (q index : Nat) (d : List Byte) (order : Nat) (waitsFor : List Nat) : Cmd :=
  { queue := q, sqIndex := index, desc := d, order := order, fail := none, detail := 0, result := 0, done := false, started := false
    hostWrites := [], flushOut := [], fabricDests := [], fencesSent := false, fabricOut := 0, waitsFor := waitsFor
    progress := 0 }

/-- R339: the slots an OWNER fence of a queue waits for. -/
def Mach.ownerSlots (m : Mach) (q : Nat) : List Nat :=
  (m.sched.slots.filter fun (p : Nat × Cmd) => m.qOwner q == 0xFF || m.qOwner p.2.queue == m.qOwner q).map Prod.fst

/-- COMMAND_ADMIT: the scheduler of a die admits one ready head into its lowest free slot. A head of another owner than the
tenant ends with TENANT_BUSY when confidential mode has been entered since its fetch (R226). Nothing is admitted unless the
device is ready (15_clocks_power.md R426); a command that needs an ENG domain that is not ON ends with DOMAINDOWN (R432). -/
def Mach.rowCommandAdmit (m : Mach) (die : Nat) : Mach :=
  let m := ((tkeys m.sched.queues).filter fun q => queueDie q == die).foldl (fun m q => Mach.endFailed 65536 m q) m
  if !m.dieTakes die ∨ m.reg 0x2200 3 0 ≠ 1 then m else
  match m.chooseHead die, m.freeSlot die with
  | some (q, h, aged), some k =>
    if m.confState ≠ 0 ∧ m.confState ≠ 3 ∧ m.qOwner q ≠ m.tenant then
      Mach.endFailed 65536 (m.setQueue q { m.queue q with
        heads := (m.queue q).heads.map fun x => if x = h then { h with fail := some stTenantBusy } else x }) q
    else if m.confBarred q h.desc then
      Mach.endFailed 65536 (m.setQueue q { m.queue q with
        heads := (m.queue q).heads.map fun x => if x = h then { h with fail := some stPerm } else x }) q
    else
      let s := m.queue q
      let rest := (s.heads.erase h).map fun x => { x with readyAt := max x.readyAt m.now }
      let m := m.setQueue q { s with heads := rest }
      let m := if aged then m.bump 0x7070 5 else
        { m with sched := { m.sched with rr := tput m.sched.rr (die * 8 + m.reg 0x5401 5 q) ((q + 1) % 512) } }
      let waits := if descOp h.desc = 0x50 ∧ fld h.desc 18 1 = 2 then m.ownerSlots q else []
      let c := { Cmd.fresh q h.index h.desc m.sched.nextOrder waits with progress := m.now }
      let down := needsEng (descOp h.desc) && m.engDown die
      let c := if down then { c with fail := some stDomainDown, done := true } else c
      let m := { m with sched := { m.sched with nextOrder := m.sched.nextOrder + 1 } }
      let m := ((m.setCmd k c).bump 0x7070 1).event 2 q
      m.trace 0 die (leBytes 2 q ++ [byteOf (descOp h.desc), 0, 0, 0])
  | _, _ => m

/-- A re-read of CQ_HEAD: its value taken, or ignored and counted (R208). -/
def Mach.readCqHead (m : Mach) (q : Nat) : Mach :=
  let a := m.reg 0x5401 0x0A q + 8
  if m.qState q ≠ 1 ∧ m.qState q ≠ 2 then m else
  match m.recall a 4 false with
  | some m => m
  | none =>
    match m.loadDpa (queueDie q) a 4 with
    | (.ok bs, m) =>
      let s := m.queue q
      let v := leNat bs
      let c := m.cqSize q
      if v < c ∧ (s.cqTail + c - v) % c ≤ (s.cqTail + c - s.cqHead) % c then m.setQueue q { s with cqHead := v }
      else m.bump 0x7070 0x0F
    | (.failed _, m) => m.bump 0x7070 0x0F

/-- CQ_HEAD_READ_DONE. -/
def Mach.rowCqHeadReadDone (m : Mach) (q : Nat) : Mach := Mach.endFailed 65536 (m.readCqHead q) q

/-- CQ_HEAD_POLL_EXPIRY: a microsecond with the ring full, or since a value was ignored: CQ_HEAD is read again. -/
def Mach.rowCqHeadPollExpiry (m : Mach) (q : Nat) : Mach := m.rowCqHeadReadDone q

/-! ## The end of a command (R331-R333) -/

/-- The flush reads of a command's host paths sent, once each (R332). -/
def Mach.sendFlushes (m : Mach) (slot : Nat) : Mach :=
  match m.cmd? slot with
  | none => m
  | some c =>
    let m := m.setCmd slot { c with hostWrites := [], flushOut := c.flushOut ++ tkeys c.hostWrites }
    c.hostWrites.foldl (fun m (p : Nat × Nat) =>
      (m.emit (.cxlRead (p.1 / 16) (p.1 % 16) (p.2 / 4 * 4) 0 slot)).bump 0x70C0 6) m

/-- HOST_FLUSH_READ_DONE: a flush read on a host path ends; one that fails or times out gives BUSERR. -/
def Mach.rowHostFlushReadDone (m : Mach) (slot path : Nat) (ok : Bool) : Mach :=
  match m.cmd? slot with
  | none => m
  | some c =>
    if !c.flushOut.contains path then m else
    let m := m.setCmd slot { c with flushOut := c.flushOut.erase path }
    if ok then m else m.noteFail slot stBusErr

/-- The crags of a command that has failed stopped, instructions in flight but TSTOREs and ACCRDs abandoned (R255). -/
def Mach.stopCrags (m : Mach) (slot : Nat) : Mach :=
  (m.cragsOf slot).foldl (fun m k =>
    let c := m.crag k
    if c.phase = .running ∨ c.phase = .ending then
      m.setCrag k { c with phase := .stopped, asyncs := c.asyncs.filter fun o => o.op == 0x22 || o.op == 0x33 }
    else m) m

/-- The counter of ended commands of an opcode, as index and subindex. -/
def endedCounter (op : Nat) : Option (Nat × Nat) :=
  match op with
  | 0x01 => some (0x70B0, 1) | 0x02 => some (0x70B0, 2)
  | 0x10 => some (0x7090, 1) | 0x12 => some (0x7090, 2) | 0x11 => some (0x7090, 3)
  | 0x20 => some (0x70A0, 1) | 0x21 => some (0x70A0, 2) | 0x22 => some (0x70A0, 3) | 0x23 => some (0x70A0, 4)
  | 0x30 => some (0x7080, 1) | 0x31 => some (0x7080, 2) | 0x50 => some (0x70C0, 1)
  | _ => none

/-- What every engine keeps for a command given up, its bank requests with it. -/
def Mach.enginesGone (m : Mach) (slot : Nat) : Mach :=
  ((((m.releaseCrags slot).talusGone slot).cirqueGone slot).couloirGone slot).dropBankReqs slot

/-- COMMAND_END: a command whose work is over ends once its crags have settled, its local writes are visible, its host writes
flushed and its fabric writes answered (R331, R332), the index lock released (R300): record, pointer block, SIGNAL,
interrupt and notification line in order (R333). -/
def Mach.rowCommandEnd (m : Mach) (slot : Nat) : Mach :=
  match m.cmd? slot with
  | none => m
  | some c =>
    if !c.done then m else
    let m := (m.stopCrags slot).sendFlushes slot
    if !m.cragsSettled slot ∨ m.writesPending slot then m
    else if c.fabricDests ≠ [] ∧ !c.fencesSent then
      (if m.tagsFree (slotDie slot) c.fabricDests.length then m.sendFences slot else m)
    else
      match m.cmd? slot with
      | none => m
      | some c =>
        if c.flushOut ≠ [] ∨ c.fabricOut ≠ 0 ∨ m.xl.migrations.any (·.slot == slot) then m else
        match m.releaseLock slot with
        | (false, m) => m
        | (true, m) =>
          match m.recordBlocked c.queue with
          | some m => m
          | none =>
            let m := match endedCounter (descOp c.desc) with | some e => m.bump e.1 e.2 | none => m
            (((m.enginesGone slot).endSlot slot).teardownCheck)

/-- COALESCING_EXPIRY: the vector raised once if a record asked for it meanwhile; raises are then held again (R212). -/
def Mach.rowCoalescingExpiry (m : Mach) (q : Nat) : Mach :=
  let s := m.queue q
  if !s.coalescing then m
  else if s.raisePending then (m.raiseVector q).setQueue q { s with raisePending := false }
  else m.setQueue q { s with coalescing := false }

/-! ## Events, SIGNAL and WAIT (R214-R218) -/

/-- EVENT_COUNT_WRITE: a write of 0x5410.04 acts as SIGNAL SET. -/
def Mach.rowEventCountWrite (m : Mach) (s : Src) (v : Nat) : Mach :=
  m.dictWrite s 0x5410 4 fun m => .ok (m.setEvent (m.rowOf s.q 0x5410 4) v)

/-- SIGNAL (Table 07-7). -/
def Mach.rowSignal (m : Mach) (slot : Nat) : Mach :=
  match m.cmd? slot with
  | none => m
  | some c =>
    let d := c.desc
    let e := fld d 16 2
    if descOp d ≠ 0x51 ∨ c.done then m
    else if !m.eventOk (m.qOwner c.queue) e then m.failCmd slot (if descReserved d then stInvalDesc else stPerm)
    else if 1 < fld d 18 1 ∨ fld d 19 1 ≠ 0 ∨ !allZero (slice d 24 40) then m.failCmd slot stInvalDesc
    else (m.setEvent e (if fld d 18 1 = 1 then fld d 20 4 else m.eventCount e + fld d 20 4)).finish slot 0 0

/-- The form of a WAIT that its kind asks for (Table 07-8): a status, 0 for none. -/
def Mach.waitFail (m : Mach) (c : Cmd) : Nat :=
  let d := c.desc
  if fld d 18 1 = 1 then
    if !m.astOk c.queue (fld d 16 2) then badAst d
    else if 3 < fld d 19 1 ∨ fld d 20 4 ≠ 0 ∨ fld d 24 8 % 8 ≠ 0 ∨ 2 ^ 48 ≤ fld d 24 8 ∨ !allZero (slice d 52 12) then stInvalDesc
    else 0
  else if fld d 16 2 ≠ 0 ∨ fld d 18 1 ≠ 0 ∨ fld d 19 1 ≠ 0 ∨ fld d 20 4 ≠ 0 ∨ 65536 ≤ fld d 24 8 then stInvalDesc
  else if !m.eventOk (m.qOwner c.queue) (fld d 24 2) then (if descReserved d then stInvalDesc else stPerm)
  else if 2 ^ 32 ≤ fld d 32 8 ∨ fld d 40 8 ≠ 0 ∨ !allZero (slice d 52 12) then stInvalDesc
  else 0

/-- WAIT_EVENT: a WAIT of kind EVENT ends once its event is reached. -/
def Mach.rowWaitEvent (m : Mach) (slot : Nat) : Mach :=
  match m.cmd? slot with
  | none => m
  | some c =>
    if descOp c.desc ≠ 0x52 ∨ fld c.desc 18 1 = 1 ∨ c.done then m
    else if m.waitFail c ≠ 0 then m.failCmd slot (m.waitFail c)
    else if m.reached (fld c.desc 24 2) (fld c.desc 32 4) then m.finish slot 0 0
    else m

/-- Whether the condition of a MEMORY wait holds of a word. -/
def waitHolds (d : List Byte) (w : Nat) : Bool :=
  let x := Nat.land w (fld d 40 8)
  let v := fld d 32 8
  match fld d 19 1 with
  | 0 => x == v
  | 1 => x != v
  | 2 => decide (v ≤ x)
  | _ => decide ((x % 2 ^ 32 + 2 ^ 32 - v % 2 ^ 32) % 2 ^ 32 < 2 ^ 31)

/-- The word of a MEMORY wait read: the wait ends, fails, or goes on until its next poll. -/
def Mach.pollWait (m : Mach) (slot : Nat) (c : Cmd) : Mach :=
  let d := c.desc
  match m.xlate (slotDie slot) engOther (fld d 16 2) (fld d 24 8) .read with
  | (.fault st, m) => m.failCmd slot st
  | (.wait, m) => m
  | (.host _ _ _, m) => m.failCmd slot stBadFormat
  | (_, m) =>
    match m.loadDva slot engOther (fld d 16 2) (fld d 24 8) 8 with
    | (.wait, m) => m
    | (.failed st, m) => m.failCmd slot st
    | (.ok bs, m) =>
      let m := { m with xl := { m.xl with fetches := m.xl.fetches.filter fun f => f.slot ≠ slot } }
      if waitHolds d (leNat bs) then m.finish slot 0 0 else m.setCmd slot { c with started := true }

/-- WAIT_MEMORY: a WAIT of kind MEMORY reads its word at admission. -/
def Mach.rowWaitMemory (m : Mach) (slot : Nat) : Mach :=
  match m.cmd? slot with
  | none => m
  | some c =>
    if descOp c.desc ≠ 0x52 ∨ fld c.desc 18 1 ≠ 1 ∨ c.done ∨ c.started then m
    else if m.waitFail c ≠ 0 then m.failCmd slot (m.waitFail c)
    else m.pollWait slot c

/-- WAIT_POLL_EXPIRY: a poll interval has passed, and the word is read again. -/
def Mach.rowWaitPollExpiry (m : Mach) (slot : Nat) : Mach :=
  match m.cmd? slot with
  | none => m
  | some c => if memoryWait c.desc ∧ !c.done ∧ c.started then m.pollWait slot c else m

/-- WAIT_TIMEOUT: a WAIT's timeout passes first. -/
def Mach.rowWaitTimeout (m : Mach) (slot : Nat) : Mach :=
  match m.cmd? slot with
  | none => m
  | some c => if descOp c.desc = 0x52 ∧ fld c.desc 48 4 ≠ 0 ∧ !c.done then (m.bump 0x7070 4).failCmd slot stTimeout else m

/-! ## FENCE (R336-R339) -/

/-- The form of a FENCE (Table 12-2): a status, 0 for none. -/
def Mach.fenceFail (m : Mach) (c : Cmd) : Nat :=
  let d := c.desc
  let kind := fld d 18 1
  if kind = 1 ∧ !m.astOk c.queue (fld d 16 2) then badAst d
  else if (kind ≠ 1 ∧ fld d 16 2 ≠ 0) ∨ 2 < kind ∨ fld d 19 1 ≠ 0 ∨ (kind ≠ 2 ∧ fld d 20 4 ≠ 0) ∨ !allZero (slice d 24 40) then
    stInvalDesc
  else 0

/-- A FENCE of a kind, its form checked first; a kind not in Table 12-2 fails in any of them. -/
def Mach.fenceOf (m : Mach) (slot kind : Nat) (go : Mach → Cmd → Mach) : Mach :=
  match m.cmd? slot with
  | none => m
  | some c =>
    if descOp c.desc ≠ 0x50 ∨ c.done then m
    else if 2 < fld c.desc 18 1 then m.failCmd slot (m.fenceFail c)
    else if fld c.desc 18 1 ≠ kind then m
    else if m.fenceFail c ≠ 0 then m.failCmd slot (m.fenceFail c)
    else go m c

/-- FENCE_QUEUE. -/
def Mach.rowFenceQueue (m : Mach) (slot : Nat) : Mach := m.fenceOf slot 0 fun m _ => m.finish slot 0 0

/-- FENCE_ACQUIRE: prefetch sets of the AST retired, structure cache entries dropped, on every active die (R338). -/
def Mach.rowFenceAcquire (m : Mach) (slot : Nat) : Mach :=
  m.fenceOf slot 1 fun m c =>
    let ast := fld c.desc 16 2
    let mine (s : PrefetchSet) : Bool := s.ast == ast && !s.retired
    let sets := (m.eng.talus.sets.filter mine).length
    let drops := (m.eng.cirque.cache.filter (·.ast == ast)).length
    let m := m.freeSets fun s => mine s && s.user.isNone
    let m := m.setSets (m.eng.talus.sets.map fun s => if mine s then { s with retired := true, todo := [] } else s)
    (((m.bumpBy 0x70C0 3 0 sets).bump 0x70C0 2).dropStructs (·.ast == ast)).finish slot 0 (drops * 2 ^ 32 + sets)

/-- FENCE_OWNER: ends once every command it waits for has. -/
def Mach.rowFenceOwner (m : Mach) (slot : Nat) : Mach :=
  m.fenceOf slot 2 fun m c => if c.waitsFor = [] then m.finish slot 0 0 else m

/-- FENCE_OWNER_TIMEOUT. -/
def Mach.rowFenceOwnerTimeout (m : Mach) (slot : Nat) : Mach :=
  m.fenceOf slot 2 fun m c => if c.waitsFor = [] then m else (m.bump 0x70C0 5).failCmd slot stTimeout

/-! ## Time bounds (R254, R278, R309, R313, R314) -/

/-- A command's time bound in µs, 0 for none. -/
def Mach.timeBound (m : Mach) (d : List Byte) : Nat :=
  let own (o : Nat) (dflt : Nat) : Nat := if fld d o 4 = 0 then dflt else fld d o 4
  let dflt := m.reg 0x5000 1 0
  match descOp d with
  | 0x01 => own 48 (m.reg 0x5300 1 0)
  | 0x02 => own 36 (m.reg 0x5300 1 0)
  | 0x30 => own 36 dflt
  | 0x31 => dflt | 0x10 => dflt | 0x11 => dflt | 0x12 => dflt
  | 0x20 => dflt | 0x21 => dflt | 0x22 => dflt | 0x23 => dflt
  | _ => 0

/-- COMMAND_TIME_BOUND_EXPIRY: a running command passes its bound and ends with TIMEOUT: a crag command by fault 12, a
channel's only while it is RUNNING. -/
def Mach.rowCommandTimeBoundExpiry (m : Mach) (slot : Nat) : Mach :=
  match m.cmd? slot with
  | none => m
  | some c =>
    let op := descOp c.desc
    if c.done ∨ m.timeBound c.desc = 0 then m
    else if op = 0x30 ∨ op = 0x31 then
      match m.cragsOf slot with
      | k :: _ => m.cragFault k 12 stTimeout
      | [] => m.failCmd slot stTimeout
    else if op = 0x01 ∨ op = 0x02 then
      match m.chanOf slot with
      | some k => if m.channel k = 1 then m.chanEnd k (some stTimeout) else m
      | none => m
    else if (m.talus? slot).isSome then m.talusEnd slot (some stTimeout) none
    else m.failCmd slot stTimeout

/-! ## The Pass arbiters (R222-R224) -/

/-- PASS_BACKOFF_EXPIRY: a BACKOFF input presents its request again. -/
def Mach.rowPassBackoffExpiry (m : Mach) (die crag bank input : Nat) : Mach :=
  let k := bankKey die crag bank
  match (m.bank k).backing.find? (·.input == input) with
  | none => m
  | some r => (m.setBank k { m.bank k with backing := (m.bank k).backing.erase r }).presentBank k r

/-- STARVATION_REPORT: a waiting request has passed the report level: notice 0x8072, once until the wait ends. -/
def Mach.rowStarvationReport (m : Mach) (die crag bank input : Nat) : Mach :=
  let k := bankKey die crag bank
  let b := m.bank k
  if b.starved ∨ !((b.parked ++ b.stalled ++ b.backing).any (·.input == input)) then m else
  let (n, m) := m.fresh (2 ^ 32)
  let m := (m.setReg 0x7070 9 0 (max n (m.reg 0x7070 9 0))).tracePass k input 2
  (m.setBank k { b with starved := true }).notice 0x8072 [byteOf die, byteOf crag, byteOf bank, byteOf input]

/-- A command that a bitten bank ends with BANKHANG: a crag's program by its fault, an engine's command at once. -/
def Mach.bankHang (m : Mach) (k : Nat) (r : BankReq) : Mach :=
  if 5 ≤ r.input then m.cragFault (k / 16) 11 stBankHang
  else match (m.cmd? r.slot).bind fun _ => m.chanOf r.slot with
  | some c => m.chanEnd c (some stBankHang)
  | none => if (m.talus? r.slot).isSome then m.talusEnd r.slot (some stBankHang) none else m.failCmd r.slot stBankHang

/-- BANK_WATCHDOG_BITE: a bank that is granted and moves no beat: its queue cleared, its commands ended, notice 0x8071. -/
def Mach.rowBankWatchdogBite (m : Mach) (die crag bank : Nat) : Mach :=
  let k := bankKey die crag bank
  let b := m.bank k
  match b.holder with
  | none => m
  | some h =>
    let m := m.setBank k { b with holder := none, parked := [], resetting := true }
    let m := (h :: b.parked).foldl (fun m r => m.bankHang k r) m
    ((m.bump 0x7070 0x0B).tracePass k h.input 1).notice 0x8071 [byteOf die, byteOf crag, byteOf bank, byteOf h.input]

/-- BANK_RESET_DONE: a bitten bank reads as zeros and grants again. -/
def Mach.rowBankResetDone (m : Mach) (die crag bank : Nat) : Mach :=
  let k := bankKey die crag bank
  let b := m.bank k
  if !b.resetting then m else
  let c := m.crag (cragKey die crag)
  let m := m.setCrag (cragKey die crag) { c with scratch := Memory.clear c.scratch (bank * 131072) ((bank + 1) * 131072) }
  (m.setBank k { b with resetting := false }).nextBank k

end Sys2Proof.Machine
end

