-- ==== Sys2Proof/Machine/FabricRows.lean ====
section
/-! DEFINITION. What each fabric event does (06_ridgeline_memory.md R163-R202): frames at their target and at their
requester, the end-to-end bounds, composition, relocation, dead nodes and jobs. `port` is the port a frame came by, 8
for this device itself. -/

namespace Sys2Proof.Machine

/-! ## Frames at the target -/

/-- FRAME_READ (R165, R174): checked, then answered from the coherent domain with poisoned lines marked. It waits while a
host's copy is recalled; a line that cannot be reached ends it with its status. -/
def Mach.rowFrameRead (m : Mach) (port : Nat) (f : RFrame) : Mach :=
  if !RFrameFormOk f ∨ f.opcode ≠ opRead then (m.takeArrived port f).refuseFrame f else
  let (st, m) := m.targetCheck f
  if st ≠ 0 then (m.takeArrived port f).sendFrame (m.respFrame f st 0 0 [])
  else match m.forwarded f with
  | some gfa => (m.takeArrived port f).redirect f gfa
  | none =>
    let dpa := m.targetDpa f
    let n := f.nbytes
    match m.recall dpa n false with
    | some m => m
    | none =>
      let m := m.takeArrived port f
      let die := if port < m.dies then port else m.homeOf dpa
      let flits := ceilDiv n 64
      let lines (j : Nat) : List Nat :=
        let a := dpa + 64 * j
        let k := min 64 (n - 64 * j)
        if lineOf a = lineOf (a + k - 1) then [lineOf a] else [lineOf a, lineOf (a + k - 1)]
      let all := (List.range flits).flatMap lines
      let m := all.foldl (fun m l => m.accessed die (granuleOfLine l)) m
      match all.findSome? fun l => match m.coherentLine l with | .failed st => some st | _ => none with
      | some st => m.sendFrame (m.respFrame f st 0 0 [])
      | none =>
        let val (l : Nat) : List Byte := match m.coherentLine l with | .data bs => bs | _ => zeros 64
        let bytes := (List.range flits).flatMap fun j =>
          let a := dpa + 64 * j
          slice (((lines j).map val).flatten) (a % 64) (min 64 (n - 64 * j))
        let mask := sumL ((List.range flits).map fun j =>
          if (lines j).any (fun l => m.coherentLine l == .poison) then 2 ^ j else 0)
        m.sendFrame (m.respFrame f 0 0 mask (slice bytes 0 (64 * flits)))

/-- A stream request whose row names its opcode. -/
def Mach.streamRow (m : Mach) (op port : Nat) (f : RFrame) : Mach :=
  let m := m.takeArrived port f
  if f.opcode = op then m.streamRequest port f else m.refuseFrame f

/-- FRAME_WRITE (R166). -/
def Mach.rowFrameWrite (m : Mach) (port : Nat) (f : RFrame) : Mach := m.streamRow opWrite port f
/-- FRAME_WRITE_POSTED (R166). -/
def Mach.rowFrameWritePosted (m : Mach) (port : Nat) (f : RFrame) : Mach := m.streamRow opWritePosted port f
/-- FRAME_ATOMIC (R175, R176). -/
def Mach.rowFrameAtomic (m : Mach) (port : Nat) (f : RFrame) : Mach := m.streamRow opAtomic port f
/-- FRAME_FENCE (R172). -/
def Mach.rowFrameFence (m : Mach) (port : Nat) (f : RFrame) : Mach := m.streamRow opFence port f
/-- FRAME_PUBLISH (R181). -/
def Mach.rowFramePublish (m : Mach) (port : Nat) (f : RFrame) : Mach := m.streamRow opPublish port f
/-- FRAME_PUBLISH_FWD (R181). -/
def Mach.rowFramePublishFwd (m : Mach) (port : Nat) (f : RFrame) : Mach := m.streamRow opPublishFwd port f

/-- FRAME_POISON_MARK (R170): in the original source's stream, in its turn; one that fails a check is discarded. -/
def Mach.rowFramePoisonMark (m : Mach) (port : Nat) (f : RFrame) : Mach :=
  let m := m.takeArrived port f
  if f.opcode ≠ opPoisonMark ∨ !RFrameFormOk f then m.refuseFrame f else
  let (st, m) := m.targetCheck f
  if st ≠ 0 then m.bump 0x7060 5
  else
    let w5 := f.word 5
    let src := bits w5 8 0
    let sequence := bits w5 31 16
    let cls := if bit w5 32 then 3 else 2
    m.streamArrive (streamKey src cls) sequence ⟨{ f with src := src, cls := cls, sequence := sequence }, port, 0, m.targetDpa f⟩

/-- FRAME_SEQ_ACK (R171): the retention space below N freed; frames that waited go. -/
def Mach.rowFrameSeqAck (m : Mach) (port : Nat) (f : RFrame) : Mach :=
  let m := m.takeArrived port f
  if f.opcode ≠ opSeqAck ∨ !RFrameFormOk f then m.refuseFrame f else
  let n := f.word 5 % 65536
  let cls := if bit (f.word 5) 16 then 3 else 2
  let key := streamKey f.src cls
  let covered (r : Retained) : Bool := r.frame.dst == f.src && r.frame.cls == cls &&
    decide ((n + 65535 - r.frame.sequence) % 65536 < 32768)
  let m := { m with fab := { m.fab with
    ackSeq := tput m.fab.ackSeq key n, retained := m.fab.retained.filter (!covered ·) } }
  m.releaseUnsent.epochCheck

/-- FRAME_MIRROR_COPY (R190): a copy that reaches this device has no agent that acts on it. -/
def Mach.rowFrameMirrorCopy (m : Mach) (port : Nat) (f : RFrame) : Mach :=
  let m := m.takeArrived port f
  if f.opcode ≠ opMirrorCopy ∨ !RFrameFormOk f then m.refuseFrame f else m

/-- FRAME_UNKNOWN_OPCODE (R163, R359): an URGENT opcode that is laid down nowhere is counted in 0x70D0.0D. -/
def Mach.rowFrameUnknown (m : Mach) (port : Nat) (f : RFrame) : Mach :=
  let m := m.takeArrived port f
  if 0xC4 ≤ f.opcode ∧ f.opcode ≤ 0xDF then m.bump 0x70D0 0x0D else m.refuseFrame f

/-! ## Frames at the requester (R164, R199, R201) -/

/-- A reissue that cannot be made, or a chain of more than four REDIRECTs (R199): both GFAs and the status kept. -/
def Mach.redirectFailed (m : Mach) (old new status : Nat) : Mach :=
  ((m.setReg 0x4490 1 0 old).setReg 0x4490 2 0 new).setReg 0x4490 3 0 status

/-- A frame readdressed to a GFA, with the same key. -/
def RFrameTo (f : RFrame) (gfa : Nat) : RFrame :=
  { f with dst := gfa / 2 ^ 50, window := bits gfa 49 38, offset := bits gfa 37 0, hops := 0, detour := false, rerouted := false }

/-- R199, R350: a REDIRECT of a non-posted request: reissued under a TAG of its die's escrow. -/
def Mach.reissue (m : Mach) (tag : Nat) (r : OutReq) (gfa : Nat) : Mach :=
  if 4 ≤ r.redirects then (m.redirectFailed r.original gfa stRedirect).endReq tag stRedirect false []
  else if m.nodeDead (gfa / 2 ^ 50) then
    ((m.bump 0x7060 0x0D).redirectFailed r.original gfa stTargetDead).endReq tag stRedirect false []
  else match m.newTag (tag / 8192) true with
  | none => m.bump 0x70C0 9
  | some t =>
    let m := (m.bump 0x70C0 8)
    let m := { m with fab := { m.fab with reqs := tdel m.fab.reqs tag } }
    let f := { RFrameTo r.frame gfa with tag := t, epoch := m.epoch }
    let slot := match r.purpose with
      | .read s _ => s | .fence s => s | .atomic s => s | .publish s => s | .fanout s _ => s | .coll s => s | _ => tag / 8192 * 1024
    let put (m : Mach) (f : RFrame) : Mach :=
      { m with fab := { m.fab with reqs := tput m.fab.reqs t { r with frame := f, redirects := r.redirects + 1 } } }
    let m := if streamOp f.opcode then
        let (n, m) := m.takeSeq (streamKey f.dst f.cls)
        let f := { f with sequence := n }
        (put m f).launch ⟨f, slot, 0⟩
      else (put m f).sendFrame f
    m.epochCheck

/-- R199: a REDIRECT of a posted write: reissued from the retention buffer in its new stream. -/
def Mach.reissuePosted (m : Mach) (r : Retained) (gfa : Nat) : Mach :=
  let m := { m with fab := { m.fab with retained := m.fab.retained.erase r } }
  if m.nodeDead (gfa / 2 ^ 50) then
    ((m.bump 0x7060 0x0D).redirectFailed r.frame.gfa gfa stTargetDead).noteFail r.slot stRedirect
  else
    let (n, m) := m.takeSeq (streamKey (gfa / 2 ^ 50) r.frame.cls)
    let m := match m.cmd? r.slot with
      | some c => m.setCmd r.slot { c with fabricDests := tput c.fabricDests (gfa / 2 ^ 50) (gfa, r.frame.key) }
      | none => m
    (m.launch ⟨{ RFrameTo r.frame gfa with sequence := n, epoch := m.epoch }, r.slot, 0⟩).epochCheck

/-- FRAME_RESP (R164): the first response for a TAG ends its request, a REDIRECT reissues it, and an answer of another
device's for a node it cannot reach marks that node dead (R201); any other response is dropped and counted. -/
def Mach.rowFrameResp (m : Mach) (port : Nat) (f : RFrame) : Mach :=
  let m := m.takeArrived port f
  if f.opcode ≠ opResp ∨ !RFrameFormOk f then m.refuseFrame f else
  let gfa := bits (f.word 5) 58 0
  match tget m.fab.reqs f.tag with
  | some r =>
    if f.status = stRedirect ∧ r.frame.dst = f.src then
      (match r.purpose with | .relocate => m.endReq f.tag stRedirect false [] | _ => m.reissue f.tag r gfa)
    else if f.status = stTargetDead ∧ f.src ≠ r.frame.dst then
      ((m.bump 0x7060 0x0D).endReq f.tag stTargetDead false []).markDead r.frame.dst
    else m.endReq f.tag f.status (f.word 6 ≠ 0) f.payload
  | none =>
    match (if f.status = stRedirect then m.fab.retained.find? fun r =>
        r.frame.dst == f.src && r.frame.tag == f.tag && r.frame.offset == bits gfa 37 0 else none) with
    | some r => (m.reissuePosted r gfa).bump 0x70C0 8
    | none => m.bump 0x7060 3

/-! ## End-to-end bounds (R169, R171, R173, R198) -/

/-- GAP_BOUND_EXPIRY (R169): the sequence a stream waits for is declared lost. -/
def Mach.rowGapBoundExpiry (m : Mach) (src : Nat) (bulk : Bool) : Mach :=
  let key := src * 2 + b2n bulk
  let s := m.stream key
  if s.held = [] ∨ (tget s.held s.n).isSome then m
  else
    let m := (m.setSource src { m.source src with lost := true }).bump 0x7060 6
    (m.advance key).runStream key

/-- SEQ_ACK_INTERVAL_EXPIRY (R171): SEQ_ACK of each stream whose N has moved. -/
def Mach.rowSeqAckInterval (m : Mach) : Mach :=
  (m.fab.streams.filter fun (p : Nat × Stream) => 0 < p.2.since).foldl (fun m (p : Nat × Stream) => m.sendSeqAck p.1) m

/-- BULK_RETRANSMIT_EXPIRY (R171): a BULK write not covered in time sent again, or given up at the limit. -/
def Mach.rowBulkRetransmit (m : Mach) (dst sequence : Nat) : Mach :=
  match m.fab.retained.find? fun r => r.frame.dst == dst && r.frame.cls == 3 && r.frame.sequence == sequence with
  | none => m
  | some r =>
    if m.reg 0x4200 3 0 ≤ r.resends then
      (({ m with fab := { m.fab with retained := m.fab.retained.erase r } } : Mach).noteFail r.slot stTimeout).epochCheck
    else
      ({ m with fab := { m.fab with retained := m.fab.retained.map fun x =>
          if x = r then { x with resends := x.resends + 1 } else x } } : Mach).bump 0x7060 7 |>.sendFrame r.frame

/-- RESPONSE_BOUND_EXPIRY (R173): a request without its response ends with TIMEOUT; a COLL frame has none to come. -/
def Mach.rowResponseBound (m : Mach) (tag : Nat) : Mach :=
  match tget m.fab.reqs tag with
  | some r => if r.frame.opcode = opColl then m else m.endReq tag stTimeout false []
  | none => m

/-- RETIRE_BOUND_EXPIRY (R198): requests of the previous epoch end with MAPSTALE and the epoch retires. -/
def Mach.rowRetireBound (m : Mach) : Mach :=
  if m.reg 0x4480 4 0 ≠ 1 then m else
  let prev := (m.epoch + 255) % 256
  let tags := (m.fab.reqs.filter fun (p : Nat × OutReq) => p.2.frame.epoch == prev && p.2.frame.opcode != opColl).map Prod.fst
  let posted := (m.fab.retained ++ m.fab.unsent).filter fun r => r.frame.opcode == opWritePosted && r.frame.epoch == prev
  let m := m.bumpBy 0x7060 4 0 (tags.length + posted.length)
  let m := tags.foldl (fun m t => m.endReq t stMapStale false []) m
  (m.dropPosted stMapStale fun r => r.frame.epoch == prev).epochCheck

/-! ## Composition (R179, R196, R200-R202) -/

/-- REGION_KEY_BUMP (R179): 0x4400.08. -/
def Mach.rowRegionKeyBump (m : Mach) (s : Src) (region : Nat) : Mach :=
  m.dictWrite s 0x4400 8 fun m =>
    if 65536 ≤ region then .error abRange
    else
      let m := m.setReg 0x4400 5 region ((m.reg 0x4400 5 region + 1) % 65536)
      .ok ((m.nextGen 0x4400 9).auditReq s.q 0x0032 (leBytes 4 region))

/-- EPOCH_WRITE (R196): 0x4480.01 written to E + 1; the old epoch drains. -/
def Mach.rowEpochWrite (m : Mach) (s : Src) (v : Nat) : Mach :=
  m.dictWrite s 0x4480 1 fun m =>
    if v ≠ (m.epoch + 1) % 256 then .error abRange
    else if m.reg 0x4480 4 0 = 1 then .error abBusy
    else .ok ((((m.setReg 0x4480 1 0 v).setReg 0x4480 4 0 1).setReg 0x4480 5 0 m.now).epochCheck)

/-- RELOCATE_WINDOW (R200): 0x4481.01. What another device's window holds is not known here: a destination on this
device is checked, any other by the answers to the copy. -/
def Mach.rowRelocateWindow (m : Mach) (s : Src) (w : Nat) : Mach :=
  m.dictWrite s 0x4481 1 fun m =>
    let node := m.reg 0x4481 2 0
    let dw := m.reg 0x4481 3 0
    if 4096 ≤ w ∨ m.reg 0x4410 6 w = 0 then .error abRange
    else if m.fab.reloc.isSome then .error abBusy
    else if m.reg 0x4411 1 w ≠ 0 then .error abConflict
    else if node = m.node ∧ (m.reg 0x4410 6 dw = 0 ∨ m.reg 0x4410 3 dw ≠ m.reg 0x4410 3 w ∨
        m.regionKey (m.reg 0x4410 4 dw) ≠ m.regionKey (m.reg 0x4410 4 w)) then .error abRange
    else
      let r : Relocation := { window := w, next := 0, todo := [], dirty := [], passes := 0, outstanding := 0, failed := 0 }
      let m := { m with fab := { m.fab with reloc := some r } }
      let m := ((m.setReg 0x4411 1 w 1).setReg 0x4481 7 0 1).setReg 0x4481 6 0 0
      .ok ((Mach.relocPump 512 m).auditReq s.q 0x0032 (leBytes 2 w ++ leBytes 2 node ++ leBytes 2 dw))

/-- RELOCATION_COPY_DONE (R200): a bulk copy or a pass whose every WRITE is answered: another pass while more than
16 MiB is dirty, at most eight; else the final pass. -/
def Mach.rowRelocationCopyDone (m : Mach) : Mach :=
  match m.fab.reloc with
  | none => m
  | some r =>
    if m.reg 0x4481 7 0 = 3 then m
    else if r.failed ≠ 0 then m.relocEnd 5 r.failed
    else if r.outstanding ≠ 0 ∨ r.next < m.reg 0x4410 3 r.window ∨ r.todo ≠ [] then m
    else if r.dirty.length ≤ 262144 then m.relocPass 3
    else if 8 ≤ r.passes then m.relocEnd 5 stTimeout
    else m.relocPass 2

/-- RELOCATION_FINAL_PASS_DONE (R200): the window FORWARDED, held requests answered REDIRECT. -/
def Mach.rowRelocationFinalPassDone (m : Mach) : Mach :=
  match m.fab.reloc with
  | none => m
  | some r =>
    if m.reg 0x4481 7 0 ≠ 3 then m
    else if r.failed ≠ 0 then m.relocEnd 5 r.failed
    else if r.outstanding ≠ 0 ∨ r.todo ≠ [] then m
    else m.relocEnd 4 0

/-- RELOCATION_HOLD_BOUND_EXPIRY (R200): the final pass has taken too long. -/
def Mach.rowRelocationHoldBound (m : Mach) : Mach :=
  if m.reg 0x4481 7 0 = 3 then m.relocEnd 5 stTimeout else m

/-- CLEAR_DEAD_NODE (R201, R362): 0x4520.03. -/
def Mach.rowClearDeadNode (m : Mach) (s : Src) (node : Nat) : Mach :=
  m.dictWrite s 0x4520 3 fun m =>
    if 512 ≤ node then .error abRange
    else
      let m := (m.setReg 0x4520 2 node 0).setOct 0x4502 1 0 (setMaskBit (m.oct 0x4502 1 0) node false)
      .ok { m with hall := { m.hall with lostLinks := m.hall.lostLinks.filter fun x => x.1 ≠ node } }

/-- JOB_TEARDOWN (R202): 0x4521.01. -/
def Mach.rowJobTeardown (m : Mach) (s : Src) (job : Nat) : Mach :=
  m.dictWrite s 0x4521 1 fun m =>
    if 4096 ≤ job then .error abRange else .ok ((m.tearDown job).auditReq s.q 0x0032 (leBytes 2 job))

end Sys2Proof.Machine
end

