-- ==== Sys2Proof/Machine/StoreRows.lean ====
section
/-! DEFINITION. What each event of the store does (03_store_tiers.md R66-R98): media accesses, ages, movements, failures
of the lower tier, leases, retirement and reshapes. -/

namespace Sys2Proof.Machine

/-! ## State changes that raise notices (19_object_index.md) -/

/-- 0x3025: a stack's state changed, with notice 0x8032. -/
def Mach.setStack (m : Mach) (s v : Nat) : Mach :=
  let old := m.stackState s
  (m.setReg 0x3025 (1 + s) 0 v).notice 0x8032 [byteOf s, byteOf old, byteOf v]

/-- 0x3021: a channel's state changed, with notice 0x8031. -/
def Mach.setDimmChan (m : Mach) (c v : Nat) : Mach :=
  let old := m.chanState c
  (m.setReg 0x3021 (1 + c) 0 v).notice 0x8031 [byteOf c, byteOf old, byteOf v]

/-- A lease: FREE when it is not listed. -/
def Mach.lease (m : Mach) (k : Nat) : Lease := tgetD m.store.leases k ⟨0, 0, 0⟩

/-- A lease changed, with notice 0x8033 when its state does. -/
def Mach.setLease (m : Mach) (k : Nat) (l : Lease) : Mach :=
  let old := (m.lease k).state
  let m := { m with store := { m.store with leases := if l.state = 0 then tdel m.store.leases k else tput m.store.leases k l } }
  if old = l.state then m else m.notice 0x8033 (leBytes 4 k ++ leBytes 2 l.holder ++ [byteOf old, byteOf l.state])

/-! ## Media accesses -/

/-- R70, R90: a line poisoned by its medium, counted. -/
def Mach.mediaPoison (m : Mach) (line : Nat) : Mach := (m.poisonLine line).bump 0x7030 7

/-- What a media read delivers (R66, R70, R76, R90). -/
def Mach.mediaValue (m : Mach) (line : Nat) (r : MediaResult) : LineVal × Mach :=
  let g := granuleOfLine line
  let e := m.gran g
  if m.channelDown line then (.failed stLowerTierFail, m)
  else match e.loc, r with
  | .stack, .uncorrectable => (.poison, m.mediaPoison line)
  | .dimm, .uncorrectable =>
    (.failed stLowerTierFail, { m with store := { m.store with rereads := insSorted m.store.rereads line } })
  | .comp, .uncorrectable => (.failed stLowerTierFail, m)
  | .comp, .slot bytes =>
    let s := line % 1024 / 64
    match (if slotHeaderOk bytes g then decodeSub bytes s else none) with
    | some b => if line ∈ m.store.poison then (.poison, m) else (.data (slice b (line % 64 * 64) 64), m)
    | none => (.poison, m.bump 0x7030 8)
  | _, _ => (m.mediaLine line, m)

/-- The media read of a line that has waited longest, answered with a value by its media owner (R20). -/
def Mach.answerMedia (m : Mach) (line : Nat) (v : LineVal) : Mach :=
  match m.col.reads.find? (·.line == line) with
  | none => m
  | some x =>
    let m := { m with col := { m.col with reads := m.col.reads.erase x } }
    (m.accessed x.req (granuleOfLine line)).colSend .data (m.mediaDie line) x.req line x.req .inv v x.st

/-- MEDIA_READ_DONE (R66, R70, R76, R78, R90). -/
def Mach.rowMediaReadDone (m : Mach) (line : Nat) (r : MediaResult) : Mach :=
  if m.col.reads.any (·.line == line) then
    let (v, m) := m.mediaValue line r
    m.answerMedia line v
  else m

/-- MEDIA_WRITE (R66, R81, R82, R86): a write within one line at its medium; whom it is for is told when it is over. -/
def Mach.rowMediaWrite (m : Mach) (w : StoreWrite) : Mach :=
  let w := { w with bytes := w.bytes.take (64 - w.dpa % 64) }
  if w.bytes = [] ∨ m.reg 0x3000 1 0 ≤ w.dpa then m else
  match m.mediaWrite w with
  | (m, .done) => m.writeEnded w.owner 0
  | (m, .failed st) => m.writeEnded w.owner st
  | (m, .waiting) => m

/-- Writes that waited are tried again in their order. -/
def Mach.retryWrites (m : Mach) (ws : List StoreWrite) : Mach := ws.foldl Mach.rowMediaWrite m

/-- Allocations and writes to compressed granules that waited for a frame, tried again (R81, R86). -/
def Mach.retryAllocs (m : Mach) : Mach :=
  let stuck (w : StoreWrite) : Bool := (tget m.store.moves (granuleOf w.dpa)).isNone
  let ws := m.store.allocWaits ++ m.store.heldWrites.filter stuck
  ({ m with store := { m.store with allocWaits := [], heldWrites := m.store.heldWrites.filter (!stuck ·) } } : Mach).retryWrites ws

/-- ALLOCATION_BOUND_EXPIRY (R86): the writes to a granule for which no frame came free end with STORE_FULL, counted. -/
def Mach.rowAllocationBound (m : Mach) (g : Nat) : Mach :=
  let mine (w : StoreWrite) : Bool := granuleOf w.dpa == g
  let held (w : StoreWrite) : Bool := mine w && (tget m.store.moves g).isNone
  let ws := m.store.allocWaits.filter mine ++ m.store.heldWrites.filter held
  let m := { m with store := { m.store with
    allocWaits := m.store.allocWaits.filter (!mine ·), heldWrites := m.store.heldWrites.filter (!held ·) } }
  ws.foldl (fun m w => (m.bump 0x7030 3).writeEnded w.owner stStoreFull) m

/-- FRAME_ZEROED (R86): a freed frame can be allocated; what waited for one goes on. -/
def Mach.rowFrameZeroed (m : Mach) (f : Frame) : Mach :=
  if f ∈ m.store.unzeroed then
    ({ m with store := { m.store with unzeroed := m.store.unzeroed.erase f } } : Mach).watch.retryAllocs
  else m

/-- A record read and cleared in one step (R89). -/
def Mach.readRecord (m : Mach) (k : Nat) : List Byte × Mach := (m.oct 0x3051 (1 + k) 0, m.setOct 0x3051 (1 + k) 0 (zeros 16))

/-- A read answered: OP 1, the value's bytes. -/
def Mach.answerGet (m : Mach) (s : Src) (idx sub : Nat) (data : List Byte) : Mach :=
  m.answer s.q ⟨s.txn, 1, idx, sub, typeCode idx sub, 0, data.length, data⟩

/-- A read refused. -/
def Mach.refuseGet (m : Mach) (s : Src) (idx sub abort : Nat) : Mach :=
  m.answer s.q ⟨s.txn, 1, idx, sub, typeCode idx sub, abort, 0, []⟩

/-- WATERMARK_RECORD_READ (R89): measure k's record read by a requester, which clears it; a repeated transaction is
answered as before (R392). -/
def Mach.rowWatermarkRecordRead (m : Mach) (s : Src) (k : Nat) : Mach :=
  if !m.reaches s.q then m else
  let m := m.bump 0x7110 1
  match m.kept? s.q s.txn with
  | some r => ((m.bump 0x7110 3).bump 0x7110 2).emit (.response s.q r)
  | none =>
    if 4 ≤ k then m.refuseGet s 0x3051 (1 + k) abNoSubindex
    else if m.roles s.q = 0 ∨ (s.q.isInBand ∧ m.reg 0x3450 1 0 = 0) then m.refuseGet s 0x3051 (1 + k) abRole
    else
      let (bs, m) := m.readRecord k
      m.answerGet s 0x3051 (1 + k) bs

/-! ## Ages (R68) -/

/-- ACCESS_FLUSH_TICK: the granules gathered through a die get LAST = now and SAT cleared. -/
def Mach.rowAccessFlushTick (m : Mach) (die : Nat) : Mach :=
  let gs := tgetD m.store.gathered die []
  let m := { m with store := { m.store with gathered := tdel m.store.gathered die } }
  gs.foldl (fun m g => m.setGran g { m.gran g with last := m.nowMs, sat := false }) m

/-- AGE_SWEEP_VISIT: the next granule of the sweep has SAT set once its age is 255; the pass starts again at the end. -/
def Mach.rowAgeSweepVisit (m : Mach) : Mach :=
  let g := m.store.sweep
  let m := { m with store := { m.store with sweep := if g + 1 < m.reg 0x3000 1 0 / 65536 then g + 1 else 0 } }
  if m.age g = 255 then m.setGran g { m.gran g with sat := true } else m

/-! ## Movements (R78-R83) -/

/-- R79: the granules a die's agent may evict, in order: COLD, then others, oldest first, the lower DPA first. -/
def Mach.evictable (m : Mach) (die : Nat) : List Nat :=
  let gs := (m.store.gran.filter fun (p : Nat × Granule) => p.2.loc == .stack && p.2.hint != 4 && m.mapOwner p.1 == die &&
    (tget m.store.moves p.1).isNone).map Prod.fst
  let key (g : Nat) : Nat := (if (m.gran g).hint = 2 then 0 else 1) * 2 ^ 40 + (255 - m.age g) * 2 ^ 30 + g
  sortBy (fun a b => decide (key a < key b)) gs

/-- EVICTION_START (R79): below the low mark a die's evictions are started, enough for the high mark. -/
def Mach.rowEvictionStart (m : Mach) (die : Nat) : Mach :=
  let usable := m.stackUsable
  if perMille m.stackFreeAll usable < m.reg 0x3010 2 0 then
    let moving := (m.store.moves.filter fun (p : Nat × Movement) => (m.gran p.1).loc == .stack).length
    let want := ceilDiv (m.reg 0x3010 3 0 * usable) 1000 - m.stackFreeAll - moving
    let start (r : Nat × Mach) (g : Nat) : Nat × Mach :=
      if r.1 = 0 then r else
      let m' := r.2.requestEvict g
      if (tget m'.store.moves g).isSome then (r.1 - 1, m') else r
    ((m.evictable die).foldl start (want, m)).2
  else m

/-- COMPRESSION_START (R80): below the mark a domain's granules of age 255 are compressed, lowest DPA first, until its
free frames pass twice the mark; one that R77 keeps plain is marked, sealed granules are left (16_security.md R461). -/
def Mach.rowCompressionStart (m : Mach) (d : Nat) : Mach :=
  let mark := m.reg 0x3010 5 0
  let frames := m.domainFrames d
  if mark ≠ 0 ∧ perMille (m.dimmFree d) frames < mark then
    let gs := (m.store.gran.filter fun (p : Nat × Granule) => p.2.loc == .dimm && p.2.domain == d && m.age p.1 == 255 &&
      (tget m.store.moves p.1).isNone && !m.store.keepPlain.contains p.1 && !m.sealedAt (p.1 * 65536)).map Prod.fst
    let want := ceilDiv (2 * mark * frames) 1000 - m.dimmFree d
    let start (r : Nat × Mach) (g : Nat) : Nat × Mach :=
      if r.1 = 0 then r else
      let m := r.2
      let n := slotChunks (m.bytes (g * 65536) 65536)
      if m.reg 0x3010 4 0 < n then
        (r.1, { m with store := { m.store with keepPlain := insSorted m.store.keepPlain g } })
      else match m.newSlot d n with
        | some (f, c) => (r.1 - 1, m.startMove g .compress (.slot d f c n) false)
        | none => r
    (gs.foldl start (want, m)).2
  else m

/-- MOVEMENT_COPY_DONE (R82): writes to the granule are held for the final pass. -/
def Mach.rowMovementCopyDone (m : Mach) (g : Nat) : Mach :=
  { m with store := { m.store with moves := tmod m.store.moves g fun mv => { mv with finalPass := true } } }

/-- The writes of a granule that a movement held, applied (R82). -/
def Mach.releaseHeld (m : Mach) (g : Nat) : Mach :=
  let mine (w : StoreWrite) : Bool := granuleOf w.dpa == g
  let ws := m.store.heldWrites.filter mine
  ({ m with store := { m.store with heldWrites := m.store.heldWrites.filter (!mine ·) } } : Mach).retryWrites ws

/-- A movement that fails (Table 03-5): the destination freed, counted, held writes applied at the source. -/
def Mach.rowMovementFailed (m : Mach) (g : Nat) : Mach :=
  if (tget m.store.moves g).isSome then ((m.stopMove g).bump 0x7030 6).releaseHeld g else m

/-- MOVEMENT_FINAL_PASS_DONE (R82, R83): the map swapped, the source freed, what waited goes on. A compression whose
dirty lines no longer fit its slot fails. -/
def Mach.rowMovementFinalPassDone (m : Mach) (g : Nat) : Mach :=
  match tget m.store.moves g with
  | none => m
  | some mv =>
    if !mv.finalPass then m else
    let fits := match mv.dst with
      | .slot _ _ _ n => decide (slotChunks (m.bytes (g * 65536) 65536) ≤ n)
      | _ => true
    if !fits then m.rowMovementFailed g else
    let old := m.gran g
    let m := { m with store := { m.store with moves := tdel m.store.moves g } }
    let m := m.setGran g { mv.dst.entry old with moving := false }
    let m := (m.freeFrame old).bump 0x7030 (if mv.kind = .promote ∨ mv.kind = .expand then 1 else 2)
    let m := m.watch.releaseHeld g
    let m := if mv.promotePending then m.requestPromote g false else m
    if mv.evacPending then m.requestEvacuate g none else m

/-! ## Lower-tier failures (R90) -/

/-- DIMM_ACCESS_BOUND_EXPIRY: the request that waits for the line ends with LOWER_TIER_FAIL; the line is not poisoned. -/
def Mach.rowDimmAccessBound (m : Mach) (line : Nat) : Mach :=
  let loc := (m.gran (granuleOfLine line)).loc
  if loc = .dimm ∨ loc = .comp then m.answerMedia line (.failed stLowerTierFail) else m

/-- DIMM_REREAD_DONE: a second read that fails too poisons the line. -/
def Mach.rowDimmRereadDone (m : Mach) (line : Nat) (ok : Bool) : Mach :=
  if line ∈ m.store.rereads then
    let m := { m with store := { m.store with rereads := remove m.store.rereads line } }
    if ok then m else m.mediaPoison line
  else m

/-- CHANNEL_FAIL: a channel in service goes DOWN with its notice; the requests that wait on it end. -/
def Mach.rowChannelFail (m : Mach) (c : Nat) : Mach :=
  if [1, 4, 6].contains (m.chanState c) then
    let m := m.setDimmChan c 3
    let stuck := (m.col.reads.filter fun x => m.channelDown x.line).map (·.line)
    stuck.foldl (fun m l => m.answerMedia l (.failed stLowerTierFail)) m
  else m

/-! ## Leases (R93, R94) -/

/-- The extents of the pool (0x3420.05). -/
def Mach.extents (m : Mach) : Nat := m.reg 0x3420 2 0 / 2 ^ 30

/-- Whether a requester may name a holder: itself in band, anyone with Steward (R99). -/
def Mach.mayHold (m : Mach) (q : Requester) (holder : Nat) : Bool :=
  hasRole (m.roles q) .steward || m.identOf q == some holder

/-- The expiry of a lease given now. -/
def Mach.leaseEnd (m : Mach) : Nat := m.now + m.reg 0x3420 3 0 * ticksPerMs

/-- LEASE_ACQUIRE: 0x3421.01: the lowest free extent to the holder. -/
def Mach.rowLeaseAcquire (m : Mach) (s : Src) (holder : Nat) : Mach :=
  m.dictWrite s 0x3421 1 fun m =>
    if !m.mayHold s.q holder then .error abRole
    else if bits holder 14 12 ≠ 0 ∨ (!bit holder 15 ∧ 64 ≤ holder) then .error abRange
    else match firstFrom m.extents 0 fun k => (m.lease k).state == 0 with
      | none => .error abRange
      | some k =>
        let m := m.setLease k ⟨1, holder, m.leaseEnd⟩
        .ok (m.setReq s.q { m.req s.q with acquired := k })

/-- A renewal of an extent: from GRACE it counts as late. -/
def Mach.renew (m : Mach) (k : Nat) : Mach :=
  let l := m.lease k
  let m := if l.state = 2 then m.bump 0x7030 9 else m
  m.setLease k { l with state := 1, expiry := m.leaseEnd }

/-- The refusals of a renew or release that names an extent. -/
def Mach.leaseRefusal (m : Mach) (q : Requester) (k : Nat) : Option Nat :=
  let l := m.lease k
  if m.extents ≤ k then some abRange
  else if l.state = 3 then some abBusy
  else if l.state = 0 ∨ !m.mayHold q l.holder then some abRole
  else none

/-- LEASE_RENEW: 0x3421.03. -/
def Mach.rowLeaseRenew (m : Mach) (s : Src) (k : Nat) : Mach :=
  m.dictWrite s 0x3421 3 fun m => match m.leaseRefusal s.q k with | some a => .error a | none => .ok (m.renew k)

/-- LEASE_RENEW_HOLDER: 0x3421.04: every extent of the holder in HELD or GRACE. -/
def Mach.rowLeaseRenewHolder (m : Mach) (s : Src) (holder : Nat) : Mach :=
  m.dictWrite s 0x3421 4 fun m =>
    if !m.mayHold s.q holder then .error abRole
    else if bits holder 14 12 ≠ 0 ∨ (!bit holder 15 ∧ 64 ≤ holder) then .error abRange
    else .ok ((m.store.leases.filter fun (p : Nat × Lease) => p.2.holder == holder && (p.2.state == 1 || p.2.state == 2)).foldl
      (fun m (p : Nat × Lease) => m.renew p.1) m)

/-- LEASE_RELEASE: 0x3421.05. -/
def Mach.rowLeaseRelease (m : Mach) (s : Src) (k : Nat) : Mach :=
  m.dictWrite s 0x3421 5 fun m => match m.leaseRefusal s.q k with
    | some a => .error a
    | none => .ok (m.setLease k { m.lease k with state := 3 })

/-- LEASE_EXPIRY: HELD to GRACE. -/
def Mach.rowLeaseExpiry (m : Mach) (k : Nat) : Mach :=
  if (m.lease k).state = 1 then m.setLease k { m.lease k with state := 2 } else m

/-- GRACE_END: GRACE to SCRUBBING; movements of the extent's granules stop (Table 03-5). -/
def Mach.rowGraceEnd (m : Mach) (k : Nat) : Mach :=
  if (m.lease k).state = 2 then
    let m := m.setLease k { m.lease k with state := 3 }
    let lo := m.extentBase k / 65536
    ((tkeys m.store.moves).filter fun g => decide (lo ≤ g) && decide (g < lo + 16384)).foldl (fun m g => (m.stopMove g).releaseHeld g) m
  else m

/-- EXTENT_SCRUB_DONE: every granule of the extent UNBACKED, what hosts hold of it recalled first (04_host_ports.md R115);
SCRUBBING to FREE. -/
def Mach.rowExtentScrubDone (m : Mach) (k : Nat) : Mach :=
  if (m.lease k).state ≠ 3 then m else
  match m.recallHosts fun _ h => h.line * 64 / 2 ^ 30 == m.extentBase k / 2 ^ 30 with
  | some m => m
  | none => ((m.scrubRange (m.extentBase k) (2 ^ 30)).setLease k { m.lease k with state := 0 }).watch

/-! ## Evacuation (R95-R97) -/

/-- The granules on a stack, in order. -/
def Mach.onStack (m : Mach) (s : Nat) : List Nat :=
  (m.store.gran.filter fun (p : Nat × Granule) => p.2.loc == .stack && p.2.frame / framesPerStack == s).map Prod.fst

/-- The granules in stacked frames that are no longer ordinary ones of an active stack: they must move. -/
def Mach.misplaced (m : Mach) : List Nat :=
  (m.store.gran.filter fun (p : Nat × Granule) => p.2.loc == .stack &&
    (let s := p.2.frame / framesPerStack
     m.stackState s != 1 || decide (m.stackOrdinary s ≤ p.2.frame % framesPerStack))).map Prod.fst

/-- A stack's evacuation begun: RETIRING, its granules asked to move, promotions onto it deferred (Table 03-5). -/
def Mach.beginRetire (m : Mach) (s : Nat) : Mach :=
  let m := m.setStack s 2
  let m := { m with store := { m.store with moves := m.store.moves.map fun (p : Nat × Movement) => (p.1, match p.2.dst with
    | .stack f => if f / framesPerStack = s then { p.2 with evacPending := true } else p.2
    | _ => p.2) } }
  m.misplaced.foldl (fun m g => m.requestEvacuate g none) m

/-- Whether the pinned granules of a stack and its share of the system area fit on the other active stacks. -/
def Mach.retireFits (m : Mach) (s : Nat) : Bool :=
  let after := m.setReg 0x3025 (1 + s) 0 2
  let pinned := (m.store.gran.filter fun (p : Nat × Granule) => p.2.loc == .stack && p.2.hint == 4).length
  after.activeStacks.all (fun t => decide (after.stackSys t + after.stackReserve t ≤ framesPerStack)) &&
    decide (pinned ≤ after.stackUsable)

/-- STACK_RETIRE (R95): 0x3026.01. -/
def Mach.rowStackRetire (m : Mach) (s : Src) (k : Nat) : Mach :=
  m.dictWrite s 0x3026 1 fun m =>
    if 2 * m.dies ≤ k ∨ m.stackState k = 0 ∨ m.stackState k = 3 ∨ !m.dieActive (k / 2) then .error abRange
    else if m.stackState k = 2 then .error abBusy
    else if m.activeStacks = [k] ∨ !m.retireFits k then .error abRange
    else .ok (m.beginRetire k)

/-- STACK_EVACUATION_DONE (R95): an empty RETIRING stack goes to RETIRED; what is still on it is asked to move again. -/
def Mach.rowStackEvacuationDone (m : Mach) (k : Nat) : Mach :=
  if m.stackState k ≠ 2 then m
  else if m.onStack k = [] ∧ !(m.store.moves.any fun (p : Nat × Movement) => match p.2.dst with
      | .stack f => f / framesPerStack == k | _ => false) then (m.setStack k 3).watch
  else (m.onStack k).foldl (fun m g => m.requestEvacuate g none) m

/-- The domains a channel is a member of. -/
def Mach.domainsOf (m : Mach) (c : Nat) : List Nat := (List.range 9).filter fun d => (m.members d).contains c

/-- The frames of a domain without one of its members. -/
def Mach.framesWithout (m : Mach) (d c : Nat) : Nat :=
  let ms := remove (m.members d) c
  ({ m with store := { m.store with members := tput m.store.members d ms } } : Mach).domainFrames d

/-- The granules of a domain whose frame number is at or above a bound. -/
def Mach.tailOf (m : Mach) (d n : Nat) : List Nat :=
  (m.store.gran.filter fun (p : Nat × Granule) => (p.2.loc == .dimm || p.2.loc == .comp) && p.2.domain == d &&
    decide (n ≤ p.2.frame)).map Prod.fst

/-- The granules that a channel's removal must move first: the tails of its domains. -/
def Mach.removalTail (m : Mach) (c : Nat) : List Nat :=
  (m.domainsOf c).flatMap fun d => m.tailOf d (m.framesWithout d c)

/-- A channel's removal begun (R96): leaving, or still DOWN, and its tails asked to move. -/
def Mach.beginRemove (m : Mach) (c : Nat) (src : Option Src) : Mach :=
  let m := if m.chanState c = 3 then m else m.setDimmChan c 4
  let m := { m with store := { m.store with reshape := some { channel := c, adding := false, sweeping := true, src := src } } }
  (m.removalTail c).foldl (fun m g => m.requestEvacuate g none) (m.setReg 0x3022 3 0 0)

/-- CHANNEL_REMOVE (R96): 0x3022.01 with 0x3022.02 = 0. -/
def Mach.rowChannelRemove (m : Mach) (s : Src) (c : Nat) : Mach :=
  m.dictWrite s 0x3022 1 fun m =>
    if 2 * m.dies ≤ c ∨ m.reg 0x3022 2 0 ≠ 0 then .error abRange
    else if m.store.reshape.isSome then .error abBusy
    else if m.chanState c ≠ 1 ∧ m.chanState c ≠ 3 then .error abRange
    else
      let free := m.stackFreeAll + sumL ((List.range 9).map fun d =>
        min (m.framesWithout d c) (m.domainFrames d) - (m.usedDimm d).length)
      if free < (m.removalTail c).length then .error abRange else .ok (m.beginRemove c none)

/-- CHANNEL_ADD (R97): 0x3022.01 with 0x3022.02 = 1: the channel trains; the write is answered when it has. -/
def Mach.rowChannelAdd (m : Mach) (s : Src) (c : Nat) : Mach :=
  if !m.reaches s.q then m else
  let m := m.bump 0x7110 1
  match m.kept? s.q s.txn with
  | some r => ((m.bump 0x7110 3).bump 0x7110 2).emit (.response s.q r)
  | none =>
    match m.gate s.q 0x3022 1 with
    | some a => m.answerWrite s 0x3022 1 a
    | none =>
      if 2 * m.dies ≤ c ∨ m.reg 0x3022 2 0 ≠ 1 then m.answerWrite s 0x3022 1 abRange
      else if m.store.reshape.isSome then m.answerWrite s 0x3022 1 abBusy
      else if m.chanState c ≠ 0 ∧ m.chanState c ≠ 5 ∧ m.chanState c ≠ 3 then m.answerWrite s 0x3022 1 abRange
      else
        let m := m.setDimmChan c 2
        { m with store := { m.store with reshape := some { channel := c, adding := true, sweeping := false, src := some s } } }

/-- CHANNEL_TRAINED (R97): a DIMM smaller than G is refused; otherwise the channel joins. -/
def Mach.rowChannelTrained (m : Mach) (c gib : Nat) (ok : Bool) : Mach :=
  match m.store.reshape with
  | some r =>
    if !r.adding ∨ r.sweeping ∨ r.channel ≠ c then m
    else
      let answer (m : Mach) (a : Nat) : Mach := match r.src with | some s => m.answerWrite s 0x3022 1 a | none => m
      if !ok then
        let m := m.setDimmChan c 3
        answer { m with store := { m.store with reshape := none } } abGeneral
      else if gib < m.globalGiB then
        let m := m.setDimmChan c 5
        answer { m with store := { m.store with reshape := none } } abRange
      else
        let m := m.setDimmChan c 6
        answer { m with store := { m.store with
          reshape := some { r with sweeping := true }, dimmGiB := tput m.store.dimmGiB c gib } } 0
  | none => m

/-- The next channel that an orderly fence removes (R98), once no reshape is in progress. -/
def Mach.nextRemoval (m : Mach) : Mach :=
  if m.store.reshape.isSome then m else
  let cs := (m.fences.filter fun (p : Nat × FenceRun) => p.2.step == .evacuating).flatMap fun p => [2 * p.1, 2 * p.1 + 1]
  match cs.find? fun c => m.chanState c == 1 || (m.chanState c == 3 && !(m.domainsOf c).isEmpty) with
  | some c => m.beginRemove c none
  | none => m

/-- RESHAPE_SWEEP_DONE (R96, R97): a removal ends once its tails are empty, sub-blocks of a channel that was DOWN
written as poisoned lines; an addition's channel becomes ACTIVE and its frames join. -/
def Mach.rowReshapeSweepDone (m : Mach) : Mach :=
  match m.store.reshape with
  | none => m
  | some r =>
    let c := r.channel
    let ended (m : Mach) : Mach := (({ m with store := { m.store with reshape := none } } : Mach).setReg 0x3022 3 0 1000).nextRemoval
    if !r.sweeping then m
    else if r.adding then
      let n := c / 2 + 1
      let m := { m with store := { m.store with members := tput m.store.members 0 (insSorted (m.members 0) c) } }
      let m := if m.globalGiB < tgetD m.store.dimmGiB c 0 then
          { m with store := { m.store with members := tput m.store.members n (insSorted (m.members n) c) } } else m
      (ended (m.setDimmChan c 1)).watch.retryAllocs
    else if m.removalTail c ≠ [] then (m.removalTail c).foldl (fun m g => m.requestEvacuate g none) m
    else
      let down := m.chanState c = 3
      let lost := if down then (m.store.gran.filter fun (p : Nat × Granule) => p.2.loc == .dimm).flatMap fun (p : Nat × Granule) =>
          ((List.range 16).filter fun s => (m.dimmPlace p.2.domain p.2.frame s).1 == c).flatMap fun s =>
            (List.range 64).map fun l => p.1 * 1024 + s * 64 + l
        else []
      let m := lost.foldl (fun m l => m.poisonLine l) m
      let m := m.bumpBy 0x7030 7 0 lost.length
      let m := { m with store := { m.store with
        members := m.store.members.map fun (p : Nat × List Nat) => (p.1, remove p.2 c) } }
      (ended (m.setDimmChan c 5)).watch

end Sys2Proof.Machine
end

