-- ==== Sys2Proof/Machine/Reset.lean ====
section
/-! DEFINITION. The package out of a cold reset, what a cold and a warm reset keep (15_clocks_power.md R424-R428, Tables 15-5
and 15-6), power domains' states, and which entries are counters (17_telemetry.md R471-R473). -/

namespace Sys2Proof.Machine

/-! ## The parts out of reset -/

/-- The store with nothing backed. -/
def Store.reset (dimms : Tbl Nat) (members : Tbl (List Nat)) : Store :=
  { mem := [], poison := [], gran := [], moves := [], gathered := [], sweep := 0, allocWaits := [], heldWrites := [], unzeroed := []
    keepPlain := [], rereads := [], pins := [], wmArmed := List.replicate 4 true, leases := [], dimmGiB := dimms
    members := members, reshape := none }

/-- The Col with nothing cached. -/
def Col.reset : Col :=
  { caches := [], filters := [], txns := [], waits := [], reads := [], net := [] }

/-- Schedulers with nothing in flight. -/
def Sched.reset : Sched := { queues := [], slots := [], events := [], rr := [], nextOrder := 0, banks := [] }

/-- Translation with every AST disabled. -/
def Xlate.reset : Xlate :=
  { asts := [], dieCache := [], micro := [], walkCache := [], walks := [], invals := [], fetches := [], migrations := [] }

/-- Host ports with every link down. -/
def HostSide.reset : HostSide := { lds := [], filters := [], bis := [], waiting := [], lost := [] }

/-- Memory semantics with nothing under way. -/
def Fabric.reset : Fabric :=
  { tearing := [], ackSeq := [], unsent := [], arrived := [], streams := [], sources := [], nextSeq := [], retained := [], reqs := []
    pubs := [], nextPub := 0, writes := [], nextWrite := 0, reloc := none, redAvg := [], ringCount := 0 }

/-- The trace unit before its first start. -/
def Trace.reset : Trace :=
  { dieMask := 0, srcMask := 0, ring := 0, length := 0, trigger := 0xFFFFFFFF, postLeft := 0, sequence := [] }

/-- Telemetry with nothing measured; a module that is seated stays seated. -/
def Telemetry.reset (modules : Tbl Module) : Telemetry :=
  { events := [], starts := [], trace := Trace.reset, eyeLane := [], eyes := [], codewords := [], rails := [], slack := [], power := []
    modules := modules.map fun (p : Nat × Module) => (p.1, { Module.absent with present := p.2.present })
    tapInstr := 0xFF, tapRefused := false, scratchAsk := none }

/-- Enumeration before the management controller first runs (14_cairn.md R387). -/
def Enumeration.reset : Enumeration :=
  { lastPulse := none, wrongPulse := none, wrongCount := 0, dadRunning := false, dadDone := false, drives := false }

/-- The management port with every entry at its table's default. -/
def Cairn.reset : Cairn := { regs := [], octs := [], reqs := [], subs := [], enum := Enumeration.reset, handshakes := [], commit := none }

/-- Security as a device leaves the factory: an image in slot A, slot B empty, no entry in the log, no fuse burnt. -/
def Security.factory : Security :=
  { audit := [], auditNext := 0, auditChain := zeros 48, auditAnchor := zeros 48, auditUnwritten := [], auditLost := []
    auditRetried := false
    flash := { slotA := some { magic := true, keySlot := 0, version := 0, release := 0x00010000, signed := true, measured := [] }
               slotB := none, boot := none, burnt := [], recorded := [], trip := false, ownerChain := [] }
    lowNoticed := [], claimable := false, generation := 0, bounceKey := [], bound := [], measured5 := zeros 18 }

/-- The lines and supplies of a package without power. -/
def Electrical.unpowered : Electrical :=
  { resetLow := true, segid := 0, refqual := 2, strapCheck := false, suppliesOk := false, vauxOk := false, vinLow := false }

/-! ## Entries (R394) -/

/-- The index of an entry's key. -/
def keyIndex (k : Nat) : Nat := k / 2 ^ 40
/-- The subindex of an entry's key. -/
def keySub (k : Nat) : Nat := k / 2 ^ 32 % 256

/-- Entries whose values a test drops, back at their defaults. -/
def Mach.dropRegs (m : Mach) (p : Nat → Nat → Bool) : Mach :=
  { m with cairn := { m.cairn with
    regs := m.cairn.regs.filter fun (x : Nat × Nat) => !p (keyIndex x.1) (keySub x.1)
    octs := m.cairn.octs.filter fun (x : Nat × List Byte) => !p (keyIndex x.1) (keySub x.1) } }

/-- R472, R473: whether an entry is a counter of 0x7010-0x70FF or of 0x7140.09-.10. -/
def engineCounter (idx sub : Nat) : Bool :=
  sub != 0 && ((decide (0x7010 ≤ idx) && decide (idx ≤ 0x70FF) && idx != 0x7011) ||
    (idx == 0x7140 && decide (9 ≤ sub) && decide (sub ≤ 0x10)))

/-- R471, Table 15-6: whether a warm reset clears an entry of 0x7000-0x7FFF. -/
def warmCounter (idx sub : Nat) : Bool :=
  engineCounter idx sub || (sub != 0 && (idx == 0x7110 || (idx == 0x7130 && decide (2 < sub)) || (idx == 0x7150 && sub == 0x0C)))

/-- R472: whether a snapshot captures an entry. -/
def snapCounter (idx sub : Nat) : Bool := engineCounter idx sub || (sub != 0 && decide (0x7110 ≤ idx) && decide (idx ≤ 0x7130))

/-- R473: whether 0x7000.03 clears an entry. -/
def clearedCounter (idx sub : Nat) : Bool := engineCounter idx sub || (sub != 0 && idx == 0x7110)

/-- Entries whose values outlive a cold reset: what flash and fuses hold of credentials, identities, trust, policies, ownership
and weight owners. -/
def flashEntry (idx sub : Nat) : Bool :=
  ([0x1200, 0x3430, 0x6000, 0x6001, 0x6003, 0x6011, 0x6012, 0x6030, 0x6100].contains idx && sub != 1) ||
  ((idx == 0x6001 || idx == 0x6011 || idx == 0x6012 || idx == 0x6030 || idx == 0x6100) && sub == 1) || (idx == 0x6002 && sub == 2)

/-! ## Power domains (R431) -/

/-- The row of a domain in 0x2220. -/
def domainRow (die dom : Nat) : Nat := die * 16 + dom

/-- 0x2220.03: 0 absent, 1 ON, 2 GOING_DOWN, 3 OFF, 4 GOING_UP. -/
def Mach.domain (m : Mach) (die dom : Nat) : Nat := m.reg 0x2220 3 (domainRow die dom)

/-- A domain's state changed: notice 0x8124. -/
def Mach.setDomain (m : Mach) (die dom st : Nat) : Mach :=
  let old := m.domain die dom
  if old = st then m
  else (m.setReg 0x2220 3 (domainRow die dom) st).notice 0x8124 [byteOf die, byteOf dom, byteOf old, byteOf st]

/-- Table 15-1 in µs. -/
def qualDelay (refqual : Nat) : Nat := [500, 1000, 2000, 5000, 10000, 20000, 50000, 100000].getD refqual 2000

/-- The straps as they were sampled, shown (18_electrical.md R499, 14_cairn.md R385). -/
def Mach.showStraps (m : Mach) : Mach :=
  let e := m.elec
  (((m.setReg 0x1100 2 0 e.segid).setReg 0x2000 6 0 (qualDelay e.refqual)).setReg 0x2230 1 0 e.segid).setReg 0x2230 2 0 e.refqual

/-- 06_ridgeline_memory.md Table 06-8: the default colour profiles: row, minimum, maximum, ceiling. -/
def colourProfiles : List (Nat × Nat × Nat × Nat) :=
  [(0, 4096, 16384, 6554), (1, 2048, 8192, 32768), (2, 0, 2048, 65535), (4, 1024, 4096, 32768), (5, 512, 2048, 49152),
   (6, 0, 512, 65535)]

/-- Entries whose value at reset follows the variant and its DIMM population (R2, R13, R85; 05_ridgeline_links.md Table 05-17). -/
def Mach.variantRegs (m : Mach) : Mach :=
  let ds := List.range m.dies
  let m := ds.foldl (fun m d => m.setReg 0x2210 (1 + d) 0 1) m
  let m := m.colLinks.foldl (fun m l => m.setReg 0x7011 (1 + l.1) 0 1) m
  let m := ds.foldl (fun m d => (m.setReg 0x3025 (1 + 2 * d) 0 1).setReg 0x3025 (2 + 2 * d) 0 1) m
  let m := m.store.dimmGiB.foldl (fun m (p : Nat × Nat) => m.setReg 0x3021 (1 + p.1) 0 1) m
  let m := ds.foldl (fun m d => m.setReg 0x3401 (1 + 2 * d) 0 1) m
  let m := ds.foldl (fun m d => [0, 1, 2, 3, 4, 5, 6].foldl (fun m k => m.setReg 0x2220 3 (domainRow d k) 3) m) m
  let m := [0, 1].foldl (fun m d => m.setReg 0x2220 3 (domainRow d 7) 1) m
  let m := m.setReg 0x2100 1 0 (300 * m.dies)
  let m := m.setReg 0x4000 1 0 (if m.dies = 8 then 2 else if m.dies = 4 then 1 else 0)
  let m := colourProfiles.foldl (fun m (p : Nat × Nat × Nat × Nat) =>
    ((m.setReg 0x4210 2 p.1 p.2.1).setReg 0x4210 3 p.1 p.2.2.1).setReg 0x4210 4 p.1 p.2.2.2) m
  m.setReg 0x3000 1 0 (m.defaultSpace 64 (m.physicalFor 0 / 2 ^ 30))

/-! ## Cold reset (Table 15-5) -/

/-- A package at the start of a cold reset: every part out of reset, with what the world and the flash hold. -/
def Mach.coldStart (dies : Nat) (dimms : Tbl Nat) (members : Tbl (List Nat)) (modules : Tbl Module) (elec : Electrical)
    (sec : Security) (stage cause : Nat) (out : List Out) (freeCtr : Nat) : Mach :=
  let m : Mach :=
    { dies, cairn := Cairn.reset, tele := Telemetry.reset modules, elec := elec, time := ⟨0, false, false⟩, col := Col.reset
      fences := [], store := Store.reset dimms members, sched := Sched.reset, eng := Engines.reset, xl := Xlate.reset
      host := HostSide.reset, ports := [], fab := Fabric.reset, hall := Hall.reset, sec := sec
      clk := { Clocks.reset with stage := stage, cause := cause }, out := out, freeCtr := freeCtr }
  m.variantRegs.showStraps.setReg 0x2200 2 0 cause

/-- The audit log as the next boot finds it: the entries that flash holds, from which sequence and chain go on (R468). -/
def Security.afterBoot (s : Security) : Security :=
  let kept := s.audit.filter fun e => !s.auditUnwritten.contains e.sequence && !s.auditLost.contains e.sequence
  let last := kept.getLast?
  { s with
    audit := kept
    auditNext := (last.map (·.sequence + 1)).getD (s.auditNext - s.audit.length)
    auditChain := (last.map (·.chain)).getD s.auditAnchor
    auditUnwritten := [], auditLost := [], auditRetried := false
    claimable := false, bounceKey := [], bound := [], measured5 := zeros 18 }

/-- R452: an ownership transfer at the cold reset after its commit: credentials, trust store, identities, weight owners and
bindings emptied, the device UNOWNED. -/
def Mach.transferOwnership (m : Mach) : Mach :=
  (m.dropRegs fun idx sub => (idx == 0x1200 && sub != 4) || (idx == 0x3430 && sub != 6) || idx == 0x6000 || idx == 0x6030).setReg 0x6002 2 0 0

/-- The package at the start of a cold reset of m (R424): a trip record makes the cause 7 and is cleared; the stage is that of the
supplies and of RESET_IN_L. -/
def Mach.coldFresh (m : Mach) (cause : Nat) : Mach :=
  let trip := m.sec.flash.trip
  let sec := { m.sec.afterBoot with flash := { m.sec.flash with trip := false }, generation := m.reg 0x6003 2 0 }
  let stage := if !m.elec.suppliesOk then 0 else if m.elec.resetLow then 1 else 2
  Mach.coldStart m.dies m.store.dimmGiB [] m.tele.modules m.elec sec stage (if trip then 7 else cause) m.out m.freeCtr

/-- What the flash of m keeps, put back: the entries it holds and the domains' members. -/
def Mach.keepFlash (n m : Mach) : Mach :=
  let regs := m.cairn.regs.filter fun (x : Nat × Nat) => flashEntry (keyIndex x.1) (keySub x.1)
  let octs := m.cairn.octs.filter fun (x : Nat × List Byte) => flashEntry (keyIndex x.1) (keySub x.1)
  { n with
    store := { n.store with members := m.store.members }
    cairn := { n.cairn with
      regs := regs.foldl (fun t (x : Nat × Nat) => tput t x.1 x.2) n.cairn.regs
      octs := octs.foldl (fun t (x : Nat × List Byte) => tput t x.1 x.2) n.cairn.octs } }

/-- 0x7130.01-.02 from the boot record. -/
def Mach.showBoots (m : Mach) (boot : Option BootRecord) : Mach :=
  match boot with
  | some b => (m.setReg 0x7130 1 0 b.bootsA).setReg 0x7130 2 0 b.bootsB
  | none => m

/-- A cold reset with its cause (R424): only flash and fuses are kept. -/
def Mach.coldReset (m : Mach) (cause : Nat) : Mach :=
  let n := ((m.coldFresh cause).keepFlash m).showBoots m.sec.flash.boot
  if m.reg 0x6002 2 0 = 2 then n.transferOwnership.audit 0x0003 [2] else n

/-- The KZ8-8 as it leaves the factory, without DIMMs, without power: the state that a power-up starts from. -/
def Mach.reset : Mach := Mach.coldStart 8 [] [] [] Electrical.unpowered Security.factory 0 0 [] 0

/-- Whether the root clock runs, so that the blocks of the package act: locked since step 5 of Table 15-8, and not stopped by
a trip (R440), an undervoltage (R430) or RESET_IN_L. -/
def Mach.clocked (m : Mach) : Bool :=
  decide (5 ≤ m.clk.stage) && m.elec.suppliesOk && m.elec.vauxOk && !m.elec.vinLow && !m.clk.tripped && !m.elec.resetLow

/-- Whether the device is ready, so that admission is open (R424, R426). -/
def Mach.ready (m : Mach) : Bool := m.reg 0x2200 3 0 == 1

/-! ## Confidential mode's sealed region (16_security.md Table 16-7, R463) -/

/-- The sealed region: the tenant's grant set less the bounce region, as (base, length). -/
def Mach.sealedRanges (m : Mach) : List (Nat × Nat) :=
  let b := m.reg 0x6020 2 0
  let e := b + m.reg 0x6020 3 0
  (m.grants m.tenant).flatMap fun (r : Nat × Nat) =>
    let hi := r.1 + r.2
    let low := min hi b
    let up := max r.1 e
    (if r.1 < low then [(r.1, low - r.1)] else []) ++ (if up < hi then [(up, hi - up)] else [])

/-- Every backed granule of the sealed region made UNBACKED. -/
def Mach.scrubSealed (m : Mach) : Mach := m.sealedRanges.foldl (fun m r => m.scrubRange r.1 r.2) m

/-- Confidential mode's state changed: notice 0x8132, audit log, and the engines know that the mode has changed (R228). -/
def Mach.setConf (m : Mach) (v : Nat) : Mach :=
  let old := m.confState
  let m := { m with eng := { m.eng with crag := { m.eng.crag with
    crags := m.eng.crag.crags.map fun (p : Nat × Crag) => (p.1, { p.2 with confChanged := true }) } } }
  let m := { m with sec := { m.sec with measured5 :=
    [byteOf v, byteOf m.tenant] ++ leBytes 8 (m.reg 0x6020 2 0) ++ leBytes 8 (m.reg 0x6020 3 0) } }
  let m := (m.setReg 0x6020 7 0 v).notice 0x8132 [byteOf old, byteOf v, byteOf m.tenant]
  m.audit 0x0020 [byteOf old, byteOf v, byteOf m.tenant]

/-! ## Warm reset (R425, R426, Tables 15-6 and 15-7) -/

/-- A command given up with a status: what its engine reports kept, its fabric requests and outside reads forgotten. -/
def Mach.giveUp (m : Mach) (slot status : Nat) : Mach :=
  let m := m.collFailed slot status
  let m := if (m.talus? slot).isSome then m.talusEnd slot (some status) none else m.failCmd slot status
  let m := m.dropFabric slot
  match m.cmd? slot with
  | none => m
  | some c =>
    let m := m.setCmd slot { c with flushOut := [], hostWrites := [] }
    { m with xl := { m.xl with fetches := m.xl.fetches.filter fun f => f.slot ≠ slot } }

/-- A command ended at once with its record, whatever it still waited for. -/
def Mach.endNow (m : Mach) (slot status : Nat) : Mach :=
  match m.cmd? slot with
  | none => m
  | some _ => (((m.giveUp slot status).releaseLock slot).2.enginesGone slot).endSlot slot

/-- The Col caches written back (R426 step 5). -/
def Mach.writeBackCaches (m : Mach) : Mach :=
  m.col.caches.foldl (fun m (c : Nat × List (Nat × ColLine)) =>
    c.2.foldl (fun m (l : Nat × ColLine) => if l.2.st = .M then m.writeBackLine c.1 l.1 l.2.val else m) m) m

/-- Host filters swept: lines that hosts hold in E or M poisoned (R119). -/
def Mach.sweepHosts (m : Mach) : Mach :=
  m.host.filters.foldl (fun m (f : Nat × List HostLine) =>
    f.2.foldl (fun m h => if h.st = .S then m else m.poisonHeld f.1 h.line) m) m

/-- Every link of the host ports lost by a reset: paths, filters and requests gone, links DOWN. -/
def Mach.hostsDown (m : Mach) : Mach :=
  let m := m.sweepHosts
  let ls := (List.range 16).filter fun l => m.linkState l != 0 && m.linkState l != 5
  let m := ls.foldl (fun m l => (m.setLinkState l 1).setReg 0x3401 (0x11 + l) 0 0) m
  let m := (m.host.lds.filter fun (p : Nat × Ld) => p.2.bind == .bound).foldl (fun m (p : Nat × Ld) =>
    (m.setPaths p.2.ident []).notice 0x8041
      (byteOf p.2.ident :: leBytes 2 (pathCode (p.1 / 16) (p.1 % 16)) ++ [0, byteOf (m.reg 0x3431 2 p.2.ident)])) m
  { m with host := HostSide.reset }

/-- What a warm reset loses, whatever the cause (Table 15-6), commands in flight ended first. -/
def Mach.warmLoss (m : Mach) : Mach :=
  let m := (tkeys m.sched.slots).foldl (fun m k => m.endNow k stDomainDown) m |>.teardownCheck
  let m := (tkeys m.store.moves).foldl (fun m g => m.rowMovementFailed g) m
  let m := m.hostsDown.writeBackCaches
  let m := { m with
    col := Col.reset
    xl := { Xlate.reset with asts := m.xl.asts }
    store := { m.store with allocWaits := [], heldWrites := [], gathered := [], rereads := [] }
    sched := { Sched.reset with nextOrder := m.sched.nextOrder }
    eng := Engines.reset
    ports := []
    fab := { Fabric.reset with ringCount := m.fab.ringCount }
    hall := { m.hall with ports := [], colls := [] }
    clk := { m.clk with engReset := [], cut := false, entered := true } }
  let m := (List.range m.dies).foldl (fun m p => if m.pState p ≤ 1 then m else m.setPState p 1) m
  let m := m.colLinks.foldl (fun m l =>
    if m.dieState l.2.1 = 3 ∨ m.dieState l.2.2 = 3 then m else m.setReg 0x7011 (1 + l.1) 0 1) m
  let groups := (List.range 1024).filter fun g => m.reg 0x4510 7 g == 1
  let m := m.dropRegs fun idx sub => warmCounter idx sub || (idx == 0x5401 && (sub == 2 || sub == 0x0F)) ||
    (idx == 0x5301 && decide (3 ≤ sub)) || idx == 0x5302 || (idx == 0x4011 && decide (2 ≤ sub)) ||
    (idx == 0x4501 && decide (2 ≤ sub) && sub != 3)
  groups.foldl (fun m g => m.setReg 0x4510 0x0A g 2) m

end Sys2Proof.Machine
end

