-- ==== Sys2Proof/Machine/ClockRows.lean ====
section
/-! DEFINITION. Clocks and resets (15_clocks_power.md R410-R430): reference inputs, the ramps of CCLK, reference switches and
coasting, spread, the frequency counter, cold, warm and engine resets, shutdown, power-up. -/

namespace Sys2Proof.Machine

/-! ## References (R411-R413) -/

/-- 0x2000.04-.05: 0 absent, 1 present, 2 qualified, 3 refused. -/
def Mach.refState (m : Mach) (i : Nat) : Nat := m.reg 0x2000 (4 + i) 0
/-- 0x2000.03: the active reference, 0xFF for none. -/
def Mach.activeRef (m : Mach) : Nat := m.reg 0x2000 3 0
/-- A reference input's state set. -/
def Mach.setRef (m : Mach) (i v : Nat) : Mach := m.setReg 0x2000 (4 + i) 0 v
/-- The clocks' own state changed. -/
def Mach.setClk (m : Mach) (c : Clocks) : Mach := { m with clk := c }

/-- Notice 0x8120: the input, its old and new state, the active reference. -/
def Mach.refNotice (m : Mach) (i old new : Nat) : Mach := m.notice 0x8120 [byteOf i, byteOf old, byteOf new, byteOf m.activeRef]

/-! ## CCLK (R414-R418) -/

/-- Table 15-10: divisor, array duty and engine duty of a level. -/
def levelOf (l : Nat) : Nat × Nat × Nat :=
  [(4, 16, 16), (4, 12, 16), (5, 16, 16), (5, 12, 16), (6, 16, 16), (6, 12, 16), (8, 16, 16), (8, 12, 16), (8, 8, 8), (8, 4, 4),
    (8, 1, 1)].getD l (8, 1, 1)

/-- R415: the divisor in force of the ceiling and the level. -/
def Mach.divisorInForce (m : Mach) : Nat := max (m.reg 0x2001 1 0) (levelOf (m.reg 0x2100 5 0)).1

/-- Where the ramp goes: ÷8 while a switch or a coast is due or the loop locks, the divisor in force otherwise. -/
def Mach.rampGoal (m : Mach) : Nat :=
  if m.clk.switchTo.isSome ∨ m.clk.coastNext ∨ m.clk.locking ∨ m.reg 0x2000 0x0A 0 = 1 then 8 else m.divisorInForce

/-- R415: the adjacent value of 4, 5, 6, 8 toward a goal. -/
def rampNext (d goal : Nat) : Nat :=
  if goal < d then (if d = 8 then 6 else d - 1) else (if d = 6 then 8 else d + 1)

/-- The ports drain or lose their links, and the warm reset's entry begins (Table 15-7, R418). -/
def Mach.beginWarm (m : Mach) (state cause : Nat) : Mach :=
  (m.setReg 0x2200 3 0 state).setClk { m.clk with cause := cause, entered := false }

/-- R418: the loop coasts: REFLOSS, notice 0x8121, counted; the warm-reset entry begins; ports leave their tolerance. -/
def Mach.coast (m : Mach) : Mach :=
  let m := m.setClk { m.clk with coastNext := false, switchTo := none, locking := false }
  let m := ((m.setReg 0x2000 0x0A 0 1).setReg 0x2000 3 0 0xFF).setReg 0x2001 3 0 4
  let m := (m.notice 0x8121 (1 :: leBytes 8 m.now)).bump 0x7120 3
  let m := ((List.range m.dies).filter m.numberedState).foldl (fun m p => m.portLost p 4 true) m
  m.beginWarm 3 4

/-- R417: the loop changes its input to the new reference: counted, notice 0x8120. -/
def Mach.switchInput (m : Mach) (to' : Nat) : Mach :=
  let m := m.setClk { m.clk with switchTo := none, locking := true }
  ((m.setReg 0x2000 3 0 to').bump 0x7120 1).refNotice to' (m.refState to') (m.refState to')

/-- The ramp controller when no dwell is in progress: a step toward the goal, or what follows the ramp (R415-R418). -/
def Mach.ramp (m : Mach) : Mach :=
  let d := m.reg 0x2001 2 0
  let g := m.rampGoal
  let c := m.clk
  if c.dwelling then m
  else if d ≠ g then
    let d' := rampNext d g
    let sw := c.switchTo.isSome || c.coastNext || c.locking
    let m := ((m.setReg 0x2001 2 0 d').bump 0x7120 4).setReg 0x2001 3 0 (if sw then 3 else if d < d' then 1 else 2)
    m.setClk { c with dwelling := true }
  else if c.coastNext then m.coast
  else match c.switchTo with
    | some t => (m.switchInput t).setReg 0x2001 3 0 3
    | none => if c.locking ∨ m.reg 0x2000 0x0A 0 = 1 then m else m.setReg 0x2001 3 0 0

/-- R417: a switch to another reference begins. -/
def Mach.startSwitch (m : Mach) (to' : Nat) : Mach :=
  ((m.setClk { m.clk with switchTo := some to' }).setReg 0x2001 3 0 3).ramp

/-- R418: the loop is left with no reference. -/
def Mach.startCoast (m : Mach) : Mach :=
  ((m.setClk { m.clk with switchTo := none, coastNext := true, locking := false }).setReg 0x2001 3 0 3).ramp

/-- Whether the loop has a reference and is neither switching nor coasting. -/
def Mach.steadyRef (m : Mach) : Bool :=
  decide (m.activeRef < 2) && m.clk.switchTo.isNone && !m.clk.locking && !m.clk.coastNext && m.reg 0x2000 0x0A 0 == 0 &&
  decide (5 ≤ m.clk.stage)

/-- REFERENCE_PRESENT: an input's detector begins to see edges; its qualification count starts from 0. -/
def Mach.rowReferencePresent (m : Mach) (i : Nat) : Mach :=
  if 2 ≤ i ∨ m.refState i ≠ 0 ∨ !m.elec.vauxOk then m else
  let m := m.setRef i 1
  if m.clk.stage = 2 then m.setClk { m.clk with stage := 3 } else m

/-- REFERENCE_QUALIFIED: an input completes its delay: taken at power-up, ends a coast, replaces a lost reference, or is
switched back to as the preferred one (R413, R418, R419). -/
def Mach.rowReferenceQualified (m : Mach) (i : Nat) : Mach :=
  if 2 ≤ i ∨ m.clk.stage < 3 ∨ (m.refState i ≠ 1 ∧ m.refState i ≠ 3) then m else
  let m := m.setRef i 2
  let c := m.clk
  if c.stage = 3 ∧ m.activeRef = 0xFF then (m.setReg 0x2000 3 0 i).setClk { c with stage := 4, locking := true }
  else if m.reg 0x2000 0x0A 0 = 1 then
    if c.locking then m else (m.setReg 0x2000 3 0 i).setClk { c with locking := true }
  else if c.coastNext then (m.setClk { c with coastNext := false, switchTo := some i }).ramp
  else if m.reg 0x2000 1 0 = i ∧ m.activeRef ≠ i ∧ m.reg 0x2000 2 0 = 1 ∧ m.steadyRef then m.startSwitch i
  else m

/-- REFERENCE_ABSENT: an input loses its qualification; the loss of the active one starts a switch, or a coast when the other
is not qualified (R413, R416, R418). -/
def Mach.rowReferenceAbsent (m : Mach) (i : Nat) : Mach :=
  if 2 ≤ i ∨ m.refState i = 0 then m else
  let m := m.setRef i 0
  let c := m.clk
  let other := 1 - i
  if c.stage < 5 then
    let left := decide (m.refState other ≠ 0)
    if m.activeRef = i then
      if m.refState other = 2 then m.setReg 0x2000 3 0 other
      else (m.setReg 0x2000 3 0 0xFF).setClk { c with stage := if left then 3 else 2, locking := false }
    else if c.stage = 3 ∧ !left then m.setClk { c with stage := 2 } else m
  else if !m.clocked then m
  else if m.reg 0x2000 0x0A 0 = 1 then
    if c.locking ∧ m.activeRef = i then
      if m.refState other = 2 then m.setReg 0x2000 3 0 other
      else (m.setReg 0x2000 3 0 0xFF).setClk { c with locking := false }
    else m
  else if m.activeRef = i then
    if m.refState other = 2 then (m.setClk { c with locking := false }).startSwitch other else m.startCoast
  else if c.switchTo = some i then
    if m.refState other = 2 then (m.setClk { c with switchTo := none }).ramp else m.startCoast
  else m

/-- R412: a count corrected for the input's declared spread, as a fraction: count × 20,000 over 20,000 − s. -/
def Mach.corrected (m : Mach) (i count : Nat) : Nat × Nat := (count * 20000, 20000 - m.reg 0x2000 (7 + i) 0)

/-- REFERENCE_COMPARE: the cycle counts of 10 ms; an inactive input that disagrees is refused. -/
def Mach.rowReferenceCompare (m : Mach) (countA countB : Nat) : Mach :=
  let act := m.activeRef
  if 2 ≤ act ∨ m.refState 0 ≠ 2 ∨ m.refState 1 ≠ 2 then m else
  let off := 1 - act
  let a := m.corrected act (if act = 0 then countA else countB)
  let b := m.corrected off (if act = 0 then countB else countA)
  let x := a.1 * b.2
  let y := b.1 * a.2
  let diff := if x ≤ y then y - x else x - y
  if diff * 1000000 ≤ m.reg 0x2000 9 0 * x then m else
  let m := ((m.setRef off 3).bump 0x7120 2).refNotice off 2 3
  if m.clk.switchTo = some off then (m.setClk { m.clk with switchTo := none }).ramp else m

/-- PREFERRED_REFERENCE_WRITE (R413). -/
def Mach.rowPreferredReferenceWrite (m : Mach) (s : Src) (v : Nat) : Mach :=
  m.dictWrite s 0x2000 1 fun m =>
    if 1 < v then .error abRange else
    let m := m.setReg 0x2000 1 0 v
    .ok (if m.refState v = 2 ∧ m.activeRef ≠ v ∧ m.steadyRef then m.startSwitch v else m)

/-- CCLK_DWELL_END: a dwell ends, and the next step, switch or coast begins. -/
def Mach.rowCclkDwellEnd (m : Mach) : Mach :=
  if m.clk.dwelling then (m.setClk { m.clk with dwelling := false }).ramp else m

/-- PLL_LOCKED: the loop locks: at step 5 of a power-up the timebase starts (R363); after a switch CCLK ramps up; after a coast
REFLOSS is cleared and the warm-reset exit runs (R417, R419). -/
def Mach.rowPllLocked (m : Mach) : Mach :=
  let c := m.clk
  if !c.locking then m else
  let m := m.setClk { c with locking := false }
  if c.stage < 5 then
    let m := m.setClk { m.clk with stage := 5 }
    { m with time := { m.time with running := true } }
  else if m.reg 0x2000 0x0A 0 = 1 then
    let m := (m.setReg 0x2000 0x0A 0 0).notice 0x8121 (0 :: leBytes 8 m.now)
    ((m.setReg 0x2001 3 0 0).setReg 0x2200 3 0 2)
  else
    let back := m.reg 0x2000 1 0
    if m.reg 0x2000 2 0 = 1 ∧ m.refState back = 2 ∧ m.activeRef ≠ back then m.startSwitch back else m.ramp

/-- DIVISOR_CEILING_WRITE (R415). -/
def Mach.rowDivisorCeilingWrite (m : Mach) (s : Src) (v : Nat) : Mach :=
  m.dictWrite s 0x2001 1 fun m =>
    if ! [4, 5, 6, 8].contains v then .error abRange
    else .ok (((m.setReg 0x2001 1 0 v).auditReq s.q 0x0035 [byteOf v]).ramp)

/-! ## Spread and the frequency counter (R420-R423) -/

/-- SPREAD_PERIOD_END: the depth in effect moves by at most 0.05% toward what is programmed, less what the active reference
declares; notice 0x8126 when a reference lowers it below the programmed depth. -/
def Mach.rowSpreadPeriodEnd (m : Mach) : Mach :=
  let own := m.reg 0x2002 1 0
  let ref' := if m.activeRef < 2 then m.reg 0x2000 (7 + m.activeRef) 0 else 0
  let goal := min own (50 - ref')
  let cur := m.reg 0x2002 3 0
  let nxt := if cur < goal then min goal (cur + 5) else max goal (cur - 5)
  let m := m.setReg 0x2002 3 0 nxt
  if nxt < cur ∧ nxt < own ∧ goal < own ∧ own ≤ cur then m.notice 0x8126 [byteOf own, byteOf nxt] else m

/-- Table 15-4: whether a code names a clock that the variant has. -/
def Mach.clockCode (m : Mach) (c : Nat) : Bool := decide (c < 8) || (decide (c < 16) && decide (c - 8 < m.dies))

/-- FREQUENCY_COUNT_START (R423). -/
def Mach.rowFrequencyCountStart (m : Mach) (s : Src) : Mach :=
  m.dictWrite s 0x2010 4 fun m => if m.reg 0x2010 5 0 = 1 then .error abBusy else .ok (m.setReg 0x2010 5 0 1)

/-- Table 15-4: the nominal frequency of a clock code as a fraction in Hz: a recovered lane clock is 112.45 GBd ÷ 1,024. -/
def Mach.nominalHz (m : Mach) (c : Nat) : Nat × Nat :=
  if c = 4 then (400000000, m.reg 0x2001 2 0) else if c < 8 then (100000000, 1) else (109814453, 1)

/-- FREQUENCY_GATE_END: the count and the frequency written. -/
def Mach.rowFrequencyGateEnd (m : Mach) (count : Nat) : Mach :=
  if m.reg 0x2010 5 0 ≠ 1 then m else
  let f := m.nominalHz (m.reg 0x2010 2 0)
  let hz := f.1 * count / (f.2 * m.reg 0x2010 3 0)
  ((m.setReg 0x2010 6 0 (count % 2 ^ 64)).setReg 0x2010 7 0 (hz % 2 ^ 64)).setReg 0x2010 5 0 2

/-- FREQUENCY_COUNT_TIMEOUT. -/
def Mach.rowFrequencyCountTimeout (m : Mach) : Mach := if m.reg 0x2010 5 0 = 1 then m.setReg 0x2010 5 0 3 else m

/-! ## RESET_IN_L, straps and supplies (18_electrical.md R491, R492, R499; 15_clocks_power.md R428, R430) -/

/-- RESET_IN_L_ASSERT: the line low for a pulse of ns. Below 100 ns it is ignored; up to 1 µs it may be, and a free value
decides (R491). A device that holds THERMTRIP_L goes on holding it (R440). -/
def Mach.rowResetInAssert (m : Mach) (ns : Nat) : Mach :=
  let go (m : Mach) : Mach :=
    let m := { m with elec := { m.elec with resetLow := true } }
    if m.clk.tripped then m else m.coldReset 1
  if ns < 100 then m
  else if 1000 ≤ ns then go m
  else
    let (r, m) := m.fresh 2
    if r = 1 then go m else m

/-- RESET_IN_L_RELEASE: the line rises: the straps are sampled and their checks begin. -/
def Mach.rowResetInRelease (m : Mach) (segid refqual : Nat) : Mach :=
  if !m.elec.resetLow then m
  else if m.clk.tripped then { m with elec := { m.elec with resetLow := false } }
  else
  let m := { m with elec := { m.elec with resetLow := false, segid := segid % 16, refqual := refqual % 8, strapCheck := true } }
  let m := if m.elec.suppliesOk then m.setClk { m.clk with stage := if m.refState 0 = 0 ∧ m.refState 1 = 0 then 2 else 3 } else m
  m.showStraps

/-- STRAP_CHECK_DONE: the reads with a pull-up and with a pull-down; a strap whose reads differ is open (R499). -/
def Mach.rowStrapCheckDone (m : Mach) (up down : Nat) : Mach :=
  if !m.elec.strapCheck then m else
  let m := { m with elec := { m.elec with strapCheck := false } }
  m.setReg 0x2230 3 0 (Nat.xor (up % 128) (down % 128))

/-- SUPPLIES_IN_RANGE: both supplies come into range: step 1 of Table 15-8. -/
def Mach.rowSuppliesInRange (m : Mach) : Mach :=
  if m.elec.suppliesOk then m else
  let m := { m with elec := { m.elec with suppliesOk := true, vauxOk := true, vinLow := false } }
  if m.clk.stage = 0 then m.setClk { m.clk with stage := if m.elec.resetLow then 1 else 2 } else m

/-- R430: every clock stopped and every domain but ALWAYS off: what the package held outside flash and fuses is gone. -/
def Mach.stopClocks (m : Mach) : Mach :=
  let m := { m with time := { m.time with running := false } }
  (List.range m.dies).foldl (fun m d => [0, 1, 2, 3, 4, 5, 6].foldl (fun m k =>
    if m.domain d k = 0 then m else m.setReg 0x2220 3 (domainRow d k) 3) m) m

/-- VIN_UNDERVOLTAGE: 12 V below 10.8 V for 5 µs. -/
def Mach.rowVinUndervoltage (m : Mach) : Mach :=
  if m.elec.vinLow ∨ !m.elec.suppliesOk then m
  else ({ m with elec := { m.elec with vinLow := true } } : Mach).stopClocks

/-- VIN_RETURN_EXPIRY: 12 V back in range for 10 ms: a cold reset with cause 6. A device that holds THERMTRIP_L stays down
until 3.3 V is removed (R440). -/
def Mach.rowVinReturn (m : Mach) : Mach :=
  if !m.elec.vinLow then m else
  let m := { m with elec := { m.elec with vinLow := false } }
  if m.clk.tripped then m else m.coldReset 6

/-- VAUX_UNDERVOLTAGE: the ALWAYS domain stops; the next rise of the supplies is a power-up. -/
def Mach.rowVauxUndervoltage (m : Mach) : Mach :=
  if !m.elec.vauxOk then m
  else ({ m with elec := { m.elec with vauxOk := false, suppliesOk := false, vinLow := false, resetLow := true } } : Mach).coldReset 0

/-! ## Power-up (R428, Table 15-8) -/

/-- The domains of a list brought up on every die that is not fenced. -/
def Mach.domainsOn (m : Mach) (doms : List Nat) : Mach :=
  (List.range m.dies).foldl (fun m d => if m.dieState d = 3 then m else
    doms.foldl (fun m k => if m.domain d k = 3 then m.setDomain d k 1 else m) m) m

/-- A port that its entry enables begins at DETECT; one that is not is DISABLED, and one without a link off. -/
def Mach.bringPort (m : Mach) (p : Nat) : Mach :=
  if m.offPort p then m.setReg 0x4011 1 p 0
  else if m.portEnabled p ∧ m.dieActive p ∧ m.domain p 5 = 1 then m.setPState p 2
  else m.setReg 0x4011 1 p 1

/-- Every port brought up by its entry. -/
def Mach.bringPorts (m : Mach) : Mach := (List.range m.dies).foldl Mach.bringPort m

/-- 16_security.md R444: the trial of the image that runs ends: the boot record rewritten with TRIAL 0 and that slot
preferred. -/
def Mach.endTrial (m : Mach) : Mach :=
  match m.sec.flash.boot with
  | none => m
  | some b =>
    let run := m.reg 0x6010 1 0
    if !b.trial then m
    else { m with sec := { m.sec with flash := { m.sec.flash with boot := some { b with trial := false, tries := 0, preferred := run } } } }

/-- Step 11: device ready: ports enabled, the trial over, the claim window open while UNOWNED (16_security.md R452). -/
def Mach.deviceReady (m : Mach) : Mach :=
  let m := (m.setReg 0x2200 3 0 1).endTrial.bringPorts
  { m with sec := { m.sec with claimable := m.reg 0x6002 2 0 == 0 } }

/-- POWER_UP_STAGE_DONE: the step after the last one of Table 15-8 ends. Step 7 needs an image that runs, step 10 CCLK at the
divisor in force. -/
def Mach.rowPowerUpStageDone (m : Mach) : Mach :=
  let c := m.clk
  let next (m : Mach) : Mach := m.setClk { m.clk with stage := c.stage + 1 }
  if !m.clocked then m else
  match c.stage with
  | 5 =>
    let m := next m
    let opens := m.reg 0x2230 3 0
    if opens = 0 then m else m.notice 0x8150 [byteOf opens]
  | 6 => if c.booted then next m else m
  | 7 => (next m).domainsOn [0, 1, 5, 6]
  | 8 => ((next m).domainsOn [2, 3, 4]).ramp
  | 9 => if !c.dwelling ∧ m.reg 0x2001 2 0 = m.divisorInForce then next m else m
  | 10 => (next m).deviceReady
  | _ => m

/-! ## Warm and cold resets, shutdown (R424-R426, R429) -/

/-- The Ridgeline ports drain (R159). -/
def Mach.drainPorts (m : Mach) : Mach :=
  (List.range m.dies).foldl (fun m p => if m.pState p = 0 ∨ m.pState p = 1 then m else m.drainPort p 1) m

/-- WARM_RESET_REQUEST. -/
def Mach.rowWarmResetRequest (m : Mach) (s : Src) : Mach :=
  m.dictWrite s 0x2200 1 fun m =>
    if !m.ready then .error abBusy else .ok ((m.auditReq s.q 0x0035 [1]).drainPorts.beginWarm 2 3)

/-- COLD_RESET_REQUEST: the whole package is reset; the write is answered before. -/
def Mach.rowColdResetRequest (m : Mach) (s : Src) : Mach :=
  let go := (m.gate s.q 0x2200 1).isNone && (m.kept? s.q s.txn).isNone && m.ready
  let m := m.dictWrite s 0x2200 1 fun m => if !m.ready then .error abBusy else .ok (m.auditReq s.q 0x0035 [2])
  if go then m.coldReset 2 else m

/-- SHUTDOWN_REQUEST (R429): NODE_LEAVE with reason 3, ports drained and disabled, then the entry of a warm reset. -/
def Mach.rowShutdownRequest (m : Mach) (s : Src) : Mach :=
  m.dictWrite s 0x2200 1 fun m =>
    if !m.ready then .error abBusy else
    let m := (m.auditReq s.q 0x0035 [3]).sendFault 1 0 0 3
    let m := (List.range m.dies).foldl Mach.disablePort m
    .ok (m.beginWarm 4 m.clk.cause)

/-- WARM_RESET_ENTRY_DONE: steps 3 to 6 of Table 15-7 have run. A shutdown then writes the audit log and powers every domain
but ALWAYS off: OFF_READY. -/
def Mach.rowWarmResetEntryDone (m : Mach) : Mach :=
  let st := m.reg 0x2200 3 0
  if (st ≠ 2 ∧ st ≠ 3 ∧ st ≠ 4) ∨ m.clk.entered then m else
  let m := m.warmLoss
  if st = 4 then
    let m := { m with sec := { m.sec with auditUnwritten := [] } }
    let m := (List.range m.dies).foldl (fun m d => [0, 1, 2, 3, 4, 5, 6].foldl (fun m k =>
      if m.domain d k = 0 then m else m.setDomain d k 3) m) m
    m.setReg 0x2200 3 0 5
  else
    let m := m.setReg 0x2001 2 0 8
    if m.reg 0x2000 0x0A 0 = 1 then m else (m.setClk { m.clk with dwelling := false }).ramp

/-- R456: confidential mode does not outlive a warm reset: its keys are lost and the sealed region is scrubbed. -/
def Mach.warmConf (m : Mach) : Mach :=
  if m.confState = 0 then m else
  let m := m.scrubSealed.setConf 0
  { m with sec := { m.sec with bounceKey := [] } }

/-- WARM_RESET_EXIT_DONE: dies, media and CCLK are back: the device ready, notice 0x8125 with the cause. -/
def Mach.rowWarmResetExitDone (m : Mach) : Mach :=
  if m.reg 0x2200 3 0 ≠ 2 ∨ !m.clk.entered ∨ m.clk.locking then m
  else if m.clk.dwelling ∨ m.reg 0x2001 2 0 ≠ m.divisorInForce then m.ramp
  else
    let m := m.warmConf
    let m := (List.range m.dies).foldl (fun m d => [0, 1, 2, 3, 4, 5, 6].foldl (fun m k =>
      if m.domain d k = 2 ∨ m.domain d k = 4 then m.setDomain d k 1 else m) m) m
    let m := ((m.setReg 0x2200 3 0 1).setReg 0x2200 2 0 m.clk.cause).bumpBy 0x2200 4 0 1
    let m := (m.notice 0x8125 [byteOf m.clk.cause]).audit 0x0035 [byteOf m.clk.cause]
    m.bringPorts

/-! ## Engine reset (R427) -/

/-- The commands of an engine of a die: 0 Talus, 1 Cirque, 2 Couloir, 0x10 + c crag c. -/
def Mach.engineCmds (m : Mach) (die eng : Nat) : List Nat :=
  (m.sched.slots.filter fun (p : Nat × Cmd) =>
    slotDie p.1 == die && (if 16 ≤ eng then (m.cragsOf p.1).contains (cragKey die (eng - 16))
      else if eng = 2 then (m.chanOf p.1).isSome || engineOf (descOp p.2.desc) == some 2
      else engineOf (descOp p.2.desc) == some eng)).map Prod.fst

/-- A command of an engine ended, its buffered data discarded, its channel IDLE. -/
def Mach.engineEnd (m : Mach) (status slot : Nat) : Mach :=
  let m := match m.chanOf slot with
    | some k => m.chanEnd k (some status)
    | none => m
  let m := m.giveUp slot status
  let m := (m.cragsOf slot).foldl (fun m k => m.setCrag k { m.crag k with phase := .stopped, asyncs := [] }) m
  (m.couloirGone slot).dropBankReqs slot

/-- ENGINE_RESET: 1 written to 0x2201.03. -/
def Mach.rowEngineReset (m : Mach) (s : Src) : Mach :=
  m.dictWrite s 0x2201 3 fun m =>
    let die := m.sel s.q 0x2201 1
    let eng := m.reg 0x2201 2 0
    if m.domain die 1 ≠ 1 then .error abBusy else
    let m := (m.engineCmds die eng).foldl (fun m k => m.engineEnd stDomainDown k) m
    let m := if 16 ≤ eng then m.zeroScratch (cragKey die (eng - 16)) else m
    .ok ((m.setClk { m.clk with engReset := (m.clk.engReset.filter (· ≠ (die, eng))) ++ [(die, eng)] }).auditReq s.q 0x0035
      [byteOf die, byteOf eng])

/-- ENGINE_RESET_DONE: 2,048 CCLK have passed. -/
def Mach.rowEngineResetDone (m : Mach) (die eng : Nat) : Mach :=
  m.setClk { m.clk with engReset := m.clk.engReset.filter (· ≠ (die, eng)) }

end Sys2Proof.Machine
end

