-- ==== Sys2Proof/Machine/PowerRows.lean ====
section
/-! DEFINITION. Power domains, the power controller and thermal limits (15_clocks_power.md R431-R440). -/

namespace Sys2Proof.Machine

/-! ## Power domains (R431-R434) -/

/-- 0x2220.05: the transfers that a domain still has: for ENG the commands on the die's engines. -/
def Mach.engCmds (m : Mach) (die : Nat) : List Nat :=
  (m.sched.slots.filter fun (p : Nat × Cmd) => slotDie p.1 == die && !p.2.done && needsEng (descOp p.2.desc)).map Prod.fst

/-- R431: what bars a power-down of a domain. -/
def Mach.downBar (m : Mach) (die dom : Nat) : Option Nat :=
  let gone (s : Nat) : Bool := m.stackState s == 0 || m.stackState s == 3
  let busy (ok : Bool) : Option Nat := if ok then none else some abBusy
  match dom with
  | 0 => some abRange
  | 1 => none
  | 2 => busy (gone (2 * die) && gone (2 * die + 1))
  | 3 => busy (m.chanState (2 * die) == 0 || m.chanState (2 * die) == 5)
  | 4 => busy (m.chanState (2 * die + 1) == 0 || m.chanState (2 * die + 1) == 5)
  | 5 => busy (m.pState die == 0 || m.pState die == 1)
  | 6 => busy (m.reg 0x3400 5 die == 0)
  | _ => some abReadOnly

/-- A domain request: a domain that no request may reach, one that is not there, and one that is changing are refused
(R431, R434). "Read-only" comes before the role (14_cairn.md Table 14-10). -/
def Mach.domainRequest (m : Mach) (s : Src) (go : Nat → Nat → Mach → Except Nat Mach) : Mach :=
  let row := m.rowOf s.q 0x2220 4
  let die := row / 16
  let dom := row % 16
  if dom = 7 ∧ (m.gate s.q 0x2220 4 = some abRole ∨ m.gate s.q 0x2220 4 = some abLocked) ∧ (m.kept? s.q s.txn).isNone then
    (m.bump 0x7110 1).answerWrite s 0x2220 4 abReadOnly
  else m.dictWrite s 0x2220 4 fun m =>
    let st := m.domain die dom
    if dom = 7 then .error abReadOnly
    else if dom = 0 ∨ st = 0 then .error abRange
    else if st = 2 ∨ st = 4 then .error abBusy
    else (go die dom m).map fun m => m.auditReq s.q 0x0035 [byteOf die, byteOf dom]

/-- DOMAIN_POWER_DOWN_REQUEST: 0 written to 0x2220.04: the domain takes no new work. -/
def Mach.rowDomainPowerDownRequest (m : Mach) (s : Src) : Mach :=
  m.domainRequest s fun die dom m =>
    if m.domain die dom ≠ 1 then .ok m else
    match m.downBar die dom with
    | some a => .error a
    | none => .ok (m.setDomain die dom 2)

/-- DOMAIN_POWER_UP_REQUEST: 1 written to 0x2220.04. -/
def Mach.rowDomainPowerUpRequest (m : Mach) (s : Src) : Mach :=
  m.domainRequest s fun die dom m => .ok (if m.domain die dom = 3 then m.setDomain die dom 4 else m)

/-- The access that a channel makes next: its address, its direction and its offset in the element. -/
def Mach.nextAccess (m : Mach) (r : ChanRun) : Nat × Nat × Nat :=
  match (m.cmd? r.slot).bind fun c => r.xfer? c.desc with
  | none => (r.elemDva, 2, 0)
  | some x =>
    let b := x.beat r.beat
    if x.sScratch then (x.beatAt b, 1, x.offset b) else ((x.beatLines b).headD 0 * 64, 0, x.offset b)

/-- R433: a Couloir channel whose die's ENG goes down: it halts with its next access latched, a STOPPED one stays, and under
NOHALT its command ends. -/
def Mach.chanDomainDown (m : Mach) (k : Nat) : Mach :=
  match m.chan? k with
  | none => m
  | some r =>
    match m.cmd? r.slot with
    | none => m
    | some c =>
      if c.done ∨ m.channel k ≠ 1 then m
      else
        let (a, dir, off) := m.nextAccess r
        m.chanFailed k r c a dir stDomainDown off

/-- R433: the commands of a die's engines settled as ENG goes down: those of the crags, Talus and Cirque, MIGRATE and PUBLISH end
with DOMAINDOWN, channels halt, scratchpads will read as zeros. -/
def Mach.settleEng (m : Mach) (die : Nat) : Mach :=
  let slots := (m.engCmds die).filter fun k => ((m.cmd? k).map fun c => engineOf (descOp c.desc) != some 2).getD false
  let m := slots.foldl (fun m k => m.engineEnd stDomainDown k) m
  let m := (List.range 64).foldl (fun m c => m.chanDomainDown (chanKey die c)) m
  (List.range 40).foldl (fun m c =>
    let k := cragKey die c
    if (m.crag k).scratch = [] then m else m.zeroScratch k) m

/-- A domain's power-down ends: OFF, the work that still needed it settled. -/
def Mach.domainOff (m : Mach) (die dom : Nat) : Mach :=
  if m.domain die dom ≠ 2 then m else (if dom = 1 then m.settleEng die else m).setDomain die dom 3

/-- DOMAIN_TRANSFERS_DRAINED: the outstanding transfers reach 0. -/
def Mach.rowDomainTransfersDrained (m : Mach) (die dom : Nat) : Mach := m.domainOff die dom

/-- DOMAIN_DOWN_BOUND_EXPIRY: transfers still outstanding end with DOMAINDOWN, each counted. -/
def Mach.rowDomainDownBoundExpiry (m : Mach) (die dom : Nat) : Mach :=
  if m.domain die dom ≠ 2 then m
  else (m.bumpBy 0x7120 0x0A 0 (if dom = 1 then (m.engCmds die).length else 0)).domainOff die dom

/-- DOMAIN_UP_DONE. -/
def Mach.rowDomainUpDone (m : Mach) (die dom : Nat) : Mach :=
  if m.domain die dom = 4 then m.setDomain die dom 1 else m

/-! ## The power controller (R435-R440) -/

/-- Whether a level is one the ceiling lets the controller use. -/
def Mach.levelUsable (m : Mach) (l : Nat) : Bool := decide (m.reg 0x2001 1 0 ≤ (levelOf l).1)

/-- Array duty and the causes in force shown (0x2100.06, .07). -/
def Mach.showPower (m : Mach) (ended : Bool) : Mach :=
  let duty := (levelOf (m.reg 0x2100 5 0)).2.1
  let m := m.setReg 0x2100 6 0 (if m.clk.cut then min duty 8 else duty)
  m.setReg 0x2100 7 0 (b2n ended + 2 * b2n (m.clk.hotDie || m.clk.hotStack) + 4 * b2n m.clk.cut + 8 * b2n (decide (4 < m.reg 0x2001 1 0)))

/-- The controller at a level; a change of divisor starts a ramp. -/
def Mach.setLevel (m : Mach) (l : Nat) : Mach := (m.setReg 0x2100 5 0 l).ramp

/-- One level down, levels that the ceiling rules out skipped; counted. -/
def Mach.levelDown (m : Mach) : Mach :=
  let l := m.reg 0x2100 5 0
  match (List.range 11).find? fun k => decide (l < k) && m.levelUsable k with
  | some k => (m.bump 0x7120 5).setLevel k
  | none => m

/-- One level up. -/
def Mach.levelUp (m : Mach) : Mach :=
  let l := m.reg 0x2100 5 0
  match ((List.range 11).filter fun k => decide (k < l) && m.levelUsable k).getLast? with
  | some k => m.setLevel k
  | none => m

/-- The hottest die and the hottest stack in 0.1 °C. -/
def Mach.hottest (m : Mach) : Int × Int := (toSigned 32 (m.reg 0x2100 0x0B 0), toSigned 32 (m.reg 0x2100 0x0C 0))

/-- Whether every source is so many 0.1 °C below its throttle level. -/
def Mach.coolBy (m : Mach) (d : Int) : Bool :=
  decide (m.hottest.1 + d ≤ ((10 * m.reg 0x2100 8 0 : Nat) : Int)) && decide (m.hottest.2 + d ≤ ((10 * m.reg 0x2100 0x0D 0 : Nat) : Int))

/-- Whether a ramp or a reference switch is in progress. -/
def Mach.ramping (m : Mach) : Bool := m.reg 0x2001 3 0 != 0

/-- R437: a cap that level 10 does not hold for 100 ms: notice 0x8122, ALERT_L, counted. -/
def Mach.capCheck (m : Mach) (watts : Nat) : Mach :=
  let cap := m.reg 0x2100 1 0
  let m := if watts < cap then m.setClk { m.clk with capAlert := false } else m
  if watts ≤ cap ∨ m.reg 0x2100 5 0 ≠ 10 then m.setClk { m.clk with overSince := none }
  else
    let since := m.clk.overSince.getD m.now
    let m := m.setClk { m.clk with overSince := some since }
    if since + 100 * ticksPerMs ≤ m.now ∧ !m.clk.capAlert then
      ((m.setClk { m.clk with capAlert := true }).bump 0x7120 6).notice 0x8122 (leBytes 2 cap ++ leBytes 4 watts)
    else m

/-- POWER_EVALUATION: the mean power in W and the 12 V current in mA of the last window, with the supplies' latest 1 ms means in
mV, mV and mA (0x2232); the controller moves a level. -/
def Mach.rowPowerEvaluation (m : Mach) (watts mA vin vaux vauxMa : Nat) : Mach :=
  let m := ((m.setReg 0x2232 1 0 (vin % 65536)).setReg 0x2232 2 0 (vaux % 65536)).setReg 0x2232 3 0 (vauxMa % 65536)
  let m := (m.setReg 0x2100 3 0 watts).setReg 0x2100 4 0 mA
  let cap := m.reg 0x2100 1 0
  let ended := decide (cap < watts)
  let c := m.clk
  let cool := decide (watts * 100 < 98 * cap) && m.coolBy 20
  let below := if cool then c.below + 1 else 0
  let m := m.setClk { c with below := below }
  let m :=
    if m.ramping then m
    else if ended ∨ c.hotDie ∨ c.hotStack then m.levelDown
    else if 5 ≤ below ∧ !c.critical then (m.setClk { m.clk with below := 0 }).levelUp
    else m
  (m.capCheck watts).showPower ended

/-- CURRENT_CUT: 12 V current above the limit for 20 µs: array duty 8/16 for 1 ms. -/
def Mach.rowCurrentCut (m : Mach) : Mach :=
  if m.clk.cut then m
  else ((m.setClk { m.clk with cut := true }).bump 0x7120 9).showPower (bit (m.reg 0x2100 7 0) 0)

/-- CURRENT_CUT_END. -/
def Mach.rowCurrentCutEnd (m : Mach) : Mach :=
  if m.clk.cut then (m.setClk { m.clk with cut := false }).showPower (bit (m.reg 0x2100 7 0) 0) else m

/-- R440: the trip: THERMTRIP_L, FAULT NODE_LEAVE with reason 2 sent, a trip record in flash, every clock stopped. -/
def Mach.trip (m : Mach) : Mach :=
  let m := m.sendFault 1 0 0 2
  let m := (List.range m.dies).foldl (fun m p => m.rowFrameTransmitStart p) m
  let m := { m with sec := { m.sec with flash := { m.sec.flash with trip := true } } }
  (m.setClk { m.clk with tripped := true }).stopClocks

/-- The largest of a list of readings. -/
def maxInt : List Int → Int
  | [] => 0
  | a :: t => t.foldl max a

/-- THERMAL_SAMPLE: the eight sensors of a die, or a stack's own temperature, in 0.1 °C; the limits act (R439, R440). -/
def Mach.rowThermalSample (m : Mach) (stack : Bool) (n : Nat) (readings : List Int) : Mach :=
  let t := maxInt readings
  if (if stack then decide (2 * m.dies ≤ n) else decide (m.dies ≤ n)) || readings.isEmpty then m else
  let m := if stack then m.setReg 0x2101 (3 + n % 2) (n / 2) (ofSigned 32 t) else m.setReg 0x2101 2 n (ofSigned 32 t)
  let die := maxInt ((List.range m.dies).map fun d => toSigned 32 (m.reg 0x2101 2 d))
  let st := maxInt ((List.range (2 * m.dies)).map fun s => toSigned 32 (m.reg 0x2101 (3 + s % 2) (s / 2)))
  let m := (m.setReg 0x2100 0x0B 0 (ofSigned 32 die)).setReg 0x2100 0x0C 0 (ofSigned 32 st)
  let throttle : Int := ((10 * m.reg 0x2100 (if stack then 0x0D else 8) 0 : Nat) : Int)
  let crit : Int := if stack then 950 else 1050
  let tripAt : Int := if stack then 1050 else 1150
  if tripAt ≤ t then m.trip else
  let hot := decide (throttle < (if stack then st else die))
  let was := if stack then m.clk.hotStack else m.clk.hotDie
  let m := m.setClk (if stack then { m.clk with hotStack := hot } else { m.clk with hotDie := hot })
  let m := if hot && !was then m.bump 0x7120 7 else m
  let m := if crit ≤ t ∧ !m.clk.critical then
      let m := (m.setClk { m.clk with critical := true }).bump 0x7120 8
      let m := m.notice 0x8123 ([byteOf (b2n stack), byteOf n] ++ leBytes 4 (ofSigned 32 t))
      if m.reg 0x2100 5 0 = 10 then m else (m.bump 0x7120 5).setLevel 10
    else m
  let m := if m.clk.critical && m.coolBy 1 then m.setClk { m.clk with critical := false } else m
  m.showPower (bit (m.reg 0x2100 7 0) 0)

/-- R440: whether ALERT_L is low: REFLOSS, a cap not held, a critical temperature, OFF_READY, or no valid image (16_security.md
R444). -/
def Mach.alertLow (m : Mach) : Bool :=
  m.reg 0x2000 0x0A 0 == 1 || m.clk.capAlert || decide (1050 ≤ m.hottest.1) || decide (950 ≤ m.hottest.2) || m.reg 0x2200 3 0 == 5 ||
  m.clk.noImage

/-- R440: whether THERMTRIP_L is low. -/
def Mach.thermtripLow (m : Mach) : Bool := m.clk.tripped

end Sys2Proof.Machine
end

