-- ==== Sys2Proof/Machine/SecRows.lean ====
section
/-! DEFINITION. Boot, updates, confidential mode, weights bound to a device, the audit log's flash (16_security.md R442-R470). -/

namespace Sys2Proof.Machine

/-! ## Images and boot (R442-R444) -/

/-- An image slot read from its bytes (Table 16-2). -/
def imageOf (bs : List Byte) : Image :=
  let n := fld bs 12 4
  let body := slice bs 4096 n
  let key := slice bs 64 96
  { magic := slice bs 0 4 == [0x4B, 0x5A, 0x46, 0x57] && fld bs 4 1 == 1
    keySlot := fld bs 5 1
    version := fld bs 6 2
    release := fld bs 8 2 * 65536 + fld bs 10 2
    signed := n % 4096 == 0 && decide (4096 + n ≤ bs.length) && Config.sha384 key == Config.keyHash (fld bs 5 1) &&
      Config.sha384 body == slice bs 16 48 && Config.ecdsaVerify key (Config.sha384 (slice bs 0 160)) (slice bs 160 96)
    measured := slice bs 0 256 ++ body }

/-- R443: whether an image slot is valid. -/
def Mach.imageValid (m : Mach) (i : Option Image) : Bool :=
  i.any fun i => i.magic && decide (i.keySlot < 4) && m.reg 0x6012 (1 + i.keySlot) 0 == 0 && i.signed &&
    decide (m.reg 0x6011 1 0 ≤ i.version)

/-- The image of slot A (0) or B (1). -/
def Flash.slot (f : Flash) (k : Nat) : Option Image := if k = 0 then f.slotA else f.slotB

/-- An image slot replaced. -/
def Flash.setSlot (f : Flash) (k : Nat) (i : Option Image) : Flash := if k = 0 then { f with slotA := i } else { f with slotB := i }

/-- The flash changed. -/
def Mach.setFlash (m : Mach) (f : Flash) : Mach := { m with sec := { m.sec with flash := f } }

/-- The boot record in use: with no good copy, slot A without a trial (R442). -/
def Flash.record (f : Flash) : BootRecord :=
  f.boot.getD { preferred := 0, trial := false, tries := 0, update := 0, bootsA := 0, bootsB := 0 }

/-- R444's choice: the slot, and how many slots were checked and found not valid. -/
def Mach.chooseSlot (m : Mach) : Option Nat × Nat :=
  let f := m.sec.flash
  let r := f.record
  let p := if r.trial ∧ 3 ≤ r.tries then 1 - r.preferred else r.preferred
  if m.imageValid (f.slot p) then (some p, 0)
  else if m.imageValid (f.slot (1 - p)) then (some (1 - p), 1)
  else (none, 2)

/-- R455: neither copy of the tally record qualifies: every value at its most restrictive setting. Which tally and which cause
code notice 0x8136 then carries is not stated. -/
def Mach.tallyRejected (m : Mach) : Mach :=
  let m := (((m.setReg 0x6001 1 0 1).setReg 0x6001 2 0 0).setReg 0x6001 3 0 1).setReg 0x6001 4 0 1
  let m := (List.range 8).foldl (fun m k => m.setReg 0x6000 3 k 0) m
  let m := [1, 2, 3, 4].foldl (fun m k => m.setOct 0x6030 k 0 (zeros 48)) m
  let (t, m) := m.fresh 256
  let (c, m) := m.fresh 256
  (m.notice 0x8136 [byteOf t, byteOf c]).audit 0x0011 []

/-- Whether dies 0 and 1 are both ACTIVE, so that a standby controller runs. -/
def Mach.hasStandby (m : Mach) : Bool := m.dieActive 0 && m.dieActive 1

/-- The slot started: its boot counted, the tries of a trial counted, the record written, the image running. -/
def Mach.startImage (m : Mach) (k : Nat) : Mach :=
  let f := m.sec.flash
  let r := f.record
  let up (n : Nat) : Nat := min 0xFFFFFFFF (n + 1)
  let r' := { r with
    bootsA := if k = 0 then up r.bootsA else r.bootsA
    bootsB := if k = 0 then r.bootsB else up r.bootsB
    tries := if r.trial then min 255 (r.tries + 1) else r.tries }
  let m := m.setFlash { f with boot := some r' }
  let m := (m.setReg 0x7130 1 0 r'.bootsA).setReg 0x7130 2 0 r'.bootsB
  let m := ((m.setReg 0x6010 1 0 k).setReg 0x6010 2 0 (((f.slot k).map (·.release)).getD 0)).setReg 0x6010 6 0
    (if m.hasStandby then 1 else 0)
  let last := (m.sec.auditNext + 2 ^ 64 - 1) % 2 ^ 64
  let m := (m.setClk { m.clk with booted := true, noImage := false }).audit 0x0001
    ([byteOf k, byteOf (m.reg 0x2200 2 0)] ++ leBytes 8 last)
  if k = r.preferred then m
  else
    let (why, m) := m.fresh 256
    m.notice 0x8130 [byteOf k, byteOf why]

/-- BOOT_CHOOSE: at step 7 of Table 15-8 the boot ROM of die 0 chooses a slot and starts it; `recordOk` is whether the tag
of a copy of the tally record verifies; its counts must equal the fused ones too (R455). -/
def Mach.rowBootChoose (m : Mach) (recordOk : Bool) : Mach :=
  if m.clk.stage ≠ 6 ∨ m.clk.booted then m else
  let (c, bad) := m.chooseSlot
  let m := m.bumpBy 0x7130 3 0 bad
  match c with
  | none => m.setClk { m.clk with noImage := true }
  | some k =>
    let counts := m.sec.flash.recorded = m.sec.flash.burnt
    (if recordOk ∧ counts then m else m.tallyRejected).startImage k

/-- BOOT_RETRY_EXPIRY: 10 s with no image: the whole choice is tried again. -/
def Mach.rowBootRetryExpiry (m : Mach) (recordOk : Bool) : Mach := if m.clk.noImage then m.rowBootChoose recordOk else m

/-! ## Updates (R446, R447) -/

/-- The slot that is not running. -/
def Mach.otherSlot (m : Mach) : Nat := 1 - m.reg 0x6010 1 0

/-- IMAGE_UPLOAD: a segment of 0x6010.03 written into the slot that is not running, which is an image again once the last
one is there. -/
def Mach.rowImageUpload (m : Mach) (q : Requester) (r : Request) : Mach :=
  if r.op ≠ 4 ∨ r.index ≠ 0x6010 ∨ r.sub ≠ 3 then m else
  m.serveSegment q r
    (fun m => if [2, 3, 4].contains (m.reg 0x6010 5 0) then some abBusy else none)
    (fun _ m => (m.setFlash (m.sec.flash.setSlot m.otherSlot none)).setReg 0x6010 5 0 1)
    (fun bs m =>
      if 24 * 2 ^ 20 < bs.length then .error abRange
      else .ok (m.setFlash (m.sec.flash.setSlot m.otherSlot (some (imageOf bs)))))

/-- The boot record with a slot preferred, in trial or not, under the next update number. -/
def Mach.prefer (m : Mach) (k : Nat) (trial : Bool) : Mach :=
  let f := m.sec.flash
  m.setFlash { f with boot := some { f.record with preferred := k, trial := trial, tries := 0, update := (f.record.update + 1) % 2 ^ 32 } }

/-- Notice 0x8131: the update state and the release of a slot. -/
def Mach.updateNotice (m : Mach) (k : Nat) : Mach :=
  m.notice 0x8131 ([byteOf (m.reg 0x6010 5 0)] ++ leBytes 4 (((m.sec.flash.slot k).map (·.release)).getD 0))

/-- An activation of the slot that is not running (R446). -/
def Mach.activate (m : Mach) (s : Src) (live : Bool) : Mach :=
  m.dictWrite s 0x6010 4 fun m =>
    let k := m.otherSlot
    if !m.imageValid (m.sec.flash.slot k) then .error abRange
    else if [2, 3, 4].contains (m.reg 0x6010 5 0) ∨ (live ∧ !m.hasStandby) then .error abBusy
    else
      let m := (m.prefer k true).setReg 0x6010 5 0 (if live then 3 else 4)
      let m := if live then m.setReg 0x6010 6 0 2 else m
      .ok (m.auditReq s.q 0x0002 [byteOf (if live then 1 else 2), byteOf k])

/-- ACTIVATE_LIVE. -/
def Mach.rowActivateLive (m : Mach) (s : Src) : Mach := m.activate s true

/-- ACTIVATE_AT_COLD_RESET. -/
def Mach.rowActivateAtColdReset (m : Mach) (s : Src) : Mach := m.activate s false

/-- HANDOVER_DONE: the standby becomes active, the former active reloads, TRIAL is cleared. -/
def Mach.rowHandoverDone (m : Mach) : Mach :=
  if m.reg 0x6010 5 0 ≠ 3 ∨ !m.hasStandby then m else
  let k := m.otherSlot
  let m := m.setFlash { m.sec.flash with boot := m.sec.flash.boot.map fun b => { b with trial := false } }
  let m := (((m.setReg 0x6010 1 0 k).setReg 0x6010 2 0 (((m.sec.flash.slot k).map (·.release)).getD 0)).setReg 0x6010 5 0 0).setReg 0x6010 6 0 1
  (m.updateNotice k).audit 0x0002 [3, byteOf k]

/-- HANDOVER_TIMEOUT: 5 s without a takeover: the old slot preferred again, FAILED. -/
def Mach.rowHandoverTimeout (m : Mach) : Mach :=
  if m.reg 0x6010 5 0 ≠ 3 then m else
  let k := m.otherSlot
  let m := ((m.prefer (1 - k) false).setReg 0x6010 5 0 5).setReg 0x6010 6 0 (if m.hasStandby then 1 else 0)
  (m.updateNotice k).audit 0x0002 [5, byteOf k]

/-- CLAIM_WINDOW_EXPIRY: 600 s after step 11 without a claim (R452). -/
def Mach.rowClaimWindowExpiry (m : Mach) : Mach := { m with sec := { m.sec with claimable := false } }

/-! ## Confidential mode (R456-R463) -/

/-- R457: whether the bounce region is aligned, long enough and within one HRT range of the tenant. -/
def Mach.bounceOk (m : Mach) : Bool :=
  let b := m.reg 0x6020 2 0
  let n := m.reg 0x6020 3 0
  b % 2 ^ 21 == 0 && decide (2 ^ 21 ≤ n) && (List.range 64).any fun r =>
    bit (m.reg 0x3410 5 r) 0 && m.reg 0x3410 2 r == m.tenant && decide (m.reg 0x3410 3 r ≤ b) &&
    decide (b + n ≤ m.reg 0x3410 3 r + m.reg 0x3410 4 r)

/-- R457: whether the tenant has a bound path, and every one an active CXL.cachemem stream. -/
def Mach.tenantPathsOk (m : Mach) : Bool :=
  let ps := m.paths m.tenant
  !ps.isEmpty && ps.all fun p => (m.ld? (p / 16) (p % 16)).any (·.ideMem)

/-- CONFIDENTIAL_ENTER. -/
def Mach.rowConfidentialEnter (m : Mach) (s : Src) : Mach :=
  m.dictWrite s 0x6020 5 fun m =>
    if m.reg 0x6001 2 0 = 0 then .error abLocked
    else if m.reg 0x3430 5 m.tenant ≠ 1 ∨ !m.bounceOk then .error abRange
    else if !m.tenantPathsOk ∨ m.confState ≠ 0 then .error abBusy
    else .ok (m.setConf 1)

/-- CONFIDENTIAL_EXIT: by a Custodian, or by the tenant with Operator in band. -/
def Mach.rowConfidentialExit (m : Mach) (s : Src) : Mach :=
  m.dictWrite s 0x6020 6 fun m => if m.confState = 2 then .ok (m.setConf 3) else .error abBusy

/-- The commands that an entry, or an exit, waits for: other owners', or the tenant's. -/
def Mach.confWaits (m : Mach) : List Nat :=
  (m.sched.slots.filter fun (p : Nat × Cmd) =>
    if m.confState = 1 then m.qOwner p.2.queue != m.tenant
    else m.confState == 3 && m.qOwner p.2.queue == m.tenant).map Prod.fst

/-- CONFIDENTIAL_ENTRY_BOUND_EXPIRY: the entry bound of an entry or an exit: commands still in flight end with TENANT_BUSY, those
that STOPPED or HALTED channels hold among them. -/
def Mach.rowConfidentialEntryBoundExpiry (m : Mach) : Mach :=
  m.confWaits.foldl (fun m k => m.engineEnd stTenantBusy k) m

/-- R483: the trace ends: STOPPED, notice 0x8141 with the state, the records written and the trigger position. -/
def Mach.stopTrace (m : Mach) : Mach :=
  let m := m.setReg 0x9000 8 0 3
  m.notice 0x8141 ([3] ++ leBytes 8 (m.reg 0x9000 9 0) ++ leBytes 8 (m.reg 0x9000 0x0C 0))

/-- Step 3 of Table 16-7: scratchpads zeroed, prefetch sets freed, structure caches dropped, the trace stopped. -/
def Mach.clearEngines (m : Mach) : Mach :=
  let m := (tkeys m.eng.crag.crags).foldl (fun m k => m.setCrag k (m.crag k).zeroed) m
  let m := (m.freeSets fun _ => true).dropStructs fun _ => true
  if m.tracing then m.stopTrace else m

/-- CONFIDENTIAL_ENTRY_DONE: once no other owner's command is in flight: engines cleared, the sealed region scrubbed, the keys
made; `key` is what HKDF-SHA-384 gives of the tenant's session (R459). -/
def Mach.rowConfidentialEntryDone (m : Mach) (key : List Byte) : Mach :=
  if m.confState ≠ 1 ∨ !m.confWaits.isEmpty then m else
  let m := m.clearEngines.scrubSealed
  let m := (m.setReg 0x6020 9 0 0).setReg 0x6020 0x0A 0 0
  ({ m with sec := { m.sec with bounceKey := slice key 0 32 } } : Mach).setConf 2

/-- CONFIDENTIAL_EXIT_DONE: once no command of the tenant's is in flight: engines cleared, the sealed region scrubbed, the keys
destroyed, OFF. -/
def Mach.rowConfidentialExitDone (m : Mach) : Mach :=
  if m.confState ≠ 3 ∨ !m.confWaits.isEmpty then m else
  let m := m.clearEngines.scrubSealed
  ({ m with sec := { m.sec with bounceKey := [] } } : Mach).setConf 0

/-- PATH_LOSS_EXIT_EXPIRY: the tenant without a bound path for 0x6020.08, 0 being never. -/
def Mach.rowPathLossExitExpiry (m : Mach) : Mach :=
  if m.confState = 2 ∧ (m.paths m.tenant).isEmpty ∧ m.reg 0x6020 8 0 ≠ 0 then m.setConf 3 else m

/-! ## Bound weights (R464-R466) -/

/-- The owner that a binding has by its writer: an in-band writer's identity, 0xFF for a session. -/
def Mach.bindOwner (m : Mach) (q : Requester) : Nat := (m.identOf q).getD 0xFF

/-- WEIGHT_BIND: the region registered at once, its package still to be checked. -/
def Mach.rowWeightBind (m : Mach) (s : Src) : Mach :=
  m.dictWrite s 0x6031 6 fun m =>
    let k := m.sel s.q 0x6031 1
    let pkg := m.reg 0x6031 2 k
    let plen := m.reg 0x6031 3 k
    let base := m.reg 0x6031 4 k
    let len := m.reg 0x6031 5 k
    let who := m.bindOwner s.q
    let clash := m.sec.bound.any fun (p : Nat × BoundRegion) => p.1 != k && overlaps p.2.base p.2.len base len
    if base % 2 ^ 21 ≠ 0 ∨ len % 2 ^ 21 ≠ 0 ∨ len = 0 ∨ clash ∨ !m.inGrant who pkg plen ∨ !m.inGrant who base len then .error abRange
    else if (tget m.sec.bound k).isSome then .error abBusy
    else
      let m := { m with sec := { m.sec with bound := tput m.sec.bound k { base := base, len := len, key := [] } } }
      .ok (((m.setReg 0x6031 7 k 0).setReg 0x6031 8 k 0).setReg 0x6031 9 k who)

/-- WEIGHT_UNBIND: the key destroyed, the slot freed. -/
def Mach.rowWeightUnbind (m : Mach) (s : Src) : Mach :=
  m.dictWrite s 0x6031 6 fun m =>
    let k := m.sel s.q 0x6031 1
    let m := { m with sec := { m.sec with bound := tdel m.sec.bound k } }
    let m := ((m.setReg 0x6031 7 k 0).setReg 0x6031 8 k 0).setReg 0x6031 9 k 0xFF
    .ok (m.auditReq s.q 0x0021 [byteOf k, 0, 0])

/-- The device's identity (R448): SHA-384 of its DeviceID public key. -/
def Mach.identity (m : Mach) : List Byte := Config.sha384 (Config.deviceKey m.sec.generation)

/-- R465: what a package comes to: its content key, or the reason it is refused. -/
def Mach.checkPackage (m : Mach) (p : List Byte) : Except Nat (List Byte) :=
  let n := fld p 4 4
  let key := slice p 16 96
  let form := fld p 0 1 == 1 && fld p 1 3 == 0 && decide (1 ≤ n) && decide (n ≤ 512) && allZero (slice p 208 48) &&
    p.length == 352 + 128 * n && (List.range n).all fun i => allZero (slice p (256 + 128 * i + 120) 8)
  if !form then .error 1
  else if ! [1, 2, 3, 4].any (fun k => m.oct 0x6030 k 0 == Config.sha384 key && !allZero (m.oct 0x6030 k 0)) then .error 2
  else if !Config.ecdsaVerify key (Config.sha384 (p.take (256 + 128 * n))) (slice p (256 + 128 * n) 96) then .error 3
  else match (List.range n).find? fun i => slice p (256 + 128 * i) 48 == m.identity with
    | none => .error 4
    | some i => match Config.unwrapKey (slice p 112 96) m.identity (slice p (256 + 128 * i + 48) 72) with
      | none => .error 5
      | some k => .ok k

/-- BINDING_DECISION: the check of a registered slot's package ends. The reason for a package that cannot be read is not stated. -/
def Mach.rowBindingDecision (m : Mach) (slot : Nat) : Mach :=
  match tget m.sec.bound slot with
  | none => m
  | some b =>
    let pkg := m.reg 0x6031 2 slot
    let n := m.reg 0x6031 3 slot
    if m.reg 0x6031 7 slot ≠ 0 then m else
    match m.recall pkg n false with
    | some m => m
    | none =>
      let (got, m) := m.loadDpa 0 pkg n
      let (r, m) := match got with
        | .ok bs => (m.checkPackage bs, m)
        | .failed _ => let (x, m) := m.fresh 5; (.error (x + 1), m)
      let (st, why, m) := match r with
        | .ok key => (1, 0, { m with sec := { m.sec with bound := tput m.sec.bound slot { b with key := key } } })
        | .error why => (2, why, m.bump 0x7130 7)
      let m := (m.setReg 0x6031 7 slot st).setReg 0x6031 8 slot why
      (m.notice 0x8134 [byteOf slot, byteOf st, byteOf why]).audit 0x0021 [byteOf slot, byteOf st, byteOf why]

/-! ## The audit log's flash (R468) -/

/-- AUDIT_FLASH_WRITE_DONE: the write of the oldest entry still to be written ends: done, or retried once in the next sector, or
reported. -/
def Mach.rowAuditFlashWriteDone (m : Mach) (ok : Bool) : Mach :=
  match m.sec.auditUnwritten with
  | [] => m
  | n :: rest =>
    if ok then { m with sec := { m.sec with auditUnwritten := rest, auditRetried := false } }
    else if !m.sec.auditRetried then { m with sec := { m.sec with auditRetried := true } }
    else
      let m := { m with sec := { m.sec with auditUnwritten := rest, auditLost := m.sec.auditLost ++ [n], auditRetried := false } }
      (m.bump 0x7130 0x0A).notice 0x8137 (leBytes 8 n)

end Sys2Proof.Machine
end

