-- ==== Sys2Proof/Machine/TeleRows.lean ====
section
/-! DEFINITION. Counters, spans, margins, modules, trace, TAP and scratchpad access (17_telemetry.md R471-R488; 13_acting_as_one.md
R379-R382) and the sideband lines (18_electrical.md R501). -/

namespace Sys2Proof.Machine

/-- Telemetry changed. -/
def Mach.setTele (m : Mach) (t : Telemetry) : Mach := { m with tele := t }

/-- An audit entry of an event to which Table 16-11 gives no code: its code is left open. -/
def Mach.auditUncoded (m : Mach) (q : Requester) (detail : List Byte) : Mach :=
  let (code, m) := m.fresh 65536
  m.auditReq q code detail

/-! ## Counters (R471-R473) -/

/-- SNAPSHOT: the counters captured into the requester's bank. -/
def Mach.rowSnapshot (m : Mach) (s : Src) : Mach :=
  m.dictWrite s 0x7000 1 fun m =>
    let bank := m.cairn.regs.filter fun (x : Nat × Nat) => snapCounter (keyIndex x.1) (keySub x.1)
    .ok (m.setReq s.q { m.req s.q with snap := bank, snapTime := m.now })

/-- CLEAR_COUNTERS. -/
def Mach.rowClearCounters (m : Mach) (s : Src) : Mach := m.dictWrite s 0x7000 3 fun m => .ok (m.dropRegs clearedCounter)

/-! ## Spans (R474, R475) -/

/-- 0x7140.08: 0 IDLE, 1 ARMED, 2 RUNNING. -/
def Mach.span (m : Mach) (u : Nat) : Nat := m.reg 0x7140 8 u

/-- SPAN_ARM. -/
def Mach.rowSpanArm (m : Mach) (s : Src) : Mach :=
  m.dictWrite s 0x7140 5 fun m =>
    let u := m.rowOf s.q 0x7140 5
    .ok (if m.span u = 0 then (m.setReg 0x7140 5 u 1).setReg 0x7140 8 u 1 else m)

/-- SPAN_DISARM: an open start is discarded. -/
def Mach.rowSpanDisarm (m : Mach) (s : Src) : Mach :=
  m.dictWrite s 0x7140 5 fun m =>
    let u := m.rowOf s.q 0x7140 5
    .ok (((m.setTele { m.tele with starts := tdel m.tele.starts u }).setReg 0x7140 5 u 0).setReg 0x7140 8 u 0)

/-- SOFTWARE_START: an event of code 0, and a trigger of the trace. -/
def Mach.rowSoftwareStart (m : Mach) (s : Src) : Mach := m.dictWrite s 0x7140 6 fun m => .ok (m.event 0 0)

/-- SOFTWARE_STOP: an event of code 0 that only stop sources see; its parameter tells it from a start. -/
def Mach.rowSoftwareStop (m : Mach) (s : Src) : Mach := m.dictWrite s 0x7140 7 fun m => .ok (m.spanEvent 0 1)

/-- Whether an event is a unit's start, or its stop. -/
def SpanEvent.isStart (e : SpanEvent) (src : Nat) : Bool := src == e.code * 2 ^ 24 + e.param
/-- Whether an event is a unit's stop. -/
def SpanEvent.isStop (e : SpanEvent) (src : Nat) : Bool :=
  if e.code = 0 then src == 0 && e.param == 1 else src == e.code * 2 ^ 24 + e.param

/-- R487: whether an event is the tenant's, which units record nothing of while confidential mode is not OFF. -/
def Mach.tenantEvent (m : Mach) (code param : Nat) : Bool :=
  m.confState != 0 && (match code with
    | 1 => m.qOwner param == m.tenant
    | 2 => m.qOwner param == m.tenant
    | 3 => m.qOwner param == m.tenant
    | 4 => m.reg 0x5410 2 (param / 256) == m.tenant
    | 6 => ((m.chan? (chanKey (param / 256) (param % 64))).bind fun r => m.cmd? r.slot).any fun c => m.qOwner c.queue == m.tenant
    | 7 => ((m.chan? (chanKey (param / 256) (param % 64))).bind fun r => m.cmd? r.slot).any fun c => m.qOwner c.queue == m.tenant
    | _ => false)

/-- A span recorded by a unit. -/
def Mach.recordSpan (m : Mach) (u d : Nat) : Mach :=
  let n := m.reg 0x7140 9 u
  let m := (m.setReg 0x7140 9 u ((n + 1) % 2 ^ 64)).setReg 0x7140 0x0A u d
  let m := (m.setReg 0x7140 0x0B u (min d (m.reg 0x7140 0x0B u))).setReg 0x7140 0x0C u (max d (m.reg 0x7140 0x0C u))
  m.bumpBy 0x7140 0x0D u d

/-- After a stop: ARMED again, or IDLE when the unit is one-shot. -/
def Mach.spanNext (m : Mach) (u : Nat) : Mach :=
  let m := m.setTele { m.tele with starts := tdel m.tele.starts u }
  if m.reg 0x7140 4 u = 1 then (m.setReg 0x7140 8 u 0).setReg 0x7140 5 u 0 else m.setReg 0x7140 8 u 1

/-- A start applied to a unit (Table 17-2). -/
def Mach.spanStart (m : Mach) (u stamp : Nat) : Mach :=
  match m.span u with
  | 1 => ((m.setTele { m.tele with starts := tput m.tele.starts u stamp }).setReg 0x7140 8 u 2).setReg 0x7140 0x11 u stamp
  | 2 => m.bumpBy 0x7140 0x10 u 1
  | _ => m

/-- A stop applied to a unit (Table 17-2). -/
def Mach.spanStop (m : Mach) (u stamp : Nat) : Mach :=
  let m' := m.setReg 0x7140 0x12 u stamp
  match m.span u with
  | 1 => ((m'.recordSpan u 0).bumpBy 0x7140 0x0F u 1).spanNext u
  | 2 =>
    let start := tgetD m.tele.starts u stamp
    if start < stamp then (m'.recordSpan u (stamp - start)).spanNext u
    else ((m'.recordSpan u 0).bumpBy 0x7140 0x0E u 1).spanNext u
  | _ => m

/-- The events of one stamp applied to a unit, starts before stops. -/
def Mach.applySpan (m : Mach) (es : List SpanEvent) (u : Nat) : Mach :=
  let es := es.filter fun e => !m.tenantEvent e.code e.param
  let m := (es.filter fun e => e.isStart (m.reg 0x7140 2 u)).foldl (fun m e => m.spanStart u e.stamp) m
  (es.filter fun e => e.isStop (m.reg 0x7140 3 u)).foldl (fun m e => m.spanStop u e.stamp) m

/-- SPAN_SETTLE_EXPIRY: the settle window of the events with the lowest stamp ends; they are applied to every unit. -/
def Mach.rowSpanSettleExpiry (m : Mach) : Mach :=
  match (m.tele.events.map (·.stamp)).min? with
  | none => m
  | some t =>
    let (now, later) := m.tele.events.partition fun e => e.stamp == t
    (List.range 16).foldl (fun m u => m.applySpan now u) (m.setTele { m.tele with events := later })

/-- CLEAR_SPAN: 0x7140.09-.12 of the selected unit at their defaults. -/
def Mach.rowClearSpan (m : Mach) (s : Src) : Mach :=
  m.dictWrite s 0x7140 0x13 fun m =>
    let u := m.rowOf s.q 0x7140 0x13
    .ok ((List.range 10).foldl (fun m k => m.setReg 0x7140 (9 + k) u (dictDefault 0x7140 (9 + k))) m)

/-- R474: whether a source names something that is there. -/
def Mach.spanSourceOk (m : Mach) (v : Nat) : Bool :=
  let p := v % 65536
  v / 65536 % 256 == 0 && (match v / 2 ^ 24 with
    | 0 => p == 0
    | 1 => decide (p < 512 * m.dies)
    | 2 => decide (p < 512 * m.dies)
    | 3 => decide (p < 512 * m.dies)
    | 4 => true
    | 5 => decide (0x8000 ≤ p) && decide (p ≤ 0x8FFF)
    | 6 => p / 64 % 4 == 0 && decide (p / 256 < m.dies)
    | 7 => p / 64 % 4 == 0 && decide (p / 256 < m.dies)
    | 8 => decide (p < m.dies)
    | 9 => decide (p < m.dies)
    | 10 => decide (0xC1 ≤ p) && decide (p ≤ 0xC3)
    | _ => false)

/-! ## Eyes (R477) -/

/-- The lanes that a port uses: the lowest aligned group of its width that is wholly usable (R141). -/
def Mach.lanesUsed (m : Mach) (p : Nat) : List Nat :=
  let w := m.reg 0x4011 2 p
  if w = 0 then [] else
  match (List.range (32 / w)).find? fun g => bits (m.reg 0x4011 3 p) (g * w + w - 1) (g * w) == 2 ^ w - 1 with
  | some g => (List.range w).map (· + g * w)
  | none => []

/-- EYE_MEASUREMENT_DONE: the lane in turn measured, height in mV and width in mUI; the next lane in use comes after it. -/
def Mach.rowEyeMeasurementDone (m : Mach) (p height width : Nat) : Mach :=
  let ls := m.lanesUsed p
  match ls with
  | [] => m
  | first :: _ =>
    if 8 ≤ p ∨ !m.numberedState p then m else
    let want := tgetD m.tele.eyeLane p first
    let lane := if ls.contains want then want else first
    let next := (ls.find? fun l => decide (lane < l)).getD first
    m.setTele { m.tele with
      eyes := tput m.tele.eyes (p * 32 + lane) (height % 65536, width % 65536, m.now)
      eyeLane := tput m.tele.eyeLane p next }

/-! ## Modules (R478-R481) -/

/-- 0x7150.02: 0 ABSENT, 1 INITIALISING, 2 READY, 3 UNSUITABLE, 4 FAULT. -/
def Mach.moduleState (m : Mach) (i : Nat) : Nat := m.reg 0x7150 2 i
/-- A position's module. -/
def Mach.module (m : Mach) (i : Nat) : Module := tgetD m.tele.modules i Module.absent
/-- A position's module changed. -/
def Mach.setModule (m : Mach) (i : Nat) (x : Module) : Mach := m.setTele { m.tele with modules := tput m.tele.modules i x }
/-- Whether a position is on a port of the variant. -/
def Mach.position (m : Mach) (i : Nat) : Bool := decide (i < 4 * m.dies)

/-- A position's state changed: notice 0x8140; MODRST_L is driven in ABSENT and FAULT. -/
def Mach.setModuleState (m : Mach) (i st : Nat) : Mach :=
  let old := m.moduleState i
  let m := m.setModule i { m.module i with resetAsserted := st == 0 || st == 4, busFails := 0 }
  let m := if st = 2 then m else m.setReg 0x7150 3 i 0
  if old = st then m else (m.setReg 0x7150 2 i st).notice 0x8140 [byteOf i, byteOf old, byteOf st]

/-- MODULE_INSERTED: MODPRS_L low at an ABSENT position. -/
def Mach.rowModuleInserted (m : Mach) (i : Nat) : Mach :=
  if !m.position i ∨ m.moduleState i ≠ 0 then m
  else (m.setModule i { m.module i with present := true }).setModuleState i 1

/-- MODULE_REMOVED: MODPRS_L high. -/
def Mach.rowModuleRemoved (m : Mach) (i : Nat) : Mach :=
  if !m.position i then m else
  let m := (m.setModule i Module.absent).setModuleState i 0
  m.setTele { m.tele with power := m.tele.power.filter fun (p : Nat × (Nat × Nat)) => p.1 / 8 ≠ i }

/-- MODULE_READY: ModuleReady, with the application chosen at the Ridgeline rate, 0 for none, and the low warnings and alarms of
page 02h. -/
def Mach.rowModuleReady (m : Mach) (i app rxWarn rxAlarm txWarn txAlarm : Nat) : Mach :=
  if m.moduleState i ≠ 1 ∨ !m.position i then m
  else if app = 0 then (m.setModuleState i 3).setCause (i / 4) 12
  else
    let m := m.setModule i { m.module i with rxWarn := rxWarn, rxAlarm := rxAlarm, txWarn := txWarn, txAlarm := txAlarm }
    (m.setModuleState i 2).setReg 0x7150 3 i (app % 256)

/-- A position goes to FAULT; the lanes of one that was READY lose lock (R141). -/
def Mach.moduleFault (m : Mach) (i : Nat) : Mach :=
  let ready := m.moduleState i = 2
  let m := m.setModuleState i 4
  if ready then (List.range 8).foldl (fun m k => m.rowLaneLockLoss (i / 4) (8 * (i % 4) + k)) m else m

/-- MODULE_INIT_TIMEOUT: 2 s without ModuleReady. -/
def Mach.rowModuleInitTimeout (m : Mach) (i : Nat) : Mach := if m.moduleState i = 1 then m.moduleFault i else m

/-- MODULE_FAULT_RETRY_EXPIRY: 1 s in FAULT. -/
def Mach.rowModuleFaultRetryExpiry (m : Mach) (i : Nat) : Mach :=
  if m.moduleState i = 4 then m.setModuleState i 1 else m

/-- ⌊log10 n⌋, with fuel. -/
def log10Floor : Nat → Nat → Nat
  | 0, _ => 0
  | fuel + 1, n => if n < 10 then 0 else 1 + log10Floor fuel (n / 10)

/-- R480: a raw power r of 0.1 µW in 0.01 dBm: round(1,000 × log10(r ÷ 10,000)). j = value + 4,000 is the largest with
10^(2j−1) ≤ r^2000; no r gives a half. -/
def dbm (r : Nat) : Int :=
  if r = 0 then -4000 else (((log10Floor 10000 (r ^ 2000) + 1) / 2 : Nat) : Int) - 4000

/-- A bus transfer of a position that failed, counted; the third in a row is a fault. -/
def Mach.busFailed (m : Mach) (i : Nat) : Mach :=
  let m := m.bumpBy 0x7150 0x0C i 1
  let n := (m.module i).busFails + 1
  let m := m.setModule i { m.module i with busFails := n }
  if 3 ≤ n ∧ (m.moduleState i = 1 ∨ m.moduleState i = 2) then m.moduleFault i else m

/-- MODULE_POLL: the monitors and flags of a READY module: receive and transmit power of its lanes in 0.1 µW, and its fault
flag; none when the transfer failed, as an INITIALISING module's may too. -/
def Mach.rowModulePoll (m : Mach) (i : Nat) (got : Option (List (Nat × Nat) × Bool)) : Mach :=
  match got with
  | none => if m.moduleState i = 1 ∨ m.moduleState i = 2 then m.busFailed i else m
  | some (lanes, fault) =>
    if m.moduleState i ≠ 2 then m else
    let m := m.setModule i { m.module i with busFails := 0 }
    let m := ((lanes.take 8).zipIdx).foldl (fun m (x : (Nat × Nat) × Nat) =>
      let e := (ofSigned 32 (dbm (x.1.1 % 65536)), ofSigned 32 (dbm (x.1.2 % 65536)))
      m.setTele { m.tele with power := tput m.tele.power (i * 8 + x.2) e }) m
    if fault then m.moduleFault i else m

/-- R481: the faults of a transfer of n bytes at the requester's selections, in the order of Table 14-10. -/
def Mach.mapFault (m : Mach) (q : Requester) (n : Nat) (write : Bool) : Option Nat :=
  let i := m.sel q 0x7150 1
  let page := m.sel q 0x7150 8
  let off := m.sel q 0x7150 9
  let inPage := (decide (off < 128) && decide (off + n ≤ 128)) || (decide (128 ≤ off) && decide (off + n ≤ 256))
  let hits (b : Nat) : Bool := decide (off ≤ b) && decide (b < off + n)
  let port := m.pState (i / 4)
  if m.sel q 0x7150 7 ≠ 0 ∨ ! [0, 1, 2, 0x10, 0x11].contains page ∨ !inPage ∨ n = 0 ∨ (write ∧ hits 127) then some abRange
  else if [0, 3, 4].contains (m.moduleState i) then some abBusy
  else if write ∧ (hits 26 ∨ (128 ≤ off ∧ page = 0x10)) ∧ port ≠ 1 ∧ port ≠ 11 then some abBusy
  else none

/-- MODULE_MAP_READ: a read of 0x7150.0B with the bytes that the bus gave, none for a NACK or a bus held low. -/
def Mach.rowModuleMapRead (m : Mach) (s : Src) (got : Option (List Byte)) : Mach :=
  m.once s.q s.txn fun m =>
    let reply (m : Mach) (a : Nat) (bs : List Byte) : Mach := m.answer s.q ⟨s.txn, 1, 0x7150, 0x0B, typeCode 0x7150 0x0B, a, bs.length, bs⟩
    let n := m.sel s.q 0x7150 0x0A
    match m.readGate s.q 0x7150 0x0B with
    | some a => reply m a []
    | none => match m.mapFault s.q n false with
      | some a => reply m a []
      | none => match got with
        | none => reply (m.busFailed (m.sel s.q 0x7150 1)) abGeneral []
        | some bs => reply (m.setModule (m.sel s.q 0x7150 1) { m.module (m.sel s.q 0x7150 1) with busFails := 0 }) 0 (slice bs 0 n)

/-- A write of 0x7150.0B checked, made when the bus takes it, and answered. -/
def Mach.mapWrite (m : Mach) (s : Src) (bs : List Byte) (ok : Bool) : Mach :=
  m.dictWrite s 0x7150 0x0B fun m =>
    let i := m.sel s.q 0x7150 1
    if bs.length ≠ m.sel s.q 0x7150 0x0A then .error abType
    else match m.mapFault s.q bs.length true with
      | some a => .error a
      | none =>
        if ok then .ok ((m.setModule i { m.module i with busFails := 0 }).emit (.moduleWrite i (m.sel s.q 0x7150 8) (m.sel s.q 0x7150 9) bs))
        else .error abGeneral

/-- MODULE_MAP_WRITE: `ok` is whether the bus took it; a transfer that failed is counted. -/
def Mach.rowModuleMapWrite (m : Mach) (s : Src) (bs : List Byte) (ok : Bool) : Mach :=
  let i := m.sel s.q 0x7150 1
  let tried := (m.kept? s.q s.txn).isNone && (m.gate s.q 0x7150 0x0B).isNone && bs.length == m.sel s.q 0x7150 0x0A &&
    (m.mapFault s.q bs.length true).isNone
  let m := m.mapWrite s bs ok
  if tried && !ok then m.busFailed i else m

/-! ## Margins (R476; 13_acting_as_one.md R379-R382) -/

/-- The domain of a rail of a die, none for one that is always on (Table 17-3). -/
def railDomain (rail : Nat) : List Nat :=
  match rail with
  | 0 => [0]
  | 1 => [1]
  | 2 => [2]
  | 3 => [3, 4]
  | 4 => [5]
  | 5 => [6]
  | 6 => [7]
  | _ => [5]

/-- 0x7100.03 of a die and rail: 0x7FFF_FFFF while its domain is OFF or absent or nothing was measured. -/
def Mach.headroom (m : Mach) (die rail : Nat) : Nat :=
  match tget m.tele.rails (die * 8 + rail) with
  | none => 0x7FFFFFFF
  | some r => if (railDomain rail).any fun d => m.domain die d != 0 && m.domain die d != 3 then r.1 else 0x7FFFFFFF

/-- 0x7100.06 of a die and monitor. -/
def Mach.slackOf (m : Mach) (die mon : Nat) : Nat :=
  match tget m.tele.slack (die * 16 + mon) with
  | none => 0x7FFFFFFF
  | some v => let d := m.domain die (if mon < 8 then 0 else 1); if d ≠ 0 ∧ d ≠ 3 then v else 0x7FFFFFFF

/-- The lowest of some signed readings; 0x7FFF_FFFF never counts. -/
def worstLow (vs : List Nat) : Nat :=
  match ((vs.filter (· ≠ 0x7FFFFFFF)).map (toSigned 32)).min? with
  | some v => ofSigned 32 v
  | none => 0x7FFFFFFF

/-- The eyes of a trained port's lanes in use: height and width. -/
def Mach.eyesOf (m : Mach) (p : Nat) : List (Nat × Nat) :=
  if !m.numberedState p then [] else
  (m.lanesUsed p).filterMap fun l => (tget m.tele.eyes (p * 32 + l)).map fun e => (e.1, e.2.1)

/-- 0x7102.07: uncorrectable codewords of the last second, from the samples of the last 100 evaluations. -/
def Mach.codewordRate (m : Mach) (p : Nat) : Nat :=
  match tgetD m.tele.codewords p [] with
  | [] => 0
  | v :: rest =>
    let base := if rest.length = 100 then rest.getLastD 0 else 0
    if base ≤ v then v - base else v

/-- The positions of a port whose modules are READY. -/
def Mach.readyModules (m : Mach) (p : Nat) : List Nat := ((List.range 4).map (· + 4 * p)).filter fun i => m.moduleState i == 2

/-- The worst value of a source (Table 13-9), none while nothing of it reads. -/
def Mach.marginWorst (m : Mach) (code port : Nat) : Option Int :=
  let low (vs : List Nat) : Option Int := let w := worstLow vs; if w = 0x7FFFFFFF then none else some (toSigned 32 w)
  match code with
  | 0 => low ((List.range m.dies).flatMap fun d => (List.range 8).map fun r => m.headroom d r)
  | 1 => low ((List.range m.dies).flatMap fun d => (List.range 16).map fun r => m.slackOf d r)
  | 2 => low ((m.eyesOf port).map Prod.fst)
  | 3 => low ((m.eyesOf port).map Prod.snd)
  | 4 => if m.numberedState port then some ((m.codewordRate port : Nat) : Int) else none
  | 5 => low ((m.readyModules port).flatMap fun i => (List.range 8).filterMap fun l => (tget m.tele.power (i * 8 + l)).map Prod.fst)
  | _ => low ((m.readyModules port).flatMap fun i => (List.range 8).filterMap fun l => (tget m.tele.power (i * 8 + l)).map Prod.snd)

/-- The warn (0x7101.02) or act level (.03) of a source: what was written, or Table 13-9's default; for optical power the
thresholds of the port's first READY module. -/
def Mach.marginLevel (m : Mach) (code port sub : Nat) : Int :=
  match tget m.cairn.regs (regKey 0x7101 sub (port * 256 + code)) with
  | some v => toSigned 32 v
  | none =>
    let x := m.module ((m.readyModules port).headD 99)
    let pick (w a : Int) : Int := if sub = 2 then w else a
    match code with
    | 0 => pick 20 10
    | 1 => pick 25 10
    | 2 => pick 15 8
    | 3 => pick 250 150
    | 4 => pick 1 10
    | 5 => pick (dbm x.rxWarn) (dbm x.rxAlarm)
    | _ => pick (dbm x.txWarn) (dbm x.txAlarm)

/-- Whether a value has reached a level in a source's direction; source 4 alone rises. -/
def marginAt (code : Nat) (v level : Int) : Bool := if code = 4 then decide (level ≤ v) else decide (v ≤ level)

/-- R381: what an act crossing does besides its notice. -/
def Mach.marginAct (m : Mach) (code port : Nat) (v : Int) : Mach :=
  let action := m.reg 0x7101 4 (port * 256 + code)
  let hold (m : Mach) (p : Nat) : Mach := (m.setPortHall p { m.portHall p with drainAct := true }).disablePort p
  let m := if action = 0 then m else m.originate 0xC3 (code + port * 2 ^ 8 + ofSigned 32 v * 2 ^ 32)
  if action = 2 ∧ 2 ≤ code then hold m port
  else if action = 3 ∧ code < 2 then (List.range m.dies).foldl hold (m.sendFault 1 0 0 4)
  else m

/-- A crossing of one level: counted, in the record, noticed when it must be. -/
def Mach.marginCross (m : Mach) (row level : Nat) (v : Int) (always : Bool) : Mach :=
  let rec0 := m.oct 0x7101 5 row
  let n := fld rec0 0 4
  let m := { m with hall := { m.hall with disarmed := m.hall.disarmed ++ [(row, level)] } }
  let m := (m.bump 0x70D0 0x0C).setOct 0x7101 5 row
    (leBytes 4 (min (n + 1) 0xFFFFFFFF) ++ (if n = 0 then leBytes 2 (ofSigned 16 v) else slice rec0 4 2) ++ zeros 2 ++
      (if n = 0 then leBytes 8 m.now else slice rec0 8 8))
  if n = 0 ∨ always then m.notice 0x80D4 [] else m

/-- One source evaluated (R380). -/
def Mach.marginOne (m : Mach) (code port : Nat) : Mach :=
  match m.marginWorst code port with
  | none => m
  | some v =>
    let row := port * 256 + code
    let warn := m.marginLevel code port 2
    let act := m.marginLevel code port 3
    let far := !marginAt code v warn
    let m := if far then { m with hall := { m.hall with disarmed := m.hall.disarmed.filter (·.1 ≠ row) } } else m
    let m := if marginAt code v warn && !m.hall.disarmed.contains (row, 0) then m.marginCross row 0 v false else m
    let goAct := marginAt code v act && !m.hall.disarmed.contains (row, 1)
    let m := if goAct then m.marginCross row 1 v true else m
    let rec0 := m.oct 0x7101 5 row
    let peak := toSigned 16 (fld rec0 4 2)
    let m := if fld rec0 0 4 ≠ 0 ∧ (if code = 4 then decide (peak < v) else decide (v < peak)) then
        m.setOct 0x7101 5 row (slice rec0 0 4 ++ leBytes 2 (ofSigned 16 v) ++ slice rec0 6 10) else m
    if goAct then m.marginAct code port v else m

/-- MARGIN_EVALUATION: with what the rails and the replica paths read over the last 10 ms: (die × 8 + rail, headroom in mV,
voltage in mV) and (die × 16 + monitor, slack in ps). -/
def Mach.rowMarginEvaluation (m : Mach) (rails : List (Nat × Int × Nat)) (slacks : List (Nat × Int)) : Mach :=
  let m := rails.foldl (fun m (x : Nat × Int × Nat) =>
    m.setTele { m.tele with rails := tput m.tele.rails x.1 (ofSigned 32 x.2.1, x.2.2 % 65536) }) m
  let m := slacks.foldl (fun m (x : Nat × Int) => m.setTele { m.tele with slack := tput m.tele.slack x.1 (ofSigned 32 x.2) }) m
  let m := (List.range m.dies).foldl (fun m p =>
    m.setTele { m.tele with codewords := tput m.tele.codewords p ((m.reg (0x7050 + p) 8 p :: tgetD m.tele.codewords p []).take 101) }) m
  let m := (m.marginOne 0 0xF).marginOne 1 0xF
  (List.range m.dies).foldl (fun m p => [2, 3, 4, 5, 6].foldl (fun m c => m.marginOne c p) m) m

/-! ## Trace (R482, R483) -/

/-- TRACE_START: the committed configuration taken, the ring from its start. -/
def Mach.rowTraceStart (m : Mach) (s : Src) : Mach :=
  m.dictWrite s 0x9000 7 fun m =>
    if m.tracing then .error abBusy else
    let t : Trace := { dieMask := m.reg 0x9000 1 0, srcMask := m.reg 0x9000 2 0, ring := m.reg 0x9000 3 0, length := m.reg 0x9000 4 0
                       trigger := m.reg 0x9000 5 0, postLeft := 0, sequence := m.tele.trace.sequence }
    let m := (((m.setTele { m.tele with trace := t }).setReg 0x9000 8 0 1).setReg 0x9000 9 0 0).setReg 0x9000 0x0A 0 0
    .ok (((m.setReg 0x9000 0x0B 0 0).setReg 0x9000 0x0C 0 (2 ^ 64 - 1)).auditUncoded s.q [1])

/-- TRACE_STOP: in any state. -/
def Mach.rowTraceStop (m : Mach) (s : Src) : Mach := m.dictWrite s 0x9000 7 fun m => .ok (m.stopTrace.auditUncoded s.q [2])

/-- TRACE_POST_TRIGGER_DONE: the records after the trigger are written. -/
def Mach.rowTracePostTriggerDone (m : Mach) : Mach :=
  if m.reg 0x9000 8 0 = 2 ∧ m.tele.trace.postLeft = 0 then m.stopTrace else m

/-! ## The TAP (R484, R485) -/

/-- 0x9020.02: whether instructions that drive pins are accepted now: the device starting before its management controller has
run, or OFF_READY. -/
def Mach.pinsAccepted (m : Mach) : Bool :=
  (m.reg 0x2200 3 0 == 0 && decide (m.clk.stage < 6)) || m.reg 0x2200 3 0 == 5

/-- TAP_INSTRUCTION_UPDATE: an instruction loaded, or replaced by BYPASS with bit 2 of the next capture set. -/
def Mach.rowTapInstructionUpdate (m : Mach) (code : Nat) : Mach :=
  let set (i : Nat) (refused : Bool) : Mach := m.setTele { m.tele with tapInstr := i, tapRefused := refused }
  if code = 1 then set 1 false
  else if code = 2 then
    (if m.reg 0x6001 1 0 = 1 ∨ m.confState ≠ 0 then set 0xFF true else set 2 false)
  else if 3 ≤ code ∧ code ≤ 7 then (if m.pinsAccepted then set code false else set 0xFF true)
  else set 0xFF false

/-- The next capture of the TAP's instruction register. -/
def Mach.tapCapture (m : Mach) : Nat := if m.tele.tapRefused then 5 else 1

/-! ## Scratchpads (R486) -/

/-- What bars a scratchpad access at the requester's selections. -/
def Mach.scratchFault (m : Mach) (q : Requester) : Option Nat :=
  let die := m.sel q 0x9010 1
  let a := m.sel q 0x9010 3
  let n := m.sel q 0x9010 4
  if a % 64 ≠ 0 ∨ n % 64 ≠ 0 ∨ n < 64 ∨ 960 < n ∨ 2 ^ 21 ≤ a ∨ a / 131072 ≠ (a + n - 1) / 131072 then some abRange
  else if !m.dieActive die ∨ m.domain die 1 ≠ 1 then some abBusy
  else none

/-- Whether the bank of an access is free for input 0, the lowest. -/
def Mach.scratchFree (m : Mach) (q : Requester) : Bool :=
  let b := m.bank (bankKey (m.sel q 0x9010 1) (m.sel q 0x9010 2) (m.sel q 0x9010 3 / 131072))
  b.holder.isNone && !b.resetting && b.parked.isEmpty && b.stalled.isEmpty

/-- An access at input 0: refused, waiting for its grant, or made. -/
def Mach.scratchAccess (m : Mach) (s : Src) (op : Nat) (gate : Mach → Option Nat) (go : Mach → Mach × List Byte) : Mach :=
  let reply (m : Mach) (a : Nat) (bs : List Byte) : Mach := m.answer s.q ⟨s.txn, op, 0x9010, 5, typeCode 0x9010 5, a, if op = 1 then bs.length else 0, bs⟩
  let serve (m : Mach) : Mach :=
    match gate m with
    | some a => reply (m.setTele { m.tele with scratchAsk := none }) a []
    | none =>
      if !m.scratchFree s.q then m.setTele { m.tele with scratchAsk := some ⟨s.q.code, s.txn, op == 2⟩ }
      else
        let (m, bs) := go (m.setTele { m.tele with scratchAsk := none })
        reply m 0 bs
  if m.tele.scratchAsk = some ⟨s.q.code, s.txn, op == 2⟩ then serve m
  else if m.tele.scratchAsk.isSome then m
  else m.once s.q s.txn serve

/-- DEBUG_SCRATCH_READ. -/
def Mach.rowDebugScratchRead (m : Mach) (s : Src) : Mach :=
  m.scratchAccess s 1 (fun m => (m.readGate s.q 0x9010 5).or (m.scratchFault s.q)) fun m =>
    let (bs, m) := m.scratchRead (m.sel s.q 0x9010 1) (m.sel s.q 0x9010 2) 0 0xFFFF (m.sel s.q 0x9010 3) (m.sel s.q 0x9010 4)
    (m, bs)

/-- DEBUG_SCRATCH_WRITE: reaches the audit log. -/
def Mach.rowDebugScratchWrite (m : Mach) (s : Src) (bs : List Byte) : Mach :=
  m.scratchAccess s 2
    (fun m => (m.gate s.q 0x9010 5).or (if bs.length ≠ m.sel s.q 0x9010 4 then some abType else m.scratchFault s.q)) fun m =>
    let die := m.sel s.q 0x9010 1
    let m := m.scratchWrite die (m.sel s.q 0x9010 2) 0 0xFFFF (m.sel s.q 0x9010 3) bs
    (m.auditUncoded s.q ([byteOf die, byteOf (m.sel s.q 0x9010 2)] ++ leBytes 4 (m.sel s.q 0x9010 3)), [])

/-- The requester that a code stands for. -/
def requesterOf (code : Nat) : Requester :=
  if 256 ≤ code then .inBand ((code - 256) / 16) (code % 16) else if code = 99 then .bare else .session code

/-- DEBUG_SCRATCH_GRANT_TIMEOUT: 10 ms without a grant: Busy. -/
def Mach.rowDebugScratchGrantTimeout (m : Mach) : Mach :=
  match m.tele.scratchAsk with
  | none => m
  | some d => (m.setTele { m.tele with scratchAsk := none }).answer (requesterOf d.req)
      ⟨d.txn, if d.write then 2 else 1, 0x9010, 5, typeCode 0x9010 5, abBusy, 0, []⟩

/-! ## Sideband lines (18_electrical.md R501) -/

/-- A sideband line's state: line 0 ALERT_L, 1 THERMTRIP_L, 2 ENUM_OUT_L, 3 + i MODRST_L of position i. -/
def Mach.lineState (m : Mach) (line : Nat) : Nat :=
  if line < 3 then m.reg 0x2231 (1 + line) 0
  else if bit (m.reg 0x2231 4 0) (line - 3) then 1 else if bit (m.reg 0x2231 5 0) (line - 3) then 2 else 0

/-- Whether the device drives a sideband line low now; ENUM_OUT_L is driven in each position pulse. -/
def Mach.lineDriven (m : Mach) (line : Nat) : Bool :=
  match line with
  | 0 => m.alertLow
  | 1 => m.thermtripLow
  | 2 => m.cairn.enum.drives
  | n => (m.module (n - 3)).resetAsserted

/-- SIDEBAND_LINE_CHECK: a line read back as normal, low while released, or high while driven low. The coding of the line in
notice 0x8151 is not stated. -/
def Mach.rowSidebandLineCheck (m : Mach) (line st : Nat) : Mach :=
  let old := m.lineState line
  let stands := st == 0 || (st == 1 && (line == 2 || !m.lineDriven line)) || (st == 2 && m.lineDriven line)
  if 35 ≤ line ∨ 3 ≤ st ∨ !stands ∨ old = st then m else
  let m := if line < 3 then m.setReg 0x2231 (1 + line) 0 st
    else (m.setReg 0x2231 4 0 (setBit (m.reg 0x2231 4 0) (line - 3) (st == 1))).setReg 0x2231 5 0
      (setBit (m.reg 0x2231 5 0) (line - 3) (st == 2))
  if st ≠ 0 ∧ (line = 1 ∨ line = 2) then
    let (name, m) := m.fresh 256
    m.notice 0x8151 [byteOf name, byteOf old, byteOf st]
  else m

end Sys2Proof.Machine
end

