-- ==== Sys2Proof/Machine/Fence.lean ====
section
/-! DEFINITION. Lost Col links, die fencing and rejoin, and commits of the home remap table (01_organisation.md R25-R34;
03_store_tiers.md R98). -/

namespace Sys2Proof.Machine

/-! ## What a fence takes from the package (Table 01-7, R30-R32) -/

/-- A die's state changed: notice 0x8010. -/
def Mach.setDie (m : Mach) (d v : Nat) : Mach :=
  let old := m.dieState d
  (m.setReg 0x2210 (1 + d) 0 v).notice 0x8010 [byteOf d, byteOf old, byteOf v]

/-- A fence's step recorded. -/
def Mach.setFence (m : Mach) (d : Nat) (r : FenceRun) : Mach := { m with fences := tput m.fences d r }

/-- The fence in progress on a die. -/
def Mach.fence? (m : Mach) (d : Nat) : Option FenceRun := tget m.fences d

/-- R28: whether die 0 or die 1 stays ACTIVE when a die is fenced. -/
def Mach.fenceAllowed (m : Mach) (d : Nat) : Bool := [0, 1].any fun k => k != d && m.dieState k == 1

/-- The Col links of a die, as link numbers. -/
def Mach.linksOf (m : Mach) (d : Nat) : List Nat := (m.colLinks.filter fun l => l.2.1 == d || l.2.2 == d).map (·.1)

/-- Messages of a die still in flight that carry its own lines back, delivered (R21). -/
def Mach.deliverEvicts (m : Mach) (d : Nat) : Mach :=
  (m.col.net.filter fun x => x.src == d && (x.ty == .wb || x.ty == .evict)).foldl (fun m x =>
    let m := (m.colTake x).clearPresence x.dst x.line d
    if x.ty = .wb then m.writeBackLine d x.line x.val else m) m

/-- R31: the lines that a die holds in M poisoned in their media and counted; its Col cache gone, its presence bits cleared. -/
def Mach.dropDieCache (m : Mach) (d : Nat) : Mach :=
  let c := m.cacheOf d
  let m := c.foldl (fun m (p : Nat × ColLine) => if p.2.st = .M then (m.poisonStore p.1).bump 0x7010 4 else m) m
  let m := m.setCache d []
  { m with col := { m.col with filters := m.col.filters.map fun (f : Nat × List (Nat × FilterEntry)) =>
      (f.1, (f.2.map fun (p : Nat × FilterEntry) => (p.1, { p.2 with dies := remove p.2.dies d })).filter fun p => p.2.dies != []) } }

/-- A transaction that waits for a die's answer goes on without it; those of the die, and those that it is home of, are over. -/
def Mach.dropDieTxns (m : Mach) (d : Nat) : Mach :=
  let gone (t : ColTxn) : Bool := t.req == d || t.home == d
  let ended := (m.col.txns.filter fun (p : Nat × ColTxn) => gone p.2).map Prod.fst
  let m := { m with col := { m.col with
    net := m.col.net.filter fun x => x.src != d && x.dst != d
    reads := m.col.reads.filter fun x => x.home != d && x.req != d
    waits := m.col.waits.filter fun w => w.req != d && w.home != d } }
  let m := ended.foldl (fun m l =>
    match tget m.col.txns l with
    | some t => if t.home = d then { m with col := { m.col with txns := tdel m.col.txns l } } else m.closeTxn l
    | none => m) m
  (tkeys m.col.txns).foldl (fun m l =>
    match tget m.col.txns l with
    | none => m
    | some t =>
      if d ∈ t.waiting then
        let t := { t with waiting := remove t.waiting d }
        let m := m.openTxn l t
        if t.waiting = [] ∧ !t.wbDue then (m.answered l t).tryClose l else m
      else m) m

/-- Whether a granule has its only copy, or a sub-block of it, on a die's stacks or channels (R31). -/
def Mach.onDieMedia (m : Mach) (d : Nat) (e : Granule) : Bool :=
  let mine (s : Nat) : Bool := (m.dimmPlace e.domain e.frame s).1 / 2 == d
  match e.loc with
  | .stack => e.frame / framesPerStack / 2 == d
  | .dimm => (List.range 16).any mine
  | .comp => (List.range 16).any fun s => decide (e.chunk * 512 / 4096 ≤ s) && decide (s ≤ ((e.chunk + e.chunks) * 512 - 1) / 4096) && mine s
  | _ => false

/-- R31: a granule made LOST: its contents and its frames gone. -/
def Mach.loseGranule (m : Mach) (g : Nat) : Mach :=
  let m := m.stopMove g
  let e := m.gran g
  let lo := g * 65536
  let m := { m with store := { m.store with
    mem := Memory.clear m.store.mem lo (lo + 65536)
    poison := m.store.poison.filter fun l => l / 1024 ≠ g
    keepPlain := remove m.store.keepPlain g } }
  let m := m.setGran g { m.gran g with loc := .lost, domain := 0, frame := 0, chunk := 0, chunks := 0, moving := false }
  m.freeFrame e

/-- R31, R33: an abrupt fence takes a die's media: granules LOST, movements onto them failed, its stacks out of service, its
channels DOWN. -/
def Mach.loseMedia (m : Mach) (d : Nat) : Mach :=
  let gs := (m.store.gran.filter fun (p : Nat × Granule) => m.onDieMedia d p.2).map Prod.fst
  let onto := (m.store.moves.filter fun (p : Nat × Movement) => m.onDieMedia d (p.2.dst.entry Granule.reset)).map Prod.fst
  let m := gs.foldl Mach.loseGranule m
  let m := onto.foldl (fun m g => m.rowMovementFailed g) m
  let m := [2 * d, 2 * d + 1].foldl (fun m s => if m.stackState s = 1 ∨ m.stackState s = 2 then m.setStack s 3 else m) m
  let m := { m with store := { m.store with unzeroed := m.store.unzeroed.filter fun f => match f with
    | .stack f => f / framesPerStack / 2 != d
    | .dimm _ _ => true } }
  let m := match m.store.reshape with
    | some r => if r.adding ∧ r.channel / 2 = d then
        let m := { m with store := { m.store with reshape := none } }
        match r.src with | some s => if r.sweeping then m else m.answerWrite s 0x3022 1 abGeneral | none => m
      else m
    | none => m
  let m := [2 * d, 2 * d + 1].foldl (fun m c => if m.chanState c = 2 then m.setDimmChan c 3 else m.rowChannelFail c) m
  m.watch

/-- R32: the commands of a die's queues end with FENCED_DIE, heads that wait for admission among them, and so do commands of
other queues that hold or wait for its crags, or wait for an event that it keeps (R214, R242). -/
def Mach.endDieCommands (m : Mach) (d : Nat) : Mach :=
  let mine (h : Head) : Bool := !h.eligible && m.eventDie (fld h.desc 2 2) == d
  let fail (q : Nat) (h : Head) : Head := if (queueDie q = d ∨ mine h) ∧ h.fail.isNone then { h with fail := some stFencedDie } else h
  let other := (m.sched.slots.filter fun (p : Nat × Cmd) => slotDie p.1 != d &&
    ((m.cragsOf p.1).any (fun k => k / 40 == d) || m.eng.crag.reqs.any (fun r => r.slot == p.1 && r.die == d) ||
      (descOp p.2.desc == 0x52 && fld p.2.desc 18 1 == 0 && !p.2.done && m.eventDie (fld p.2.desc 24 2) == d))).map Prod.fst
  let m := { m with sched := { m.sched with queues := m.sched.queues.map fun (p : Nat × Queue) =>
    (p.1, { p.2 with heads := p.2.heads.map (fail p.1) }) } }
  let m := (m.xl.migrations.filter fun g => slotDie g.slot == d).foldl (fun m g => m.migRelease g) m
  let m := ((tkeys m.sched.slots).filter fun k => slotDie k == d).foldl (fun m k => m.endNow k stFencedDie) m
  let m := other.foldl (fun m k => m.engineEnd stFencedDie k) m
  (tkeys m.sched.queues).foldl (fun m q => Mach.endFailed 65536 m q) m |>.teardownCheck

/-- A die's units taken from the maps (R32): queues and channels FENCED, crags, caches and walks of the die gone, its events
handed over with count 0 and counted (R214). -/
def Mach.dropDieUnits (m : Mach) (d : Nat) : Mach :=
  let evs := (tkeys m.sched.events).filter fun e => m.eventDie e == d
  let m := m.bumpBy 0x7070 0x0A 0 (65536 / m.dies)
  let m := { m with
    sched := { m.sched with
      events := evs.foldl tdel m.sched.events
      queues := m.sched.queues.filter fun (p : Nat × Queue) => queueDie p.1 != d
      banks := m.sched.banks.filter fun (p : Nat × Bank) => p.1 / 640 != d }
    eng := { m.eng with
      crag := { m.eng.crag with
        crags := m.eng.crag.crags.filter fun (p : Nat × Crag) => p.1 / 40 != d
        reqs := m.eng.crag.reqs.filter fun r => r.die != d }
      talus := { m.eng.talus with sets := m.eng.talus.sets.filter fun x => queueDie x.queue != d }
      cirque := { m.eng.cirque with
        cache := m.eng.cirque.cache.filter fun x => x.die != d
        services := m.eng.cirque.services.map fun x =>
          if x.die = d ∧ x.status.isNone then { x with status := some stFencedDie } else x } }
    xl := { m.xl with
      dieCache := tdel m.xl.dieCache d
      micro := m.xl.micro.filter fun (p : Nat × List Leaf) => p.1 / 64 != d
      walkCache := m.xl.walkCache.filter fun (p : Nat × List WalkEntry) => p.1 / 8 != d
      walks := m.xl.walks.filter fun w => w.die != d }
    store := { m.store with gathered := tdel m.store.gathered d } }
  let m := (List.range 512).foldl (fun m i => m.setQState (512 * d + i) 4) m
  (List.range 64).foldl (fun m c => m.setReg 0x5301 3 (chanKey d c) 4) m

/-- R32: a die's host port down: its links fenced, what its hosts held settled (04_host_ports.md R119). -/
def Mach.fenceHostPort (m : Mach) (d : Nat) : Mach :=
  let m := [2 * d, 2 * d + 1].foldl (fun m l => if m.linkState l = 0 then m else m.linkLost l 7 5) m
  let m := (m.hostFilter d).foldl (fun m h => if h.st = .S then m else m.poisonHeld d h.line) m
  let m := m.setHostFilter d []
  { m with host := { m.host with
    bis := m.host.bis.filter fun b => b.die != d
    waiting := m.host.waiting.filter fun r => r.link / 2 != d } }

/-- R32: a die's Ridgeline port down, its buffers lost with it (05_ridgeline_links.md R157). -/
def Mach.fenceRidgePort (m : Mach) (d : Nat) : Mach :=
  let m := if m.pState d = 0 ∨ m.pState d = 1 then m else m.portLost d 10 false
  let m := { m with fab := { m.fab with arrived := m.fab.arrived.filter fun (x : Nat × RFrame) => x.1 != d } }
  m.dropPosted stFencedDie fun r => slotDie r.slot == d

/-- Steps 5 and 6 of Table 01-7: the die cut off, its commands ended, and what it held written back or poisoned. -/
def Mach.cutDie (m : Mach) (d : Nat) (abrupt : Bool) : Mach :=
  let m := m.deliverEvicts d
  let m := m.fenceHostPort d
  let m := if abrupt then m else (m.cacheOf d).foldl (fun m (p : Nat × ColLine) =>
    (if p.2.st = .M then m.writeBackLine d p.1 p.2.val else m).clearPresence (m.homeOf (p.1 * 64)) p.1 d) m
  let m := (if abrupt then m else m.setCache d []).dropDieCache d
  let m := m.endDieCommands d
  let m := (m.setFence d ⟨.survivors⟩).dropDieTxns d
  let m := (m.linksOf d).foldl (fun m l => m.setReg 0x7011 (1 + l) 0 3) m
  let m := { m with col := { m.col with filters := tdel m.col.filters d } }
  let m := if abrupt then m.loseMedia d else m
  let m := (m.dropDieUnits d).fenceRidgePort d
  if d < 2 then m.setReg 0x6010 6 0 0 else m

/-! ## Abrupt fences (R26-R28) -/

/-- An abrupt fence of a die that is not cut off already: a cold reset instead when neither die 0 nor die 1 would stay. -/
def Mach.fenceOne (m : Mach) (d : Nat) : Mach :=
  if m.dies ≤ d ∨ ! [1, 2, 4].contains (m.dieState d) ∨ (m.fence? d).any (·.step == .survivors) then m
  else if d < 2 ∧ !m.fenceAllowed d then m.coldReset 5
  else (if m.dieState d = 2 then m else m.setDie d 2).cutDie d true

/-- One round of reaching dies in service from a set of them, over Col links that are not down. -/
def Mach.reachMore (m : Mach) (s : List Nat) : List Nat :=
  m.colLinks.foldl (fun s l =>
    if m.linkUp l.1 && m.dieActive l.2.1 && m.dieActive l.2.2 then
      (if s.contains l.2.1 then insSorted s l.2.2 else if s.contains l.2.2 then insSorted s l.2.1 else s)
    else s) s

/-- R26: the part of the package that keeps running: what can be reached from die 0, or from die 1 when die 0 is fenced. -/
def Mach.keptDies (m : Mach) : List Nat :=
  (List.range 8).foldl (fun s _ => m.reachMore s) [if m.dieActive 0 then 0 else 1]

/-- R26: the dies outside that part fenced abrupt, again while a fence cuts off more. -/
def Mach.fenceSplit : Nat → Mach → Mach
  | 0, m => m
  | n + 1, m =>
    let kept := m.keptDies
    match (List.range m.dies).find? fun d => m.dieActive d && !kept.contains d with
    | none => m
    | some d => Mach.fenceSplit n (m.fenceOne d)

/-- R27: an abrupt fence of a die, and of every die that it cuts off. -/
def Mach.fenceAbrupt (m : Mach) (d : Nat) : Mach := Mach.fenceSplit 8 (m.fenceOne d)

/-- COL_RETRAIN_LIMIT_EXPIRY (R25): a retraining link declared down, counted; traffic rerouted, or the die beyond it fenced
when rerouting is off. -/
def Mach.rowColRetrainLimitExpiry (m : Mach) (link : Nat) : Mach :=
  if 10 ≤ link ∨ m.reg 0x7011 (1 + link) 0 ≠ 2 then m else
  let m := (m.setColLink link 3).bump 0x7010 5
  match m.colLinks.find? fun l => l.1 == link with
  | none => m
  | some l =>
    if m.reg 0x3380 1 0 = 0 then m.fenceAbrupt (if m.dieActive 0 ∨ l.2.1 = 1 then l.2.2 else if l.2.2 = 1 then l.2.1 else l.2.2)
    else Mach.fenceSplit 8 m

/-- CLEAR_DOWN_LINK: 0x3380.03: the named links of dies in service that are down retrain. -/
def Mach.clearDownLink (v : Nat) (m : Mach) : Except Nat Mach :=
  if 1024 ≤ v then .error abRange
  else .ok (m.colLinks.foldl (fun m l =>
    if bit v l.1 && m.reg 0x7011 (1 + l.1) 0 == 3 && m.dieActive l.2.1 && m.dieActive l.2.2 then m.setColLink l.1 2 else m) m)

/-- CLEAR_DOWN_LINK. -/
def Mach.rowClearDownLink (m : Mach) (s : Src) (v : Nat) : Mach := m.dictWrite s 0x3380 3 (Mach.clearDownLink v)

/-- DIE_WATCHDOG_EXPIRY. -/
def Mach.rowDieWatchdogExpiry (m : Mach) (d : Nat) : Mach := m.fenceAbrupt d
/-- DIE_UNCORRECTABLE_ERROR. -/
def Mach.rowDieUncorrectableError (m : Mach) (d : Nat) : Mach := m.fenceAbrupt d
/-- CORE_SUPPLY_LOSS. -/
def Mach.rowCoreSupplyLoss (m : Mach) (d : Nat) : Mach := m.fenceAbrupt d

/-! ## Orderly fences (R29, R98) -/

/-- Step 1 and the start of step 2: FENCING, the stacks retiring, the first channel leaving. -/
def Mach.fenceOrderly (q : Requester) (d : Nat) (m : Mach) : Except Nat Mach :=
  if m.dies ≤ d then .error abRange
  else if m.dieState d ≠ 1 then .error abBusy
  else if !m.fenceAllowed d then .error abRange
  else
    let m := (m.setDie d 2).setFence d ⟨.evacuating⟩
    let m := [2 * d, 2 * d + 1].foldl (fun m s => if m.stackState s = 1 then m.beginRetire s else m) m
    .ok (m.nextRemoval.auditReq q 0x0031 [byteOf d, 0])

/-- FENCE_ORDERLY: 0x2211.01 with 0x2211.02 = 0. -/
def Mach.rowFenceOrderly (m : Mach) (s : Src) (d : Nat) : Mach :=
  if m.reg 0x2211 2 0 ≠ 0 then m else m.dictWrite s 0x2211 1 (Mach.fenceOrderly s.q d)

/-- Whether a die's stacks and channels are empty of granules and out of service. -/
def Mach.evacuated (m : Mach) (d : Nat) : Bool :=
  ([2 * d, 2 * d + 1].all fun s => m.stackState s == 0 || m.stackState s == 3) &&
  ([2 * d, 2 * d + 1].all fun c => m.chanState c == 0 || m.chanState c == 5 || (m.domainsOf c).isEmpty)

/-- FENCE_EVACUATION_DONE: step 3 begins once the media are empty. -/
def Mach.rowFenceEvacuationDone (m : Mach) (d : Nat) : Mach :=
  if (m.fence? d).any (·.step == .evacuating) then
    if m.evacuated d then m.setFence d ⟨.draining⟩ else m.nextRemoval
  else m

/-- FENCE_EVACUATION_BOUND_EXPIRY: the fence abandoned: the stacks back in service, tails left where they are, a reshape in
its sweep left to complete; the die ACTIVE, notice 0x8012. -/
def Mach.rowFenceEvacuationBoundExpiry (m : Mach) (d : Nat) : Mach :=
  if !((m.fence? d).any (·.step == .evacuating)) then m else
  let m := { m with fences := tdel m.fences d }
  let moves := (m.store.moves.filter fun (p : Nat × Movement) => p.2.kind == .evacuate && m.onDieMedia d (m.gran p.1)).map Prod.fst
  let m := moves.foldl (fun m g => (m.stopMove g).releaseHeld g) m
  let m := [2 * d, 2 * d + 1].foldl (fun m s => if m.stackState s = 2 ∨ m.stackState s = 3 then m.setStack s 1 else m) m
  let m := match m.store.reshape with
    | some r => if !r.adding ∧ r.channel / 2 = d ∧ m.removalTail r.channel ≠ [] then
        ({ m with store := { m.store with reshape := none } } : Mach).setDimmChan r.channel (if m.chanState r.channel = 3 then 3 else 1)
      else m
    | none => m
  (m.setDie d 1).notice 0x8012 ([byteOf d] ++ leBytes 2 (m.reg 0x3022 3 0))

/-- FENCE_DRAIN_DONE: step 3 ends once no command is in flight on the die. -/
def Mach.rowFenceDrainDone (m : Mach) (d : Nat) : Mach :=
  if (m.fence? d).any (·.step == .draining) && m.sched.slots.all fun (p : Nat × Cmd) => slotDie p.1 != d then
    m.setFence d ⟨.writeback⟩
  else m

/-- COMMAND_DRAIN_BOUND_EXPIRY: commands still running end with FENCED_DIE. -/
def Mach.rowCommandDrainBoundExpiry (m : Mach) (d : Nat) : Mach :=
  if !((m.fence? d).any (·.step == .draining)) then m else
  let m := (m.xl.migrations.filter fun g => slotDie g.slot == d).foldl (fun m g => m.migRelease g) m
  let m := ((tkeys m.sched.slots).filter fun k => slotDie k == d).foldl (fun m k => m.endNow k stFencedDie) m
  m.teardownCheck.setFence d ⟨.writeback⟩

/-- FENCE_WRITEBACK_DONE: steps 4 to 6: what the die's hosts hold is recalled first (04_host_ports.md R115); the cache has
been written back and the die is cut off. -/
def Mach.rowFenceWritebackDone (m : Mach) (d : Nat) : Mach :=
  if !((m.fence? d).any (·.step == .writeback)) then m else
  match m.recallHosts fun die _ => die == d with
  | some m => m
  | none => Mach.fenceSplit 8 (m.cutDie d false)

/-- Every Col copy of a line dropped, an M copy written to the media first, with what any home's filter says of it. -/
def Mach.purgeLine (m : Mach) (line : Nat) : Mach :=
  let m := m.col.caches.foldl (fun m (c : Nat × List (Nat × ColLine)) =>
    (c.2.filter fun x => x.1 == line && x.2.st == .M).foldl (fun m x => m.writeBackLine c.1 line x.2.val) m) m
  m.dropLines fun l => l == line

/-- The cached lines that a test picks. -/
def Mach.cachedLines (m : Mach) (p : Nat → Bool) : List Nat :=
  (m.col.caches.flatMap fun (c : Nat × List (Nat × ColLine)) => (c.2.map Prod.fst).filter p).eraseDups

/-- R30: the home remap table without a fenced die, under a new generation. -/
def Mach.remapFence (m : Mach) (d : Nat) : Mach :=
  let next := if m.dieState (Nat.xor d 1) = 1 ∧ Nat.xor d 1 < m.dies then Nat.xor d 1
    else ((List.range m.dies).find? fun k => m.dieState k == 1).getD 0
  let m := (List.range 8).foldl (fun m i => if m.reg 0x3381 (1 + i) 0 = d then m.setReg 0x3381 (1 + i) 0 next else m) m
  m.nextGen 0x3381 9

/-- FENCE_SURVIVOR_WRITEBACK_DONE: steps 7 to 9: the survivors have dropped every line homed on the die, what their hosts hold
of them recalled first; the remap table commits; the die FENCED, its domains off. Requests that waited for their home go on. -/
def Mach.rowFenceSurvivorWritebackDone (m : Mach) (d : Nat) : Mach :=
  if !((m.fence? d).any (·.step == .survivors)) then m else
  match m.recallHosts fun _ h => m.homeOf (h.line * 64) == d with
  | some m => m
  | none =>
    let m := (m.cachedLines fun l => m.homeOf (l * 64) == d).foldl Mach.purgeLine m
    let m := m.remapFence d
    let m := { m with fences := tdel m.fences d }
    let m := m.setDie d 3
    let m := [0, 1, 2, 3, 4, 5, 6].foldl (fun m k => if m.domain d k = 0 then m else m.setDomain d k 3) m
    (List.range m.dies).foldl Mach.hostRetryAll m

/-! ## Rejoin (R33) -/

/-- The die in reset, its links to dies in service retraining. -/
def Mach.rejoin (q : Requester) (d : Nat) (m : Mach) : Except Nat Mach :=
  if m.dies ≤ d then .error abRange
  else if m.dieState d ≠ 3 then .error abBusy
  else
    let m := (m.setDie d 4).auditReq q 0x0031 [byteOf d, 1]
    .ok (m.colLinks.foldl (fun m l =>
      if (l.2.1 = d ∧ m.dieActive l.2.2) ∨ (l.2.2 = d ∧ m.dieActive l.2.1) then m.setReg 0x7011 (1 + l.1) 0 2 else m) m)

/-- DIE_REJOIN: 0x2211.01 with 0x2211.02 = 1. -/
def Mach.rowDieRejoin (m : Mach) (s : Src) (d : Nat) : Mach :=
  if m.reg 0x2211 2 0 ≠ 1 then m else m.dictWrite s 0x2211 1 (Mach.rejoin s.q d)

/-- DIE_REJOIN_DONE: the die's links have trained, and of its channels that were DOWN those that `t0` and `t1` say: domains on,
media back, queues DISABLED, channels IDLE, ports as their entries say, the die ACTIVE. -/
def Mach.rowDieRejoinDone (m : Mach) (d : Nat) (t0 t1 : Bool) : Mach :=
  if m.dies ≤ d ∨ m.dieState d ≠ 4 then m else
  let m := (m.linksOf d).foldl (fun m l => if m.reg 0x7011 (1 + l) 0 = 2 then m.setReg 0x7011 (1 + l) 0 1 else m) m
  let m := [0, 1, 2, 3, 4, 5, 6].foldl (fun m k => if m.domain d k = 3 then m.setDomain d k 1 else m) m
  let m := [2 * d, 2 * d + 1].foldl (fun m s => if m.stackState s = 0 then m else m.setStack s 1) m
  let m := [(2 * d, t0), (2 * d + 1, t1)].foldl (fun m (c : Nat × Bool) =>
    if m.chanState c.1 = 3 ∧ c.2 then m.setDimmChan c.1 1 else m) m
  let m := (List.range 512).foldl (fun m i => m.setQState (512 * d + i) 0) m
  let m := (List.range 64).foldl (fun m c => m.setReg 0x5301 3 (chanKey d c) 0) m
  let m := m.setDie d 1
  let m := [2 * d, 2 * d + 1].foldl (fun m l => if m.linkState l = 5 then m.setLinkState l 1 else m) m
  let m := if d < 2 ∧ m.hasStandby then m.setReg 0x6010 6 0 1 else m
  (m.bringPort d).watch.retryAllocs

end Sys2Proof.Machine
end

