-- ==== Sys2Proof/Machine/Value.lean ====
section
/-! DEFINITION. What a read of each dictionary entry shows (14_cairn.md R392-R395, R402, R406; 19_object_index.md R515 and the
owning chapters' tables): entries that are kept, and entries that follow from other state. -/

namespace Sys2Proof.Machine

/-! ## Dates (R406, R407) -/

/-- The days of a month. -/
def daysInMonth (y mo : Nat) : Nat :=
  let leap := (y % 4 == 0 && y % 100 != 0) || y % 400 == 0
  ([31, 28, 31, 30, 31, 30, 31, 31, 30, 31, 30, 31].getD (mo - 1) 0) + b2n (mo == 2 && leap)

/-- Days since 1970-01-01 of a date. -/
def daysOf (y mo d : Nat) : Int :=
  let y := if mo ≤ 2 then y - 1 else y
  let era := y / 400
  let yoe := y % 400
  let doy := (153 * (if 2 < mo then mo - 3 else mo + 9) + 2) / 5 + d - 1
  let doe := yoe * 365 + yoe / 4 - yoe / 100 + doy
  (era * 146097 + doe : Nat) - 719468

/-- The year, month and day that days since 1970-01-01 give, in the proleptic Gregorian calendar. -/
def civilOf (z : Int) : Nat × Nat × Nat :=
  let z := (z + 719468).toNat
  let era := z / 146097
  let doe := z % 146097
  let yoe := (doe - doe / 1460 + doe / 36524 - doe / 146096) / 365
  let doy := doe - (365 * yoe + yoe / 4 - yoe / 100)
  let mp := (5 * doy + 2) / 153
  let mo := if mp < 10 then mp + 3 else mp - 9
  (yoe + era * 400 + b2n (decide (mo ≤ 2)), mo, doy - (153 * mp + 2) / 5 + 1)

/-- A DATE (Table 14-8). -/
def dateCode (y mo d : Nat) : Nat := y % 65536 + mo * 65536 + d * 2 ^ 24

/-- A TIMEOFDAY (Table 14-8). -/
def todCode (h mi s ns : Nat) : Nat := h + mi * 256 + s * 65536 + ns * 2 ^ 32

/-- Nanoseconds of the second that the calendar is in. -/
def Mach.calendarNs (m : Mach) : Nat := ((((m.now : Int) + toSigned 64 (m.reg 0x1300 6 0)) % 800000000).toNat) * 5 / 4

/-- 0x1300.01. -/
def Mach.dateNow (m : Mach) : Nat := let (y, mo, d) := civilOf (m.utcSeconds / 86400); dateCode y mo d
/-- 0x1300.02. -/
def Mach.todNow (m : Mach) : Nat :=
  let s := (m.utcSeconds % 86400).toNat
  todCode (s / 3600) (s / 60 % 60) (s % 60) m.calendarNs
/-- 0x1300.09. -/
def Mach.weekday (m : Mach) : Nat := ((m.utcSeconds / 86400 + 3) % 7 + 1).toNat

/-! ## Text and addresses -/

/-- The bytes of a name of the manual. -/
def textBytes (s : String) : List Byte := s.toList.map fun c => byteOf c.toNat

/-- An IPv6 address as it is written, most significant byte first. -/
def ipv6Bytes (n : Nat) : List Byte := (leBytes 16 n).reverse

/-- R385: FE80::4B5A:38:s:n, once a node ID is held. -/
def Mach.linkLocal (m : Mach) : Nat :=
  if m.reg 0x1100 1 0 = 0xFF then 0
  else 0xFE80 * 2 ^ 112 + 0x4B5A * 2 ^ 48 + 0x0038 * 2 ^ 32 + m.reg 0x1100 2 0 * 65536 + m.reg 0x1100 1 0

/-- A stepping's name: a letter and a digit (19_object_index.md R515). -/
def steppingName : List Byte := [byteOf (65 + Config.steppingCode / 4 % 4), byteOf (48 + Config.steppingCode % 4)]

/-- The PCI device ID of the variant (R103). -/
def Mach.deviceId (m : Mach) : Nat := 0x8A00 + m.dies

/-! ## Entries that follow from other state -/

/-- Identity (R515). -/
def Mach.value1000 (m : Mach) (sub : Nat) : Option DVal :=
  match sub with
  | 1 => some (.oct (textBytes "Krestad"))
  | 2 => some (.oct (textBytes "KZ8-" ++ [byteOf (48 + m.dies)]))
  | 3 => some (.num m.dies)
  | 4 => some (.oct steppingName)
  | 5 => some (.num (Config.steppingCode % 16))
  | 6 => some (.num (Config.vendorId % 65536))
  | 7 => some (.num m.deviceId)
  | 8 => some (.num (Config.jep106 % 2048))
  | 9 => some (.oct (slice Config.macAddress 0 6))
  | 0x0A => some (.oct (Config.serialNumber.take 32))
  | 0x0B => some (.num (m.reg 0x6010 2 0))
  | 0x0C => some (.oct m.identity)
  | 0x0D => some (.num m.node)
  | _ => none

/-- The Cairn port, the staging set of a requester, the selected subscriber, the calendar. -/
def Mach.valueCairn (m : Mach) (q : Requester) (idx sub : Nat) : Option DVal :=
  let s := m.req q
  match idx with
  | 0x1100 => if sub = 8 then some (.oct (ipv6Bytes m.linkLocal)) else if sub = 0x0A then some (.num (m.cairn.reqs.filter fun (p : Nat × ReqState) => decide (p.1 < 8)).length) else none
  | 0x1110 => match sub with
    | 3 => some (.num s.stage.length)
    | 4 => some (.num s.lastAbort)
    | 5 => some (.num s.lastEntry)
    | _ => none
  | 0x1120 => match tget m.cairn.subs (m.sel q 0x1120 1) with
    | none => none
    | some x => match sub with
      | 2 => some (.num (if x.inBand then 2 else 1))
      | 3 => some (.oct (if x.inBand then slice [byteOf (x.addr / 16), byteOf (x.addr % 16)] 0 16 else ipv6Bytes x.addr))
      | 4 => some (.num x.owner)
      | 5 => some (.oct (leBytes 32 x.filter))
      | 6 => some (.num x.queue.length)
      | 7 => some (.num x.lost)
      | _ => none
  | 0x1300 => match sub with
    | 1 => some (.num m.dateNow)
    | 2 => some (.num m.todNow)
    | 3 => some (.oct (leBytes 4 m.dateNow ++ leBytes 8 m.todNow))
    | 4 => some (.num (ofSigned 32 m.utcOffset))
    | 9 => some (.num m.weekday)
    | _ => none
  | _ => none

/-- Table 16-10: an audit entry as its 128 bytes. -/
def AuditEntry.bytes (e : AuditEntry) : List Byte :=
  leBytes 8 e.sequence ++ leBytes 8 e.time ++ leBytes 8 e.utc ++ leBytes 2 e.code ++ [byteOf e.actorKind, byteOf e.actor] ++
  zeros 4 ++ slice e.detail 0 48 ++ slice e.chain 0 48

/-- The newest sequence of the audit log. -/
def Mach.newestAudit (m : Mach) : Nat := (m.sec.auditNext + 2 ^ 64 - 1) % 2 ^ 64

/-- The audit log (R467, R469). -/
def Mach.value1210 (m : Mach) (q : Requester) (sub : Nat) : Option DVal :=
  match sub with
  | 1 => some (.num m.newestAudit)
  | 2 => some (.num ((m.sec.audit.head?.map (·.sequence)).getD m.newestAudit))
  | 4 => some (.oct (((m.sec.audit.find? fun e => e.sequence == m.sel q 0x1210 3).map AuditEntry.bytes).getD (zeros 128)))
  | 5 =>
    let head := leBytes 8 m.newestAudit ++ slice m.sec.auditChain 0 48
    some (.oct (head ++ slice (Config.aliasSign (Config.sha384 head)) 0 96))
  | 6 => some (.oct (slice m.sec.auditAnchor 0 48))
  | _ => none

/-- Table 16-5: the fuses of each tally. -/
def tallyFuses : List Nat := [256, 4, 12, 64, 64, 32, 256, 128, 208]

/-- The fuses that remain in a tally. -/
def Mach.tallyLeft (m : Mach) (k : Nat) : Nat := tallyFuses.getD k 0 - tgetD m.sec.flash.burnt k 0

/-- Security: identity, key hashes, tallies. -/
def Mach.valueSec (m : Mach) (idx sub : Nat) : Option DVal :=
  match idx with
  | 0x6003 => if sub = 1 then some (.oct m.identity) else if 3 ≤ sub ∧ sub ≤ 6 then some (.oct (slice (Config.keyHash (sub - 3)) 0 48)) else none
  | 0x6100 => if 1 ≤ sub ∧ sub ≤ 9 then some (.num (m.tallyLeft (sub - 1)))
    else if sub = 0x0A then some (.num (sumL ((List.range 9).map m.tallyLeft))) else none
  | _ => none

/-- The words of a granule map entry (Tables 03-1, 03-2). -/
def Granule.word0 (e : Granule) : Nat :=
  (match e.loc with | .unbacked => 0 | .stack => 1 | .dimm => 2 | .comp => 3 | .lost => 4) * 2 ^ 61 +
  e.domain * 2 ^ 57 + e.frame * 2 ^ 29 + e.chunk * 2 ^ 22 + e.chunks * 2 ^ 15
/-- Word 1. -/
def Granule.word1 (e : Granule) : Nat := b2n e.moving * 2 ^ 63 + e.hint * 2 ^ 60 + b2n e.sat * 2 ^ 59 + e.last * 2 ^ 43

/-- The store. -/
def Mach.valueStore (m : Mach) (q : Requester) (idx sub : Nat) : Option DVal :=
  let g := granuleOf (m.sel q 0x3030 1)
  let k := m.sel q 0x3422 1
  match idx, sub with
  | 0x3000, 2 => some (.num m.physicalStore)
  | 0x3000, 3 => some (.num (m.reg 0x3000 1 0 / 4096 + 64 * 2 ^ 20 * m.dies))
  | 0x3000, 4 => some (.num m.backed)
  | 0x3001, 1 => some (.num m.stackUsable)
  | 0x3001, 2 => some (.num m.stackFreeAll)
  | 0x3001, 3 => some (.num (sumL ((List.range 9).map m.domainFrames)))
  | 0x3001, 4 => some (.num (sumL ((List.range 9).map m.dimmFree)))
  | 0x3001, 5 => some (.num (m.store.gran.filter fun (p : Nat × Granule) => p.2.loc == .comp).length)
  | 0x3010, 7 => some (.num m.pinCeiling)
  | 0x3020, 1 => some (.num m.globalGiB)
  | 0x3030, 2 => some (.num (m.gran g).word0)
  | 0x3030, 3 => some (.num (m.gran g).word1)
  | 0x3030, 4 => some (.num (m.age g))
  | 0x3420, 5 => some (.num m.extents)
  | 0x3420, 6 => some (.num (m.extents - m.store.leases.length))
  | 0x3421, 2 => some (.num (m.req q).acquired)
  | 0x3422, 2 => some (.num (m.lease k).state)
  | 0x3422, 3 => some (.num (m.lease k).holder)
  | 0x3422, 4 => some (.num (m.lease k).expiry)
  | _, _ => none

/-- Whether confidential mode hides a tenant's counter from a requester (16_security.md R458). -/
def Mach.hidden (m : Mach) (q : Requester) (owner : Nat) : Bool :=
  m.confState == 2 && owner == m.tenant && m.identOf q != some m.tenant && !hasRole (m.roles q) .custodian

/-- Host ports, translation, links, queues and engines. -/
def Mach.valueUnits (m : Mach) (q : Requester) (idx sub : Nat) : Option DVal :=
  let row := m.rowOf q idx sub
  match idx, sub with
  | 0x3400, 6 => if m.reg 0x6001 3 0 = 1 then some (.num 1) else none
  | 0x3402, 2 => some (.num (m.vectors (2 * (row / 32) + row / 16 % 2) (row % 16)))
  | 0x3610, 8 => some (.num (m.astInFlight row))
  | 0x4010, 2 => some (.num (b2n (m.portEnabled row)))
  | 0x4011, 9 => some (.num (b2n (m.dateline row)))
  | 0x4400, 4 => some (.num 0)
  | 0x4500, 2 => some (.num m.configDigest)
  | 0x5001, 2 => some (.num (sumL ((m.eng.crag.crags.filter fun (p : Nat × Crag) => p.1 / 40 == row && p.2.slot.isSome).map fun p => 2 ^ (p.1 % 40))))
  | 0x5001, 3 => some (.num (m.eng.crag.reqs.filter fun r => r.die == row).length)
  | 0x5301, 8 => some (.num (m.chanTicks row / ticksPerUs))
  | 0x5400, 3 => some (.num m.sched.slots.length)
  | 0x5410, 4 => some (.num (m.eventCount row))
  | 0x5401, 0x10 => some (.num (if m.hidden q (m.qOwner row) then 0 else (m.inFlight row).length))
  | 0x2101, 5 => some (.num ((tget m.tele.rails (row * 8)).elim 0 (·.2)))
  | 0x2220, 5 => some (.num (if row % 16 = 1 then (m.engCmds (row / 16)).length else 0))
  | _, _ => if idx = 0x5110 ∧ 2 ≤ sub ∧ sub ≤ 0x45 ∧ m.hidden q (m.reg 0x5101 2 row) then some (.num 0) else none

/-- Telemetry (17_telemetry.md). -/
def Mach.valueTele (m : Mach) (q : Requester) (idx sub : Nat) : Option DVal :=
  let die := m.sel q 0x7100 1
  let rail := m.sel q 0x7100 2
  let port := m.sel q 0x7102 1
  let eye := tget m.tele.eyes (port * 32 + m.sel q 0x7102 2)
  let src := m.sel q 0x7101 1
  let pos := m.sel q 0x7150 1 * 8 + m.sel q 0x7150 4
  let dark := ofSigned 32 (-4000)
  match idx, sub with
  | 0x7000, 2 => some (.num (b2n (m.req q).snapView))
  | 0x7000, 4 => some (.num (m.req q).snapTime)
  | 0x7100, 3 => some (.num (m.headroom die rail))
  | 0x7100, 4 => some (.num ((tget m.tele.rails (die * 8 + rail)).elim 0 (·.2)))
  | 0x7100, 6 => some (.num (m.slackOf die (m.sel q 0x7100 5)))
  | 0x7100, 7 => some (.num (worstLow ((List.range 8).map (m.headroom die))))
  | 0x7100, 8 => some (.num (worstLow ((List.range 16).map (m.slackOf die))))
  | 0x7101, 2 => some (.num (ofSigned 32 (m.marginLevel (src % 256) (src / 256) 2)))
  | 0x7101, 3 => some (.num (ofSigned 32 (m.marginLevel (src % 256) (src / 256) 3)))
  | 0x7102, 3 => some (.num (eye.elim 0 (·.1)))
  | 0x7102, 4 => some (.num (eye.elim 0 (·.2.1)))
  | 0x7102, 5 => some (.num (eye.elim 0xFFFFFFFF fun e => min 0xFFFFFFFE ((m.now - e.2.2) / ticksPerMs)))
  | 0x7102, 6 => some (.num (((m.eyesOf port).map Prod.fst).min?.getD 0xFFFF))
  | 0x7102, 7 => some (.num (m.codewordRate port))
  | 0x7150, 5 => some (.num ((tget m.tele.power pos).elim dark (·.1)))
  | 0x7150, 6 => some (.num ((tget m.tele.power pos).elim dark (·.2)))
  | 0x9020, 1 => some (.num (Config.steppingCode % 16 * 2 ^ 28 + m.deviceId * 4096 + Config.jep106 % 2048 * 2 + 1))
  | 0x9020, 2 => some (.num (b2n m.pinsAccepted))
  | _, _ => none

/-- The value of an entry as a requester reads it now, by its selections; a counter read through the requester's snapshot is the
captured one (R472). -/
def Mach.value (m : Mach) (q : Requester) (idx sub : Nat) : DVal :=
  let row := m.rowOf q idx sub
  let s := m.req q
  if isSelection idx sub then .num (m.sel q idx sub)
  else if s.snapView && snapCounter idx sub then .num (tgetD s.snap (regKey (dictIndex idx) sub row) 0)
  else
    let special :=
      if idx = 0x1000 then m.value1000 sub
      else if idx < 0x1200 ∨ idx = 0x1300 then m.valueCairn q idx sub
      else if idx = 0x1210 then m.value1210 q sub
      else if 0x6000 ≤ idx ∧ idx < 0x7000 then m.valueSec idx sub
      else if 0x7000 ≤ idx ∧ idx < 0x8000 ∨ 0x9000 ≤ idx then m.valueTele q idx sub
      else (m.valueStore q idx sub).orElse fun _ => m.valueUnits q idx sub
    match special with
    | some v => v
    | none =>
      match dictLine idx sub with
      | none => .num 0
      | some e =>
        if e.ty.isBytes then
          (if 0x8000 ≤ idx ∧ idx ≤ 0x8FFF then .oct ((tget m.cairn.octs (regKey 0x8000 1 (idx - 0x8000))).getD []) else .oct (m.oct idx sub row))
        else .num (m.reg idx sub row)

/-- A read's own effect (R393, Table 14-9): a read-clear entry goes back to its default, unless it is read from a snapshot. -/
def Mach.readClear (m : Mach) (q : Requester) (idx sub : Nat) : Mach :=
  let row := m.rowOf q idx sub
  if (idx = 0x3051 ∧ 1 ≤ sub) ∨ (idx = 0x7101 ∧ sub = 5) then m.setOct idx sub row (zeros 16)
  else if idx = 0x7070 ∧ sub = 9 ∧ !(m.req q).snapView then m.setReg idx sub row 0
  else m

end Sys2Proof.Machine
end

