-- ==== Sys2Proof/Machine/WriteRules.lean ====
section
/-! DEFINITION. Writes of numeric entries that have no row of their own (14_cairn.md R395): the ranges, the QUIESCE and state
conditions and the effects that the owning chapters give them. -/

namespace Sys2Proof.Machine

/-! ## Ranges -/

/-- Table 14-8 and R9: whether a number fits a line of the dictionary: its type, its reserved bits, its range. -/
def DEntry.inRange (e : DEntry) (v : Nat) : Bool :=
  (e.ty != .bool || decide (v ≤ 1)) && Nat.land v e.mask == v && decide (e.lo ≤ v) && decide (v ≤ e.hi) && v % e.mult == 0

/-- Whether a number is a power of two. -/
def powerOfTwo (v : Nat) : Bool := v != 0 && 2 ^ Nat.log2 v == v

/-- R145, R146: whether topology, sizes, own node and express ports agree. -/
def Mach.topologyOk (m : Mach) : Bool :=
  let t := m.reg 0x4000 1 0
  let sizes := (List.range m.dims).map m.dimSize
  let most := if t = 0 then 64 else if t = 1 then 16 else 8
  let express := m.reg 0x4000 7 0 == 1 || m.reg 0x4000 8 0 == 1
  decide (t ≤ 2) && (t == 0 || (t == 1 && decide (4 ≤ m.dies)) || m.dies == 8) &&
  sizes.all (fun n => decide (1 ≤ n) && decide (n ≤ most)) && m.torusNode m.node &&
  (!express || (m.dies == 8 && sizes.any (fun n => decide (1 < n)) && sizes.all (fun n => n == 1 || n % 2 == 0)))

/-- R107: the vectors that a port's LDs have together. -/
def Mach.portVectors (m : Mach) (port : Nat) : Nat :=
  let links := if m.reg 0x3400 2 port = 1 then [2 * port, 2 * port + 1] else [2 * port]
  sumL (links.flatMap fun l => (List.range (m.reg 0x3400 3 port)).map fun ld => m.vectors l ld)

/-- Whether a value of an entry that an entry's own line does not bound is out of range; a selection that names a resource
that the variant lacks is (R513). -/
def Mach.writeRange (m : Mach) (q : Requester) (idx sub v : Nat) : Bool :=
  let row := m.rowOf q idx sub
  let s := toSigned 32 v
  match idx, sub with
  | 0x2101, 1 => decide (m.dies ≤ v)
  | 0x2201, 1 => decide (m.dies ≤ v)
  | 0x2220, 1 => decide (m.dies ≤ v)
  | 0x5001, 1 => decide (m.dies ≤ v)
  | 0x5301, 1 => decide (m.dies ≤ v)
  | 0x7100, 1 => decide (m.dies ≤ v)
  | 0x9010, 1 => decide (m.dies ≤ v)
  | 0x5401, 1 => decide (512 * m.dies ≤ v)
  | 0x3422, 1 => decide (m.extents ≤ v)
  | 0x3400, 1 => decide (m.dies ≤ v)
  | 0x4010, 1 => decide (m.dies ≤ v)
  | 0x4501, 1 => decide (m.dies ≤ v)
  | 0x7102, 1 => decide (m.dies ≤ v)
  | 0x7150, 1 => decide (4 * m.dies ≤ v)
  | 0x4210, 1 => decide (7 < v) || v % 4 == 3
  | 0x2220, 2 => decide (7 < v)
  | 0x1210, 3 => !(m.sec.audit.any fun e => e.sequence == v)
  | 0x7101, 1 => decide (6 < v % 256) || decide (4096 ≤ v) || (if v % 256 < 2 then v / 256 != 0xF else decide (m.dies ≤ v / 256))
  | 0x7150, 8 => ! [0, 1, 2, 0x10, 0x11].contains v
  | 0x3610, 2 => v % 4096 != 0
  | 0x3610, 5 => v % 128 != 0
  | 0x3400, 6 => decide (m.dies ≤ row) || (v == 0 && m.reg 0x6001 3 0 == 1)
  | 0x3400, _ => decide (m.dies ≤ row)
  | 0x3402, 2 => decide (m.dies ≤ row / 32) || !powerOfTwo v || decide (2048 < (m.setReg 0x3402 2 row v).portVectors (row / 32))
  | 0x4000, 9 => false
  | 0x4000, _ => !(m.setReg 0x4000 sub 0 v).topologyOk
  | 0x3010, 2 => decide (m.reg 0x3010 3 0 ≤ v)
  | 0x3010, 3 => decide (v ≤ m.reg 0x3010 2 0)
  | 0x4210, 2 => decide (m.reg 0x4210 3 row ≤ v)
  | 0x4210, 3 => decide (v ≤ m.reg 0x4210 2 row)
  | 0x4231, 2 => !powerOfTwo v || decide (v < 65536) || decide (2 ^ 30 < v)
  | 0x4230, 4 => decide (512 ≤ v) && v != 0xFFFF
  | 0x4230, 7 => decide (16 ≤ v) && v != 0xFF
  | 0x4230, 8 => decide (512 ≤ v)
  | 0x4481, 2 => !m.torusNode v
  | 0x5401, 3 => decide (64 ≤ v) && v != 0xFF
  | 0x5401, 4 => decide (4096 ≤ v) && v != 0xFFFF
  | 0x5101, 2 => decide (0x40 ≤ v) && decide (v ≤ 0xFD)
  | 0x5410, 2 => decide (0x40 ≤ v) && decide (v ≤ 0xFD)
  | 0x2100, 1 => decide (v < 125 * m.dies) || decide (300 * m.dies < v)
  | 0x2201, 2 => decide (2 < v) && (decide (v < 0x10) || decide (0x37 < v))
  | 0x2010, 1 => !m.clockCode v
  | 0x2010, 2 => !m.clockCode v
  | 0x2002, 4 => v != 0x10 && v != 0xFF && !m.clockCode v
  | 0x5000, 1 => v != 0 && (decide (v < 1000) || decide (4000000000 < v))
  | 0x5300, 1 => v != 0 && (decide (v < 1000) || decide (4000000000 < v))
  | 0x5300, 2 => decide (86400000 < v)
  | 0x5400, 1 => v != 0 && (decide (v < 10) || decide (1000000 < v))
  | 0x7101, 3 =>
    let warn := m.marginLevel (row % 256) (row / 256) 2
    if row % 256 = 4 then decide (s < warn) else decide (warn < s)
  | 0x7101, 4 => decide (3 < v) || (v == 2 && decide (row % 256 < 2)) || (v == 3 && decide (2 ≤ row % 256))
  | 0x7140, 2 => !m.spanSourceOk v
  | 0x7140, 3 => !m.spanSourceOk v
  | 0x4201, _ =>
    if sub ≤ 5 then
      (decide (sub ≤ 3) && decide (v < 65)) ||
        decide (49152 < 6 * sumL ((List.range 5).map fun k => (m.setReg 0x4201 sub 0 v).reg 0x4201 (1 + k) 0))
    else decide (sub ≤ 0x0A) && (decide (s < -4) || decide (3 < s))
  | _, _ => false

/-! ## Conditions of QUIESCE entries, and states that entries name -/

/-- Whether every Ridgeline port is off, DISABLED or LOST (05_ridgeline_links.md, Table 05-17; R203; R383). -/
def Mach.portsQuiet (m : Mach) : Bool := (List.range m.dies).all fun p => [0, 1, 11].contains (m.pState p)

/-- Whether every LD of a port is UNBOUND or DOWN. -/
def Mach.ldsQuiet (m : Mach) (port : Nat) : Bool :=
  m.host.lds.all fun (p : Nat × Ld) => p.1 / 32 != port || p.2.bind == .unbound || p.2.bind == .down

/-- Whether a write's condition does not hold. -/
def Mach.writeBusy (m : Mach) (q : Requester) (idx sub : Nat) : Bool :=
  let row := m.rowOf q idx sub
  match idx with
  | 0x3610 => [2, 4, 5, 6].contains sub && (m.ast? row).isSome
  | 0x3400 => if sub = 1 then false else if sub = 2 then
      decide (1 < m.linkState (2 * row)) || decide (1 < m.linkState (2 * row + 1)) else !m.ldsQuiet row
  | 0x3402 => sub == 2 && (m.ld? (2 * (row / 32) + row / 16 % 2) (row % 16)).any (·.bind == .bound)
  | 0x4000 => decide (sub ≤ 8) && !m.portsQuiet
  | 0x4201 => decide (sub ≤ 5) && !m.portsQuiet
  | 0x4231 => !m.portsQuiet
  | 0x1320 => sub == 2 && !m.portsQuiet
  | 0x5401 => decide (2 ≤ sub) && decide (sub ≤ 0x0E) && ! [0x0B, 0x0D, 0x0E].contains sub && m.qState row != 0
  | 0x2010 => decide (sub ≤ 3) && m.reg 0x2010 5 0 == 1
  | 0x6020 => decide (sub ≤ 3) && m.confState != 0
  | 0x7140 => (sub == 2 || sub == 3) && m.reg 0x7140 8 row != 0
  | _ => false

/-- R487: a span source of the tenant's is locked to others while confidential mode is not OFF. -/
def Mach.spanLocked (m : Mach) (q : Requester) (idx sub v : Nat) : Bool :=
  idx == 0x7140 && (sub == 2 || sub == 3) && m.tenantEvent (v / 2 ^ 24) (v % 65536) &&
  m.identOf q != some m.tenant && !hasRole (m.roles q) .custodian

/-! ## Effects -/

/-- A port that has become off, or has ceased to be, after a change of topology. -/
def Mach.refreshPort (m : Mach) (p : Nat) : Mach :=
  if m.offPort p then m.setReg 0x4011 1 p 0 else if m.pState p = 0 then m.setReg 0x4011 1 p 1 else m

/-- 0x3400.02: the second link of a port there, DOWN, or absent. -/
def Mach.bifurcate (m : Mach) (port v : Nat) : Mach :=
  let m := m.setReg 0x3400 2 port v
  if m.linkState (2 * port) = 5 then m else m.setLinkState (2 * port + 1) (if v = 1 then 1 else 0)

/-- 0x3400.03: LDs beyond the count go DOWN, and new ones of a link that is up are UNBOUND. -/
def Mach.setLdCount (m : Mach) (port n : Nat) : Mach :=
  [2 * port, 2 * port + 1].foldl (fun m link =>
    (List.range 16).foldl (fun m ld =>
      let up := decide (3 ≤ m.linkState link) && decide (m.linkState link ≤ 4)
      match m.ld? link ld with
      | some l =>
        if n ≤ ld then m.setLd link ld { Ld.reset with bind := .down }
        else if up ∧ l.bind = .down then m.setLd link ld { l with bind := .unbound } else m
      | none => if up ∧ ld < n then m.setLd link ld { Ld.reset with bind := .unbound } else m) m)
    (m.setReg 0x3400 3 port n)

/-- What an accepted write of an entry without a row of its own does. -/
def Mach.applyEntry (m : Mach) (q : Requester) (idx sub v : Nat) : Mach :=
  let row := m.rowOf q idx sub
  let w := m.setReg idx sub row v
  if isSelection idx sub then m.setSel q idx sub v else
  match idx, sub with
  | 0x7000, 2 => m.setReq q { m.req q with snapView := v == 1 }
  | 0x5401, 3 =>
    match m.identOf q with
    | some i => if hasRole (m.roles q) .steward then w else m.setReg 0x5401 3 row i
    | none => w
  | 0x2100, 1 => w.auditReq q 0x0035 ([4] ++ leBytes 2 v)
  | 0x5101, 2 => w.auditReq q 0x0037 [1, byteOf row, byteOf v]
  | 0x5410, 2 => w.auditReq q 0x0037 [0, byteOf row, byteOf v]
  | 0x1300, 4 => m.setUtc (m.actorOf q.code) fun m => m.setReg 0x1300 4 0 v
  | 0x1320, 3 => if v = 0 then w.setUtc (0, 0) fun m => m.setReg 0x1300 0x0A 0 0 else w
  | 0x5420, 2 => if v = 0 then { w with eng := { w.eng with cirque := { w.eng.cirque with cache := [] } } } else w
  | 0x3400, 2 => m.bifurcate row v
  | 0x3400, 3 => m.setLdCount row v
  | 0x3400, 5 =>
    if v = 0 then [2 * row, 2 * row + 1].foldl (fun m l => if 2 ≤ m.linkState l ∧ m.linkState l ≤ 4 then m.linkLost l 0 1 else m) w else w
  | 0x3050, _ => w.watch
  | 0x4000, 9 => w
  | 0x4000, _ => (List.range m.dies).foldl Mach.refreshPort w
  | _, _ => w

/-- A write of a numeric entry without a row of its own, whose value has passed its type and its line's range. -/
def Mach.writeRule (m : Mach) (q : Requester) (idx sub v : Nat) : Except Nat Mach :=
  if m.writeRange q idx sub v then .error abRange
  else if m.writeBusy q idx sub then .error abBusy
  else .ok (m.applyEntry q idx sub v)

end Sys2Proof.Machine
end

