-- ==== Sys2Proof/Machine/CommitOps.lean ====
section
/-! DEFINITION. Staging and commits (14_cairn.md R396): the checks of the owning chapters, the fuses of TAL entries (16_security.md
R453-R455), the switch to the new generation and what follows from it. -/

namespace Sys2Proof.Machine

/-! ## The tables as a set would leave them -/

/-- A staged value written into its entry. -/
def Mach.putStaged (m : Mach) (x : Staged) : Mach :=
  match x.val with
  | .num n => m.setReg x.index x.sub x.row n
  | .oct bs => m.setOct x.index x.sub x.row bs

/-- The machine with every staged value in its entry. -/
def Mach.putAll (m : Mach) (st : List Staged) : Mach := st.foldl Mach.putStaged m

/-- Whether a set touches a table. -/
def touches (st : List Staged) (idx : Nat) : Bool := st.any (·.index == idx)

/-- The rows of a table for which an entry that flags validity has been written. -/
def Mach.rowsOf (m : Mach) (idx sub : Nat) : List Nat :=
  m.cairn.regs.filterMap fun (p : Nat × Nat) => if p.1 / 2 ^ 32 = idx * 256 + sub then some (p.1 % 2 ^ 32) else none

/-- The entries of a table that are valid (R396): by its valid flag, or bit 0 of its flags. -/
def Mach.validRows (m : Mach) (idx : Nat) : List Nat :=
  let flag (sub : Nat) : List Nat := (m.rowsOf idx sub).filter fun r => m.reg idx sub r % 2 == 1
  match idx with
  | 0x4410 => flag 6
  | 0x3040 => flag 6
  | 0x3410 => flag 5
  | 0x4100 => flag 4
  | 0x4101 => flag 3
  | 0x4400 => flag 6
  | 0x5210 => flag 7
  | 0x4510 => flag 7
  | _ => []

/-- Whether the entries of a table have a valid flag. -/
def hasValid (idx : Nat) : Bool := [0x4410, 0x3040, 0x3410, 0x4100, 0x4101, 0x4400, 0x5210, 0x4510].contains idx

/-- A failed check: the abort, and the entry it names. -/
abbrev Failure := Nat × Nat × Nat

/-- A check: nothing when it holds. -/
def bad (c : Bool) (abort idx sub : Nat) : List Failure := if c then [(abort, idx, sub)] else []

/-- The range and the alignment that a line of the dictionary gives an entry. -/
def Mach.lineBad (v : Mach) (idx sub row : Nat) : List Failure :=
  match dictLine idx sub with
  | none => []
  | some e => bad (!e.ty.isBytes && !e.inRange (v.reg idx sub row)) abRange idx sub

/-- The staged entries' own ranges: in a table with a valid flag, every entry of its valid rows; elsewhere, the staged ones. -/
def Mach.linesBad (v : Mach) (st : List Staged) : List Failure :=
  st.flatMap fun x =>
    if hasValid x.index then
      (if (v.validRows x.index).contains x.row then v.lineBad x.index x.sub x.row else [])
    else v.lineBad x.index x.sub x.row

/-- Two ranges (base, length) overlap. -/
def overlap (a b : Nat × Nat) : Bool := decide (a.1 < b.1 + b.2) && decide (b.1 < a.1 + a.2)

/-- 2 MiB. -/
def mib2 : Nat := 2097152
/-- The Host Range Table's valid ranges. -/
def Mach.hrtRanges (v : Mach) : List (Nat × Nat) := (v.validRows 0x3410).map fun r => (v.reg 0x3410 3 r, v.reg 0x3410 4 r)
/-- The loan pool. -/
def Mach.pool (v : Mach) : Nat × Nat := (v.reg 0x3420 1 0, v.reg 0x3420 2 0)
/-- The end of the device address space. -/
def Mach.spaceEnd (v : Mach) : Nat := v.reg 0x3000 1 0

/-- Whether some range overlaps a later one of a list. -/
def anyOverlap : List (Nat × Nat) → Bool
  | [] => false
  | a :: t => t.any (overlap a) || anyOverlap t

/-! ## The checks of the tables. `m` is the machine as it is, `v` as the commit would leave it. -/

/-- 01_organisation.md R34. -/
def check3381 (m v : Mach) : List Failure :=
  bad ((List.range m.dies).any fun d => m.dieState d == 2) abConflict 0x3381 1 ++
  ((List.range m.dies).flatMap fun k =>
    let h := v.reg 0x3381 (1 + k) 0
    bad (decide (m.dies ≤ h) || m.dieState h != 1) abRange 0x3381 (1 + k))

/-- 02_address_spaces.md R55, R65; 06_ridgeline_memory.md R178: valid windows; a window that relocates stands. -/
def check4410 (m v : Mach) : List Failure :=
  ((v.validRows 0x4410).flatMap fun r =>
    let base := v.reg 0x4410 2 r
    let len := v.reg 0x4410 3 r
    let g := v.reg 0x4410 4 r
    bad (base % mib2 != 0) abRange 0x4410 2 ++
    bad (len == 0 || len % mib2 != 0 || decide (2 ^ 38 < len) || decide (v.spaceEnd < base + len)) abRange 0x4410 3 ++
    bad (v.reg 0x4400 6 g % 2 == 0 || decide (base < v.reg 0x4400 2 g) ||
      decide (v.reg 0x4400 2 g + v.reg 0x4400 3 g < base + len)) abRange 0x4410 4) ++
  (match m.fab.reloc with
    | none => []
    | some x => [2, 3, 4, 5, 6].flatMap fun k => bad (m.reg 0x4410 k x.window != v.reg 0x4410 k x.window) abConflict 0x4410 k)

/-- 03_store_tiers.md R72. -/
def check3040 (v : Mach) : List Failure :=
  let rows := v.validRows 0x3040
  (rows.flatMap fun r =>
    bad (v.reg 0x3040 2 r % mib2 != 0) abRange 0x3040 2 ++ bad (v.reg 0x3040 3 r % mib2 != 0) abRange 0x3040 3 ++
    bad (decide (7 < v.reg 0x3040 5 r) && v.reg 0x3040 5 r != 0xF) abRange 0x3040 5) ++
  bad (anyOverlap (rows.map fun r => (v.reg 0x3040 2 r, v.reg 0x3040 3 r))) abRange 0x3040 2

/-- R85: the end of the device address space. -/
def check3000 (m v : Mach) : List Failure :=
  let n := v.spaceEnd
  let above (r : Nat × Nat) : Bool := r.2 != 0 && decide (n < r.1 + r.2)
  let windows := (v.validRows 0x4410).map fun r => (v.reg 0x4410 2 r, v.reg 0x4410 3 r)
  let places := (v.validRows 0x3040).map fun r => (v.reg 0x3040 2 r, v.reg 0x3040 3 r)
  bad (n % 2 ^ 30 != 0 || decide (2 ^ 44 < n) || decide (3 * v.physicalFor (v.sysFrames n) < 2 * n)) abRange 0x3000 1 ++
  bad ((v.hrtRanges ++ [v.pool] ++ windows ++ places).any above) abRange 0x3000 1 ++
  bad (decide (m.stackFreeAll < m.sysFrames n - m.sysFrames m.spaceEnd)) abConflict 0x3000 1

/-- The members of the die-local domains for a boundary G (R71). -/
def Mach.remember (m : Mach) : Mach :=
  let g := m.globalGiB
  let all := m.members 0
  let t := (List.range m.dies).foldl (fun t d =>
    tput t (1 + d) (all.filter fun c => c / 2 == d && decide (g < tgetD m.store.dimmGiB c 0))) m.store.members
  { m with store := { m.store with members := t } }

/-- R73: G. -/
def check3020 (m v : Mach) : List Failure :=
  let small := ((m.store.dimmGiB.map Prod.snd).min?).getD 0
  let w := v.remember
  bad (decide (small < v.reg 0x3020 1 0)) abRange 0x3020 1 ++
  bad ((List.range 9).any fun d => (m.usedDimm d).any fun f => decide (w.domainFrames d ≤ f)) abConflict 0x3020 1

/-- R91. -/
def check3410 (v : Mach) : List Failure :=
  ((v.validRows 0x3410).flatMap fun r =>
    let base := v.reg 0x3410 3 r
    let len := v.reg 0x3410 4 r
    bad (base % mib2 != 0) abRange 0x3410 3 ++
    bad (len % mib2 != 0 || decide (len < 2 ^ 30) || decide (v.spaceEnd < base + len)) abRange 0x3410 4 ++
    bad (v.pool.2 != 0 && overlap (base, len) v.pool) abRange 0x3410 3) ++
  bad (anyOverlap v.hrtRanges) abRange 0x3410 3

/-- R92-R94: the loan pool. -/
def check3420 (m v : Mach) : List Failure :=
  let p := v.pool
  bad (m.pool != p && !m.store.leases.isEmpty) abConflict 0x3420 1 ++
  bad (p.1 % 2 ^ 30 != 0) abRange 0x3420 1 ++
  bad (p.2 % 2 ^ 30 != 0 || (p.2 != 0 && decide (v.spaceEnd < p.1 + p.2))) abRange 0x3420 2 ++
  bad (p.2 != 0 && v.hrtRanges.any (overlap p)) abRange 0x3420 1

/-- 04_host_ports.md R108: no key hash in two identities. -/
def check3430 (v : Mach) : List Failure :=
  let hash (s i : Nat) : List Byte := v.oct 0x3430 s i
  let twice (i : Nat) : Bool := [2, 3].any fun s => !allZero (hash s i) &&
    (List.range i).any fun j => hash s i == hash 2 j || hash s i == hash 3 j
  bad ((List.range 64).any twice) abRange 0x3430 2

/-- 05_ridgeline_links.md R152: whether a port code names a port that is off, or the express pair without one. -/
def Mach.portGone (v : Mach) (c : Nat) : Bool :=
  (decide (c < 8) && v.offPort c) || (c == 9 && !v.expressPort 6 && !v.expressPort 7) || (decide (9 < c) && c != 15)

/-- R152: routes. -/
def check4100 (v : Mach) : List Failure :=
  let own := v.node
  bad (v.reg 0x4100 4 own != 1 || v.reg 0x4100 2 own != 8) abRange 0x4100 2 ++
  bad (v.reg 0x4100 3 own != 8) abRange 0x4100 3 ++
  ((remove (v.validRows 0x4100) own).flatMap fun r =>
    bad (v.reg 0x4100 2 r == 8 || v.portGone (v.reg 0x4100 2 r)) abRange 0x4100 2 ++
    bad (v.reg 0x4100 3 r == 8 || v.reg 0x4100 3 r == 9 || v.portGone (v.reg 0x4100 3 r)) abRange 0x4100 3)

/-- R152: detours. -/
def check4101 (v : Mach) : List Failure :=
  (v.validRows 0x4101).flatMap fun r =>
    bad (v.reg 0x4101 2 r == 8 || v.reg 0x4101 2 r == 9 || v.portGone (v.reg 0x4101 2 r)) abRange 0x4101 2

/-- 06_ridgeline_memory.md R178. -/
def check4400 (v : Mach) : List Failure :=
  (v.validRows 0x4400).flatMap fun r =>
    bad (v.reg 0x4400 2 r % mib2 != 0) abRange 0x4400 2 ++ bad (v.reg 0x4400 3 r % mib2 != 0) abRange 0x4400 3

/-- 10_cirque.md R307, R310: shards. -/
def check5210 (v : Mach) : List Failure :=
  (v.validRows 0x5210).flatMap fun r =>
    bad (v.reg 0x5210 2 r % 64 != 0) abRange 0x5210 2 ++ bad (decide (v.dies ≤ v.reg 0x5210 4 r)) abRange 0x5210 4 ++
    bad (decide (40 < v.reg 0x5210 5 r + v.reg 0x5210 6 r)) abRange 0x5210 6

/-- R310: fan-out windows. -/
def check5220 (v : Mach) : List Failure :=
  [1, 4].flatMap fun k =>
    let w := v.reg 0x5220 k 0
    bad (w != 0xFFFF && (decide (4096 ≤ w) || v.reg 0x4410 6 w != 1)) abRange 0x5220 k

/-- R310: the members of a fan-out set are torus nodes. -/
def check5231 (v : Mach) (st : List Staged) : List Failure :=
  (st.filter (·.index == 0x5231)).flatMap fun x =>
    let e := v.reg 0x5231 x.sub x.row
    bad (bit e 31 && !v.torusNode (bits e 24 16)) abRange 0x5231 x.sub

/-- 13_acting_as_one.md R369. -/
def check4510 (v : Mach) : List Failure :=
  (v.validRows 0x4510).flatMap fun g =>
    let low := v.reg 0x4510 3 g
    if v.reg 0x4510 2 g = 0 then
      bad (!v.torusNode low) abRange 0x4510 3 ++
      bad ((List.range 3).any fun k => decide (v.dimSize k < v.coord low k + v.boxSize g k)) abRange 0x4510 4
    else bad (allZero (v.oct 0x4510 5 g)) abRange 0x4510 5

/-- 14_cairn.md R400. -/
def check1200 (v : Mach) : List Failure :=
  let rows := (List.range 16).filter fun r => !allZero (v.oct 0x1200 2 r)
  bad (!rows.any fun r => bit (v.reg 0x1200 3 r) 3) abRange 0x1200 3 ++
  bad (!rows.any fun r => bit (v.reg 0x1200 3 r) 2) abRange 0x1200 3 ++
  bad (rows.any fun r => rows.any fun s => decide (s < r) && v.oct 0x1200 2 s == v.oct 0x1200 2 r) abRange 0x1200 2

/-- 17_telemetry.md R482. -/
def check9000 (v : Mach) : List Failure :=
  let ring := (v.reg 0x9000 3 0, v.reg 0x9000 4 0)
  bad (ring.1 % mib2 != 0) abRange 0x9000 3 ++
  bad (ring.2 % mib2 != 0 || decide (2 ^ 36 < ring.2)) abRange 0x9000 4 ++
  bad (ring.2 != 0 && (v.hrtRanges ++ [v.pool]).any fun r => r.2 != 0 && overlap ring r) abRange 0x9000 3

/-! ## Tallies (R453, R454) -/

/-- The fuses a set needs, in order: the tallies they belong to. -/
def fusesOf (m v : Mach) : List Nat :=
  let ne (idx sub row : Nat) : Bool := m.reg idx sub row != v.reg idx sub row
  let when (c : Bool) (t : Nat) : List Nat := if c then [t] else []
  when (ne 0x6011 1 0) 0 ++
  ([1, 2, 3, 4].flatMap fun k => when (ne 0x6012 k 0) 1) ++
  when (ne 0x6003 2 0) 2 ++
  when (ne 0x6002 1 0 && v.reg 0x6002 1 0 == 1) 3 ++
  when (ne 0x6001 1 0) 4 ++ when (ne 0x6001 2 0) 5 ++
  ((List.range 8).flatMap fun r => when (ne 0x6000 3 r || m.oct 0x6000 2 r != v.oct 0x6000 2 r) 6) ++
  ([1, 2, 3, 4].flatMap fun k => when (m.oct 0x6030 k 0 != v.oct 0x6030 k 0) 7) ++
  when (ne 0x6001 3 0) 8 ++ when (ne 0x6001 4 0) 8

/-- R454: the first tally that has too few fuses, named by the entry it backs. -/
def checkTallies (m v : Mach) : List Failure :=
  let fs := fusesOf m v
  (List.range 9).flatMap fun t =>
    bad (decide (m.tallyLeft t < (fs.filter (· == t)).length)) abTally
      ([0x6011, 0x6012, 0x6003, 0x6002, 0x6001, 0x6001, 0x6000, 0x6030, 0x6001].getD t 0) ([1, 1, 2, 1, 1, 2, 2, 1, 3].getD t 0)

/-- One fuse burnt: counted, logged with its tally and count. -/
def Mach.burnFuse (q : Requester) (m : Mach) (t : Nat) : Mach :=
  let n := tgetD m.sec.flash.burnt t 0 + 1
  let m := { m with sec := { m.sec with flash := { m.sec.flash with burnt := tput m.sec.flash.burnt t n } } }
  m.auditReq q 0x0010 ([byteOf t] ++ leBytes 2 n)

/-- R454: notice 0x8135 of each tally that is low for the first time. -/
def Mach.noticeLow (m : Mach) : Mach :=
  (List.range 9).foldl (fun m t =>
    if !m.sec.lowNoticed.contains t ∧ m.tallyLeft t ≤ tallyFuses.getD t 0 / 4 then
      ({ m with sec := { m.sec with lowNoticed := insSorted m.sec.lowNoticed t } } : Mach).notice 0x8135
        ([byteOf t] ++ leBytes 2 (m.tallyLeft t))
    else m) m

/-! ## A set checked -/

/-- R396: every check of the tables that a set touches. -/
def Mach.commitChecks (m : Mach) (st : List Staged) : List Failure :=
  let v := m.putAll st
  let on (idx : Nat) (f : List Failure) : List Failure := if touches st idx then f else []
  v.linesBad st ++
  on 0x3381 (check3381 m v) ++ (if touches st 0x4410 || touches st 0x4400 then check4410 m v else []) ++
  on 0x3040 (check3040 v) ++ on 0x3000 (check3000 m v) ++ on 0x3020 (check3020 m v) ++ on 0x3410 (check3410 v) ++
  on 0x3420 (check3420 m v) ++ on 0x3430 (check3430 v) ++ on 0x4100 (check4100 v) ++ on 0x4101 (check4101 v) ++
  on 0x4400 (check4400 v) ++ on 0x5210 (check5210 v) ++ on 0x5220 (check5220 v) ++ on 0x5231 (check5231 v st) ++
  on 0x4510 (check4510 v) ++ on 0x1200 (check1200 v) ++ on 0x9000 (check9000 v) ++ checkTallies m v

/-! ## A set applied -/

/-- R118: the bound paths that an identity-table commit ends: the identity disabled, or the hash of the path's key slot
changed. -/
def Mach.dropPaths (m v : Mach) : List (Nat × Nat × Nat) :=
  m.host.lds.filterMap fun (p : Nat × Ld) =>
    if p.2.bind ≠ .bound then none
    else if v.reg 0x3430 5 p.2.ident ≠ 1 then some (p.1 / 16, p.1 % 16, 9)
    else if m.oct 0x3430 (2 + p.2.keySlot) p.2.ident ≠ v.oct 0x3430 (2 + p.2.keySlot) p.2.ident then some (p.1 / 16, p.1 % 16, 10)
    else none

/-- The generation of a table that is committed. -/
def generationOf (idx : Nat) : Option (Nat × Nat) :=
  match idx with
  | 0x3381 => some (0x3381, 9)
  | 0x4410 => some (0x4410, 7)
  | 0x3040 => some (0x3040, 7)
  | 0x3410 => some (0x3410, 6)
  | 0x3430 => some (0x3430, 6)
  | 0x4100 => some (0x4100, 6)
  | 0x4101 => some (0x4101, 4)
  | 0x4400 => some (0x4400, 9)
  | 0x4440 => some (0x4440, 6)
  | 0x5210 => some (0x5210, 8)
  | 0x5230 => some (0x5230, 5)
  | 0x5231 => some (0x5230, 5)
  | 0x4510 => some (0x4510, 0x0D)
  | 0x1200 => some (0x1200, 4)
  | _ => none

/-- The audit code of a table's commit (Table 16-11). -/
def auditOf (idx : Nat) : Option Nat :=
  if [0x5210, 0x5220, 0x5230, 0x5231, 0x4500, 0x4510, 0x4530].contains idx then some 0x0033
  else if idx = 0x1200 then some 0x0012 else none

/-- The tables of a set, each once. -/
def tablesOf (st : List Staged) : List Nat := (st.map (·.index)).eraseDups

/-- A set switched in: every value in its entry, the generations of its tables advanced, what the chapters make of it done. -/
def Mach.applySet (m : Mach) (q : Requester) (st : List Staged) : Mach :=
  let v := m.putAll st
  let lost := if touches st 0x3430 then m.dropPaths v else []
  let oldEnd := m.spaceEnd
  let oldG := m.globalGiB
  let tables := tablesOf st
  let gone := (m.validRows 0x4410).filter fun w => v.reg 0x4410 6 w != 1
  let m := if v.spaceEnd < oldEnd then m.scrubRange v.spaceEnd (oldEnd - v.spaceEnd) else m
  let m := m.putAll st
  let m := ((tables.filterMap generationOf).eraseDups).foldl (fun m g => m.nextGen g.1 g.2) m
  let m := tables.foldl (fun m t => (auditOf t).elim m fun c => m.auditReq q c (leBytes 2 t)) m
  let m := gone.foldl (fun m w => m.setReg 0x4411 1 w 0) m
  let m := lost.foldl (fun m x => m.losePath x.1 x.2.1 x.2.2) m
  let m := if touches st 0x4510 then ((st.filter (·.index == 0x4510)).map (·.row)).eraseDups.foldl Mach.showGroup m else m
  let m := if touches st 0x4500 then m.digestChanged else m
  let m := if oldEnd < m.spaceEnd then m.misplaced.foldl (fun m g => m.requestEvacuate g none) m else m
  let m := if m.globalGiB ≠ oldG then
      let m := m.remember
      { m with store := { m.store with unzeroed := m.store.unzeroed.filter fun f => match f with
        | .stack _ => true
        | .dimm d f => decide (f < m.domainFrames d) } }
    else m
  let m := if m.reg 0x6002 1 0 = 1 ∧ m.reg 0x6002 2 0 = 1 then (m.setReg 0x6002 2 0 2).auditReq q 0x0003 [1]
    else if m.reg 0x6002 1 0 = 0 ∧ m.reg 0x6002 2 0 = 2 then m.setReg 0x6002 2 0 1 else m
  m.watch.retryAllocs

/-- A range less others. -/
def rangeMinus (r : Nat × Nat) : List (Nat × Nat) → List (Nat × Nat)
  | [] => if r.2 = 0 then [] else [r]
  | c :: cs =>
    (rangeMinus r cs).flatMap fun x =>
      let lo := max x.1 c.1
      let hi := min (x.1 + x.2) (c.1 + c.2)
      if hi ≤ lo then [x]
      else (if x.1 < lo then [(x.1, lo - x.1)] else []) ++ (if hi < x.1 + x.2 then [(hi, x.1 + x.2 - hi)] else [])

/-- R92: the DPA that leaves the HRT ranges of an identity. -/
def hrtRemoved (m v : Mach) : List (Nat × Nat) :=
  (List.range 64).flatMap fun i =>
    let own (x : Mach) : List (Nat × Nat) :=
      ((x.validRows 0x3410).filter fun r => x.reg 0x3410 2 r == i).map fun r => (x.reg 0x3410 3 r, x.reg 0x3410 4 r)
    (own m).flatMap fun r => rangeMinus r (own v)

/-! ## Commit and discard -/

/-- A requester's last commit shown (0x1110.04, .05). -/
def Mach.commitResult (m : Mach) (q : Requester) (abort entry : Nat) : Mach :=
  m.setReq q { m.req q with lastAbort := abort, lastEntry := entry }

/-- A commit that is due, switched in and answered, once nothing is left to write back or scrub. -/
def Mach.finishCommit (m : Mach) : Mach :=
  match m.cairn.commit with
  | none => m
  | some c =>
    if c.remap ∨ c.scrub ≠ [] then m else
    let m := ({ m with cairn := { m.cairn with commit := none } } : Mach).applySet c.src.q c.stage
    let there := (tget m.cairn.reqs c.src.q.code).isSome
    (if there then m.commitResult c.src.q 0 0 else m).answerWrite c.src 0x1110 1 0

/-- The fuses of a set burnt in order, up to the one that fails. -/
def Mach.burnAll (m : Mach) (q : Requester) (fs : List Nat) (failAt : Option Nat) : Option Mach × Mach :=
  match failAt with
  | some k =>
    if k < fs.length then
      let m := (fs.take k).foldl (Mach.burnFuse q) m
      (none, m.notice 0x8136 [byteOf (fs.getD k 0), 0])
    else (some (fs.foldl (Mach.burnFuse q) m), m)
  | none => (some (fs.foldl (Mach.burnFuse q) m), m)

/-- COMMIT (R396, R454): every touched table checked, the fuses of TAL entries burnt (`failAt`: the one that does not read back
burnt), and all switched together; a remap first has its lines written back, and DPA that leaves an identity is first scrubbed.
Two commits are applied one after the other. -/
def Mach.rowCommit (m : Mach) (s : Src) (failAt : Option Nat) : Mach :=
  if !m.reaches s.q then m else
  match m.kept? s.q s.txn with
  | some r => (((m.bump 0x7110 1).bump 0x7110 3).bump 0x7110 2).emit (.response s.q r)
  | none =>
    match m.gate s.q 0x1110 1 with
    | some a => (m.bump 0x7110 1).answerWrite s 0x1110 1 a
    | none =>
      if m.cairn.commit.isSome then m else
      let m := m.bump 0x7110 1
      let st := (m.req s.q).stage
      match minBy (fun f : Failure => abortOrder f.1) (m.commitChecks st) with
      | some f => (m.commitResult s.q f.1 (f.2.1 * 256 + f.2.2)).answerWrite s 0x1110 1 f.1
      | none =>
        let v := m.putAll st
        match m.burnAll s.q (fusesOf m v) failAt with
        | (none, m) => ((m.commitResult s.q abGeneral 0).noticeLow).answerWrite s 0x1110 1 abGeneral
        | (some m, _) =>
          let m := ({ m with sec := { m.sec with flash := { m.sec.flash with recorded := m.sec.flash.burnt } } } : Mach).noticeLow
          let m := m.setReq s.q { m.req s.q with stage := [] }
          let remap := (List.range 8).any fun k => m.reg 0x3381 (1 + k) 0 != v.reg 0x3381 (1 + k) 0
          let c : PendingCommit := { src := s, stage := st, remap := remap, scrub := hrtRemoved m v }
          ({ m with cairn := { m.cairn with commit := some c } } : Mach).finishCommit

/-- DISCARD (R396): the staging set emptied. -/
def Mach.rowDiscard (m : Mach) (s : Src) : Mach :=
  m.dictWrite s 0x1110 2 fun m => .ok (m.setReq s.q { m.req s.q with stage := [] })

/-- HOME_REMAP_WRITEBACK_DONE (01_organisation.md R34): the lines whose home changes are recalled from hosts, then written back and
dropped by every die; the new generation takes effect. -/
def Mach.rowHomeRemapWritebackDone (m : Mach) : Mach :=
  match m.cairn.commit with
  | none => m
  | some c =>
    if !c.remap then m else
    let v := m.putAll c.stage
    let moves (l : Nat) : Bool := m.homeOf (l * 64) != v.homeOf (l * 64)
    match m.recallHosts fun _ h => moves h.line with
    | some m => m
    | none =>
      let m := (m.cachedLines moves).foldl Mach.purgeLine m
      ({ m with cairn := { m.cairn with commit := some { c with remap := false } } } : Mach).finishCommit

/-- HRT_SCRUB_DONE (03_store_tiers.md R92): what hosts hold of the DPA that leaves an identity is recalled, the DPA made UNBACKED;
the new bank takes effect. -/
def Mach.rowHrtScrubDone (m : Mach) : Mach :=
  match m.cairn.commit with
  | none => m
  | some c =>
    if c.scrub = [] then m else
    match m.recallHosts fun _ h => c.scrub.any fun r => overlap (h.line * 64, 64) r with
    | some m => m
    | none =>
      let m := c.scrub.foldl (fun m r => m.scrubRange r.1 r.2) m
      ({ m with cairn := { m.cairn with commit := some { c with scrub := [] } } } : Mach).finishCommit

end Sys2Proof.Machine
end

