-- ==== Sys2Proof/Machine/CairnRows.lean ====
section
/-! DEFINITION. What each command of the management port does (14_cairn.md R384-R409): requests, staged writes, notices,
enumeration, the calendar. -/

namespace Sys2Proof.Machine

/-! ## The calendar (R406-R408) -/

/-- R407: whether a DATE is valid. -/
def dateOk (v : Nat) : Bool :=
  let y := v % 65536
  let mo := bits v 23 16
  let d := bits v 31 24
  decide (1970 ≤ y) && decide (y ≤ 2399) && decide (1 ≤ mo) && decide (mo ≤ 12) && decide (1 ≤ d) && decide (d ≤ daysInMonth y mo)

/-- R407, Table 14-8: whether a TIMEOFDAY is valid. -/
def todOk (v : Nat) : Bool :=
  decide (bits v 7 0 < 24) && decide (bits v 15 8 < 60) && decide (bits v 23 16 < 60) && bits v 31 24 == 0 &&
  decide (bits v 63 32 < 1000000000)

/-- R408: the calendar made to show a date and a time of day now: source 1, the offset that gives it, the calendar valid. -/
def Mach.writeCalendar (m : Mach) (q : Requester) (date tod : Nat) : Mach :=
  let days := daysOf (date % 65536) (bits date 23 16) (bits date 31 24)
  let secs : Int := days * 86400 + (bits tod 7 0 * 3600 + bits tod 15 8 * 60 + bits tod 23 16 : Nat)
  let tai : Int := (secs + m.utcOffset) * 800000000 + (bits tod 63 32 * 4 / 5 : Nat)
  ((m.setReg 0x1300 5 0 1).setReg 0x1300 7 0 1).setCalendar (m.actorOf q.code) (tai - m.now)

/-- R408: the calendar moved to a date, whole days, with the time of day as it stands. -/
def Mach.writeDate (m : Mach) (q : Requester) (date : Nat) : Mach :=
  let days := daysOf (date % 65536) (bits date 23 16) (bits date 31 24) - m.utcSeconds / 86400
  ((m.setReg 0x1300 5 0 1).setReg 0x1300 7 0 1).setCalendar (m.actorOf q.code)
    (toSigned 64 (m.reg 0x1300 6 0) + days * 86400 * 800000000)

/-- DATE_WRITE: 0x1300.01; the time of day stands. -/
def Mach.rowDateWrite (m : Mach) (s : Src) (v : Nat) : Mach :=
  m.dictWrite s 0x1300 1 fun m => if !dateOk v then .error abDate else .ok (m.writeDate s.q v)

/-- TIME_OF_DAY_WRITE: 0x1300.02; the date stands. -/
def Mach.rowTimeOfDayWrite (m : Mach) (s : Src) (v : Nat) : Mach :=
  m.dictWrite s 0x1300 2 fun m => if !todOk v then .error abDate else .ok (m.writeCalendar s.q m.dateNow v)

/-- DATE_AND_TIME_WRITE: 0x1300.03: the DATE, then the TIMEOFDAY. -/
def Mach.rowDateAndTimeWrite (m : Mach) (s : Src) (bs : List Byte) : Mach :=
  m.dictWrite s 0x1300 3 fun m =>
    if bs.length ≠ 12 then .error abType
    else if !dateOk (fld bs 0 4) || !todOk (fld bs 4 8) then .error abDate
    else .ok (m.writeCalendar s.q (fld bs 0 4) (fld bs 4 8))

/-- CALENDAR_SOURCE_WRITE: 0x1300.05: only 0 may be written; the offset returns to 0. -/
def Mach.rowCalendarSourceWrite (m : Mach) (s : Src) (v : Nat) : Mach :=
  m.dictWrite s 0x1300 5 fun m =>
    if v ≠ 0 then .error abRange else .ok ((m.setReg 0x1300 5 0 0).setCalendar (m.actorOf s.q.code) 0)

/-! ## Enumeration (R386-R388, Table 14-2) -/

/-- Whether the management controller runs, so that enumeration and the Cairn port act (R387). -/
def Mach.managed (m : Mach) : Bool := decide (6 ≤ m.clk.stage)

/-- The enumeration's state changed. -/
def Mach.setEnum (m : Mach) (e : Enumeration) : Mach := { m with cairn := { m.cairn with enum := e } }

/-- Notice 0x8110: the state of 0x1100.06 and the value last decoded. -/
def Mach.enumNotice (m : Mach) : Mach := m.notice 0x8110 [byteOf (m.reg 0x1100 6 0), byteOf (m.cairn.enum.lastPulse.getD 0)]

/-- A node ID taken: PLCA follower and DAD started, own pulses driven from the next ms on. -/
def Mach.takeNodeId (m : Mach) (id state : Nat) : Mach :=
  let m := (m.setReg 0x1100 1 0 id).setReg 0x1100 6 0 state
  m.setEnum { m.cairn.enum with dadRunning := true, dadDone := false, wrongPulse := none, wrongCount := 0 }

/-- A valid pulse while an ID is held: the third in a row of one other value raises the notice, and the ID stands. -/
def Mach.heldPulse (m : Mach) (k : Nat) : Mach :=
  let e := m.cairn.enum
  if k = m.reg 0x1100 1 0 then m.setEnum { e with lastPulse := some k, wrongPulse := none, wrongCount := 0 }
  else
    let n := if e.wrongPulse = some k then e.wrongCount + 1 else 1
    if n = 3 then (m.setEnum { e with lastPulse := some k, wrongPulse := none, wrongCount := 0 }).enumNotice
    else m.setEnum { e with lastPulse := some k, wrongPulse := some k, wrongCount := n }

/-- ENUM_PULSE: a low pulse of ENUM_IN_L of `k` × 8 µs, within 2 µs; one of another width is ignored and counted. -/
def Mach.rowEnumPulse (m : Mach) (k : Nat) : Mach :=
  if !m.managed then m
  else if k = 0 ∨ 31 < k then m.bump 0x7110 9
  else
    let n := m.setEnum { m.cairn.enum with lastPulse := some k }
    match m.reg 0x1100 6 0 with
    | 0 => if m.cairn.enum.lastPulse = some k then n.takeNodeId k 1 else n
    | 1 => m.heldPulse k
    | 3 => m.heldPulse k
    | _ => n

/-- ENUM_PULSE_TIMEOUT: 1 s in WAITING without a valid pulse. -/
def Mach.rowEnumPulseTimeout (m : Mach) : Mach :=
  if m.managed ∧ m.reg 0x1100 6 0 = 0 then (m.setReg 0x1100 6 0 2).enumNotice else m

/-- ENUM_PULSE_PERIOD: the position pulse of a device with node ID 0-30: low for (n + 1) × 8 µs. -/
def Mach.rowEnumPulsePeriod (m : Mach) : Mach :=
  let n := m.reg 0x1100 1 0
  if m.managed ∧ n ≤ 30 then (m.setEnum { m.cairn.enum with drives := true }).emit (.position ((n + 1) * 8)) else m

/-- NODE_ID_SET_IN_BAND (R388): 0x1100.07. -/
def Mach.rowNodeIdSetInBand (m : Mach) (s : Src) (v : Nat) : Mach :=
  m.dictWrite s 0x1100 7 fun m =>
    if v < 1 ∨ 31 < v then .error abRange
    else if !s.q.isInBand ∨ !([0, 2, 4].contains (m.reg 0x1100 6 0)) then .error abBusy
    else .ok ((m.setReg 0x1100 7 0 v).takeNodeId v 3)

/-- DAD_COMPLETE: no duplicate; Cairn frames are accepted and sent. -/
def Mach.rowDadComplete (m : Mach) : Mach :=
  if m.managed ∧ m.cairn.enum.dadRunning then m.setEnum { m.cairn.enum with dadRunning := false, dadDone := true } else m

/-- DAD_CONFLICT: the address is in use: the port stops transmitting. -/
def Mach.rowDadConflict (m : Mach) : Mach :=
  if m.managed ∧ m.cairn.enum.dadRunning then
    ((m.setEnum { m.cairn.enum with dadRunning := false, dadDone := false }).setReg 0x1100 6 0 4).enumNotice
  else m

/-- PLCA_STATUS_CHANGE: beacons of the coordinator arrive, or no longer. -/
def Mach.rowPlcaStatusChange (m : Mach) (ok : Bool) : Mach :=
  if m.managed ∧ m.reg 0x1100 1 0 ≠ 0xFF then m.setReg 0x1100 0x0C 0 (b2n ok) else m

/-- ICMPV6_MESSAGE: an Echo Request (128) or a Neighbor Solicitation (135) for the link-local address is answered. -/
def Mach.rowIcmpv6Message (m : Mach) (kind target : Nat) : Mach :=
  if !m.cairnUp ∨ target ≠ m.linkLocal then m
  else if kind = 128 then m.emit (.icmp 129)
  else if kind = 135 then m.emit (.icmp 136)
  else m

/-! ## Subscriptions and notices (R403, R404) -/

/-- The owner and the address a requester subscribes with: credential and IPv6 address, or 0x40 + identity. -/
def Mach.subscriberKey (m : Mach) (q : Requester) : Option (Bool × Nat × Nat) :=
  match q with
  | .session n => (tget m.cairn.reqs n).map fun s => (false, s.owner, s.addr)
  | .inBand link ld => (m.boundIdent link ld).map fun i => (true, 0x40 + i, link * 16 + ld)
  | .bare => none

/-- Whether a subscription is of an owner: the same credential and address, or the same identity. -/
def Subscriber.isOf (x : Subscriber) (k : Bool × Nat × Nat) : Bool :=
  x.inBand == k.1 && x.owner == k.2.1 && (x.inBand || x.addr == k.2.2)

/-- SUBSCRIBE: 0x1121.01 (Table 14-11). -/
def Mach.rowSubscribe (m : Mach) (s : Src) (bs : List Byte) : Mach :=
  m.dictWrite s 0x1121 1 fun m =>
    match m.subscriberKey s.q with
    | none => .error abRole
    | some k =>
      let ring := fld bs 8 8
      if bs.length ≠ 48 then .error abType
      else if !allZero (slice bs 2 6) || (k.1 && ring % 8192 != 0) || (!k.1 && ring != 0) then .error abRange
      else
        let x : Subscriber := { inBand := k.1, owner := k.2.1, addr := k.2.2, port := fld bs 0 2, ring := ring
                                filter := fld bs 16 32, queue := [], next := 0, lost := 0, lostReported := 0, discards := 0 }
        let same := m.cairn.subs.find? fun (p : Nat × Subscriber) => p.2.isOf k
        match (same.map Prod.fst).or (firstFrom 4 0 fun n => (tget m.cairn.subs n).isNone) with
        | none => .error abRange
        | some n => .ok { m with cairn := { m.cairn with subs := tput m.cairn.subs n x } }

/-- UNSUBSCRIBE: 0x1121.02, by the subscription's owner or a Steward. -/
def Mach.rowUnsubscribe (m : Mach) (s : Src) (slot : Nat) : Mach :=
  m.dictWrite s 0x1121 2 fun m =>
    if 3 < slot then .error abRange else
    let mine := match tget m.cairn.subs slot, m.subscriberKey s.q with
      | some x, some k => x.inBand == k.1 && x.owner == k.2.1
      | _, _ => true
    if !mine && !hasRole (m.roles s.q) .steward then .error abRole
    else .ok { m with cairn := { m.cairn with subs := tdel m.cairn.subs slot } }

/-- Every notice sent up to a sequence acknowledged: it leaves the queue. -/
def Subscriber.acknowledge (x : Subscriber) (sequence : Nat) : Subscriber :=
  { x with
    queue := x.queue.filter fun n => n.sends == 0 || decide (2 ^ 31 ≤ (sequence + 2 ^ 32 - n.sequence) % 2 ^ 32)
    discards := 0 }

/-- The subscription of a requester acknowledges up to a sequence. -/
def Mach.acknowledge (m : Mach) (q : Requester) (sequence : Nat) : Mach :=
  match m.subscriberKey q with
  | none => m
  | some k => { m with cairn := { m.cairn with subs := m.cairn.subs.map fun (p : Nat × Subscriber) =>
      (p.1, if p.2.isOf k then p.2.acknowledge sequence else p.2) } }

/-- NOTICE_ACK: a KIND 0x04 frame inside a session. -/
def Mach.rowNoticeAck (m : Mach) (session sequence : Nat) : Mach :=
  if !m.reaches (.session session) then m else (m.bump 0x7110 1).acknowledge (.session session) sequence

/-- NOTICE_ACK_IN_BAND: a write of 0x1121.03. -/
def Mach.rowNoticeAckInBand (m : Mach) (s : Src) (sequence : Nat) : Mach :=
  m.dictWrite s 0x1121 3 fun m => .ok (if s.q.isInBand then m.acknowledge s.q sequence else m)

/-- Whether a subscriber can be reached now: an open session of its credential from its address, or a primary path of its
identity. -/
def Mach.subReach (m : Mach) (x : Subscriber) : Bool :=
  if x.inBand then !(m.pathOrder (x.owner - 0x40)).isEmpty
  else m.cairn.reqs.any fun (p : Nat × ReqState) =>
    decide (p.1 < 8) && p.2.owner == x.owner && p.2.addr == x.addr && (p.2.ridgeline || m.cairnUp)

/-- Bytes 16 onward of a notice frame (Table 14-12). -/
def QueuedNotice.bytes (n : QueuedNotice) : List Byte :=
  leBytes 2 n.number ++ leBytes 2 n.body.length ++ leBytes 4 n.sequence ++ leBytes 8 n.time ++ leBytes 4 n.lost ++ zeros 4 ++ n.body

/-- A notice sent to a subscriber: a KIND 0x03 frame in its session, or its slot of the ring and the vector in band. -/
def Mach.sendNotice (m : Mach) (slot : Nat) (x : Subscriber) (n : QueuedNotice) : Mach :=
  let x := { x with queue := x.queue.map fun y => if y.sequence = n.sequence then { y with sends := y.sends + 1 } else y }
  let m := { m with cairn := { m.cairn with subs := tput m.cairn.subs slot x } }
  let m := m.bump 0x7110 7
  if x.inBand then
    match m.pathOrder (x.owner - 0x40) with
    | [] => m
    | p :: _ =>
      let m := m.emit (.cxlWrite (p / 16) (p % 16) (x.ring + n.sequence % 64 * 128) n.bytes)
      if x.port = 0x7FF then m else m.msix (p / 16) (p % 16) x.port
  else (m.emit (.noticeFrame slot n)).bump 0x7110 2

/-- R404: the queued notices of a subscriber that may go now: its first 8 unacknowledged over Cairn, every one in band. -/
def Mach.deliverTo (m : Mach) (slot : Nat) : Mach :=
  match tget m.cairn.subs slot with
  | none => m
  | some x =>
    if !m.subReach x then m else
    ((if x.inBand then x.queue else x.queue.take 8).filter (·.sends == 0)).foldl (fun m n =>
      match tget m.cairn.subs slot with
      | some y => m.sendNotice slot y n
      | none => m) m

/-- Every queued notice that may go, sent. -/
def Mach.deliver (m : Mach) : Mach := [0, 1, 2, 3].foldl Mach.deliverTo m

/-- NOTICE_RETRANSMIT_EXPIRY: a notice unacknowledged for 100 ms sent again, or discarded after its fifth send; three discards in
a row drop the subscription. -/
def Mach.rowNoticeRetransmitExpiry (m : Mach) (slot sequence : Nat) : Mach :=
  match tget m.cairn.subs slot with
  | none => m
  | some x =>
    match x.queue.find? fun n => n.sequence == sequence && n.sends != 0 with
    | none => m
    | some n =>
      if n.sends < 5 then (if m.subReach x then m.sendNotice slot x n else m)
      else
        let m := m.bump 0x7110 8
        let x := { x with queue := x.queue.filter (fun y => y.sequence != sequence), lost := (x.lost + 1) % 2 ^ 32
                          discards := x.discards + 1 }
        if x.discards < 3 then { m with cairn := { m.cairn with subs := tput m.cairn.subs slot x } }
        else ({ m with cairn := { m.cairn with subs := tdel m.cairn.subs slot } } : Mach).notice 0x8112 [byteOf slot, byteOf x.owner]

/-! ## Staged writes (R396, R453) -/

/-- R453: a staged write of a TAL entry that no commit could take: the counting tallies rise by exactly 1, a revocation stands, one
key slot stays. -/
def Mach.tallyWriteBad (m : Mach) (q : Requester) (idx sub v : Nat) : Bool :=
  let step (old : Nat) : Bool := v != old && v != old + 1
  match idx, sub with
  | 0x6011, 1 => step (m.reg 0x6011 1 0)
  | 0x6003, 2 => step (m.reg 0x6003 2 0)
  | 0x6012, _ =>
    let after := (m.putAll (m.req q).stage).setReg 0x6012 sub 0 v
    (v == 0 && m.reg 0x6012 sub 0 == 1) || (v == 1 && [1, 2, 3, 4].all fun k => after.reg 0x6012 k 0 == 1)
  | _, _ => false

/-- R396: a value recorded in the writer's staging set, when no other set holds its key and the limits allow it. -/
def Mach.stageWrite (m : Mach) (q : Requester) (idx sub : Nat) (v : DVal) : Except Nat Mach :=
  let row := m.rowOf q idx sub
  let key (x : Staged) : Bool := x.index == idx && x.sub == sub && x.row == row
  let own := (m.req q).stage
  let all := sumL (m.cairn.reqs.map fun (p : Nat × ReqState) => p.2.stage.length)
  let other := m.cairn.reqs.any (fun (p : Nat × ReqState) => p.1 != q.code && p.2.stage.any key) ||
    m.cairn.commit.any (fun c => c.src.q != q && c.stage.any key)
  let tal := match v with | .num n => m.tallyWriteBad q idx sub n | .oct _ => false
  if tal then .error abRange
  else if !own.any key && (decide (4096 ≤ own.length) || decide (16384 ≤ all)) then .error abRange
  else if other then .error abConflict
  else .ok (m.stagePut q idx sub row v)

/-! ## Requests (R392-R398) -/

/-- The writes that have a row of their own, by entry and value. -/
def Mach.ownWrite (m : Mach) (s : Src) (idx sub v : Nat) (bs : List Byte) : Option Mach :=
  match idx, sub with
  | 0x2211, 1 => some (if m.reg 0x2211 2 0 = 0 then m.rowFenceOrderly s v else m.rowDieRejoin s v)
  | 0x3380, 3 => some (m.rowClearDownLink s v)
  | 0x3610, 3 => some (m.rowAstOwnerWrite s v)
  | 0x3610, 7 => some (if v = 1 then m.rowAstEnable s else m.rowAstDisable s)
  | 0x3630, 1 => some (m.rowInvalidateAst s v)
  | 0x3630, 2 => some (m.rowInvalidateAll s)
  | 0x3022, 1 => some (if m.reg 0x3022 2 0 = 0 then m.rowChannelRemove s v else m.rowChannelAdd s v)
  | 0x3026, 1 => some (m.rowStackRetire s v)
  | 0x3421, 1 => some (m.rowLeaseAcquire s v)
  | 0x3421, 3 => some (m.rowLeaseRenew s v)
  | 0x3421, 4 => some (m.rowLeaseRenewHolder s v)
  | 0x3421, 5 => some (m.rowLeaseRelease s v)
  | 0x3432, 1 => some (m.rowUnbindIdentity s v)
  | 0x4010, 2 => some (if v = 1 then m.rowPortEnable s else m.rowPortDisable s)
  | 0x4010, 4 => some (if v = 1 then m.rowPortFastRetrain s else m.rowPortFullRetrain s)
  | 0x4010, 5 => some (m.rowPortRelease s)
  | 0x4100, 5 => some (m.rowGenerateRoutes s)
  | 0x4400, 8 => some (m.rowRegionKeyBump s v)
  | 0x4480, 1 => some (m.rowEpochWrite s v)
  | 0x4481, 1 => some (m.rowRelocateWindow s v)
  | 0x4520, 3 => some (m.rowClearDeadNode s v)
  | 0x4521, 1 => some (m.rowJobTeardown s v)
  | 0x5401, 0x0F => some (if v = 1 then m.rowQueueEnable s else m.rowQueueDisable s)
  | 0x5402, 1 => some (m.rowQueueRestart s v)
  | 0x5402, 2 => some (m.rowQueueStop s v)
  | 0x5402, 3 => some (m.rowRingDoorbellRegister s v)
  | 0x5410, 4 => some (m.rowEventCountWrite s v)
  | 0x5110, 0x46 => some (m.rowClearSlotCounters s)
  | 0x5301, 4 => some (match v with
    | 1 => m.rowChannelStart s
    | 2 => m.rowChannelStop s
    | 3 => m.rowChannelClear s
    | 4 => m.rowChannelResume s
    | _ => m.rowChannelAbort s)
  | 0x1320, 0x0D => some (m.rowResynchronise s)
  | 0x4501, 3 => some (m.rowClearQuarantine s v)
  | 0x4510, 9 => some (m.rowGroupEpochWrite s v)
  | 0x1100, 7 => some (m.rowNodeIdSetInBand s v)
  | 0x1110, 1 => some (m.rowCommit s none)
  | 0x1110, 2 => some (m.rowDiscard s)
  | 0x1121, 1 => some (m.rowSubscribe s bs)
  | 0x1121, 2 => some (m.rowUnsubscribe s v)
  | 0x1121, 3 => some (m.rowNoticeAckInBand s v)
  | 0x1300, 1 => some (m.rowDateWrite s v)
  | 0x1300, 2 => some (m.rowTimeOfDayWrite s v)
  | 0x1300, 3 => some (m.rowDateAndTimeWrite s bs)
  | 0x1300, 5 => some (m.rowCalendarSourceWrite s v)
  | 0x2000, 1 => some (m.rowPreferredReferenceWrite s v)
  | 0x2001, 1 => some (m.rowDivisorCeilingWrite s v)
  | 0x2010, 4 => some (m.rowFrequencyCountStart s)
  | 0x2200, 1 => some (match v with | 1 => m.rowWarmResetRequest s | 2 => m.rowColdResetRequest s | _ => m.rowShutdownRequest s)
  | 0x2201, 3 => some (m.rowEngineReset s)
  | 0x2220, 4 => some (if v = 0 then m.rowDomainPowerDownRequest s else m.rowDomainPowerUpRequest s)
  | 0x6010, 4 => some (if v = 1 then m.rowActivateLive s else m.rowActivateAtColdReset s)
  | 0x6020, 5 => some (m.rowConfidentialEnter s)
  | 0x6020, 6 => some (m.rowConfidentialExit s)
  | 0x6031, 6 => some (if v = 1 then m.rowWeightBind s else m.rowWeightUnbind s)
  | 0x7000, 1 => some (m.rowSnapshot s)
  | 0x7000, 3 => some (m.rowClearCounters s)
  | 0x7140, 5 => some (if v = 1 then m.rowSpanArm s else m.rowSpanDisarm s)
  | 0x7140, 6 => some (m.rowSoftwareStart s)
  | 0x7140, 7 => some (m.rowSoftwareStop s)
  | 0x7140, 0x13 => some (m.rowClearSpan s)
  | 0x9000, 7 => some (if v = 1 then m.rowTraceStart s else m.rowTraceStop s)
  | 0x9010, 5 => some (m.rowDebugScratchWrite s bs)
  | _, _ => none

/-- The faults of a value written to an entry (R392, R396, R407, Table 14-8): its type and length, its date, its range; of a staged
one only its type, its reserved bits and whether a BOOL is 0 or 1. -/
def valueFaults (idx sub ty : Nat) (e : DEntry) (bs : List Byte) : List Nat :=
  let n := leNat bs
  let free := (idx, sub) == (0x9010, 5)
  if ty ≠ e.ty.code ∨ (!free ∧ !e.fits ty bs.length) ∨ e.ty = .domain then [abType]
  else if idx = 0x1300 ∧ sub = 1 then (if dateOk n then [] else [abDate])
  else if idx = 0x1300 ∧ sub = 2 then (if todOk n then [] else [abDate])
  else if idx = 0x1300 ∧ sub = 3 then (if dateOk (fld bs 0 4) && todOk (fld bs 4 8) then [] else [abDate])
  else if e.ty.isBytes then []
  else if e.acc = .rws ∨ e.acc = .tal then (if Nat.land n e.mask == n && (e.ty != .bool || decide (n ≤ 1)) then [] else [abRange])
  else if e.inRange n then [] else [abRange]

/-- A whole value written to an entry whose gate is passed: its faults with those of its request; a WO BOOL written 0 does nothing;
else the entry's own row, its staging set, or its own rule. The rows of entries count the frame themselves. -/
def Mach.writeValue (m : Mach) (s : Src) (idx sub ty : Nat) (bs : List Byte) (pre : List Nat) : Mach :=
  let reply (m : Mach) (a : Nat) : Mach := (m.bump 0x7110 1).answerWrite s idx sub a
  match dictLine idx sub with
  | none => m
  | some e =>
    let v := e.parse bs
    let n := leNat bs
    if m.spanLocked s.q idx sub n then reply m abLocked else
    match firstAbort (pre ++ valueFaults idx sub ty e bs) with
    | some a => reply m a
    | none =>
      if e.acc = .wo ∧ e.ty = .bool ∧ n = 0 then reply m 0
      else match m.ownWrite s idx sub n bs with
        | some m => m
        | none =>
          match (if e.acc = .rws ∨ e.acc = .tal then m.stageWrite s.q idx sub v
            else if e.ty.isBytes then .ok m else m.writeRule s.q idx sub n) with
          | .error a => reply m a
          | .ok m => reply m 0

/-- The gate of a read; a bare READ of 0x1000-0x10FF needs no role (R400). -/
def Mach.openGate (m : Mach) (q : Requester) (idx sub : Nat) : Option Nat :=
  if q = .bare then entryFault idx sub else m.readGate q idx sub

/-- The value that a requester's set holds for an RWS entry. -/
def Mach.stagedValue (m : Mach) (q : Requester) (idx sub : Nat) : Option DVal :=
  let row := m.rowOf q idx sub
  ((m.req q).stage.find? fun x => x.index == idx && x.sub == sub && x.row == row).map (·.val)

/-- The bytes that a read gives: the active value, or with STAGED the set's; a key value reads 0 (06_ridgeline_memory.md R178,
10_cirque.md R310). -/
def Mach.entryBytes (m : Mach) (q : Requester) (idx sub : Nat) (staged : Bool) : List Byte :=
  match dictLine idx sub with
  | none => []
  | some e =>
    let hidden := (idx == 0x4400 && sub == 4) || (idx == 0x5220 && (sub == 2 || sub == 5))
    let st := if staged && e.acc == .rws then m.stagedValue q idx sub else none
    if hidden then zeros e.ty.size else (st.getD (m.value q idx sub)).bytes e

/-- A READ served (R392). -/
def Mach.serveRead (m : Mach) (q : Requester) (r : Request) : Mach :=
  let s : Src := ⟨q, r.txn, false⟩
  match m.openGate q r.index r.sub with
  | some a => (m.bump 0x7110 1).answerReq q r a 0 []
  | none =>
    let bs := m.entryBytes q r.index r.sub (bit r.flags 1)
    match firstAbort (reqFaults r ++ (if 992 < bs.length then [abType] else [])) with
    | some a => (m.bump 0x7110 1).answerReq q r a (if 992 < bs.length then bs.length else 0) []
    | none =>
      if r.index = 0x3051 ∧ 1 ≤ r.sub then m.rowWatermarkRecordRead s (r.sub - 1)
      else if r.index = 0x9010 ∧ r.sub = 5 then m.rowDebugScratchRead s
      else if r.index = 0x7150 ∧ r.sub = 0x0B then m
      else ((m.bump 0x7110 1).readClear q r.index r.sub).answerReq q r 0 bs.length bs

/-- A WRITE served (R395). -/
def Mach.serveWrite (m : Mach) (q : Requester) (r : Request) : Mach :=
  match m.gate q r.index r.sub with
  | some a => (m.bump 0x7110 1).answerReq q r a 0 []
  | none =>
    if r.index = 0x7150 ∧ r.sub = 0x0B then m
    else m.writeValue ⟨q, r.txn, false⟩ r.index r.sub r.ty r.data (reqFaults r)

/-- A SEG_READ served (R393): OFFSET 0 takes the copy, read-clear entries being cleared at that moment; above it, bytes of the
copy. -/
def Mach.serveSegRead (m : Mach) (q : Requester) (r : Request) : Mach :=
  if r.index = 0x7150 ∧ r.sub = 0x0B ∨ r.index = 0x9010 ∧ r.sub = 5 then m else
  let m := m.bump 0x7110 1
  match m.readGate q r.index r.sub with
  | some a => m.answerReq q r a 0 []
  | none =>
    match firstAbort (reqFaults r) with
    | some a => m.answerReq q r a 0 []
    | none =>
      if r.off = 0 then
        let bs := m.entryBytes q r.index r.sub false
        let m := m.readClear q r.index r.sub
        let m := m.setReq q { m.req q with segRead := some ⟨r.index, r.sub, bs⟩ }
        m.answerReq q r 0 bs.length (bs.take 992)
      else
        match (m.req q).segRead with
        | none => m.answerReq q r abGeneral 0 []
        | some c =>
          if c.index ≠ r.index ∨ c.sub ≠ r.sub ∨ c.bytes.length ≤ r.off then m.answerReq q r abGeneral 0 []
          else m.answerReq q r 0 c.bytes.length ((c.bytes.drop r.off).take 992)

/-- A SEG_WRITE served (R393): with LAST the whole value is written as one write. -/
def Mach.serveSegWrite (m : Mach) (q : Requester) (r : Request) : Mach :=
  let reply (m : Mach) (a : Nat) : Mach := (m.bump 0x7110 1).answerReq q r a 0 []
  if r.index = 0x6010 ∧ r.sub = 3 then m.rowImageUpload q r
  else if r.index = 0x7150 ∧ r.sub = 0x0B then m
  else match m.gate q r.index r.sub with
  | some a => reply m a
  | none =>
    match firstAbort (reqFaults r ++ (if r.ty ≠ typeCode r.index r.sub then [abType] else [])) with
    | some a => reply m a
    | none =>
      match m.takeSegment q r with
      | (.error a, m) => reply m a
      | (.ok none, m) => reply m 0
      | (.ok (some bs), m) => m.writeValue ⟨q, r.txn, true⟩ r.index r.sub r.ty bs []

/-- A request served (R389-R400): a repeated transaction is answered with its kept response; a bare one is a READ of 0x1000-0x10FF
or is refused before any other check; an OP that is none of the four takes its place among the other faults. -/
def Mach.serveRequest (m : Mach) (q : Requester) (r : Request) : Mach :=
  if !m.reaches q then m else
  match m.kept? q r.txn with
  | some k => (((m.bump 0x7110 1).bump 0x7110 3).bump 0x7110 2).emit (.response q k)
  | none =>
    if q = .bare ∧ !(r.op == 1 && decide (0x1000 ≤ r.index) && decide (r.index ≤ 0x10FF)) then
      (m.bump 0x7110 1).answerReq q r abRole 0 []
    else match r.op with
    | 1 => m.serveRead q r
    | 2 => m.serveWrite q r
    | 3 => m.serveSegRead q r
    | 4 => m.serveSegWrite q r
    | _ =>
      let m := m.bump 0x7110 1
      let role := if m.roles q = 0 ∨ (q.isInBand ∧ m.reg 0x3450 1 0 = 0) then [abRole] else []
      m.answerReq q r ((firstAbort ((entryFault r.index r.sub).toList ++ role ++ reqFaults r)).getD abRange) 0 []

/-- CAIRN_REQUEST_READ. -/
def Mach.rowCairnRequestRead (m : Mach) (q : Requester) (r : Request) : Mach := m.serveRequest q { r with op := 1 }
/-- CAIRN_REQUEST_WRITE. -/
def Mach.rowCairnRequestWrite (m : Mach) (q : Requester) (r : Request) : Mach := m.serveRequest q { r with op := 2 }
/-- CAIRN_REQUEST_SEG_READ. -/
def Mach.rowCairnRequestSegRead (m : Mach) (q : Requester) (r : Request) : Mach := m.serveRequest q { r with op := 3 }
/-- CAIRN_REQUEST_SEG_WRITE. -/
def Mach.rowCairnRequestSegWrite (m : Mach) (q : Requester) (r : Request) : Mach := m.serveRequest q { r with op := 4 }

/-- STAGED_WRITE: a WRITE to an RWS or TAL entry. -/
def Mach.rowStagedWrite (m : Mach) (q : Requester) (r : Request) : Mach :=
  if (dictLine r.index r.sub).any fun e => e.acc == .rws || e.acc == .tal then m.serveRequest q { r with op := 2 } else m

/-- SEGMENT_LAPSE_EXPIRY (R393): 10 s without a segment: a requester's copy, or its unfinished write, is discarded. -/
def Mach.rowSegmentLapseExpiry (m : Mach) (q : Requester) (write : Bool) : Mach :=
  match tget m.cairn.reqs q.code with
  | none => m
  | some s => m.setReq q (if write then { s with segWrite := none } else { s with segRead := none })

end Sys2Proof.Machine
end

