-- ==== Sys2Proof/Machine/State.lean ====
section
/-! DEFINITION. The state of the block: the machine (Mach.lean) and the queue of commands that wait; how a step can stop;
the state after reset. -/

namespace Sys2Proof.Machine

/-- The machine and the commands that wait, first in, first out. -/
structure State where
  m : Mach
  pending : List Instr
  deriving DecidableEq, Repr

/-- No command of this block ends in a fault: the manual gives every one an effect, and an error is an effect on the state. -/
inductive Fault where
  deriving DecidableEq, Repr

/-- Why a command has no meaning. -/
inductive Refusal where
  /-- Raised by the dispatch for a command that is not modelled: none is left. Safe: nothing is proved of such a command. -/
  | notModelled (mnemonic : String)
  deriving DecidableEq, Repr

/-- The state that a power-up starts from: a KZ8-8 as it leaves the factory, without DIMMs, its supplies absent, RESET_IN_L
held low (15_clocks_power.md R424, R428; 18_electrical.md R491), and no command waiting. -/
def State.reset : State := { m := Mach.reset, pending := [] }

end Sys2Proof.Machine
end

