-- ==== Sys2Proof/Machine/Run.lean ====
section
/-! DEFINITION. What must run for a command to happen, and what the block does when no command waits.
A command of a block that its clock does not run changes nothing: nothing in it can happen then (15_clocks_power.md R428,
R430, R440). Events on pins happen whatever runs. -/

namespace Sys2Proof.Machine

/-- Whether both supplies are in range and neither a trip nor RESET_IN_L holds the device (R428, R430, R440, R491). -/
def Mach.powered (m : Mach) : Bool :=
  m.elec.suppliesOk && m.elec.vauxOk && !m.elec.vinLow && !m.clk.tripped && !m.elec.resetLow

/-- An operation that leaves alone what only pins and the variant decide: the supplies, RESET_IN_L, the straps, the number of
dies. -/
def Mach.inside (m : Mach) (f : Mach → Mach) : Mach := { f m with elec := m.elec, dies := m.dies }

/-- The state with its machine changed from inside the package, the queue as it was. -/
def State.after (s : State) (f : Mach → Mach) : State := { s with m := s.m.inside f }

/-- A command that the root clock runs: it happens only while the clock does. -/
def State.run (s : State) (f : Mach → Mach) : State := if s.m.clocked then s.after f else s

/-- An event of the clock loop and its references, which run on both supplies before the clock does (Table 15-8). -/
def State.powered (s : State) (f : Mach → Mach) : State := if s.m.powered then s.after f else s

/-- An event of the ALWAYS domain, which 3.3 V alone runs (R430, R501). -/
def State.onAux (s : State) (f : Mach → Mach) : State := if s.m.elec.vauxOk then s.after f else s

/-- An event of the supplies, RESET_IN_L or the straps: it happens whatever runs. -/
def State.pinEvent (s : State) (f : Mach → Mach) : State := { s with m := f s.m }

/-- An event at a pin of a host port or of a module cage: it happens whatever runs, and leaves the supplies, the straps and the
clocks alone. -/
def State.atPort (s : State) (f : Mach → Mach) : State :=
  { s with m := { f s.m with elec := s.m.elec, dies := s.m.dies, clk := s.m.clk } }

/-- DESIGN CHOICE: a step with no command waiting is one 1.25 ns tick of the timebase (13_acting_as_one.md R363), while it
runs, and the sending of queued notices (14_cairn.md R404). -/
def Mach.tick (m : Mach) : Mach :=
  if m.clocked && m.time.running then
    ({ m with time := { m.time with count := (m.time.count + 1) % 2 ^ 64 } } : Mach).inside Mach.deliver
  else m

end Sys2Proof.Machine
end

