-- ==== Sys2Proof/Machine/ExecCairn.lean ====
section
/-! DEFINITION. The meanings of the commands of 14_cairn.md: the dictionary, enumeration, notices, the calendar. Each one is its row's operation on the machine, under
what must run for the command to happen (Run.lean). -/

namespace Sys2Proof.Machine

/-- CAIRN_REQUEST_READ (R392). -/
def execCairnRequestRead (q : Requester) (r : Request) (s : State) : Host.Outcome State Fault Refusal :=
  .next (s.run fun m => m.rowCairnRequestRead q r)

/-- CAIRN_REQUEST_WRITE (R395). -/
def execCairnRequestWrite (q : Requester) (r : Request) (s : State) : Host.Outcome State Fault Refusal :=
  .next (s.run fun m => m.rowCairnRequestWrite q r)

/-- CAIRN_REQUEST_SEG_READ (R393). -/
def execCairnRequestSegRead (q : Requester) (r : Request) (s : State) : Host.Outcome State Fault Refusal :=
  .next (s.run fun m => m.rowCairnRequestSegRead q r)

/-- CAIRN_REQUEST_SEG_WRITE (R393). -/
def execCairnRequestSegWrite (q : Requester) (r : Request) (s : State) : Host.Outcome State Fault Refusal :=
  .next (s.run fun m => m.rowCairnRequestSegWrite q r)

/-- STAGED_WRITE (R396). -/
def execStagedWrite (q : Requester) (r : Request) (s : State) : Host.Outcome State Fault Refusal :=
  .next (s.run fun m => m.rowStagedWrite q r)

/-- NOTICE_ACK (R404). -/
def execNoticeAck (session sequence : Nat) (s : State) : Host.Outcome State Fault Refusal :=
  .next (s.run fun m => m.rowNoticeAck session sequence)

/-- NOTICE_ACK_IN_BAND (R404). -/
def execNoticeAckInBand (sender : Src) (sequence : Nat) (s : State) : Host.Outcome State Fault Refusal :=
  .next (s.run fun m => m.rowNoticeAckInBand sender sequence)

/-- NOTICE_RETRANSMIT_EXPIRY (R404). -/
def execNoticeRetransmitExpiry (slot sequence : Nat) (s : State) : Host.Outcome State Fault Refusal :=
  .next (s.run fun m => m.rowNoticeRetransmitExpiry slot sequence)

/-- SUBSCRIBE (R403). -/
def execSubscribe (sender : Src) (bs : List Byte) (s : State) : Host.Outcome State Fault Refusal :=
  .next (s.run fun m => m.rowSubscribe sender bs)

/-- UNSUBSCRIBE (R403). -/
def execUnsubscribe (sender : Src) (slot : Nat) (s : State) : Host.Outcome State Fault Refusal :=
  .next (s.run fun m => m.rowUnsubscribe sender slot)

/-- SEGMENT_LAPSE_EXPIRY (R393). -/
def execSegmentLapseExpiry (q : Requester) (write : Bool) (s : State) : Host.Outcome State Fault Refusal :=
  .next (s.run fun m => m.rowSegmentLapseExpiry q write)

/-- ENUM_PULSE (R387). -/
def execEnumPulse (k : Nat) (s : State) : Host.Outcome State Fault Refusal :=
  .next (s.run fun m => m.rowEnumPulse k)

/-- ENUM_PULSE_TIMEOUT (R387). -/
def execEnumPulseTimeout (s : State) : Host.Outcome State Fault Refusal :=
  .next (s.run fun m => m.rowEnumPulseTimeout)

/-- ENUM_PULSE_PERIOD (R386). -/
def execEnumPulsePeriod (s : State) : Host.Outcome State Fault Refusal :=
  .next (s.run fun m => m.rowEnumPulsePeriod)

/-- NODE_ID_SET_IN_BAND (R388). -/
def execNodeIdSetInBand (sender : Src) (v : Nat) (s : State) : Host.Outcome State Fault Refusal :=
  .next (s.run fun m => m.rowNodeIdSetInBand sender v)

/-- DAD_COMPLETE (R385). -/
def execDadComplete (s : State) : Host.Outcome State Fault Refusal :=
  .next (s.run fun m => m.rowDadComplete)

/-- DAD_CONFLICT (R385). -/
def execDadConflict (s : State) : Host.Outcome State Fault Refusal :=
  .next (s.run fun m => m.rowDadConflict)

/-- DATE_WRITE (R408). -/
def execDateWrite (sender : Src) (v : Nat) (s : State) : Host.Outcome State Fault Refusal :=
  .next (s.run fun m => m.rowDateWrite sender v)

/-- TIME_OF_DAY_WRITE (R408). -/
def execTimeOfDayWrite (sender : Src) (v : Nat) (s : State) : Host.Outcome State Fault Refusal :=
  .next (s.run fun m => m.rowTimeOfDayWrite sender v)

/-- DATE_AND_TIME_WRITE (R408). -/
def execDateAndTimeWrite (sender : Src) (bs : List Byte) (s : State) : Host.Outcome State Fault Refusal :=
  .next (s.run fun m => m.rowDateAndTimeWrite sender bs)

/-- CALENDAR_SOURCE_WRITE (R408). -/
def execCalendarSourceWrite (sender : Src) (v : Nat) (s : State) : Host.Outcome State Fault Refusal :=
  .next (s.run fun m => m.rowCalendarSourceWrite sender v)

/-- PLCA_STATUS_CHANGE (R384). -/
def execPlcaStatusChange (ok : Bool) (s : State) : Host.Outcome State Fault Refusal :=
  .next (s.run fun m => m.rowPlcaStatusChange ok)

/-- ICMPV6_MESSAGE (R385). -/
def execIcmpv6Message (kind target : Nat) (s : State) : Host.Outcome State Fault Refusal :=
  .next (s.run fun m => m.rowIcmpv6Message kind target)

end Sys2Proof.Machine
end

