-- ==== Sys2Proof/Machine/ExecCirque.lean ====
section
/-! DEFINITION. The meanings of the commands of 10_cirque.md: search. Each one is its row's operation on the machine, under
what must run for the command to happen (Run.lean). -/

namespace Sys2Proof.Machine

/-- SEARCH (R295). -/
def execSearch (slot : Nat) (s : State) : Host.Outcome State Fault Refusal :=
  .next (s.run fun m => m.rowSearch slot)

/-- INSERT (R302). -/
def execInsert (slot : Nat) (s : State) : Host.Outcome State Fault Refusal :=
  .next (s.run fun m => m.rowInsert slot)

/-- DELETE (R302). -/
def execDelete (slot : Nat) (s : State) : Host.Outcome State Fault Refusal :=
  .next (s.run fun m => m.rowDelete slot)

/-- MERGE (R303). -/
def execMerge (slot : Nat) (s : State) : Host.Outcome State Fault Refusal :=
  .next (s.run fun m => m.rowMerge slot)

/-- INDEX_LOCK_RETRY (R300). -/
def execIndexLockRetry (slot : Nat) (s : State) : Host.Outcome State Fault Refusal :=
  .next (s.run fun m => m.rowIndexLockRetry slot)

/-- FANOUT_BELL (R307). -/
def execFanoutBell (s : State) : Host.Outcome State Fault Refusal :=
  .next (s.run fun m => m.rowFanoutBell)

/-- FANOUT_COUNTER (R308). -/
def execFanoutCounter (s : State) : Host.Outcome State Fault Refusal :=
  .next (s.run fun m => m.rowFanoutCounter)

/-- FANOUT_RESPONSE_BOUND_EXPIRY (R308). -/
def execFanoutResponseBoundExpiry (s : State) : Host.Outcome State Fault Refusal :=
  .next (s.run fun m => m.rowFanoutResponseBoundExpiry)

end Sys2Proof.Machine
end

