-- ==== Sys2Proof/Machine/ExecClock.lean ====
section
/-! DEFINITION. The meanings of the commands of 15_clocks_power.md: references, resets, power-up. Each one is its row's operation on the machine, under
what must run for the command to happen (Run.lean). -/

namespace Sys2Proof.Machine

/-- REFERENCE_ABSENT (R411). -/
def execReferenceAbsent (pos : Nat) (s : State) : Host.Outcome State Fault Refusal :=
  .next (s.onAux fun m => m.rowReferenceAbsent pos)

/-- REFERENCE_QUALIFIED (R411). -/
def execReferenceQualified (pos : Nat) (s : State) : Host.Outcome State Fault Refusal :=
  .next (s.powered fun m => m.rowReferenceQualified pos)

/-- REFERENCE_COMPARE (R412). -/
def execReferenceCompare (countA countB : Nat) (s : State) : Host.Outcome State Fault Refusal :=
  .next (s.run fun m => m.rowReferenceCompare countA countB)

/-- PREFERRED_REFERENCE_WRITE (R413). -/
def execPreferredReferenceWrite (sender : Src) (v : Nat) (s : State) : Host.Outcome State Fault Refusal :=
  .next (s.run fun m => m.rowPreferredReferenceWrite sender v)

/-- CCLK_DWELL_END (R415). -/
def execCclkDwellEnd (s : State) : Host.Outcome State Fault Refusal :=
  .next (s.run fun m => m.rowCclkDwellEnd)

/-- PLL_LOCKED (R417). -/
def execPllLocked (s : State) : Host.Outcome State Fault Refusal :=
  .next (s.powered fun m => m.rowPllLocked)

/-- DIVISOR_CEILING_WRITE (R415). -/
def execDivisorCeilingWrite (sender : Src) (v : Nat) (s : State) : Host.Outcome State Fault Refusal :=
  .next (s.run fun m => m.rowDivisorCeilingWrite sender v)

/-- SPREAD_PERIOD_END (R420). -/
def execSpreadPeriodEnd (s : State) : Host.Outcome State Fault Refusal :=
  .next (s.run fun m => m.rowSpreadPeriodEnd)

/-- FREQUENCY_COUNT_START (R423). -/
def execFrequencyCountStart (sender : Src) (s : State) : Host.Outcome State Fault Refusal :=
  .next (s.run fun m => m.rowFrequencyCountStart sender)

/-- FREQUENCY_GATE_END (R423). -/
def execFrequencyGateEnd (count : Nat) (s : State) : Host.Outcome State Fault Refusal :=
  .next (s.run fun m => m.rowFrequencyGateEnd count)

/-- FREQUENCY_COUNT_TIMEOUT (R423). -/
def execFrequencyCountTimeout (s : State) : Host.Outcome State Fault Refusal :=
  .next (s.run fun m => m.rowFrequencyCountTimeout)

/-- RESET_IN_L_ASSERT (R491). -/
def execResetInLAssert (ns : Nat) (s : State) : Host.Outcome State Fault Refusal :=
  .next (s.pinEvent fun m => m.rowResetInAssert ns)

/-- RESET_IN_L_RELEASE (R499). -/
def execResetInLRelease (segid refqual : Nat) (s : State) : Host.Outcome State Fault Refusal :=
  .next (s.pinEvent fun m => m.rowResetInRelease segid refqual)

/-- STRAP_CHECK_DONE (R499). -/
def execStrapCheckDone (up down : Nat) (s : State) : Host.Outcome State Fault Refusal :=
  .next (s.pinEvent fun m => m.rowStrapCheckDone up down)

/-- WARM_RESET_REQUEST (R426). -/
def execWarmResetRequest (sender : Src) (s : State) : Host.Outcome State Fault Refusal :=
  .next (s.run fun m => m.rowWarmResetRequest sender)

/-- COLD_RESET_REQUEST (R424). -/
def execColdResetRequest (sender : Src) (s : State) : Host.Outcome State Fault Refusal :=
  .next (s.run fun m => m.rowColdResetRequest sender)

/-- SHUTDOWN_REQUEST (R429). -/
def execShutdownRequest (sender : Src) (s : State) : Host.Outcome State Fault Refusal :=
  .next (s.run fun m => m.rowShutdownRequest sender)

/-- WARM_RESET_ENTRY_DONE (R426). -/
def execWarmResetEntryDone (s : State) : Host.Outcome State Fault Refusal :=
  .next (s.run fun m => m.rowWarmResetEntryDone)

/-- WARM_RESET_EXIT_DONE (R426). -/
def execWarmResetExitDone (s : State) : Host.Outcome State Fault Refusal :=
  .next (s.run fun m => m.rowWarmResetExitDone)

/-- ENGINE_RESET (R427). -/
def execEngineReset (sender : Src) (s : State) : Host.Outcome State Fault Refusal :=
  .next (s.run fun m => m.rowEngineReset sender)

/-- ENGINE_RESET_DONE (R427). -/
def execEngineResetDone (die eng : Nat) (s : State) : Host.Outcome State Fault Refusal :=
  .next (s.run fun m => m.rowEngineResetDone die eng)

/-- SUPPLIES_IN_RANGE (R428). -/
def execSuppliesInRange (s : State) : Host.Outcome State Fault Refusal :=
  .next (s.pinEvent fun m => m.rowSuppliesInRange)

/-- POWER_UP_STAGE_DONE (R428). -/
def execPowerUpStageDone (s : State) : Host.Outcome State Fault Refusal :=
  .next (s.run fun m => m.rowPowerUpStageDone)

/-- VIN_UNDERVOLTAGE (R430). -/
def execVinUndervoltage (s : State) : Host.Outcome State Fault Refusal :=
  .next (s.pinEvent fun m => m.rowVinUndervoltage)

/-- VIN_RETURN_EXPIRY (R430). -/
def execVinReturnExpiry (s : State) : Host.Outcome State Fault Refusal :=
  .next (s.pinEvent fun m => m.rowVinReturn)

/-- VAUX_UNDERVOLTAGE (R430). -/
def execVauxUndervoltage (s : State) : Host.Outcome State Fault Refusal :=
  .next (s.pinEvent fun m => m.rowVauxUndervoltage)

/-- REFERENCE_PRESENT (R411). -/
def execReferencePresent (pos : Nat) (s : State) : Host.Outcome State Fault Refusal :=
  .next (s.onAux fun m => m.rowReferencePresent pos)

end Sys2Proof.Machine
end

