-- ==== Sys2Proof/Machine/ExecCol.lean ====
section
/-! DEFINITION. The meanings of the commands of 01_organisation.md: the Col and its cache lines. Each one is its row's operation on the machine, under
what must run for the command to happen (Run.lean). -/

namespace Sys2Proof.Machine

/-- COL_RD_SHARED (R20). -/
def execColRdShared (home req line : Nat) (s : State) : Host.Outcome State Fault Refusal :=
  .next (s.run fun m => m.rowColRdShared home req line)

/-- COL_RD_OWN (R19). -/
def execColRdOwn (home req line : Nat) (s : State) : Host.Outcome State Fault Refusal :=
  .next (s.run fun m => m.rowColRdOwn home req line)

/-- COL_UPGRADE (R19). -/
def execColUpgrade (home req line : Nat) (s : State) : Host.Outcome State Fault Refusal :=
  .next (s.run fun m => m.rowColUpgrade home req line)

/-- COL_EVICT (R21). -/
def execColEvict (home src line : Nat) (s : State) : Host.Outcome State Fault Refusal :=
  .next (s.run fun m => m.rowColEvict home src line)

/-- COL_WB (R21). -/
def execColWb (home src line : Nat) (s : State) : Host.Outcome State Fault Refusal :=
  .next (s.run fun m => m.rowColWb home src line)

/-- COL_SNP_SHARE (R20). -/
def execColSnpShare (home die line : Nat) (s : State) : Host.Outcome State Fault Refusal :=
  .next (s.run fun m => m.rowColSnpShare home die line)

/-- COL_SNP_INV (R22). -/
def execColSnpInv (home die line : Nat) (s : State) : Host.Outcome State Fault Refusal :=
  .next (s.run fun m => m.rowColSnpInv home die line)

/-- COL_SNP_FWD (R20). -/
def execColSnpFwd (home die line : Nat) (s : State) : Host.Outcome State Fault Refusal :=
  .next (s.run fun m => m.rowColSnpFwd home die line)

/-- COL_SNP_RSP (R24). -/
def execColSnpRsp (home src line : Nat) (s : State) : Host.Outcome State Fault Refusal :=
  .next (s.run fun m => m.rowColSnpRsp home src line)

/-- COL_ACK (R19). -/
def execColAck (src die line : Nat) (s : State) : Host.Outcome State Fault Refusal :=
  .next (s.run fun m => m.rowColAck src die line)

/-- COL_DATA (R20). -/
def execColData (src die line : Nat) (s : State) : Host.Outcome State Fault Refusal :=
  .next (s.run fun m => m.rowColData src die line)

/-- COL_LINK_ERROR (R25). -/
def execColLinkError (link : Nat) (s : State) : Host.Outcome State Fault Refusal :=
  .next (s.run fun m => m.rowColLinkError link)

/-- COL_LINK_RETRAIN_DONE (R25). -/
def execColLinkRetrainDone (link : Nat) (s : State) : Host.Outcome State Fault Refusal :=
  .next (s.run fun m => m.rowColLinkRetrainDone link)

end Sys2Proof.Machine
end

