-- ==== Sys2Proof/Machine/ExecColl.lean ====
section
/-! DEFINITION. The meanings of the commands of 06_ridgeline_memory.md and 13_acting_as_one.md: collectives, atomics, publishes. Each one is its row's operation on the machine, under
what must run for the command to happen (Run.lean). -/

namespace Sys2Proof.Machine

/-- FRAME_COLL (R195). -/
def execFrameColl (port : Nat) (f : RFrame) (s : State) : Host.Outcome State Fault Refusal :=
  .next (s.run fun m => m.rowFrameColl port f)

/-- ATOMIC (R177). -/
def execAtomic (slot : Nat) (s : State) : Host.Outcome State Fault Refusal :=
  .next (s.run fun m => m.rowAtomic slot)

/-- PUBLISH (R183). -/
def execPublish (slot : Nat) (s : State) : Host.Outcome State Fault Refusal :=
  .next (s.run fun m => m.rowPublish slot)

/-- COLLECTIVE (R194). -/
def execCollective (slot : Nat) (s : State) : Host.Outcome State Fault Refusal :=
  .next (s.run fun m => m.rowCollective slot)

/-- PROGRESS_BOUND_EXPIRY (R371). -/
def execProgressBoundExpiry (g : Nat) (s : State) : Host.Outcome State Fault Refusal :=
  .next (s.run fun m => m.rowProgressBound g)

end Sys2Proof.Machine
end

