-- ==== Sys2Proof/Machine/ExecCommit.lean ====
section
/-! DEFINITION. The meanings of the commands of 14_cairn.md: COMMIT and DISCARD, and what commits wait for. Each one is its row's operation on the machine, under
what must run for the command to happen (Run.lean). -/

namespace Sys2Proof.Machine

/-- HOME_REMAP_WRITEBACK_DONE (R34). -/
def execHomeRemapWritebackDone (s : State) : Host.Outcome State Fault Refusal :=
  .next (s.run fun m => m.rowHomeRemapWritebackDone)

/-- HRT_SCRUB_DONE (R92). -/
def execHrtScrubDone (s : State) : Host.Outcome State Fault Refusal :=
  .next (s.run fun m => m.rowHrtScrubDone)

/-- COMMIT (R396). -/
def execCommit (sender : Src) (failAt : Option Nat) (s : State) : Host.Outcome State Fault Refusal :=
  .next (s.run fun m => m.rowCommit sender failAt)

/-- DISCARD (R396). -/
def execDiscard (sender : Src) (s : State) : Host.Outcome State Fault Refusal :=
  .next (s.run fun m => m.rowDiscard sender)

end Sys2Proof.Machine
end

