-- ==== Sys2Proof/Machine/ExecCouloir.lean ====
section
/-! DEFINITION. The meanings of the commands of 11_couloir.md: channels. Each one is its row's operation on the machine, under
what must run for the command to happen (Run.lean). -/

namespace Sys2Proof.Machine

/-- COPY (R313). -/
def execCopy (slot : Nat) (s : State) : Host.Outcome State Fault Refusal :=
  .next (s.run fun m => m.rowCopy slot)

/-- TRANSFORM (R314). -/
def execTransform (slot : Nat) (s : State) : Host.Outcome State Fault Refusal :=
  .next (s.run fun m => m.rowTransform slot)

/-- ELEMENT_READ_DONE (R315). -/
def execElementReadDone (die ch : Nat) (s : State) : Host.Outcome State Fault Refusal :=
  .next (s.run fun m => m.rowElementReadDone die ch)

/-- SLICE_END (R321). -/
def execSliceEnd (die ch steps : Nat) (s : State) : Host.Outcome State Fault Refusal :=
  .next (s.run fun m => m.rowSliceEnd die ch steps)

/-- CHANNEL_ACCESS_FAILED (R323). -/
def execChannelAccessFailed (die ch : Nat) (s : State) : Host.Outcome State Fault Refusal :=
  .next (s.run fun m => m.rowChannelAccessFailed die ch)

/-- HALT_BOUND_EXPIRY (R322). -/
def execHaltBoundExpiry (die ch : Nat) (s : State) : Host.Outcome State Fault Refusal :=
  .next (s.run fun m => m.rowHaltBoundExpiry die ch)

/-- CHANNEL_START (R322). -/
def execChannelStart (sender : Src) (s : State) : Host.Outcome State Fault Refusal :=
  .next (s.run fun m => m.rowChannelStart sender)

/-- CHANNEL_STOP (R322). -/
def execChannelStop (sender : Src) (s : State) : Host.Outcome State Fault Refusal :=
  .next (s.run fun m => m.rowChannelStop sender)

/-- CHANNEL_CLEAR (R322). -/
def execChannelClear (sender : Src) (s : State) : Host.Outcome State Fault Refusal :=
  .next (s.run fun m => m.rowChannelClear sender)

/-- CHANNEL_RESUME (R324). -/
def execChannelResume (sender : Src) (s : State) : Host.Outcome State Fault Refusal :=
  .next (s.run fun m => m.rowChannelResume sender)

/-- CHANNEL_ABORT (R322). -/
def execChannelAbort (sender : Src) (s : State) : Host.Outcome State Fault Refusal :=
  .next (s.run fun m => m.rowChannelAbort sender)

end Sys2Proof.Machine
end

