-- ==== Sys2Proof/Machine/ExecCrag.lean ====
section
/-! DEFINITION. The meanings of the commands of 08_crag_arrays.md: kernels and tile instructions. Each one is its row's operation on the machine, under
what must run for the command to happen (Run.lean). -/

namespace Sys2Proof.Machine

/-- KERNEL (R243). -/
def execKernel (slot : Nat) (s : State) : Host.Outcome State Fault Refusal :=
  .next (s.run fun m => m.rowKernel slot)

/-- OPTIM (R251). -/
def execOptim (slot : Nat) (s : State) : Host.Outcome State Fault Refusal :=
  .next (s.run fun m => m.rowOptim slot)

/-- CRAG_GRANT (R242). -/
def execCragGrant (slot : Nat) (s : State) : Host.Outcome State Fault Refusal :=
  .next (s.run fun m => m.rowCragGrant slot)

/-- PROGRAM_LOAD_DONE (R243). -/
def execProgramLoadDone (slot : Nat) (s : State) : Host.Outcome State Fault Refusal :=
  .next (s.run fun m => m.rowProgramLoadDone slot)

/-- NOP (R237). -/
def execNop (die n : Nat) (s : State) : Host.Outcome State Fault Refusal :=
  .next (s.run fun m => m.rowNop die n)

/-- END (R244). -/
def execEndProgram (die n : Nat) (s : State) : Host.Outcome State Fault Refusal :=
  .next (s.run fun m => m.rowEnd die n)

/-- TRAP (R254). -/
def execTrap (die n : Nat) (s : State) : Host.Outcome State Fault Refusal :=
  .next (s.run fun m => m.rowTrap die n)

/-- BR (R240). -/
def execBr (die n : Nat) (s : State) : Host.Outcome State Fault Refusal :=
  .next (s.run fun m => m.rowBr die n)

/-- LOOP (R240). -/
def execLoop (die n : Nat) (s : State) : Host.Outcome State Fault Refusal :=
  .next (s.run fun m => m.rowLoop die n)

/-- WAIT (R237). -/
def execWait (die n : Nat) (s : State) : Host.Outcome State Fault Refusal :=
  .next (s.run fun m => m.rowTileWait die n)

/-- SMOV (R237). -/
def execSmov (die n : Nat) (s : State) : Host.Outcome State Fault Refusal :=
  .next (s.run fun m => m.rowSmov die n)

/-- SMOVH (R237). -/
def execSmovh (die n : Nat) (s : State) : Host.Outcome State Fault Refusal :=
  .next (s.run fun m => m.rowSmovh die n)

/-- SADD (R237). -/
def execSadd (die n : Nat) (s : State) : Host.Outcome State Fault Refusal :=
  .next (s.run fun m => m.rowSadd die n)

/-- SSUB (R237). -/
def execSsub (die n : Nat) (s : State) : Host.Outcome State Fault Refusal :=
  .next (s.run fun m => m.rowSsub die n)

/-- SMUL (R237). -/
def execSmul (die n : Nat) (s : State) : Host.Outcome State Fault Refusal :=
  .next (s.run fun m => m.rowSmul die n)

/-- SAND (R237). -/
def execSand (die n : Nat) (s : State) : Host.Outcome State Fault Refusal :=
  .next (s.run fun m => m.rowSand die n)

/-- SOR (R237). -/
def execSor (die n : Nat) (s : State) : Host.Outcome State Fault Refusal :=
  .next (s.run fun m => m.rowSor die n)

/-- SSHL (R237). -/
def execSshl (die n : Nat) (s : State) : Host.Outcome State Fault Refusal :=
  .next (s.run fun m => m.rowSshl die n)

/-- SSHR (R237). -/
def execSshr (die n : Nat) (s : State) : Host.Outcome State Fault Refusal :=
  .next (s.run fun m => m.rowSshr die n)

/-- SLD (R237). -/
def execSld (die n : Nat) (s : State) : Host.Outcome State Fault Refusal :=
  .next (s.run fun m => m.rowSld die n)

/-- SST (R237). -/
def execSst (die n : Nat) (s : State) : Host.Outcome State Fault Refusal :=
  .next (s.run fun m => m.rowSst die n)

/-- TLOAD (R244). -/
def execTload (die n : Nat) (s : State) : Host.Outcome State Fault Refusal :=
  .next (s.run fun m => m.rowTload die n)

/-- TLOADX (R246). -/
def execTloadx (die n : Nat) (s : State) : Host.Outcome State Fault Refusal :=
  .next (s.run fun m => m.rowTloadx die n)

/-- TSTORE (R244). -/
def execTstore (die n : Nat) (s : State) : Host.Outcome State Fault Refusal :=
  .next (s.run fun m => m.rowTstore die n)

/-- TCOPY (R237). -/
def execTcopy (die n : Nat) (s : State) : Host.Outcome State Fault Refusal :=
  .next (s.run fun m => m.rowTcopy die n)

/-- TFILL (R237). -/
def execTfill (die n : Nat) (s : State) : Host.Outcome State Fault Refusal :=
  .next (s.run fun m => m.rowTfill die n)

/-- WLOAD (R238). -/
def execWload (die n : Nat) (s : State) : Host.Outcome State Fault Refusal :=
  .next (s.run fun m => m.rowWload die n)

/-- MMA (R233). -/
def execMma (die n : Nat) (s : State) : Host.Outcome State Fault Refusal :=
  .next (s.run fun m => m.rowMma die n)

/-- ACCZ (R237). -/
def execAccz (die n : Nat) (s : State) : Host.Outcome State Fault Refusal :=
  .next (s.run fun m => m.rowAccz die n)

/-- ACCRD (R239). -/
def execAccrd (die n : Nat) (s : State) : Host.Outcome State Fault Refusal :=
  .next (s.run fun m => m.rowAccrd die n)

/-- ACCWR (R239). -/
def execAccwr (die n : Nat) (s : State) : Host.Outcome State Fault Refusal :=
  .next (s.run fun m => m.rowAccwr die n)

/-- VLD (R237). -/
def execVld (die n : Nat) (s : State) : Host.Outcome State Fault Refusal :=
  .next (s.run fun m => m.rowVld die n)

/-- VST (R237). -/
def execVst (die n : Nat) (s : State) : Host.Outcome State Fault Refusal :=
  .next (s.run fun m => m.rowVst die n)

/-- VSPLAT (R247). -/
def execVsplat (die n : Nat) (s : State) : Host.Outcome State Fault Refusal :=
  .next (s.run fun m => m.rowVsplat die n)

/-- VADD (R247). -/
def execVadd (die n : Nat) (s : State) : Host.Outcome State Fault Refusal :=
  .next (s.run fun m => m.rowVadd die n)

/-- VSUB (R247). -/
def execVsub (die n : Nat) (s : State) : Host.Outcome State Fault Refusal :=
  .next (s.run fun m => m.rowVsub die n)

/-- VMUL (R247). -/
def execVmul (die n : Nat) (s : State) : Host.Outcome State Fault Refusal :=
  .next (s.run fun m => m.rowVmul die n)

/-- VFMA (R247). -/
def execVfma (die n : Nat) (s : State) : Host.Outcome State Fault Refusal :=
  .next (s.run fun m => m.rowVfma die n)

/-- VMIN (R247). -/
def execVmin (die n : Nat) (s : State) : Host.Outcome State Fault Refusal :=
  .next (s.run fun m => m.rowVmin die n)

/-- VMAX (R247). -/
def execVmax (die n : Nat) (s : State) : Host.Outcome State Fault Refusal :=
  .next (s.run fun m => m.rowVmax die n)

/-- VDIV (R247). -/
def execVdiv (die n : Nat) (s : State) : Host.Outcome State Fault Refusal :=
  .next (s.run fun m => m.rowVdiv die n)

/-- VSQRT (R247). -/
def execVsqrt (die n : Nat) (s : State) : Host.Outcome State Fault Refusal :=
  .next (s.run fun m => m.rowVsqrt die n)

/-- VEXP (R247). -/
def execVexp (die n : Nat) (s : State) : Host.Outcome State Fault Refusal :=
  .next (s.run fun m => m.rowVexp die n)

/-- VCVT (R248). -/
def execVcvt (die n : Nat) (s : State) : Host.Outcome State Fault Refusal :=
  .next (s.run fun m => m.rowVcvt die n)

/-- VRED (R248). -/
def execVred (die n : Nat) (s : State) : Host.Outcome State Fault Refusal :=
  .next (s.run fun m => m.rowVred die n)

/-- VSGN (R237). -/
def execVsgn (die n : Nat) (s : State) : Host.Outcome State Fault Refusal :=
  .next (s.run fun m => m.rowVsgn die n)

/-- ASYNC_COMPLETE (R236). -/
def execAsyncComplete (die n idx : Nat) (s : State) : Host.Outcome State Fault Refusal :=
  .next (s.run fun m => m.rowAsyncComplete die n idx)

/-- OPTIM_CHUNK_READS_DONE (R252). -/
def execOptimChunkReadsDone (slot j : Nat) (s : State) : Host.Outcome State Fault Refusal :=
  .next (s.run fun m => m.rowOptimChunkReadsDone slot j)

end Sys2Proof.Machine
end

