-- ==== Sys2Proof/Machine/ExecFabric.lean ====
section
/-! DEFINITION. The meanings of the commands of 06_ridgeline_memory.md: frames. Each one is its row's operation on the machine, under
what must run for the command to happen (Run.lean). -/

namespace Sys2Proof.Machine

/-- FRAME_READ (R165). -/
def execFrameRead (port : Nat) (f : RFrame) (s : State) : Host.Outcome State Fault Refusal :=
  .next (s.run fun m => m.rowFrameRead port f)

/-- FRAME_WRITE (R166). -/
def execFrameWrite (port : Nat) (f : RFrame) (s : State) : Host.Outcome State Fault Refusal :=
  .next (s.run fun m => m.rowFrameWrite port f)

/-- FRAME_WRITE_POSTED (R167). -/
def execFrameWritePosted (port : Nat) (f : RFrame) (s : State) : Host.Outcome State Fault Refusal :=
  .next (s.run fun m => m.rowFrameWritePosted port f)

/-- FRAME_ATOMIC (R176). -/
def execFrameAtomic (port : Nat) (f : RFrame) (s : State) : Host.Outcome State Fault Refusal :=
  .next (s.run fun m => m.rowFrameAtomic port f)

/-- FRAME_FENCE (R172). -/
def execFrameFence (port : Nat) (f : RFrame) (s : State) : Host.Outcome State Fault Refusal :=
  .next (s.run fun m => m.rowFrameFence port f)

/-- FRAME_PUBLISH (R181). -/
def execFramePublish (port : Nat) (f : RFrame) (s : State) : Host.Outcome State Fault Refusal :=
  .next (s.run fun m => m.rowFramePublish port f)

/-- FRAME_PUBLISH_FWD (R181). -/
def execFramePublishFwd (port : Nat) (f : RFrame) (s : State) : Host.Outcome State Fault Refusal :=
  .next (s.run fun m => m.rowFramePublishFwd port f)

/-- FRAME_POISON_MARK (R170). -/
def execFramePoisonMark (port : Nat) (f : RFrame) (s : State) : Host.Outcome State Fault Refusal :=
  .next (s.run fun m => m.rowFramePoisonMark port f)

/-- FRAME_RESP (R164). -/
def execFrameResp (port : Nat) (f : RFrame) (s : State) : Host.Outcome State Fault Refusal :=
  .next (s.run fun m => m.rowFrameResp port f)

/-- FRAME_SEQ_ACK (R171). -/
def execFrameSeqAck (port : Nat) (f : RFrame) (s : State) : Host.Outcome State Fault Refusal :=
  .next (s.run fun m => m.rowFrameSeqAck port f)

/-- FRAME_MIRROR_COPY (R190). -/
def execFrameMirrorCopy (port : Nat) (f : RFrame) (s : State) : Host.Outcome State Fault Refusal :=
  .next (s.run fun m => m.rowFrameMirrorCopy port f)

/-- FRAME_UNKNOWN_OPCODE (R163). -/
def execFrameUnknownOpcode (port : Nat) (f : RFrame) (s : State) : Host.Outcome State Fault Refusal :=
  .next (s.run fun m => m.rowFrameUnknown port f)

/-- GAP_BOUND_EXPIRY (R169). -/
def execGapBoundExpiry (src : Nat) (bulk : Bool) (s : State) : Host.Outcome State Fault Refusal :=
  .next (s.run fun m => m.rowGapBoundExpiry src bulk)

/-- SEQ_ACK_INTERVAL_EXPIRY (R171). -/
def execSeqAckIntervalExpiry (s : State) : Host.Outcome State Fault Refusal :=
  .next (s.run fun m => m.rowSeqAckInterval)

/-- BULK_RETRANSMIT_EXPIRY (R171). -/
def execBulkRetransmitExpiry (dst sequence : Nat) (s : State) : Host.Outcome State Fault Refusal :=
  .next (s.run fun m => m.rowBulkRetransmit dst sequence)

/-- RESPONSE_BOUND_EXPIRY (R173). -/
def execResponseBoundExpiry (tag : Nat) (s : State) : Host.Outcome State Fault Refusal :=
  .next (s.run fun m => m.rowResponseBound tag)

/-- RETIRE_BOUND_EXPIRY (R198). -/
def execRetireBoundExpiry (s : State) : Host.Outcome State Fault Refusal :=
  .next (s.run fun m => m.rowRetireBound)

/-- REGION_KEY_BUMP (R179). -/
def execRegionKeyBump (sender : Src) (region : Nat) (s : State) : Host.Outcome State Fault Refusal :=
  .next (s.run fun m => m.rowRegionKeyBump sender region)

/-- EPOCH_WRITE (R196). -/
def execEpochWrite (sender : Src) (v : Nat) (s : State) : Host.Outcome State Fault Refusal :=
  .next (s.run fun m => m.rowEpochWrite sender v)

/-- RELOCATE_WINDOW (R200). -/
def execRelocateWindow (sender : Src) (w : Nat) (s : State) : Host.Outcome State Fault Refusal :=
  .next (s.run fun m => m.rowRelocateWindow sender w)

/-- RELOCATION_COPY_DONE (R200). -/
def execRelocationCopyDone (s : State) : Host.Outcome State Fault Refusal :=
  .next (s.run fun m => m.rowRelocationCopyDone)

/-- RELOCATION_FINAL_PASS_DONE (R200). -/
def execRelocationFinalPassDone (s : State) : Host.Outcome State Fault Refusal :=
  .next (s.run fun m => m.rowRelocationFinalPassDone)

/-- RELOCATION_HOLD_BOUND_EXPIRY (R200). -/
def execRelocationHoldBoundExpiry (s : State) : Host.Outcome State Fault Refusal :=
  .next (s.run fun m => m.rowRelocationHoldBound)

/-- CLEAR_DEAD_NODE (R201). -/
def execClearDeadNode (sender : Src) (node : Nat) (s : State) : Host.Outcome State Fault Refusal :=
  .next (s.run fun m => m.rowClearDeadNode sender node)

/-- JOB_TEARDOWN (R202). -/
def execJobTeardown (sender : Src) (job : Nat) (s : State) : Host.Outcome State Fault Refusal :=
  .next (s.run fun m => m.rowJobTeardown sender job)

end Sys2Proof.Machine
end

