-- ==== Sys2Proof/Machine/ExecFence.lean ====
section
/-! DEFINITION. The meanings of the commands of 01_organisation.md: Col links, die fences and rejoins. Each one is its row's operation on the machine, under
what must run for the command to happen (Run.lean). -/

namespace Sys2Proof.Machine

/-- COL_RETRAIN_LIMIT_EXPIRY (R25). -/
def execColRetrainLimitExpiry (link : Nat) (s : State) : Host.Outcome State Fault Refusal :=
  .next (s.run fun m => m.rowColRetrainLimitExpiry link)

/-- CLEAR_DOWN_LINK (R25). -/
def execClearDownLink (sender : Src) (v : Nat) (s : State) : Host.Outcome State Fault Refusal :=
  .next (s.run fun m => m.rowClearDownLink sender v)

/-- DIE_WATCHDOG_EXPIRY (R27). -/
def execDieWatchdogExpiry (d : Nat) (s : State) : Host.Outcome State Fault Refusal :=
  .next (s.run fun m => m.rowDieWatchdogExpiry d)

/-- DIE_UNCORRECTABLE_ERROR (R27). -/
def execDieUncorrectableError (d : Nat) (s : State) : Host.Outcome State Fault Refusal :=
  .next (s.run fun m => m.rowDieUncorrectableError d)

/-- CORE_SUPPLY_LOSS (R27). -/
def execCoreSupplyLoss (d : Nat) (s : State) : Host.Outcome State Fault Refusal :=
  .next (s.run fun m => m.rowCoreSupplyLoss d)

/-- FENCE_ORDERLY (R29). -/
def execFenceOrderly (sender : Src) (d : Nat) (s : State) : Host.Outcome State Fault Refusal :=
  .next (s.run fun m => m.rowFenceOrderly sender d)

/-- FENCE_EVACUATION_DONE (R98). -/
def execFenceEvacuationDone (d : Nat) (s : State) : Host.Outcome State Fault Refusal :=
  .next (s.run fun m => m.rowFenceEvacuationDone d)

/-- FENCE_EVACUATION_BOUND_EXPIRY (R98). -/
def execFenceEvacuationBoundExpiry (d : Nat) (s : State) : Host.Outcome State Fault Refusal :=
  .next (s.run fun m => m.rowFenceEvacuationBoundExpiry d)

/-- FENCE_DRAIN_DONE (R29). -/
def execFenceDrainDone (d : Nat) (s : State) : Host.Outcome State Fault Refusal :=
  .next (s.run fun m => m.rowFenceDrainDone d)

/-- COMMAND_DRAIN_BOUND_EXPIRY (R29). -/
def execCommandDrainBoundExpiry (d : Nat) (s : State) : Host.Outcome State Fault Refusal :=
  .next (s.run fun m => m.rowCommandDrainBoundExpiry d)

/-- FENCE_WRITEBACK_DONE (R29). -/
def execFenceWritebackDone (d : Nat) (s : State) : Host.Outcome State Fault Refusal :=
  .next (s.run fun m => m.rowFenceWritebackDone d)

/-- FENCE_SURVIVOR_WRITEBACK_DONE (R30). -/
def execFenceSurvivorWritebackDone (d : Nat) (s : State) : Host.Outcome State Fault Refusal :=
  .next (s.run fun m => m.rowFenceSurvivorWritebackDone d)

/-- DIE_REJOIN (R33). -/
def execDieRejoin (sender : Src) (d : Nat) (s : State) : Host.Outcome State Fault Refusal :=
  .next (s.run fun m => m.rowDieRejoin sender d)

/-- DIE_REJOIN_DONE (R33). -/
def execDieRejoinDone (d : Nat) (t0 t1 : Bool) (s : State) : Host.Outcome State Fault Refusal :=
  .next (s.run fun m => m.rowDieRejoinDone d t0 t1)

end Sys2Proof.Machine
end

