-- ==== Sys2Proof/Machine/ExecHall.lean ====
section
/-! DEFINITION. The meanings of the commands of 13_acting_as_one.md: digests, beacons, floods, time. Each one is its row's operation on the machine, under
what must run for the command to happen (Run.lean). -/

namespace Sys2Proof.Machine

/-- DIGEST_PERIOD_EXPIRY (R355). -/
def execDigestPeriodExpiry (p : Nat) (s : State) : Host.Outcome State Fault Refusal :=
  .next (s.run fun m => m.rowDigestPeriod p)

/-- DIGEST_MISSING_EXPIRY (R356). -/
def execDigestMissingExpiry (p : Nat) (s : State) : Host.Outcome State Fault Refusal :=
  .next (s.run fun m => m.rowDigestMissing p)

/-- CLEAR_QUARANTINE (R358). -/
def execClearQuarantine (sender : Src) (p : Nat) (s : State) : Host.Outcome State Fault Refusal :=
  .next (s.run fun m => m.rowClearQuarantine sender p)

/-- BEACON (R366). -/
def execBeacon (p : Nat) (f : RFrame) (s : State) : Host.Outcome State Fault Refusal :=
  .next (s.run fun m => m.rowBeacon p f)

/-- BEACON_INTERVAL_EXPIRY (R366). -/
def execBeaconIntervalExpiry (s : State) : Host.Outcome State Fault Refusal :=
  .next (s.run fun m => m.rowBeaconInterval)

/-- FLOOD_FAULT (R362). -/
def execFloodFault (p : Nat) (f : RFrame) (s : State) : Host.Outcome State Fault Refusal :=
  .next (s.run fun m => m.rowFloodFault p f)

/-- FLOOD_COLL_ABORT (R372). -/
def execFloodCollAbort (p : Nat) (f : RFrame) (s : State) : Host.Outcome State Fault Refusal :=
  .next (s.run fun m => m.rowFloodCollAbort p f)

/-- FLOOD_WARN (R360). -/
def execFloodWarn (p : Nat) (f : RFrame) (s : State) : Host.Outcome State Fault Refusal :=
  .next (s.run fun m => m.rowFloodWarn p f)

/-- FLOOD_RECORD_EXPIRY (R360). -/
def execFloodRecordExpiry (origin number : Nat) (s : State) : Host.Outcome State Fault Refusal :=
  .next (s.run fun m => m.rowFloodRecordExpiry origin number)

/-- PTP_MESSAGE (R365). -/
def execPtpMessage (domain : Nat) (announce : Option (Option Int)) (err : Option Int) (s : State) : Host.Outcome State Fault Refusal :=
  .next (s.run fun m => m.rowPtpMessage domain announce err)

/-- TIMEBASE_REFERENCE_LOSS (R364). -/
def execTimebaseReferenceLoss (s : State) : Host.Outcome State Fault Refusal :=
  .next (s.run fun m => m.rowReferenceLoss)

/-- HOLDOVER_EXIT_EXPIRY (R364). -/
def execHoldoverExitExpiry (s : State) : Host.Outcome State Fault Refusal :=
  .next (s.run fun m => m.rowHoldoverExit)

/-- RESYNCHRONISE (R364). -/
def execResynchronise (sender : Src) (s : State) : Host.Outcome State Fault Refusal :=
  .next (s.run fun m => m.rowResynchronise sender)

/-- GROUP_SETTLE_EXPIRY (R370). -/
def execGroupSettleExpiry (g : Nat) (s : State) : Host.Outcome State Fault Refusal :=
  .next (s.run fun m => m.rowGroupSettle g)

/-- GROUP_EPOCH_WRITE (R373). -/
def execGroupEpochWrite (sender : Src) (v : Nat) (s : State) : Host.Outcome State Fault Refusal :=
  .next (s.run fun m => m.rowGroupEpochWrite sender v)

end Sys2Proof.Machine
end

