-- ==== Sys2Proof/Machine/ExecHostPort.lean ====
section
/-! DEFINITION. The meanings of the commands of 04_host_ports.md: host links, CXL.mem, bindings. Each one is its row's operation on the machine, under
what must run for the command to happen (Run.lean). -/

namespace Sys2Proof.Machine

/-- HOST_CXL_MEM_READ (R112). -/
def execHostCxlMemRead (link ld hpa : Nat) (ask : HostAsk) (tag : Nat) (s : State) : Host.Outcome State Fault Refusal :=
  .next (s.run fun m => m.rowHostCxlMemRead link ld hpa ask tag)

/-- HOST_CXL_MEM_WRITE (R112). -/
def execHostCxlMemWrite (link ld hpa : Nat) (bs : List Byte) (tag : Nat) (s : State) : Host.Outcome State Fault Refusal :=
  .next (s.run fun m => m.rowHostCxlMemWrite link ld hpa bs tag)

/-- HOST_WRITEBACK (R121). -/
def execHostWriteback (link ld hpa : Nat) (bs : List Byte) (keep : HostAsk) (tag : Nat) (s : State) : Host.Outcome State Fault Refusal :=
  .next (s.run fun m => m.rowHostWriteback link ld hpa bs keep tag)

/-- BIRSP (R115). -/
def execBirsp (link line : Nat) (s : State) : Host.Outcome State Fault Refusal :=
  .next (s.run fun m => m.rowBirsp link line)

/-- BI_BOUND_EXPIRY (R117). -/
def execBiBoundExpiry (link line : Nat) (s : State) : Host.Outcome State Fault Refusal :=
  .next (s.run fun m => m.rowBiBoundExpiry link line)

/-- HOST_SNOOP (R102). -/
def execHostSnoop (link : Nat) (s : State) : Host.Outcome State Fault Refusal :=
  .next (s.run fun m => m.rowHostSnoop link)

/-- DOORBELL_WRITE (R105). -/
def execDoorbellWrite (link ld off width value : Nat) (s : State) : Host.Outcome State Fault Refusal :=
  .next (s.run fun m => m.rowDoorbellWrite link ld off width value)

/-- HOST_LINK_TRAINED (R109). -/
def execHostLinkTrained (link rate lanes : Nat) (s : State) : Host.Outcome State Fault Refusal :=
  .next (s.run fun m => m.rowHostLinkTrained link rate lanes)

/-- AUTHENTICATION_BOUND_EXPIRY (R109). -/
def execAuthenticationBoundExpiry (link ld : Nat) (s : State) : Host.Outcome State Fault Refusal :=
  .next (s.run fun m => m.rowAuthenticationBoundExpiry link ld)

/-- HOST_LINK_DOWN (R118). -/
def execHostLinkDown (link : Nat) (s : State) : Host.Outcome State Fault Refusal :=
  .next (s.run fun m => m.rowHostLinkDown link)

/-- PERST_L_ASSERT (R118). -/
def execPerstLAssert (port : Nat) (s : State) : Host.Outcome State Fault Refusal :=
  .next (s.atPort fun m => m.rowPerstAssert port)

/-- HOT_RESET (R118). -/
def execHotReset (link : Nat) (s : State) : Host.Outcome State Fault Refusal :=
  .next (s.run fun m => m.rowHotReset link)

/-- FUNCTION_LEVEL_RESET (R118). -/
def execFunctionLevelReset (link ld : Nat) (s : State) : Host.Outcome State Fault Refusal :=
  .next (s.run fun m => m.rowFunctionLevelReset link ld)

/-- IDE_INTEGRITY_FAILURE (R122). -/
def execIdeIntegrityFailure (link ld : Nat) (s : State) : Host.Outcome State Fault Refusal :=
  .next (s.run fun m => m.rowIdeIntegrityFailure link ld)

/-- UNBIND_IDENTITY (R118). -/
def execUnbindIdentity (sender : Src) (ident : Nat) (s : State) : Host.Outcome State Fault Refusal :=
  .next (s.run fun m => m.rowUnbindIdentity sender ident)

/-- PATH_TEARDOWN_SWEEP_DONE (R119). -/
def execPathTeardownSweepDone (link ld : Nat) (s : State) : Host.Outcome State Fault Refusal :=
  .next (s.run fun m => m.rowPathTeardownSweepDone link ld)

/-- HOST_CONFIG_ACCESS (R103). -/
def execHostConfigAccess (link ld : Nat) (a : HostAcc) (s : State) : Host.Outcome State Fault Refusal :=
  .next (s.run fun m => m.rowHostConfigAccess link ld a)

/-- MIRROR_BUFFER_WRITE (R123). -/
def execMirrorBufferWrite (link ld off : Nat) (bs : List Byte) (s : State) : Host.Outcome State Fault Refusal :=
  .next (s.run fun m => m.rowMirrorBufferWrite link ld off bs)

/-- PERST_L_RELEASE (R424). -/
def execPerstLRelease (port : Nat) (s : State) : Host.Outcome State Fault Refusal :=
  .next (s.atPort fun m => m.rowPerstRelease port)

/-- IDE_KEY_MANAGEMENT (R122). -/
def execIdeKeyManagement (link ld : Nat) (io mem : Bool) (s : State) : Host.Outcome State Fault Refusal :=
  .next (s.run fun m => m.rowIdeKeyManagement link ld io mem)

end Sys2Proof.Machine
end

