-- ==== Sys2Proof/Machine/ExecPort.lean ====
section
/-! DEFINITION. The meanings of the commands of 05_ridgeline_links.md: ports, flits, training. Each one is its row's operation on the machine, under
what must run for the command to happen (Run.lean). -/

namespace Sys2Proof.Machine

/-- HEADER_FLIT (R130). -/
def execHeaderFlit (p : Nat) (bs : List Byte) (s : State) : Host.Outcome State Fault Refusal :=
  .next (s.run fun m => m.rowHeaderFlit p bs)

/-- DATA_FLIT (R139). -/
def execDataFlit (p : Nat) (bs : List Byte) (s : State) : Host.Outcome State Fault Refusal :=
  .next (s.run fun m => m.rowDataFlit p bs)

/-- STOMP_FLIT (R158). -/
def execStompFlit (p : Nat) (s : State) : Host.Outcome State Fault Refusal :=
  .next (s.run fun m => m.rowStompFlit p)

/-- IDLE_FLIT (R129). -/
def execIdleFlit (p : Nat) (s : State) : Host.Outcome State Fault Refusal :=
  .next (s.run fun m => m.rowIdleFlit p)

/-- SLOT_IN_ERROR (R135). -/
def execSlotInError (p corrected uncorrectable : Nat) (s : State) : Host.Outcome State Fault Refusal :=
  .next (s.run fun m => m.rowSlotInError p corrected uncorrectable)

/-- ACK_FLIT (R133). -/
def execAckFlit (p ackfn : Nat) (limits : List Nat) (s : State) : Host.Outcome State Fault Refusal :=
  .next (s.run fun m => m.rowAckFlit p ackfn limits)

/-- RETRY_FLIT (R135). -/
def execRetryFlit (p efn num : Nat) (s : State) : Host.Outcome State Fault Refusal :=
  .next (s.run fun m => m.rowRetryFlit p efn num)

/-- REPLAY_START_FLIT (R135). -/
def execReplayStartFlit (p first num : Nat) (s : State) : Host.Outcome State Fault Refusal :=
  .next (s.run fun m => m.rowReplayStartFlit p first num)

/-- HELLO_FLIT (R141). -/
def execHelloFlit (p node port widths lanes : Nat) (s : State) : Host.Outcome State Fault Refusal :=
  .next (s.run fun m => m.rowHelloFlit p node port widths lanes)

/-- DIGEST_FLIT (R356). -/
def execDigestFlit (p : Nat) (bs : List Byte) (s : State) : Host.Outcome State Fault Refusal :=
  .next (s.run fun m => m.rowDigestFlit p bs)

/-- ACK_INTERVAL_EXPIRY (R133). -/
def execAckIntervalExpiry (p : Nat) (s : State) : Host.Outcome State Fault Refusal :=
  .next (s.run fun m => m.rowAckIntervalExpiry p)

/-- KEEPALIVE_EXPIRY (R133). -/
def execKeepaliveExpiry (p : Nat) (s : State) : Host.Outcome State Fault Refusal :=
  .next (s.run fun m => m.rowKeepaliveExpiry p)

/-- RESEND_INTERVAL_EXPIRY (R135). -/
def execResendIntervalExpiry (p : Nat) (s : State) : Host.Outcome State Fault Refusal :=
  .next (s.run fun m => m.rowResendIntervalExpiry p)

/-- FAST_RETRAIN_DONE (R136). -/
def execFastRetrainDone (p : Nat) (s : State) : Host.Outcome State Fault Refusal :=
  .next (s.run fun m => m.rowFastRetrainDone p)

/-- RECOVERY_BOUND_EXPIRY (R136). -/
def execRecoveryBoundExpiry (p : Nat) (s : State) : Host.Outcome State Fault Refusal :=
  .next (s.run fun m => m.rowRecoveryBoundExpiry p)

/-- FRAME_TRANSMIT_START (R138). -/
def execFrameTransmitStart (p : Nat) (s : State) : Host.Outcome State Fault Refusal :=
  .next (s.run fun m => m.rowFrameTransmitStart p)

/-- LANE_SIGNAL_DETECTED (R144). -/
def execLaneSignalDetected (p : Nat) (s : State) : Host.Outcome State Fault Refusal :=
  .next (s.run fun m => m.rowLaneSignalDetected p)

/-- DETECT_TIMEOUT (R144). -/
def execDetectTimeout (p : Nat) (s : State) : Host.Outcome State Fault Refusal :=
  .next (s.run fun m => m.rowDetectTimeout p)

/-- EQUALISE_DONE (R144). -/
def execEqualiseDone (p : Nat) (s : State) : Host.Outcome State Fault Refusal :=
  .next (s.run fun m => m.rowEqualiseDone p)

/-- EQUALISE_TIMEOUT (R144). -/
def execEqualiseTimeout (p : Nat) (s : State) : Host.Outcome State Fault Refusal :=
  .next (s.run fun m => m.rowEqualiseTimeout p)

/-- ALIGN_DONE (R140). -/
def execAlignDone (p : Nat) (correctable reversed : Bool) (inverted good : Nat) (s : State) : Host.Outcome State Fault Refusal :=
  .next (s.run fun m => m.rowAlignDone p correctable reversed inverted good)

/-- HELLO_TIMEOUT (R144). -/
def execHelloTimeout (p : Nat) (s : State) : Host.Outcome State Fault Refusal :=
  .next (s.run fun m => m.rowHelloTimeout p)

/-- DIGEST_STATE_TIMEOUT (R144). -/
def execDigestStateTimeout (p : Nat) (s : State) : Host.Outcome State Fault Refusal :=
  .next (s.run fun m => m.rowDigestStateTimeout p)

/-- LANE_LOCK_LOSS (R141). -/
def execLaneLockLoss (p lane : Nat) (s : State) : Host.Outcome State Fault Refusal :=
  .next (s.run fun m => m.rowLaneLockLoss p lane)

/-- AUTO_RESTORE_EXPIRY (R144). -/
def execAutoRestoreExpiry (p : Nat) (s : State) : Host.Outcome State Fault Refusal :=
  .next (s.run fun m => m.rowAutoRestoreExpiry p)

/-- PORT_ENABLE (R144). -/
def execPortEnable (sender : Src) (s : State) : Host.Outcome State Fault Refusal :=
  .next (s.run fun m => m.rowPortEnable sender)

/-- PORT_DISABLE (R159). -/
def execPortDisable (sender : Src) (s : State) : Host.Outcome State Fault Refusal :=
  .next (s.run fun m => m.rowPortDisable sender)

/-- PORT_FAST_RETRAIN_REQUEST (R136). -/
def execPortFastRetrainRequest (sender : Src) (s : State) : Host.Outcome State Fault Refusal :=
  .next (s.run fun m => m.rowPortFastRetrain sender)

/-- PORT_FULL_RETRAIN_REQUEST (R159). -/
def execPortFullRetrainRequest (sender : Src) (s : State) : Host.Outcome State Fault Refusal :=
  .next (s.run fun m => m.rowPortFullRetrain sender)

/-- PORT_DRAIN_DONE (R159). -/
def execPortDrainDone (p : Nat) (s : State) : Host.Outcome State Fault Refusal :=
  .next (s.run fun m => m.rowPortDrainDone p)

/-- PORT_DRAIN_BOUND_EXPIRY (R159). -/
def execPortDrainBoundExpiry (p : Nat) (s : State) : Host.Outcome State Fault Refusal :=
  .next (s.run fun m => m.rowPortDrainBoundExpiry p)

/-- PORT_RELEASE (R144). -/
def execPortRelease (sender : Src) (s : State) : Host.Outcome State Fault Refusal :=
  .next (s.run fun m => m.rowPortRelease sender)

/-- GENERATE_ROUTES (R153). -/
def execGenerateRoutes (sender : Src) (s : State) : Host.Outcome State Fault Refusal :=
  .next (s.run fun m => m.rowGenerateRoutes sender)

end Sys2Proof.Machine
end

