-- ==== Sys2Proof/Machine/ExecPower.lean ====
section
/-! DEFINITION. The meanings of the commands of 15_clocks_power.md: domains, power, temperature. Each one is its row's operation on the machine, under
what must run for the command to happen (Run.lean). -/

namespace Sys2Proof.Machine

/-- DOMAIN_POWER_DOWN_REQUEST (R432). -/
def execDomainPowerDownRequest (sender : Src) (s : State) : Host.Outcome State Fault Refusal :=
  .next (s.run fun m => m.rowDomainPowerDownRequest sender)

/-- DOMAIN_POWER_UP_REQUEST (R432). -/
def execDomainPowerUpRequest (sender : Src) (s : State) : Host.Outcome State Fault Refusal :=
  .next (s.run fun m => m.rowDomainPowerUpRequest sender)

/-- DOMAIN_TRANSFERS_DRAINED (R432). -/
def execDomainTransfersDrained (die dom : Nat) (s : State) : Host.Outcome State Fault Refusal :=
  .next (s.run fun m => m.rowDomainTransfersDrained die dom)

/-- DOMAIN_DOWN_BOUND_EXPIRY (R432). -/
def execDomainDownBoundExpiry (die dom : Nat) (s : State) : Host.Outcome State Fault Refusal :=
  .next (s.run fun m => m.rowDomainDownBoundExpiry die dom)

/-- DOMAIN_UP_DONE (R432). -/
def execDomainUpDone (die dom : Nat) (s : State) : Host.Outcome State Fault Refusal :=
  .next (s.run fun m => m.rowDomainUpDone die dom)

/-- POWER_EVALUATION (R435). -/
def execPowerEvaluation (watts mA vin vaux vauxMa : Nat) (s : State) : Host.Outcome State Fault Refusal :=
  .next (s.run fun m => m.rowPowerEvaluation watts mA vin vaux vauxMa)

/-- CURRENT_CUT (R438). -/
def execCurrentCut (s : State) : Host.Outcome State Fault Refusal :=
  .next (s.run fun m => m.rowCurrentCut)

/-- CURRENT_CUT_END (R438). -/
def execCurrentCutEnd (s : State) : Host.Outcome State Fault Refusal :=
  .next (s.run fun m => m.rowCurrentCutEnd)

/-- THERMAL_SAMPLE (R440). -/
def execThermalSample (stack : Bool) (n : Nat) (readings : List Int) (s : State) : Host.Outcome State Fault Refusal :=
  .next (s.run fun m => m.rowThermalSample stack n readings)

end Sys2Proof.Machine
end

