-- ==== Sys2Proof/Machine/ExecQueue.lean ====
section
/-! DEFINITION. The meanings of the commands of 07_command_queues.md and 12_visibility.md: queues, admission, fences. Each one is its row's operation on the machine, under
what must run for the command to happen (Run.lean). -/

namespace Sys2Proof.Machine

/-- QUEUE_ENABLE (R204). -/
def execQueueEnable (sender : Src) (s : State) : Host.Outcome State Fault Refusal :=
  .next (s.run fun m => m.rowQueueEnable sender)

/-- QUEUE_DISABLE (R209). -/
def execQueueDisable (sender : Src) (s : State) : Host.Outcome State Fault Refusal :=
  .next (s.run fun m => m.rowQueueDisable sender)

/-- QUEUE_STOP (R209). -/
def execQueueStop (sender : Src) (q : Nat) (s : State) : Host.Outcome State Fault Refusal :=
  .next (s.run fun m => m.rowQueueStop sender q)

/-- QUEUE_RESTART (R209). -/
def execQueueRestart (sender : Src) (q : Nat) (s : State) : Host.Outcome State Fault Refusal :=
  .next (s.run fun m => m.rowQueueRestart sender q)

/-- RING_DOORBELL_REGISTER (R207). -/
def execRingDoorbellRegister (sender : Src) (v : Nat) (s : State) : Host.Outcome State Fault Refusal :=
  .next (s.run fun m => m.rowRingDoorbellRegister sender v)

/-- DESCRIPTOR_FETCH_DONE (R210). -/
def execDescriptorFetchDone (q : Nat) (s : State) : Host.Outcome State Fault Refusal :=
  .next (s.run fun m => m.rowDescriptorFetchDone q)

/-- COMMAND_ADMIT (R216). -/
def execCommandAdmit (die : Nat) (s : State) : Host.Outcome State Fault Refusal :=
  .next (s.run fun m => m.rowCommandAdmit die)

/-- CQ_HEAD_READ_DONE (R208). -/
def execCqHeadReadDone (q : Nat) (s : State) : Host.Outcome State Fault Refusal :=
  .next (s.run fun m => m.rowCqHeadReadDone q)

/-- CQ_HEAD_POLL_EXPIRY (R208). -/
def execCqHeadPollExpiry (q : Nat) (s : State) : Host.Outcome State Fault Refusal :=
  .next (s.run fun m => m.rowCqHeadPollExpiry q)

/-- COMMAND_END (R333). -/
def execCommandEnd (slot : Nat) (s : State) : Host.Outcome State Fault Refusal :=
  .next (s.run fun m => m.rowCommandEnd slot)

/-- COALESCING_EXPIRY (R212). -/
def execCoalescingExpiry (q : Nat) (s : State) : Host.Outcome State Fault Refusal :=
  .next (s.run fun m => m.rowCoalescingExpiry q)

/-- EVENT_COUNT_WRITE (R227). -/
def execEventCountWrite (sender : Src) (v : Nat) (s : State) : Host.Outcome State Fault Refusal :=
  .next (s.run fun m => m.rowEventCountWrite sender v)

/-- FENCE_QUEUE (R337). -/
def execFenceQueue (slot : Nat) (s : State) : Host.Outcome State Fault Refusal :=
  .next (s.run fun m => m.rowFenceQueue slot)

/-- FENCE_ACQUIRE (R338). -/
def execFenceAcquire (slot : Nat) (s : State) : Host.Outcome State Fault Refusal :=
  .next (s.run fun m => m.rowFenceAcquire slot)

/-- FENCE_OWNER (R339). -/
def execFenceOwner (slot : Nat) (s : State) : Host.Outcome State Fault Refusal :=
  .next (s.run fun m => m.rowFenceOwner slot)

/-- FENCE_OWNER_TIMEOUT (R339). -/
def execFenceOwnerTimeout (slot : Nat) (s : State) : Host.Outcome State Fault Refusal :=
  .next (s.run fun m => m.rowFenceOwnerTimeout slot)

/-- SIGNAL (R217). -/
def execSignal (slot : Nat) (s : State) : Host.Outcome State Fault Refusal :=
  .next (s.run fun m => m.rowSignal slot)

/-- WAIT_EVENT (R218). -/
def execWaitEvent (slot : Nat) (s : State) : Host.Outcome State Fault Refusal :=
  .next (s.run fun m => m.rowWaitEvent slot)

/-- WAIT_MEMORY (R218). -/
def execWaitMemory (slot : Nat) (s : State) : Host.Outcome State Fault Refusal :=
  .next (s.run fun m => m.rowWaitMemory slot)

/-- WAIT_POLL_EXPIRY (R218). -/
def execWaitPollExpiry (slot : Nat) (s : State) : Host.Outcome State Fault Refusal :=
  .next (s.run fun m => m.rowWaitPollExpiry slot)

/-- WAIT_TIMEOUT (R218). -/
def execWaitTimeout (slot : Nat) (s : State) : Host.Outcome State Fault Refusal :=
  .next (s.run fun m => m.rowWaitTimeout slot)

/-- HOST_FLUSH_READ_DONE (R332). -/
def execHostFlushReadDone (slot path : Nat) (ok : Bool) (s : State) : Host.Outcome State Fault Refusal :=
  .next (s.run fun m => m.rowHostFlushReadDone slot path ok)

/-- PASS_BACKOFF_EXPIRY (R222). -/
def execPassBackoffExpiry (die crag bank input : Nat) (s : State) : Host.Outcome State Fault Refusal :=
  .next (s.run fun m => m.rowPassBackoffExpiry die crag bank input)

/-- STARVATION_REPORT (R223). -/
def execStarvationReport (die crag bank input : Nat) (s : State) : Host.Outcome State Fault Refusal :=
  .next (s.run fun m => m.rowStarvationReport die crag bank input)

/-- BANK_WATCHDOG_BITE (R224). -/
def execBankWatchdogBite (die crag bank : Nat) (s : State) : Host.Outcome State Fault Refusal :=
  .next (s.run fun m => m.rowBankWatchdogBite die crag bank)

/-- BANK_RESET_DONE (R224). -/
def execBankResetDone (die crag bank : Nat) (s : State) : Host.Outcome State Fault Refusal :=
  .next (s.run fun m => m.rowBankResetDone die crag bank)

/-- COMMAND_TIME_BOUND_EXPIRY (R254). -/
def execCommandTimeBoundExpiry (slot : Nat) (s : State) : Host.Outcome State Fault Refusal :=
  .next (s.run fun m => m.rowCommandTimeBoundExpiry slot)

end Sys2Proof.Machine
end

