-- ==== Sys2Proof/Machine/ExecSec.lean ====
section
/-! DEFINITION. The meanings of the commands of 16_security.md: boot, updates, confidential mode, bindings. Each one is its row's operation on the machine, under
what must run for the command to happen (Run.lean). -/

namespace Sys2Proof.Machine

/-- BOOT_CHOOSE (R444). -/
def execBootChoose (recordOk : Bool) (s : State) : Host.Outcome State Fault Refusal :=
  .next (s.run fun m => m.rowBootChoose recordOk)

/-- BOOT_RETRY_EXPIRY (R444). -/
def execBootRetryExpiry (recordOk : Bool) (s : State) : Host.Outcome State Fault Refusal :=
  .next (s.run fun m => m.rowBootRetryExpiry recordOk)

/-- IMAGE_UPLOAD (R446). -/
def execImageUpload (q : Requester) (r : Request) (s : State) : Host.Outcome State Fault Refusal :=
  .next (s.run fun m => m.rowImageUpload q r)

/-- ACTIVATE_LIVE (R447). -/
def execActivateLive (sender : Src) (s : State) : Host.Outcome State Fault Refusal :=
  .next (s.run fun m => m.rowActivateLive sender)

/-- ACTIVATE_AT_COLD_RESET (R446). -/
def execActivateAtColdReset (sender : Src) (s : State) : Host.Outcome State Fault Refusal :=
  .next (s.run fun m => m.rowActivateAtColdReset sender)

/-- HANDOVER_DONE (R447). -/
def execHandoverDone (s : State) : Host.Outcome State Fault Refusal :=
  .next (s.run fun m => m.rowHandoverDone)

/-- HANDOVER_TIMEOUT (R447). -/
def execHandoverTimeout (s : State) : Host.Outcome State Fault Refusal :=
  .next (s.run fun m => m.rowHandoverTimeout)

/-- CLAIM_WINDOW_EXPIRY (R452). -/
def execClaimWindowExpiry (s : State) : Host.Outcome State Fault Refusal :=
  .next (s.run fun m => m.rowClaimWindowExpiry)

/-- CONFIDENTIAL_ENTER (R457). -/
def execConfidentialEnter (sender : Src) (s : State) : Host.Outcome State Fault Refusal :=
  .next (s.run fun m => m.rowConfidentialEnter sender)

/-- CONFIDENTIAL_EXIT (R463). -/
def execConfidentialExit (sender : Src) (s : State) : Host.Outcome State Fault Refusal :=
  .next (s.run fun m => m.rowConfidentialExit sender)

/-- CONFIDENTIAL_ENTRY_BOUND_EXPIRY (R457). -/
def execConfidentialEntryBoundExpiry (s : State) : Host.Outcome State Fault Refusal :=
  .next (s.run fun m => m.rowConfidentialEntryBoundExpiry)

/-- CONFIDENTIAL_ENTRY_DONE (R457). -/
def execConfidentialEntryDone (key : List Byte) (s : State) : Host.Outcome State Fault Refusal :=
  .next (s.run fun m => m.rowConfidentialEntryDone key)

/-- CONFIDENTIAL_EXIT_DONE (R463). -/
def execConfidentialExitDone (s : State) : Host.Outcome State Fault Refusal :=
  .next (s.run fun m => m.rowConfidentialExitDone)

/-- PATH_LOSS_EXIT_EXPIRY (R456). -/
def execPathLossExitExpiry (s : State) : Host.Outcome State Fault Refusal :=
  .next (s.run fun m => m.rowPathLossExitExpiry)

/-- WEIGHT_BIND (R465). -/
def execWeightBind (sender : Src) (s : State) : Host.Outcome State Fault Refusal :=
  .next (s.run fun m => m.rowWeightBind sender)

/-- WEIGHT_UNBIND (R465). -/
def execWeightUnbind (sender : Src) (s : State) : Host.Outcome State Fault Refusal :=
  .next (s.run fun m => m.rowWeightUnbind sender)

/-- BINDING_DECISION (R465). -/
def execBindingDecision (slot : Nat) (s : State) : Host.Outcome State Fault Refusal :=
  .next (s.run fun m => m.rowBindingDecision slot)

/-- AUDIT_FLASH_WRITE_DONE (R468). -/
def execAuditFlashWriteDone (ok : Bool) (s : State) : Host.Outcome State Fault Refusal :=
  .next (s.run fun m => m.rowAuditFlashWriteDone ok)

end Sys2Proof.Machine
end

