-- ==== Sys2Proof/Machine/SpdmRows.lean ====
section
/-! DEFINITION. SPDM sessions (14_cairn.md R400; 16_security.md R445-R452; 04_host_ports.md R108-R110), the frames of the Cairn port,
relays (R389-R391), and the in-band mirror (04_host_ports.md R123). -/

namespace Sys2Proof.Machine

/-! ## Peers (R451) -/

/-- Whether a trust-store slot that is valid holds a root's hash. -/
def Mach.trusts (m : Mach) (root : List Byte) : Bool :=
  (List.range 8).any fun k => m.reg 0x6000 3 k == 1 && m.oct 0x6000 2 k == Config.sha384 root

/-- R451: whether a chain is accepted: signed, rooted in the trust store, and in date while the calendar is valid. -/
def Mach.chainOk (m : Mach) (root : List Byte) (signed inDate : Bool) : Bool :=
  signed && m.trusts root && (inDate || m.reg 0x1300 7 0 == 0)

/-- R451: a chain accepted without a check of its dates is counted. -/
def Mach.countUndated (m : Mach) : Mach := if m.reg 0x1300 7 0 = 0 then m.bump 0x7130 4 else m

/-- R445, Table 16-3: the six measurement digests. -/
def Mach.measurements (m : Mach) : List (List Byte) :=
  let f := m.sec.flash
  let tal := ((List.range 9).flatMap fun t => leBytes 2 (tgetD f.burnt t 0)) ++
    [byteOf (m.reg 0x6001 1 0), byteOf (m.reg 0x6001 2 0), byteOf (m.reg 0x6001 3 0), byteOf (m.reg 0x6001 4 0)] ++
    leBytes 2 (m.reg 0x6011 1 0) ++ [byteOf (m.reg 0x6003 2 0)] ++ ([1, 2, 3, 4].map fun k => byteOf (m.reg 0x6012 k 0))
  let trust := ((List.range 8).flatMap fun k => m.oct 0x6000 2 k ++ [byteOf (m.reg 0x6000 3 k)]) ++
    [1, 2, 3, 4].flatMap fun k => m.oct 0x6030 k 0
  let creds := (List.range 16).flatMap fun k => m.oct 0x1200 2 k ++ [byteOf (m.reg 0x1200 3 k)]
  let image := ((f.slot (m.reg 0x6010 1 0)).map (·.measured)).getD []
  [Config.measurement 1 [byteOf Config.steppingCode], Config.measurement 2 image, Config.measurement 3 (tal ++ trust),
   Config.measurement 4 trust, Config.measurement 5 m.sec.measured5, Config.measurement 6 creds]

/-! ## Management sessions (R400, R401, R452) -/

/-- The lowest session slot that is free. -/
def Mach.freeSession (m : Mach) : Option Nat :=
  firstFrom 8 0 fun n => (tget m.cairn.reqs n).isNone && (tget m.cairn.handshakes n).isNone

/-- Whether an open session is of a channel. -/
def Mach.sessionOf (m : Mach) (chan : SpdmChan) (n : Nat) : Bool :=
  decide (n < 8) && (tget m.cairn.reqs n).any fun s =>
    match chan with
    | .cairn a => !s.ridgeline && s.addr == a
    | .ridgeline x => s.ridgeline && s.addr == x
    | .host _ _ => false

/-- A session, or an exchange not yet finished, over: its staging set, selections, copies and kept responses go (R401). -/
def Mach.endSession (m : Mach) (n : Nat) : Mach :=
  { m with cairn := { m.cairn with reqs := tdel m.cairn.reqs n, handshakes := tdel m.cairn.handshakes n } }

/-- A session opened in a slot. -/
def Mach.openSession (m : Mach) (n owner roles : Nat) (chan : SpdmChan) : Mach :=
  let (addr, rl) := match chan with | .cairn a => (a, false) | .ridgeline x => (x, true) | .host _ _ => (0, false)
  { m with cairn := { m.cairn with
    handshakes := tdel m.cairn.handshakes n
    reqs := tput m.cairn.reqs n (ReqState.fresh owner roles addr rl (m.reg 0x1100 9 0)) } }

/-- The valid credential of a key hash. -/
def Mach.credentialOf (m : Mach) (hash : List Byte) : Option Nat :=
  (List.range 16).find? fun k => !allZero (m.oct 0x1200 2 k) && m.oct 0x1200 2 k == hash

/-- R452: the device claimed: credential 0 with every role, OWNED. -/
def Mach.claim (m : Mach) (hash : List Byte) : Mach :=
  let m := (((m.setOct 0x1200 2 0 hash).setReg 0x1200 3 0 15).nextGen 0x1200 4).setReg 0x6002 2 0 1
  let m := { m with sec := { m.sec with claimable := false } }
  (m.audit 0x0012 (leBytes 2 0x1200)).audit 0x0003 [0]

/-- A session refused: no session is formed; counted and logged. -/
def Mach.refuseSession (m : Mach) (n : Nat) : SpdmAnswer × Mach :=
  (.errorInvalidRequest, ((m.endSession n).bump 0x7110 5).audit 0x0012 [byteOf n])

/-- FINISH of a management session: the claim of an UNOWNED device, or the credential match. -/
def Mach.finishSession (m : Mach) (chan : SpdmChan) (n : Nat) (leaf root : List Byte) (signed inDate : Bool) : SpdmAnswer × Mach :=
  let hash := Config.sha384 leaf
  let onCairn := match chan with | .cairn _ => true | _ => false
  if tget m.cairn.handshakes n ≠ some chan then (.errorInvalidRequest, m)
  else if onCairn && m.sec.claimable && m.reg 0x6002 2 0 == 0 then (.finished, (m.claim hash).openSession n 0 15 chan)
  else if !m.chainOk root signed inDate then m.refuseSession n
  else
    match m.credentialOf hash with
    | none => m.countUndated.refuseSession n
    | some k => (.finished, m.countUndated.openSession n k (m.reg 0x1200 3 k % 16) chan)

/-! ## Host sessions (R108-R110, Table 04-4) -/

/-- R108: the enabled identity and the key slot (0 A, 1 B) of a host key: slot A before slot B. -/
def Mach.identityOf (m : Mach) (hash : List Byte) : Option (Nat × Nat) :=
  let pick (s : Nat) : Option (Nat × Nat) :=
    ((List.range 64).find? fun i => m.reg 0x3430 5 i == 1 && !allZero (m.oct 0x3430 (2 + s) i) && m.oct 0x3430 (2 + s) i == hash).map fun i => (i, s)
  (pick 0).or (pick 1)

/-- R110: whether a second path may join an identity's bound path. -/
def Mach.pairOk (m : Mach) (ident slot link : Nat) (first : Nat) : Bool :=
  let hrt := (m.validRows 0x3410).filter fun r => m.reg 0x3410 2 r == ident
  (tget m.host.lds first).any (fun l => l.keySlot == slot) && !hrt.isEmpty &&
    hrt.all (fun r => bit (m.reg 0x3410 5 r) 1) && first / 16 != link

/-- A binding refused: notice 0x8040 names the identity (0xFF when no key matched) and both links, counted, logged. -/
def Mach.refuseBinding (m : Mach) (link ld : Nat) (l : Ld) (ident other : Nat) : Mach :=
  let m := m.setLd link ld { l with bind := .refused }
  ((m.notice 0x8040 [byteOf ident, byteOf link, byteOf other]).bump 0x7040 9).audit 0x0030 [byteOf ident, byteOf link, byteOf ld, 0]

/-- FINISH on an LD: the decision of R108 and R110. -/
def Mach.finishHost (m : Mach) (link ld : Nat) (l : Ld) (leaf root : List Byte) (signed inDate : Bool) : SpdmAnswer × Mach :=
  if l.bind ≠ .authenticating then (.errorInvalidRequest, m)
  else if !m.chainOk root signed inDate then (.errorInvalidRequest, m.setLd link ld { l with bind := .unbound })
  else
    let m := m.countUndated
    match m.identityOf (Config.sha384 leaf) with
    | none => (.errorInvalidRequest, m.refuseBinding link ld l 0xFF 0xFF)
    | some (i, s) =>
      let ps := m.pathOrder i
      let fits := match ps with | [] => true | [p] => m.pairOk i s link p | _ => false
      if !fits then (.errorInvalidRequest, m.refuseBinding link ld l i ((ps.headD 0) / 16))
      else
        let m := m.setLd link ld { l with bind := .bound, ident := i, keySlot := s }
        (.finished, (m.setPaths i (ps ++ [link * 16 + ld])).audit 0x0030 [byteOf i, byteOf link, byteOf ld, 1])

/-! ## An SPDM message served -/

/-- A message on an LD's DOE mailbox. -/
def Mach.hostSpdm (m : Mach) (link ld : Nat) (l : Ld) (msg : SpdmMsg) : SpdmAnswer × Mach :=
  match msg with
  | .keyExchange =>
    if l.bind = .bound ∨ l.bind = .teardown then (.errorBusy, m)
    else (.keyExchange (link * 16 + ld), m.setLd link ld { l with bind := .authenticating })
  | .finish _ leaf root signed inDate => m.finishHost link ld l leaf root signed inDate
  | .endSession _ => (.endSession, (m.losePath link ld 4).endBinding link ld)
  | .heartbeat _ => (if l.bind = .bound then .heartbeat else .errorInvalidRequest, m)
  | .getMeasurements => (.measurements m.measurements, m)
  | .setCertificate _ _ _ => (.errorInvalidRequest, m)
  | .other => (.answered, m)

/-- A message of a management station, over Cairn or Ridgeline. -/
def Mach.stationSpdm (m : Mach) (chan : SpdmChan) (msg : SpdmMsg) : SpdmAnswer × Mach :=
  match msg with
  | .keyExchange =>
    match m.freeSession with
    | none => (.errorBusy, m)
    | some n => (.keyExchange n, { m with cairn := { m.cairn with handshakes := tput m.cairn.handshakes n chan } })
  | .finish n leaf root signed inDate => m.finishSession chan n leaf root signed inDate
  | .endSession n => if m.sessionOf chan n then (.endSession, m.endSession n) else (.errorInvalidRequest, m)
  | .heartbeat n => (if m.sessionOf chan n then .heartbeat else .errorInvalidRequest, m)
  | .getMeasurements => (.measurements m.measurements, m)
  | .setCertificate n slot chain =>
    if m.sessionOf chan n && hasRole (m.roles (.session n)) .custodian && slot == 1 then
      (.certificateSet, { m with sec := { m.sec with flash := { m.sec.flash with ownerChain := chain } } })
    else (.errorInvalidRequest, m)
  | .other => (.answered, m)

/-- An SPDM message served and answered (R400, R450): on an LD whose link is up; over the Cairn port while it is up; over Ridgeline
while the management controller runs. -/
def Mach.spdm (m : Mach) (chan : SpdmChan) (msg : SpdmMsg) : Mach :=
  let sent (p : SpdmAnswer × Mach) : Mach := p.2.emit (.spdm chan p.1)
  match chan with
  | .host link ld =>
    match m.ld? link ld with
    | none => m
    | some l => if l.bind = .down then m else sent (m.hostSpdm link ld l msg)
  | .cairn _ => if m.cairnUp then (sent ((m.bump 0x7110 1).stationSpdm chan msg)).bump 0x7110 2 else m
  | .ridgeline _ => if m.managed then (sent ((m.bump 0x7110 1).stationSpdm chan msg)).bump 0x7110 2 else m

/-- SPDM_KEY_EXCHANGE. -/
def Mach.rowSpdmKeyExchange (m : Mach) (chan : SpdmChan) : Mach := m.spdm chan .keyExchange
/-- SPDM_FINISH. -/
def Mach.rowSpdmFinish (m : Mach) (chan : SpdmChan) (session : Nat) (leaf root : List Byte) (signed inDate : Bool) : Mach :=
  m.spdm chan (.finish session leaf root signed inDate)
/-- SPDM_END_SESSION. -/
def Mach.rowSpdmEndSession (m : Mach) (chan : SpdmChan) (session : Nat) : Mach := m.spdm chan (.endSession session)
/-- SPDM_HEARTBEAT. -/
def Mach.rowSpdmHeartbeat (m : Mach) (chan : SpdmChan) (session : Nat) : Mach := m.spdm chan (.heartbeat session)
/-- SPDM_GET_MEASUREMENTS. -/
def Mach.rowSpdmGetMeasurements (m : Mach) (chan : SpdmChan) : Mach := m.spdm chan .getMeasurements
/-- SPDM_SET_CERTIFICATE. -/
def Mach.rowSpdmSetCertificate (m : Mach) (chan : SpdmChan) (session slot : Nat) (chain : List Byte) : Mach :=
  m.spdm chan (.setCertificate session slot chain)
/-- SPDM_OTHER_REQUEST. -/
def Mach.rowSpdmOtherRequest (m : Mach) (chan : SpdmChan) : Mach := m.spdm chan .other

/-- SPDM_HEARTBEAT_TIMEOUT: no heartbeat for twice the period: a bound path is lost (R118), a management session ends, counted; an
exchange that is never finished gives its slot back. -/
def Mach.rowSpdmHeartbeatTimeout (m : Mach) (chan : SpdmChan) (session : Nat) : Mach :=
  match chan with
  | .host link ld => (m.losePath link ld 5).endBinding link ld
  | c =>
    if m.sessionOf c session then (m.endSession session).bump 0x7110 6
    else if tget m.cairn.handshakes session = some c then m.endSession session
    else m

/-! ## Frames of the Cairn port (R389-R391, R400) -/

/-- A frame discarded without answer and counted. -/
def Mach.discardFrame (m : Mach) : Mach := (m.bump 0x7110 1).bump 0x7110 4

/-- CAIRN_SPDM_MESSAGE: a KIND 0x05 frame from a station. -/
def Mach.rowCairnSpdmMessage (m : Mach) (address : Nat) (msg : SpdmMsg) : Mach := m.spdm (.cairn address) msg

/-- The frame inside a secured message served (R389, R390). -/
def Mach.servePlain (m : Mach) (session : Nat) (p : PlainFrame) : Mach :=
  match p with
  | .request r => m.serveRequest (.session session) r
  | .noticeAck n => m.rowNoticeAck session n
  | .other => m.discardFrame

/-- CAIRN_SECURED_MESSAGE: a KIND 0x06 frame of an open session over Cairn. -/
def Mach.rowCairnSecuredMessage (m : Mach) (session : Nat) (p : PlainFrame) : Mach :=
  match tget m.cairn.reqs session with
  | some s => if session < 8 ∧ !s.ridgeline ∧ m.cairnUp then m.servePlain session p else m
  | none => m

/-- The frame inside a relay or an MGMT_REQ served, for a channel. -/
def Mach.serveSealed (m : Mach) (chan : SpdmChan) (f : SealedFrame) : Mach :=
  match f with
  | .spdm msg => m.spdm chan msg
  | .secured n p => if m.sessionOf chan n then m.servePlain n p else m.discardFrame
  | .other => m.discardFrame

/-- The bytes of the answer that a sealed frame gets: opaque, and none when it is discarded. -/
def Mach.sealedAnswer (m : Mach) : List Byte × Mach := (Config.cipherFrame m.freeCtr, { m with freeCtr := m.freeCtr + 1 })

/-- Whether a sealed frame is answered: an SPDM message, or a request in a session of the channel. -/
def Mach.sealedAnswered (m : Mach) (chan : SpdmChan) (f : SealedFrame) : Bool :=
  match f with
  | .spdm _ => true
  | .secured n (.request _) => m.sessionOf chan n
  | .secured _ _ => false
  | .other => false

/-- CAIRN_RELAY (R391): a KIND 0x07 frame from a station, its inner frame as bytes and as what it holds: served here for the own
node, else sent in an MGMT_REQ; with no way there it is answered empty. -/
def Mach.rowCairnRelay (m : Mach) (address txn node : Nat) (bs : List Byte) (f : SealedFrame) : Mach :=
  if !m.cairnUp then m else
  let inner := match f with | .other => false | _ => true
  if !inner then m.discardFrame else
  let m := m.bump 0x7110 0x0A
  if node = m.node then
    let answered := m.sealedAnswered (.cairn address) f
    let m := m.serveSealed (.cairn address) f
    if !answered then m else
    let (a, m) := m.sealedAnswer
    m.emit (.relayed address txn node a)
  else
    let m := m.bump 0x7110 1
    let empty (m : Mach) : Mach := (m.emit (.relayed address txn node [])).bump 0x7110 2
    if m.nodeDead node ∨ 512 ≤ node then empty m else
    match m.newTag 0 false with
    | none => empty m
    | some tag =>
      let r := m.reqFrame 0xE0 2 0 (node * 2 ^ 50) 0 tag bs.length 0 0 0 false false (bs ++ zeros ((64 - bs.length % 64) % 64))
      m.sendReq 0 { r with mg := true } (.relay address txn)

/-- Table 14-6: whether a management frame's form is its opcode's. -/
def mgmtFormOk (f : RFrame) (opcode cls : Nat) : Bool :=
  f.opcode == opcode && f.cls == cls && f.mg && decide (1 ≤ f.len) && decide (f.len ≤ 16)

/-- FRAME_MGMT_REQ: a transfer frame for this device's management controller, with what it holds. -/
def Mach.rowFrameMgmtReq (m : Mach) (port : Nat) (f : RFrame) (inner : SealedFrame) : Mach :=
  let m := m.takeArrived port f
  if !mgmtFormOk f 0xE0 2 then m.refuseFrame f else
  let chan := SpdmChan.ridgeline f.src
  let answered := m.sealedAnswered chan inner && m.managed
  let m := m.serveSealed chan inner
  if !answered then m else
  let (a, m) := m.sealedAnswer
  let a := a.take 1024
  m.sendFrame { m.respFrame f 0 0 0 (a ++ zeros ((64 - a.length % 64) % 64)) with opcode := 0xE1, mg := true }

/-- FRAME_MGMT_RSP: the answer of a relay. -/
def Mach.rowFrameMgmtRsp (m : Mach) (port : Nat) (f : RFrame) : Mach :=
  let m := m.takeArrived port f
  if !mgmtFormOk f 0xE1 1 then m.refuseFrame f else
  match tget m.fab.reqs f.tag with
  | some r => (match r.purpose with
    | .relay _ _ => m.endReq f.tag f.status false f.payload
    | _ => m.bump 0x7060 3)
  | none => m.bump 0x7060 3

/-! ## The in-band mirror (R123, R389, R390) -/

/-- The abort frame that answers a mirror request. -/
def mirrorAbort (txn op idx sub abort : Nat) : Response := ⟨txn, op, idx, sub, typeCode idx sub, abort, 0, []⟩

/-- The request that a KIND 0x01 frame carries (Tables 14-4, 14-7). -/
def parseRequest (bs : List Byte) : Request :=
  { txn := fld bs 4 4, op := fld bs 16 1, flags := fld bs 17 1, index := fld bs 18 2, sub := fld bs 20 1, ty := fld bs 21 1
    len := fld bs 22 2, off := fld bs 24 4, data := bs.drop 28 }

/-- CAIRN_FRAME_DISCARD (R389, R390): a malformed frame, or one of a kind its transport refuses: discarded and counted; the in-band
mirror answers it with an abort frame that carries its TRANSACTION. -/
def Mach.rowCairnFrameDiscard (m : Mach) (t : Transport) (txn : Nat) : Mach :=
  match t with
  | .cairn => if m.cairnUp then m.discardFrame else m
  | .ridgeline _ => if m.managed then m.discardFrame else m
  | .mirror link ld =>
    if (m.ld? link ld).isNone then m
    else (m.discardFrame.bump 0x7110 2).mirrorDone link ld (mirrorAbort txn 0 0 0 abType).bytes

/-- MIRROR_GO: a write of GO. While BUSY it is ignored and counted. A length of 0 or above 4,096, a malformed frame or one of a kind
that the mirror refuses is answered with an abort frame; a request is served; an acknowledgement frees notices; an LD that is not
bound has no role. -/
def Mach.rowMirrorGo (m : Mach) (link ld : Nat) : Mach :=
  match m.ld? link ld with
  | none => m
  | some l =>
    if l.bind = .down then m
    else if l.mirror.busy then m.bump 0x7040 0x0A
    else
      let n := l.mirror.reqLen
      let bs := slice l.mirror.req 0 n
      let m := m.setLd link ld { l with mirror := { l.mirror with busy := true } }
      let q := Requester.inBand link ld
      let wellFormed := decide (16 ≤ n) && decide (n ≤ 1024) && fld bs 0 1 == 1 && fld bs 2 2 == n && allZero (slice bs 8 8) &&
        (fld bs 1 1 == 1 || fld bs 1 1 == 4)
      if n = 0 ∨ 4096 < n then ((m.bump 0x7110 1).bump 0x7110 2).mirrorDone link ld (mirrorAbort (fld bs 4 4) 0 0 0 abType).bytes
      else if !wellFormed then m.rowCairnFrameDiscard (.mirror link ld) (fld bs 4 4)
      else
        let r := parseRequest bs
        if l.bind ≠ .bound ∨ m.reg 0x3450 1 0 = 0 ∧ fld bs 1 1 = 4 then
          ((m.bump 0x7110 1).bump 0x7110 2).mirrorDone link ld (mirrorAbort r.txn r.op r.index r.sub abRole).bytes
        else if fld bs 1 1 = 4 then ((m.bump 0x7110 1).acknowledge q (fld bs 16 4)).mirrorDone link ld []
        else m.serveRequest q r

/-- MIRROR_RESPONSE_BOUND_EXPIRY: a request still being served is answered with an abort frame. -/
def Mach.rowMirrorResponseBoundExpiry (m : Mach) (link ld : Nat) : Mach :=
  match m.ld? link ld with
  | none => m
  | some l =>
    if !l.mirror.busy then m
    else
      let r := parseRequest l.mirror.req
      (m.bump 0x7110 2).mirrorDone link ld (mirrorAbort r.txn r.op r.index r.sub abGeneral).bytes

end Sys2Proof.Machine
end

