-- ==== Sys2Proof/Machine/ExecSpdm.lean ====
section
/-! DEFINITION. The meanings of the commands of 04_host_ports.md, 14_cairn.md and 16_security.md: SPDM, relays, the mirror. Each one is its row's operation on the machine, under
what must run for the command to happen (Run.lean). -/

namespace Sys2Proof.Machine

/-- SPDM_KEY_EXCHANGE (R109). -/
def execSpdmKeyExchange (chan : SpdmChan) (s : State) : Host.Outcome State Fault Refusal :=
  .next (s.run fun m => m.rowSpdmKeyExchange chan)

/-- SPDM_FINISH (R108). -/
def execSpdmFinish (chan : SpdmChan) (session : Nat) (leaf root : List Byte) (signed inDate : Bool) (s : State) : Host.Outcome State Fault Refusal :=
  .next (s.run fun m => m.rowSpdmFinish chan session leaf root signed inDate)

/-- SPDM_END_SESSION (R118). -/
def execSpdmEndSession (chan : SpdmChan) (session : Nat) (s : State) : Host.Outcome State Fault Refusal :=
  .next (s.run fun m => m.rowSpdmEndSession chan session)

/-- SPDM_HEARTBEAT_TIMEOUT (R118). -/
def execSpdmHeartbeatTimeout (chan : SpdmChan) (session : Nat) (s : State) : Host.Outcome State Fault Refusal :=
  .next (s.run fun m => m.rowSpdmHeartbeatTimeout chan session)

/-- SPDM_HEARTBEAT (R450). -/
def execSpdmHeartbeat (chan : SpdmChan) (session : Nat) (s : State) : Host.Outcome State Fault Refusal :=
  .next (s.run fun m => m.rowSpdmHeartbeat chan session)

/-- SPDM_GET_MEASUREMENTS (R445). -/
def execSpdmGetMeasurements (chan : SpdmChan) (s : State) : Host.Outcome State Fault Refusal :=
  .next (s.run fun m => m.rowSpdmGetMeasurements chan)

/-- SPDM_SET_CERTIFICATE (R449). -/
def execSpdmSetCertificate (chan : SpdmChan) (session slot : Nat) (chain : List Byte) (s : State) : Host.Outcome State Fault Refusal :=
  .next (s.run fun m => m.rowSpdmSetCertificate chan session slot chain)

/-- SPDM_OTHER_REQUEST (R450). -/
def execSpdmOtherRequest (chan : SpdmChan) (s : State) : Host.Outcome State Fault Refusal :=
  .next (s.run fun m => m.rowSpdmOtherRequest chan)

/-- MIRROR_GO (R123). -/
def execMirrorGo (link ld : Nat) (s : State) : Host.Outcome State Fault Refusal :=
  .next (s.run fun m => m.rowMirrorGo link ld)

/-- MIRROR_RESPONSE_BOUND_EXPIRY (R123). -/
def execMirrorResponseBoundExpiry (link ld : Nat) (s : State) : Host.Outcome State Fault Refusal :=
  .next (s.run fun m => m.rowMirrorResponseBoundExpiry link ld)

/-- FRAME_MGMT_REQ (R390). -/
def execFrameMgmtReq (port : Nat) (f : RFrame) (inner : SealedFrame) (s : State) : Host.Outcome State Fault Refusal :=
  .next (s.run fun m => m.rowFrameMgmtReq port f inner)

/-- FRAME_MGMT_RSP (R391). -/
def execFrameMgmtRsp (port : Nat) (f : RFrame) (s : State) : Host.Outcome State Fault Refusal :=
  .next (s.run fun m => m.rowFrameMgmtRsp port f)

/-- CAIRN_SPDM_MESSAGE (R400). -/
def execCairnSpdmMessage (address : Nat) (msg : SpdmMsg) (s : State) : Host.Outcome State Fault Refusal :=
  .next (s.run fun m => m.rowCairnSpdmMessage address msg)

/-- CAIRN_SECURED_MESSAGE (R390). -/
def execCairnSecuredMessage (session : Nat) (p : PlainFrame) (s : State) : Host.Outcome State Fault Refusal :=
  .next (s.run fun m => m.rowCairnSecuredMessage session p)

/-- CAIRN_RELAY (R391). -/
def execCairnRelay (address txn node : Nat) (bs : List Byte) (f : SealedFrame) (s : State) : Host.Outcome State Fault Refusal :=
  .next (s.run fun m => m.rowCairnRelay address txn node bs f)

/-- CAIRN_FRAME_DISCARD (R389). -/
def execCairnFrameDiscard (t : Transport) (txn : Nat) (s : State) : Host.Outcome State Fault Refusal :=
  .next (s.run fun m => m.rowCairnFrameDiscard t txn)

end Sys2Proof.Machine
end

