-- ==== Sys2Proof/Machine/ExecStore.lean ====
section
/-! DEFINITION. The meanings of the commands of 03_store_tiers.md: Moraine. Each one is its row's operation on the machine, under
what must run for the command to happen (Run.lean). -/

namespace Sys2Proof.Machine

/-- MEDIA_READ_DONE (R66). -/
def execMediaReadDone (line : Nat) (r : MediaResult) (s : State) : Host.Outcome State Fault Refusal :=
  .next (s.run fun m => m.rowMediaReadDone line r)

/-- MEDIA_WRITE (R66). -/
def execMediaWrite (w : StoreWrite) (s : State) : Host.Outcome State Fault Refusal :=
  .next (s.run fun m => m.rowMediaWrite w)

/-- ALLOCATION_BOUND_EXPIRY (R86). -/
def execAllocationBoundExpiry (g : Nat) (s : State) : Host.Outcome State Fault Refusal :=
  .next (s.run fun m => m.rowAllocationBound g)

/-- FRAME_ZEROED (R86). -/
def execFrameZeroed (f : Frame) (s : State) : Host.Outcome State Fault Refusal :=
  .next (s.run fun m => m.rowFrameZeroed f)

/-- WATERMARK_RECORD_READ (R89). -/
def execWatermarkRecordRead (sender : Src) (k : Nat) (s : State) : Host.Outcome State Fault Refusal :=
  .next (s.run fun m => m.rowWatermarkRecordRead sender k)

/-- ACCESS_FLUSH_TICK (R68). -/
def execAccessFlushTick (die : Nat) (s : State) : Host.Outcome State Fault Refusal :=
  .next (s.run fun m => m.rowAccessFlushTick die)

/-- AGE_SWEEP_VISIT (R68). -/
def execAgeSweepVisit (s : State) : Host.Outcome State Fault Refusal :=
  .next (s.run fun m => m.rowAgeSweepVisit)

/-- EVICTION_START (R79). -/
def execEvictionStart (die : Nat) (s : State) : Host.Outcome State Fault Refusal :=
  .next (s.run fun m => m.rowEvictionStart die)

/-- COMPRESSION_START (R80). -/
def execCompressionStart (d : Nat) (s : State) : Host.Outcome State Fault Refusal :=
  .next (s.run fun m => m.rowCompressionStart d)

/-- MOVEMENT_COPY_DONE (R82). -/
def execMovementCopyDone (g : Nat) (s : State) : Host.Outcome State Fault Refusal :=
  .next (s.run fun m => m.rowMovementCopyDone g)

/-- MOVEMENT_FINAL_PASS_DONE (R83). -/
def execMovementFinalPassDone (g : Nat) (s : State) : Host.Outcome State Fault Refusal :=
  .next (s.run fun m => m.rowMovementFinalPassDone g)

/-- MOVEMENT_FAILED (R83). -/
def execMovementFailed (g : Nat) (s : State) : Host.Outcome State Fault Refusal :=
  .next (s.run fun m => m.rowMovementFailed g)

/-- DIMM_ACCESS_BOUND_EXPIRY (R90). -/
def execDimmAccessBoundExpiry (line : Nat) (s : State) : Host.Outcome State Fault Refusal :=
  .next (s.run fun m => m.rowDimmAccessBound line)

/-- DIMM_REREAD_DONE (R90). -/
def execDimmRereadDone (line : Nat) (ok : Bool) (s : State) : Host.Outcome State Fault Refusal :=
  .next (s.run fun m => m.rowDimmRereadDone line ok)

/-- CHANNEL_FAIL (R90). -/
def execChannelFail (c : Nat) (s : State) : Host.Outcome State Fault Refusal :=
  .next (s.run fun m => m.rowChannelFail c)

/-- LEASE_ACQUIRE (R93). -/
def execLeaseAcquire (sender : Src) (holder : Nat) (s : State) : Host.Outcome State Fault Refusal :=
  .next (s.run fun m => m.rowLeaseAcquire sender holder)

/-- LEASE_RENEW (R93). -/
def execLeaseRenew (sender : Src) (k : Nat) (s : State) : Host.Outcome State Fault Refusal :=
  .next (s.run fun m => m.rowLeaseRenew sender k)

/-- LEASE_RENEW_HOLDER (R93). -/
def execLeaseRenewHolder (sender : Src) (holder : Nat) (s : State) : Host.Outcome State Fault Refusal :=
  .next (s.run fun m => m.rowLeaseRenewHolder sender holder)

/-- LEASE_RELEASE (R93). -/
def execLeaseRelease (sender : Src) (k : Nat) (s : State) : Host.Outcome State Fault Refusal :=
  .next (s.run fun m => m.rowLeaseRelease sender k)

/-- LEASE_EXPIRY (R93). -/
def execLeaseExpiry (k : Nat) (s : State) : Host.Outcome State Fault Refusal :=
  .next (s.run fun m => m.rowLeaseExpiry k)

/-- GRACE_END (R93). -/
def execGraceEnd (k : Nat) (s : State) : Host.Outcome State Fault Refusal :=
  .next (s.run fun m => m.rowGraceEnd k)

/-- EXTENT_SCRUB_DONE (R94). -/
def execExtentScrubDone (k : Nat) (s : State) : Host.Outcome State Fault Refusal :=
  .next (s.run fun m => m.rowExtentScrubDone k)

/-- STACK_RETIRE (R95). -/
def execStackRetire (sender : Src) (k : Nat) (s : State) : Host.Outcome State Fault Refusal :=
  .next (s.run fun m => m.rowStackRetire sender k)

/-- STACK_EVACUATION_DONE (R95). -/
def execStackEvacuationDone (k : Nat) (s : State) : Host.Outcome State Fault Refusal :=
  .next (s.run fun m => m.rowStackEvacuationDone k)

/-- CHANNEL_REMOVE (R96). -/
def execChannelRemove (sender : Src) (c : Nat) (s : State) : Host.Outcome State Fault Refusal :=
  .next (s.run fun m => m.rowChannelRemove sender c)

/-- CHANNEL_ADD (R97). -/
def execChannelAdd (sender : Src) (c : Nat) (s : State) : Host.Outcome State Fault Refusal :=
  .next (s.run fun m => m.rowChannelAdd sender c)

/-- CHANNEL_TRAINED (R97). -/
def execChannelTrained (c gib : Nat) (ok : Bool) (s : State) : Host.Outcome State Fault Refusal :=
  .next (s.run fun m => m.rowChannelTrained c gib ok)

/-- RESHAPE_SWEEP_DONE (R96). -/
def execReshapeSweepDone (s : State) : Host.Outcome State Fault Refusal :=
  .next (s.run fun m => m.rowReshapeSweepDone)

end Sys2Proof.Machine
end

