-- ==== Sys2Proof/Machine/ExecTalus.lean ====
section
/-! DEFINITION. The meanings of the commands of 09_talus.md: tables. Each one is its row's operation on the machine, under
what must run for the command to happen (Run.lean). -/

namespace Sys2Proof.Machine

/-- GATHER (R266). -/
def execGather (slot : Nat) (s : State) : Host.Outcome State Fault Refusal :=
  .next (s.run fun m => m.rowGather slot)

/-- SCATTER (R275). -/
def execScatter (slot : Nat) (s : State) : Host.Outcome State Fault Refusal :=
  .next (s.run fun m => m.rowScatter slot)

/-- POOL (R273). -/
def execPool (slot : Nat) (s : State) : Host.Outcome State Fault Refusal :=
  .next (s.run fun m => m.rowPool slot)

/-- ROW_READ_DONE (R266). -/
def execRowReadDone (slot pos : Nat) (s : State) : Host.Outcome State Fault Refusal :=
  .next (s.run fun m => m.rowRowReadDone slot pos)

/-- PREFETCH_READ_DONE (R268). -/
def execPrefetchReadDone (q idx : Nat) (s : State) : Host.Outcome State Fault Refusal :=
  .next (s.run fun m => m.rowPrefetchReadDone q idx)

/-- CLEAR_SLOT_COUNTERS (R263). -/
def execClearSlotCounters (sender : Src) (s : State) : Host.Outcome State Fault Refusal :=
  .next (s.run fun m => m.rowClearSlotCounters sender)

end Sys2Proof.Machine
end

