-- ==== Sys2Proof/Machine/ExecTele.lean ====
section
/-! DEFINITION. The meanings of the commands of 17_telemetry.md and 18_electrical.md: counters, spans, modules, trace, debugging. Each one is its row's operation on the machine, under
what must run for the command to happen (Run.lean). -/

namespace Sys2Proof.Machine

/-- MARGIN_EVALUATION (R379). -/
def execMarginEvaluation (rails : List (Nat × Int × Nat)) (slacks : List (Nat × Int)) (s : State) : Host.Outcome State Fault Refusal :=
  .next (s.run fun m => m.rowMarginEvaluation rails slacks)

/-- SNAPSHOT (R472). -/
def execSnapshot (sender : Src) (s : State) : Host.Outcome State Fault Refusal :=
  .next (s.run fun m => m.rowSnapshot sender)

/-- CLEAR_COUNTERS (R473). -/
def execClearCounters (sender : Src) (s : State) : Host.Outcome State Fault Refusal :=
  .next (s.run fun m => m.rowClearCounters sender)

/-- SPAN_ARM (R475). -/
def execSpanArm (sender : Src) (s : State) : Host.Outcome State Fault Refusal :=
  .next (s.run fun m => m.rowSpanArm sender)

/-- SPAN_DISARM (R475). -/
def execSpanDisarm (sender : Src) (s : State) : Host.Outcome State Fault Refusal :=
  .next (s.run fun m => m.rowSpanDisarm sender)

/-- SOFTWARE_START (R474). -/
def execSoftwareStart (sender : Src) (s : State) : Host.Outcome State Fault Refusal :=
  .next (s.run fun m => m.rowSoftwareStart sender)

/-- SOFTWARE_STOP (R474). -/
def execSoftwareStop (sender : Src) (s : State) : Host.Outcome State Fault Refusal :=
  .next (s.run fun m => m.rowSoftwareStop sender)

/-- SPAN_SETTLE_EXPIRY (R474). -/
def execSpanSettleExpiry (s : State) : Host.Outcome State Fault Refusal :=
  .next (s.run fun m => m.rowSpanSettleExpiry)

/-- CLEAR_SPAN (R488). -/
def execClearSpan (sender : Src) (s : State) : Host.Outcome State Fault Refusal :=
  .next (s.run fun m => m.rowClearSpan sender)

/-- EYE_MEASUREMENT_DONE (R477). -/
def execEyeMeasurementDone (p height width : Nat) (s : State) : Host.Outcome State Fault Refusal :=
  .next (s.run fun m => m.rowEyeMeasurementDone p height width)

/-- MODULE_INSERTED (R479). -/
def execModuleInserted (pos : Nat) (s : State) : Host.Outcome State Fault Refusal :=
  .next (s.atPort fun m => m.rowModuleInserted pos)

/-- MODULE_REMOVED (R479). -/
def execModuleRemoved (pos : Nat) (s : State) : Host.Outcome State Fault Refusal :=
  .next (s.atPort fun m => m.rowModuleRemoved pos)

/-- MODULE_READY (R479). -/
def execModuleReady (pos app rxWarn rxAlarm txWarn txAlarm : Nat) (s : State) : Host.Outcome State Fault Refusal :=
  .next (s.run fun m => m.rowModuleReady pos app rxWarn rxAlarm txWarn txAlarm)

/-- MODULE_INIT_TIMEOUT (R479). -/
def execModuleInitTimeout (pos : Nat) (s : State) : Host.Outcome State Fault Refusal :=
  .next (s.run fun m => m.rowModuleInitTimeout pos)

/-- MODULE_FAULT_RETRY_EXPIRY (R479). -/
def execModuleFaultRetryExpiry (pos : Nat) (s : State) : Host.Outcome State Fault Refusal :=
  .next (s.run fun m => m.rowModuleFaultRetryExpiry pos)

/-- MODULE_POLL (R479). -/
def execModulePoll (pos : Nat) (got : Option (List (Nat × Nat) × Bool)) (s : State) : Host.Outcome State Fault Refusal :=
  .next (s.run fun m => m.rowModulePoll pos got)

/-- MODULE_MAP_READ (R481). -/
def execModuleMapRead (sender : Src) (got : Option (List Byte)) (s : State) : Host.Outcome State Fault Refusal :=
  .next (s.run fun m => m.rowModuleMapRead sender got)

/-- MODULE_MAP_WRITE (R481). -/
def execModuleMapWrite (sender : Src) (bs : List Byte) (ok : Bool) (s : State) : Host.Outcome State Fault Refusal :=
  .next (s.run fun m => m.rowModuleMapWrite sender bs ok)

/-- TRACE_START (R483). -/
def execTraceStart (sender : Src) (s : State) : Host.Outcome State Fault Refusal :=
  .next (s.run fun m => m.rowTraceStart sender)

/-- TRACE_STOP (R483). -/
def execTraceStop (sender : Src) (s : State) : Host.Outcome State Fault Refusal :=
  .next (s.run fun m => m.rowTraceStop sender)

/-- TRACE_POST_TRIGGER_DONE (R483). -/
def execTracePostTriggerDone (s : State) : Host.Outcome State Fault Refusal :=
  .next (s.run fun m => m.rowTracePostTriggerDone)

/-- TAP_INSTRUCTION_UPDATE (R485). -/
def execTapInstructionUpdate (code : Nat) (s : State) : Host.Outcome State Fault Refusal :=
  .next (s.onAux fun m => m.rowTapInstructionUpdate code)

/-- DEBUG_SCRATCH_READ (R486). -/
def execDebugScratchRead (sender : Src) (s : State) : Host.Outcome State Fault Refusal :=
  .next (s.run fun m => m.rowDebugScratchRead sender)

/-- DEBUG_SCRATCH_WRITE (R486). -/
def execDebugScratchWrite (sender : Src) (bs : List Byte) (s : State) : Host.Outcome State Fault Refusal :=
  .next (s.run fun m => m.rowDebugScratchWrite sender bs)

/-- DEBUG_SCRATCH_GRANT_TIMEOUT (R486). -/
def execDebugScratchGrantTimeout (s : State) : Host.Outcome State Fault Refusal :=
  .next (s.run fun m => m.rowDebugScratchGrantTimeout)

/-- SIDEBAND_LINE_CHECK (R501). -/
def execSidebandLineCheck (line st : Nat) (s : State) : Host.Outcome State Fault Refusal :=
  .next (s.onAux fun m => m.rowSidebandLineCheck line st)

end Sys2Proof.Machine
end

