-- ==== Sys2Proof/Machine/ExecXlate.lean ====
section
/-! DEFINITION. The meanings of the commands of 02_address_spaces.md: translation. Each one is its row's operation on the machine, under
what must run for the command to happen (Run.lean). -/

namespace Sys2Proof.Machine

/-- HDM_DECODER_COMMIT (R40). -/
def execHdmDecoderCommit (link ld k base size dpa g ways : Nat) (s : State) : Host.Outcome State Fault Refusal :=
  .next (s.run fun m => m.rowHdmDecoderCommit link ld k base size dpa g ways)

/-- AST_ENABLE (R42). -/
def execAstEnable (sender : Src) (s : State) : Host.Outcome State Fault Refusal :=
  .next (s.run fun m => m.rowAstEnable sender)

/-- AST_DISABLE (R42). -/
def execAstDisable (sender : Src) (s : State) : Host.Outcome State Fault Refusal :=
  .next (s.run fun m => m.rowAstDisable sender)

/-- AST_OWNER_WRITE (R42). -/
def execAstOwnerWrite (sender : Src) (v : Nat) (s : State) : Host.Outcome State Fault Refusal :=
  .next (s.run fun m => m.rowAstOwnerWrite sender v)

/-- WALK_STEP_DONE (R43). -/
def execWalkStepDone (die ast dva : Nat) (s : State) : Host.Outcome State Fault Refusal :=
  .next (s.run fun m => m.rowWalkStepDone die ast dva)

/-- PREFETCH_WALK_START (R51). -/
def execPrefetchWalkStart (die ast dva : Nat) (s : State) : Host.Outcome State Fault Refusal :=
  .next (s.run fun m => m.rowPrefetchWalkStart die ast dva)

/-- HOST_CXLIO_COMPLETION (R45). -/
def execHostCxlioCompletion (slot hpa : Nat) (c : Completion) (s : State) : Host.Outcome State Fault Refusal :=
  .next (s.run fun m => m.rowHostCxlioCompletion slot hpa c)

/-- HOST_COMPLETION_TIMEOUT (R45). -/
def execHostCompletionTimeout (slot hpa : Nat) (s : State) : Host.Outcome State Fault Refusal :=
  .next (s.run fun m => m.rowHostCompletionTimeout slot hpa)

/-- ATS_INVALIDATION_REQUEST (R48). -/
def execAtsInvalidationRequest (link ld : Nat) (pasid : Option Nat) (lo n : Nat) (s : State) : Host.Outcome State Fault Refusal :=
  .next (s.run fun m => m.rowAtsInvalidationRequest link ld pasid lo n)

/-- INVALIDATE_AST (R52). -/
def execInvalidateAst (sender : Src) (ast : Nat) (s : State) : Host.Outcome State Fault Refusal :=
  .next (s.run fun m => m.rowInvalidateAst sender ast)

/-- INVALIDATE_ALL (R52). -/
def execInvalidateAll (sender : Src) (s : State) : Host.Outcome State Fault Refusal :=
  .next (s.run fun m => m.rowInvalidateAll sender)

/-- INVALIDATION_ACK (R52). -/
def execInvalidationAck (ast : Option Nat) (s : State) : Host.Outcome State Fault Refusal :=
  .next (s.run fun m => m.rowInvalidationAck ast)

/-- INVALIDATION_BOUND_EXPIRY (R53). -/
def execInvalidationBoundExpiry (ast : Option Nat) (s : State) : Host.Outcome State Fault Refusal :=
  .next (s.run fun m => m.rowInvalidationBoundExpiry ast)

/-- MIGRATE (R60). -/
def execMigrate (slot : Nat) (s : State) : Host.Outcome State Fault Refusal :=
  .next (s.run fun m => m.rowMigrate slot)

/-- MIGRATE_COPY_DONE (R60). -/
def execMigrateCopyDone (slot : Nat) (s : State) : Host.Outcome State Fault Refusal :=
  .next (s.run fun m => m.rowMigrateCopyDone slot)

/-- ADVISE (R63). -/
def execAdvise (slot : Nat) (s : State) : Host.Outcome State Fault Refusal :=
  .next (s.run fun m => m.rowAdvise slot)

end Sys2Proof.Machine
end

