-- ==== Sys2Proof/Machine/Dispatch.lean ====
section
/-! DEFINITION. One arm for each command, each a direct call of its meaning. -/

namespace Sys2Proof.Machine

/-- The effect of a command on everything but the queue. -/
def exec (i : Instr) (s : State) : Host.Outcome State Fault Refusal :=
  match i with
  | .colRdShared home req line => Sys2Proof.Machine.execColRdShared home req line s
  | .colRdOwn home req line => Sys2Proof.Machine.execColRdOwn home req line s
  | .colUpgrade home req line => Sys2Proof.Machine.execColUpgrade home req line s
  | .colEvict home src line => Sys2Proof.Machine.execColEvict home src line s
  | .colWb home src line => Sys2Proof.Machine.execColWb home src line s
  | .colSnpShare home die line => Sys2Proof.Machine.execColSnpShare home die line s
  | .colSnpInv home die line => Sys2Proof.Machine.execColSnpInv home die line s
  | .colSnpFwd home die line => Sys2Proof.Machine.execColSnpFwd home die line s
  | .colSnpRsp home src line => Sys2Proof.Machine.execColSnpRsp home src line s
  | .colAck src die line => Sys2Proof.Machine.execColAck src die line s
  | .colData src die line => Sys2Proof.Machine.execColData src die line s
  | .colRetrainLimitExpiry link => Sys2Proof.Machine.execColRetrainLimitExpiry link s
  | .clearDownLink sender v => Sys2Proof.Machine.execClearDownLink sender v s
  | .dieWatchdogExpiry d => Sys2Proof.Machine.execDieWatchdogExpiry d s
  | .dieUncorrectableError d => Sys2Proof.Machine.execDieUncorrectableError d s
  | .coreSupplyLoss d => Sys2Proof.Machine.execCoreSupplyLoss d s
  | .fenceOrderly sender d => Sys2Proof.Machine.execFenceOrderly sender d s
  | .fenceEvacuationDone d => Sys2Proof.Machine.execFenceEvacuationDone d s
  | .fenceEvacuationBoundExpiry d => Sys2Proof.Machine.execFenceEvacuationBoundExpiry d s
  | .fenceDrainDone d => Sys2Proof.Machine.execFenceDrainDone d s
  | .commandDrainBoundExpiry d => Sys2Proof.Machine.execCommandDrainBoundExpiry d s
  | .fenceWritebackDone d => Sys2Proof.Machine.execFenceWritebackDone d s
  | .fenceSurvivorWritebackDone d => Sys2Proof.Machine.execFenceSurvivorWritebackDone d s
  | .dieRejoin sender d => Sys2Proof.Machine.execDieRejoin sender d s
  | .dieRejoinDone d t0 t1 => Sys2Proof.Machine.execDieRejoinDone d t0 t1 s
  | .homeRemapWritebackDone => Sys2Proof.Machine.execHomeRemapWritebackDone s
  | .hdmDecoderCommit link ld k base size dpa g ways => Sys2Proof.Machine.execHdmDecoderCommit link ld k base size dpa g ways s
  | .astEnable sender => Sys2Proof.Machine.execAstEnable sender s
  | .astDisable sender => Sys2Proof.Machine.execAstDisable sender s
  | .astOwnerWrite sender v => Sys2Proof.Machine.execAstOwnerWrite sender v s
  | .walkStepDone die ast dva => Sys2Proof.Machine.execWalkStepDone die ast dva s
  | .prefetchWalkStart die ast dva => Sys2Proof.Machine.execPrefetchWalkStart die ast dva s
  | .hostCxlioCompletion slot hpa c => Sys2Proof.Machine.execHostCxlioCompletion slot hpa c s
  | .hostCompletionTimeout slot hpa => Sys2Proof.Machine.execHostCompletionTimeout slot hpa s
  | .atsInvalidationRequest link ld pasid lo n => Sys2Proof.Machine.execAtsInvalidationRequest link ld pasid lo n s
  | .invalidateAst sender ast => Sys2Proof.Machine.execInvalidateAst sender ast s
  | .invalidateAll sender => Sys2Proof.Machine.execInvalidateAll sender s
  | .invalidationAck ast => Sys2Proof.Machine.execInvalidationAck ast s
  | .invalidationBoundExpiry ast => Sys2Proof.Machine.execInvalidationBoundExpiry ast s
  | .migrate slot => Sys2Proof.Machine.execMigrate slot s
  | .migrateCopyDone slot => Sys2Proof.Machine.execMigrateCopyDone slot s
  | .advise slot => Sys2Proof.Machine.execAdvise slot s
  | .mediaReadDone line r => Sys2Proof.Machine.execMediaReadDone line r s
  | .mediaWrite w => Sys2Proof.Machine.execMediaWrite w s
  | .allocationBoundExpiry g => Sys2Proof.Machine.execAllocationBoundExpiry g s
  | .frameZeroed f => Sys2Proof.Machine.execFrameZeroed f s
  | .watermarkRecordRead sender k => Sys2Proof.Machine.execWatermarkRecordRead sender k s
  | .accessFlushTick die => Sys2Proof.Machine.execAccessFlushTick die s
  | .ageSweepVisit => Sys2Proof.Machine.execAgeSweepVisit s
  | .evictionStart die => Sys2Proof.Machine.execEvictionStart die s
  | .compressionStart d => Sys2Proof.Machine.execCompressionStart d s
  | .movementCopyDone g => Sys2Proof.Machine.execMovementCopyDone g s
  | .movementFinalPassDone g => Sys2Proof.Machine.execMovementFinalPassDone g s
  | .movementFailed g => Sys2Proof.Machine.execMovementFailed g s
  | .dimmAccessBoundExpiry line => Sys2Proof.Machine.execDimmAccessBoundExpiry line s
  | .dimmRereadDone line ok => Sys2Proof.Machine.execDimmRereadDone line ok s
  | .channelFail c => Sys2Proof.Machine.execChannelFail c s
  | .hrtScrubDone => Sys2Proof.Machine.execHrtScrubDone s
  | .leaseAcquire sender holder => Sys2Proof.Machine.execLeaseAcquire sender holder s
  | .leaseRenew sender k => Sys2Proof.Machine.execLeaseRenew sender k s
  | .leaseRenewHolder sender holder => Sys2Proof.Machine.execLeaseRenewHolder sender holder s
  | .leaseRelease sender k => Sys2Proof.Machine.execLeaseRelease sender k s
  | .leaseExpiry k => Sys2Proof.Machine.execLeaseExpiry k s
  | .graceEnd k => Sys2Proof.Machine.execGraceEnd k s
  | .extentScrubDone k => Sys2Proof.Machine.execExtentScrubDone k s
  | .stackRetire sender k => Sys2Proof.Machine.execStackRetire sender k s
  | .stackEvacuationDone k => Sys2Proof.Machine.execStackEvacuationDone k s
  | .channelRemove sender c => Sys2Proof.Machine.execChannelRemove sender c s
  | .channelAdd sender c => Sys2Proof.Machine.execChannelAdd sender c s
  | .channelTrained c gib ok => Sys2Proof.Machine.execChannelTrained c gib ok s
  | .reshapeSweepDone => Sys2Proof.Machine.execReshapeSweepDone s
  | .hostCxlMemRead link ld hpa ask tag => Sys2Proof.Machine.execHostCxlMemRead link ld hpa ask tag s
  | .hostCxlMemWrite link ld hpa bs tag => Sys2Proof.Machine.execHostCxlMemWrite link ld hpa bs tag s
  | .hostWriteback link ld hpa bs keep tag => Sys2Proof.Machine.execHostWriteback link ld hpa bs keep tag s
  | .birsp link line => Sys2Proof.Machine.execBirsp link line s
  | .biBoundExpiry link line => Sys2Proof.Machine.execBiBoundExpiry link line s
  | .hostSnoop link => Sys2Proof.Machine.execHostSnoop link s
  | .doorbellWrite link ld off width value => Sys2Proof.Machine.execDoorbellWrite link ld off width value s
  | .hostLinkTrained link rate lanes => Sys2Proof.Machine.execHostLinkTrained link rate lanes s
  | .spdmKeyExchange chan => Sys2Proof.Machine.execSpdmKeyExchange chan s
  | .spdmFinish chan session leaf root signed inDate => Sys2Proof.Machine.execSpdmFinish chan session leaf root signed inDate s
  | .authenticationBoundExpiry link ld => Sys2Proof.Machine.execAuthenticationBoundExpiry link ld s
  | .spdmEndSession chan session => Sys2Proof.Machine.execSpdmEndSession chan session s
  | .spdmHeartbeatTimeout chan session => Sys2Proof.Machine.execSpdmHeartbeatTimeout chan session s
  | .spdmHeartbeat chan session => Sys2Proof.Machine.execSpdmHeartbeat chan session s
  | .spdmGetMeasurements chan => Sys2Proof.Machine.execSpdmGetMeasurements chan s
  | .spdmSetCertificate chan session slot chain => Sys2Proof.Machine.execSpdmSetCertificate chan session slot chain s
  | .spdmOtherRequest chan => Sys2Proof.Machine.execSpdmOtherRequest chan s
  | .hostLinkDown link => Sys2Proof.Machine.execHostLinkDown link s
  | .perstLAssert port => Sys2Proof.Machine.execPerstLAssert port s
  | .hotReset link => Sys2Proof.Machine.execHotReset link s
  | .functionLevelReset link ld => Sys2Proof.Machine.execFunctionLevelReset link ld s
  | .ideIntegrityFailure link ld => Sys2Proof.Machine.execIdeIntegrityFailure link ld s
  | .unbindIdentity sender ident => Sys2Proof.Machine.execUnbindIdentity sender ident s
  | .pathTeardownSweepDone link ld => Sys2Proof.Machine.execPathTeardownSweepDone link ld s
  | .hostConfigAccess link ld a => Sys2Proof.Machine.execHostConfigAccess link ld a s
  | .mirrorGo link ld => Sys2Proof.Machine.execMirrorGo link ld s
  | .mirrorBufferWrite link ld off bs => Sys2Proof.Machine.execMirrorBufferWrite link ld off bs s
  | .mirrorResponseBoundExpiry link ld => Sys2Proof.Machine.execMirrorResponseBoundExpiry link ld s
  | .headerFlit p bs => Sys2Proof.Machine.execHeaderFlit p bs s
  | .dataFlit p bs => Sys2Proof.Machine.execDataFlit p bs s
  | .stompFlit p => Sys2Proof.Machine.execStompFlit p s
  | .idleFlit p => Sys2Proof.Machine.execIdleFlit p s
  | .slotInError p corrected uncorrectable => Sys2Proof.Machine.execSlotInError p corrected uncorrectable s
  | .ackFlit p ackfn limits => Sys2Proof.Machine.execAckFlit p ackfn limits s
  | .retryFlit p efn num => Sys2Proof.Machine.execRetryFlit p efn num s
  | .replayStartFlit p first num => Sys2Proof.Machine.execReplayStartFlit p first num s
  | .helloFlit p node port widths lanes => Sys2Proof.Machine.execHelloFlit p node port widths lanes s
  | .digestFlit p bs => Sys2Proof.Machine.execDigestFlit p bs s
  | .ackIntervalExpiry p => Sys2Proof.Machine.execAckIntervalExpiry p s
  | .keepaliveExpiry p => Sys2Proof.Machine.execKeepaliveExpiry p s
  | .resendIntervalExpiry p => Sys2Proof.Machine.execResendIntervalExpiry p s
  | .fastRetrainDone p => Sys2Proof.Machine.execFastRetrainDone p s
  | .recoveryBoundExpiry p => Sys2Proof.Machine.execRecoveryBoundExpiry p s
  | .frameTransmitStart p => Sys2Proof.Machine.execFrameTransmitStart p s
  | .laneSignalDetected p => Sys2Proof.Machine.execLaneSignalDetected p s
  | .detectTimeout p => Sys2Proof.Machine.execDetectTimeout p s
  | .equaliseDone p => Sys2Proof.Machine.execEqualiseDone p s
  | .equaliseTimeout p => Sys2Proof.Machine.execEqualiseTimeout p s
  | .alignDone p correctable reversed inverted good => Sys2Proof.Machine.execAlignDone p correctable reversed inverted good s
  | .helloTimeout p => Sys2Proof.Machine.execHelloTimeout p s
  | .digestStateTimeout p => Sys2Proof.Machine.execDigestStateTimeout p s
  | .laneLockLoss p lane => Sys2Proof.Machine.execLaneLockLoss p lane s
  | .autoRestoreExpiry p => Sys2Proof.Machine.execAutoRestoreExpiry p s
  | .portEnable sender => Sys2Proof.Machine.execPortEnable sender s
  | .portDisable sender => Sys2Proof.Machine.execPortDisable sender s
  | .portFastRetrainRequest sender => Sys2Proof.Machine.execPortFastRetrainRequest sender s
  | .portFullRetrainRequest sender => Sys2Proof.Machine.execPortFullRetrainRequest sender s
  | .portDrainDone p => Sys2Proof.Machine.execPortDrainDone p s
  | .portDrainBoundExpiry p => Sys2Proof.Machine.execPortDrainBoundExpiry p s
  | .portRelease sender => Sys2Proof.Machine.execPortRelease sender s
  | .generateRoutes sender => Sys2Proof.Machine.execGenerateRoutes sender s
  | .frameRead port f => Sys2Proof.Machine.execFrameRead port f s
  | .frameWrite port f => Sys2Proof.Machine.execFrameWrite port f s
  | .frameWritePosted port f => Sys2Proof.Machine.execFrameWritePosted port f s
  | .frameAtomic port f => Sys2Proof.Machine.execFrameAtomic port f s
  | .frameFence port f => Sys2Proof.Machine.execFrameFence port f s
  | .framePublish port f => Sys2Proof.Machine.execFramePublish port f s
  | .framePublishFwd port f => Sys2Proof.Machine.execFramePublishFwd port f s
  | .framePoisonMark port f => Sys2Proof.Machine.execFramePoisonMark port f s
  | .frameColl port f => Sys2Proof.Machine.execFrameColl port f s
  | .frameResp port f => Sys2Proof.Machine.execFrameResp port f s
  | .frameSeqAck port f => Sys2Proof.Machine.execFrameSeqAck port f s
  | .frameMirrorCopy port f => Sys2Proof.Machine.execFrameMirrorCopy port f s
  | .frameMgmtReq port f inner => Sys2Proof.Machine.execFrameMgmtReq port f inner s
  | .frameMgmtRsp port f => Sys2Proof.Machine.execFrameMgmtRsp port f s
  | .frameUnknownOpcode port f => Sys2Proof.Machine.execFrameUnknownOpcode port f s
  | .gapBoundExpiry src bulk => Sys2Proof.Machine.execGapBoundExpiry src bulk s
  | .seqAckIntervalExpiry => Sys2Proof.Machine.execSeqAckIntervalExpiry s
  | .bulkRetransmitExpiry dst sequence => Sys2Proof.Machine.execBulkRetransmitExpiry dst sequence s
  | .responseBoundExpiry tag => Sys2Proof.Machine.execResponseBoundExpiry tag s
  | .retireBoundExpiry => Sys2Proof.Machine.execRetireBoundExpiry s
  | .regionKeyBump sender region => Sys2Proof.Machine.execRegionKeyBump sender region s
  | .epochWrite sender v => Sys2Proof.Machine.execEpochWrite sender v s
  | .relocateWindow sender w => Sys2Proof.Machine.execRelocateWindow sender w s
  | .relocationCopyDone => Sys2Proof.Machine.execRelocationCopyDone s
  | .relocationFinalPassDone => Sys2Proof.Machine.execRelocationFinalPassDone s
  | .relocationHoldBoundExpiry => Sys2Proof.Machine.execRelocationHoldBoundExpiry s
  | .clearDeadNode sender node => Sys2Proof.Machine.execClearDeadNode sender node s
  | .jobTeardown sender job => Sys2Proof.Machine.execJobTeardown sender job s
  | .queueEnable sender => Sys2Proof.Machine.execQueueEnable sender s
  | .queueDisable sender => Sys2Proof.Machine.execQueueDisable sender s
  | .queueStop sender q => Sys2Proof.Machine.execQueueStop sender q s
  | .queueRestart sender q => Sys2Proof.Machine.execQueueRestart sender q s
  | .ringDoorbellRegister sender v => Sys2Proof.Machine.execRingDoorbellRegister sender v s
  | .descriptorFetchDone q => Sys2Proof.Machine.execDescriptorFetchDone q s
  | .commandAdmit die => Sys2Proof.Machine.execCommandAdmit die s
  | .cqHeadReadDone q => Sys2Proof.Machine.execCqHeadReadDone q s
  | .cqHeadPollExpiry q => Sys2Proof.Machine.execCqHeadPollExpiry q s
  | .commandEnd slot => Sys2Proof.Machine.execCommandEnd slot s
  | .coalescingExpiry q => Sys2Proof.Machine.execCoalescingExpiry q s
  | .eventCountWrite sender v => Sys2Proof.Machine.execEventCountWrite sender v s
  | .copy slot => Sys2Proof.Machine.execCopy slot s
  | .transform slot => Sys2Proof.Machine.execTransform slot s
  | .gather slot => Sys2Proof.Machine.execGather slot s
  | .scatter slot => Sys2Proof.Machine.execScatter slot s
  | .pool slot => Sys2Proof.Machine.execPool slot s
  | .search slot => Sys2Proof.Machine.execSearch slot s
  | .insert slot => Sys2Proof.Machine.execInsert slot s
  | .delete slot => Sys2Proof.Machine.execDelete slot s
  | .merge slot => Sys2Proof.Machine.execMerge slot s
  | .kernel slot => Sys2Proof.Machine.execKernel slot s
  | .optim slot => Sys2Proof.Machine.execOptim slot s
  | .atomic slot => Sys2Proof.Machine.execAtomic slot s
  | .publish slot => Sys2Proof.Machine.execPublish slot s
  | .collective slot => Sys2Proof.Machine.execCollective slot s
  | .fenceQueue slot => Sys2Proof.Machine.execFenceQueue slot s
  | .fenceAcquire slot => Sys2Proof.Machine.execFenceAcquire slot s
  | .fenceOwner slot => Sys2Proof.Machine.execFenceOwner slot s
  | .fenceOwnerTimeout slot => Sys2Proof.Machine.execFenceOwnerTimeout slot s
  | .signal slot => Sys2Proof.Machine.execSignal slot s
  | .waitEvent slot => Sys2Proof.Machine.execWaitEvent slot s
  | .waitMemory slot => Sys2Proof.Machine.execWaitMemory slot s
  | .waitPollExpiry slot => Sys2Proof.Machine.execWaitPollExpiry slot s
  | .waitTimeout slot => Sys2Proof.Machine.execWaitTimeout slot s
  | .hostFlushReadDone slot path ok => Sys2Proof.Machine.execHostFlushReadDone slot path ok s
  | .passBackoffExpiry die crag bank input => Sys2Proof.Machine.execPassBackoffExpiry die crag bank input s
  | .starvationReport die crag bank input => Sys2Proof.Machine.execStarvationReport die crag bank input s
  | .bankWatchdogBite die crag bank => Sys2Proof.Machine.execBankWatchdogBite die crag bank s
  | .bankResetDone die crag bank => Sys2Proof.Machine.execBankResetDone die crag bank s
  | .cragGrant slot => Sys2Proof.Machine.execCragGrant slot s
  | .programLoadDone slot => Sys2Proof.Machine.execProgramLoadDone slot s
  | .nop die n => Sys2Proof.Machine.execNop die n s
  | .endProgram die n => Sys2Proof.Machine.execEndProgram die n s
  | .trap die n => Sys2Proof.Machine.execTrap die n s
  | .br die n => Sys2Proof.Machine.execBr die n s
  | .loop die n => Sys2Proof.Machine.execLoop die n s
  | .wait die n => Sys2Proof.Machine.execWait die n s
  | .smov die n => Sys2Proof.Machine.execSmov die n s
  | .smovh die n => Sys2Proof.Machine.execSmovh die n s
  | .sadd die n => Sys2Proof.Machine.execSadd die n s
  | .ssub die n => Sys2Proof.Machine.execSsub die n s
  | .smul die n => Sys2Proof.Machine.execSmul die n s
  | .sand die n => Sys2Proof.Machine.execSand die n s
  | .sor die n => Sys2Proof.Machine.execSor die n s
  | .sshl die n => Sys2Proof.Machine.execSshl die n s
  | .sshr die n => Sys2Proof.Machine.execSshr die n s
  | .sld die n => Sys2Proof.Machine.execSld die n s
  | .sst die n => Sys2Proof.Machine.execSst die n s
  | .tload die n => Sys2Proof.Machine.execTload die n s
  | .tloadx die n => Sys2Proof.Machine.execTloadx die n s
  | .tstore die n => Sys2Proof.Machine.execTstore die n s
  | .tcopy die n => Sys2Proof.Machine.execTcopy die n s
  | .tfill die n => Sys2Proof.Machine.execTfill die n s
  | .wload die n => Sys2Proof.Machine.execWload die n s
  | .mma die n => Sys2Proof.Machine.execMma die n s
  | .accz die n => Sys2Proof.Machine.execAccz die n s
  | .accrd die n => Sys2Proof.Machine.execAccrd die n s
  | .accwr die n => Sys2Proof.Machine.execAccwr die n s
  | .vld die n => Sys2Proof.Machine.execVld die n s
  | .vst die n => Sys2Proof.Machine.execVst die n s
  | .vsplat die n => Sys2Proof.Machine.execVsplat die n s
  | .vadd die n => Sys2Proof.Machine.execVadd die n s
  | .vsub die n => Sys2Proof.Machine.execVsub die n s
  | .vmul die n => Sys2Proof.Machine.execVmul die n s
  | .vfma die n => Sys2Proof.Machine.execVfma die n s
  | .vmin die n => Sys2Proof.Machine.execVmin die n s
  | .vmax die n => Sys2Proof.Machine.execVmax die n s
  | .vdiv die n => Sys2Proof.Machine.execVdiv die n s
  | .vsqrt die n => Sys2Proof.Machine.execVsqrt die n s
  | .vexp die n => Sys2Proof.Machine.execVexp die n s
  | .vcvt die n => Sys2Proof.Machine.execVcvt die n s
  | .vred die n => Sys2Proof.Machine.execVred die n s
  | .vsgn die n => Sys2Proof.Machine.execVsgn die n s
  | .asyncComplete die n idx => Sys2Proof.Machine.execAsyncComplete die n idx s
  | .commandTimeBoundExpiry slot => Sys2Proof.Machine.execCommandTimeBoundExpiry slot s
  | .optimChunkReadsDone slot j => Sys2Proof.Machine.execOptimChunkReadsDone slot j s
  | .rowReadDone slot pos => Sys2Proof.Machine.execRowReadDone slot pos s
  | .prefetchReadDone q idx => Sys2Proof.Machine.execPrefetchReadDone q idx s
  | .clearSlotCounters sender => Sys2Proof.Machine.execClearSlotCounters sender s
  | .indexLockRetry slot => Sys2Proof.Machine.execIndexLockRetry slot s
  | .fanoutBell => Sys2Proof.Machine.execFanoutBell s
  | .fanoutCounter => Sys2Proof.Machine.execFanoutCounter s
  | .fanoutResponseBoundExpiry => Sys2Proof.Machine.execFanoutResponseBoundExpiry s
  | .elementReadDone die ch => Sys2Proof.Machine.execElementReadDone die ch s
  | .sliceEnd die ch steps => Sys2Proof.Machine.execSliceEnd die ch steps s
  | .channelAccessFailed die ch => Sys2Proof.Machine.execChannelAccessFailed die ch s
  | .haltBoundExpiry die ch => Sys2Proof.Machine.execHaltBoundExpiry die ch s
  | .channelStart sender => Sys2Proof.Machine.execChannelStart sender s
  | .channelStop sender => Sys2Proof.Machine.execChannelStop sender s
  | .channelClear sender => Sys2Proof.Machine.execChannelClear sender s
  | .channelResume sender => Sys2Proof.Machine.execChannelResume sender s
  | .channelAbort sender => Sys2Proof.Machine.execChannelAbort sender s
  | .digestPeriodExpiry p => Sys2Proof.Machine.execDigestPeriodExpiry p s
  | .digestMissingExpiry p => Sys2Proof.Machine.execDigestMissingExpiry p s
  | .clearQuarantine sender p => Sys2Proof.Machine.execClearQuarantine sender p s
  | .beacon p f => Sys2Proof.Machine.execBeacon p f s
  | .beaconIntervalExpiry => Sys2Proof.Machine.execBeaconIntervalExpiry s
  | .floodFault p f => Sys2Proof.Machine.execFloodFault p f s
  | .floodCollAbort p f => Sys2Proof.Machine.execFloodCollAbort p f s
  | .floodWarn p f => Sys2Proof.Machine.execFloodWarn p f s
  | .floodRecordExpiry origin number => Sys2Proof.Machine.execFloodRecordExpiry origin number s
  | .ptpMessage domain announce err => Sys2Proof.Machine.execPtpMessage domain announce err s
  | .timebaseReferenceLoss => Sys2Proof.Machine.execTimebaseReferenceLoss s
  | .holdoverExitExpiry => Sys2Proof.Machine.execHoldoverExitExpiry s
  | .resynchronise sender => Sys2Proof.Machine.execResynchronise sender s
  | .groupSettleExpiry g => Sys2Proof.Machine.execGroupSettleExpiry g s
  | .progressBoundExpiry g => Sys2Proof.Machine.execProgressBoundExpiry g s
  | .groupEpochWrite sender v => Sys2Proof.Machine.execGroupEpochWrite sender v s
  | .marginEvaluation rails slacks => Sys2Proof.Machine.execMarginEvaluation rails slacks s
  | .cairnRequestRead q r => Sys2Proof.Machine.execCairnRequestRead q r s
  | .cairnRequestWrite q r => Sys2Proof.Machine.execCairnRequestWrite q r s
  | .cairnRequestSegRead q r => Sys2Proof.Machine.execCairnRequestSegRead q r s
  | .cairnRequestSegWrite q r => Sys2Proof.Machine.execCairnRequestSegWrite q r s
  | .stagedWrite q r => Sys2Proof.Machine.execStagedWrite q r s
  | .commit sender failAt => Sys2Proof.Machine.execCommit sender failAt s
  | .discard sender => Sys2Proof.Machine.execDiscard sender s
  | .cairnSpdmMessage address msg => Sys2Proof.Machine.execCairnSpdmMessage address msg s
  | .cairnSecuredMessage session p => Sys2Proof.Machine.execCairnSecuredMessage session p s
  | .cairnRelay address txn node bs f => Sys2Proof.Machine.execCairnRelay address txn node bs f s
  | .cairnFrameDiscard t txn => Sys2Proof.Machine.execCairnFrameDiscard t txn s
  | .noticeAck session sequence => Sys2Proof.Machine.execNoticeAck session sequence s
  | .noticeAckInBand sender sequence => Sys2Proof.Machine.execNoticeAckInBand sender sequence s
  | .noticeRetransmitExpiry slot sequence => Sys2Proof.Machine.execNoticeRetransmitExpiry slot sequence s
  | .subscribe sender bs => Sys2Proof.Machine.execSubscribe sender bs s
  | .unsubscribe sender slot => Sys2Proof.Machine.execUnsubscribe sender slot s
  | .segmentLapseExpiry q write => Sys2Proof.Machine.execSegmentLapseExpiry q write s
  | .enumPulse k => Sys2Proof.Machine.execEnumPulse k s
  | .enumPulseTimeout => Sys2Proof.Machine.execEnumPulseTimeout s
  | .enumPulsePeriod => Sys2Proof.Machine.execEnumPulsePeriod s
  | .nodeIdSetInBand sender v => Sys2Proof.Machine.execNodeIdSetInBand sender v s
  | .dadComplete => Sys2Proof.Machine.execDadComplete s
  | .dadConflict => Sys2Proof.Machine.execDadConflict s
  | .dateWrite sender v => Sys2Proof.Machine.execDateWrite sender v s
  | .timeOfDayWrite sender v => Sys2Proof.Machine.execTimeOfDayWrite sender v s
  | .dateAndTimeWrite sender bs => Sys2Proof.Machine.execDateAndTimeWrite sender bs s
  | .calendarSourceWrite sender v => Sys2Proof.Machine.execCalendarSourceWrite sender v s
  | .referenceAbsent pos => Sys2Proof.Machine.execReferenceAbsent pos s
  | .referenceQualified pos => Sys2Proof.Machine.execReferenceQualified pos s
  | .referenceCompare countA countB => Sys2Proof.Machine.execReferenceCompare countA countB s
  | .preferredReferenceWrite sender v => Sys2Proof.Machine.execPreferredReferenceWrite sender v s
  | .cclkDwellEnd => Sys2Proof.Machine.execCclkDwellEnd s
  | .pllLocked => Sys2Proof.Machine.execPllLocked s
  | .divisorCeilingWrite sender v => Sys2Proof.Machine.execDivisorCeilingWrite sender v s
  | .spreadPeriodEnd => Sys2Proof.Machine.execSpreadPeriodEnd s
  | .frequencyCountStart sender => Sys2Proof.Machine.execFrequencyCountStart sender s
  | .frequencyGateEnd count => Sys2Proof.Machine.execFrequencyGateEnd count s
  | .frequencyCountTimeout => Sys2Proof.Machine.execFrequencyCountTimeout s
  | .resetInLAssert ns => Sys2Proof.Machine.execResetInLAssert ns s
  | .resetInLRelease segid refqual => Sys2Proof.Machine.execResetInLRelease segid refqual s
  | .strapCheckDone up down => Sys2Proof.Machine.execStrapCheckDone up down s
  | .warmResetRequest sender => Sys2Proof.Machine.execWarmResetRequest sender s
  | .coldResetRequest sender => Sys2Proof.Machine.execColdResetRequest sender s
  | .shutdownRequest sender => Sys2Proof.Machine.execShutdownRequest sender s
  | .warmResetEntryDone => Sys2Proof.Machine.execWarmResetEntryDone s
  | .warmResetExitDone => Sys2Proof.Machine.execWarmResetExitDone s
  | .engineReset sender => Sys2Proof.Machine.execEngineReset sender s
  | .engineResetDone die eng => Sys2Proof.Machine.execEngineResetDone die eng s
  | .suppliesInRange => Sys2Proof.Machine.execSuppliesInRange s
  | .powerUpStageDone => Sys2Proof.Machine.execPowerUpStageDone s
  | .vinUndervoltage => Sys2Proof.Machine.execVinUndervoltage s
  | .vinReturnExpiry => Sys2Proof.Machine.execVinReturnExpiry s
  | .vauxUndervoltage => Sys2Proof.Machine.execVauxUndervoltage s
  | .domainPowerDownRequest sender => Sys2Proof.Machine.execDomainPowerDownRequest sender s
  | .domainPowerUpRequest sender => Sys2Proof.Machine.execDomainPowerUpRequest sender s
  | .domainTransfersDrained die dom => Sys2Proof.Machine.execDomainTransfersDrained die dom s
  | .domainDownBoundExpiry die dom => Sys2Proof.Machine.execDomainDownBoundExpiry die dom s
  | .domainUpDone die dom => Sys2Proof.Machine.execDomainUpDone die dom s
  | .powerEvaluation watts mA vin vaux vauxMa => Sys2Proof.Machine.execPowerEvaluation watts mA vin vaux vauxMa s
  | .currentCut => Sys2Proof.Machine.execCurrentCut s
  | .currentCutEnd => Sys2Proof.Machine.execCurrentCutEnd s
  | .thermalSample stack n readings => Sys2Proof.Machine.execThermalSample stack n readings s
  | .bootChoose recordOk => Sys2Proof.Machine.execBootChoose recordOk s
  | .bootRetryExpiry recordOk => Sys2Proof.Machine.execBootRetryExpiry recordOk s
  | .imageUpload q r => Sys2Proof.Machine.execImageUpload q r s
  | .activateLive sender => Sys2Proof.Machine.execActivateLive sender s
  | .activateAtColdReset sender => Sys2Proof.Machine.execActivateAtColdReset sender s
  | .handoverDone => Sys2Proof.Machine.execHandoverDone s
  | .handoverTimeout => Sys2Proof.Machine.execHandoverTimeout s
  | .claimWindowExpiry => Sys2Proof.Machine.execClaimWindowExpiry s
  | .confidentialEnter sender => Sys2Proof.Machine.execConfidentialEnter sender s
  | .confidentialExit sender => Sys2Proof.Machine.execConfidentialExit sender s
  | .confidentialEntryBoundExpiry => Sys2Proof.Machine.execConfidentialEntryBoundExpiry s
  | .confidentialEntryDone key => Sys2Proof.Machine.execConfidentialEntryDone key s
  | .confidentialExitDone => Sys2Proof.Machine.execConfidentialExitDone s
  | .pathLossExitExpiry => Sys2Proof.Machine.execPathLossExitExpiry s
  | .weightBind sender => Sys2Proof.Machine.execWeightBind sender s
  | .weightUnbind sender => Sys2Proof.Machine.execWeightUnbind sender s
  | .bindingDecision slot => Sys2Proof.Machine.execBindingDecision slot s
  | .auditFlashWriteDone ok => Sys2Proof.Machine.execAuditFlashWriteDone ok s
  | .snapshot sender => Sys2Proof.Machine.execSnapshot sender s
  | .clearCounters sender => Sys2Proof.Machine.execClearCounters sender s
  | .spanArm sender => Sys2Proof.Machine.execSpanArm sender s
  | .spanDisarm sender => Sys2Proof.Machine.execSpanDisarm sender s
  | .softwareStart sender => Sys2Proof.Machine.execSoftwareStart sender s
  | .softwareStop sender => Sys2Proof.Machine.execSoftwareStop sender s
  | .spanSettleExpiry => Sys2Proof.Machine.execSpanSettleExpiry s
  | .clearSpan sender => Sys2Proof.Machine.execClearSpan sender s
  | .eyeMeasurementDone p height width => Sys2Proof.Machine.execEyeMeasurementDone p height width s
  | .moduleInserted pos => Sys2Proof.Machine.execModuleInserted pos s
  | .moduleRemoved pos => Sys2Proof.Machine.execModuleRemoved pos s
  | .moduleReady pos app rxWarn rxAlarm txWarn txAlarm => Sys2Proof.Machine.execModuleReady pos app rxWarn rxAlarm txWarn txAlarm s
  | .moduleInitTimeout pos => Sys2Proof.Machine.execModuleInitTimeout pos s
  | .moduleFaultRetryExpiry pos => Sys2Proof.Machine.execModuleFaultRetryExpiry pos s
  | .modulePoll pos got => Sys2Proof.Machine.execModulePoll pos got s
  | .moduleMapRead sender got => Sys2Proof.Machine.execModuleMapRead sender got s
  | .moduleMapWrite sender bs ok => Sys2Proof.Machine.execModuleMapWrite sender bs ok s
  | .traceStart sender => Sys2Proof.Machine.execTraceStart sender s
  | .traceStop sender => Sys2Proof.Machine.execTraceStop sender s
  | .tracePostTriggerDone => Sys2Proof.Machine.execTracePostTriggerDone s
  | .tapInstructionUpdate code => Sys2Proof.Machine.execTapInstructionUpdate code s
  | .debugScratchRead sender => Sys2Proof.Machine.execDebugScratchRead sender s
  | .debugScratchWrite sender bs => Sys2Proof.Machine.execDebugScratchWrite sender bs s
  | .debugScratchGrantTimeout => Sys2Proof.Machine.execDebugScratchGrantTimeout s
  | .sidebandLineCheck line st => Sys2Proof.Machine.execSidebandLineCheck line st s
  | .referencePresent pos => Sys2Proof.Machine.execReferencePresent pos s
  | .colLinkError link => Sys2Proof.Machine.execColLinkError link s
  | .colLinkRetrainDone link => Sys2Proof.Machine.execColLinkRetrainDone link s
  | .perstLRelease port => Sys2Proof.Machine.execPerstLRelease port s
  | .ideKeyManagement link ld io mem => Sys2Proof.Machine.execIdeKeyManagement link ld io mem s
  | .plcaStatusChange ok => Sys2Proof.Machine.execPlcaStatusChange ok s
  | .icmpv6Message kind target => Sys2Proof.Machine.execIcmpv6Message kind target s

end Sys2Proof.Machine
end

