-- ==== Sys2Proof/Safety.lean ====
section
/-! DEFINITION. The terms that statements about the block are made in. -/

namespace Sys2Proof.Machine

/-! ## Writes of the dictionary that have a row of their own (14_cairn.md R392, R398) -/

/-- The machine once a request has been counted (0x7110.01): what the request's checks and its effect start from. -/
def Mach.heard (m : Mach) : Mach := m.bump 0x7110 1

/-- Whether a write reaches the dictionary, is no repetition, and passes every check of Table 14-10 up to the entry's own rule. -/
def Mach.admits (m : Mach) (w : Src) (idx sub : Nat) : Bool :=
  m.reaches w.q && (m.heard.kept? w.q w.txn).isNone && (m.heard.gate w.q idx sub).isNone

/-- Whether a request reaches the dictionary and is no repetition of a kept transaction (R392). -/
def Mach.fresh? (m : Mach) (q : Requester) (txn : Nat) : Bool := m.reaches q && (m.heard.kept? q txn).isNone

/-! ## Fences (01_organisation.md Table 01-7) -/

/-- A die's fence given up: its record gone and its retiring or retired stacks back in service (03_store_tiers.md R98). -/
def Mach.fenceGivenUp (m : Mach) (d : Nat) : Mach :=
  [2 * d, 2 * d + 1].foldl (fun m k => if m.stackState k = 2 ∨ m.stackState k = 3 then m.setStack k 1 else m)
    { m with fences := tdel m.fences d }

/-! ## The Col (01_organisation.md R20-R22) -/

/-- Whether nothing is under way on a line at its home: no EVICT or WB of the requester in flight, no transaction open, and
room in the line's set of the filter. -/
def Mach.lineFree (m : Mach) (home req line : Nat) : Bool :=
  (m.colFind .evict req home line).isNone && (m.colFind .wb req home line).isNone && (tget m.col.txns line).isNone &&
    decide ((m.filterSet home line).length < 16)

/-! ## Tile instructions (08_crag_arrays.md R236, R237) -/

/-- Whether a crag issues an instruction of an opcode now: it runs, the index is in its program, the 16 bytes there are the
instruction, no token it waits for is pending, its fields are valid, and its scoreboard has a place. -/
def Mach.issues (m : Mach) (op die n : Nat) (i : TileInstr) : Bool :=
  let c := m.crag (cragKey die n)
  (c.phase == .running) && decide (16 * c.pc < c.prog.length) && (tileDecode (slice c.prog (16 * c.pc) 16) == i) &&
  !((List.range 16).any fun t => bit i.wait t && c.pending t) && (i.op == op) && !tileBad i &&
  !(tileAsync op && decide (32 ≤ c.asyncs.length))

/-! ## Places of the engines (09_talus.md R257, 10_cirque.md R281) -/

/-- A Talus command given its place. -/
def Mach.talusPlace (m : Mach) (slot : Nat) (c : Cmd) : Mach :=
  (m.setCmd slot { c with started := true, progress := m.now }).setTalus slot TalusRun.fresh

/-- A Cirque command given its place. -/
def Mach.cirquePlace (m : Mach) (slot : Nat) (c : Cmd) : Mach :=
  (m.setCmd slot { c with started := true, progress := m.now }).setCirque slot CirqueRun.fresh

/-! ## Supplies, RESET_IN_L and straps (15_clocks_power.md R428, R430, R440; 18_electrical.md R491, R499) -/

/-- The commands that the supplies, RESET_IN_L and the strap check send. -/
def pinCommand (c : Instr) : Bool :=
  match c with
  | .resetInLAssert _ => true
  | .resetInLRelease _ _ => true
  | .strapCheckDone _ _ => true
  | .suppliesInRange => true
  | .vinUndervoltage => true
  | .vinReturnExpiry => true
  | .vauxUndervoltage => true
  | _ => false

/-- The commands that a pin of a host port or of a module cage sends. -/
def portPinCommand (c : Instr) : Bool :=
  match c with
  | .perstLAssert _ => true
  | .perstLRelease _ => true
  | .moduleInserted _ => true
  | .moduleRemoved _ => true
  | _ => false

/-- What holds of the pins whatever happens: no supply in range without 3.3 V, 12 V reported low only of supplies that came into
range, strap samples of four bits and of three. -/
def Mach.pinsConsistent (m : Mach) : Bool :=
  (!m.elec.suppliesOk || m.elec.vauxOk) && (!m.elec.vinLow || m.elec.suppliesOk) && decide (m.elec.segid < 16) &&
    decide (m.elec.refqual < 8)

end Sys2Proof.Machine
end

