-- ==== Sys2Proof/Certificates/Slice0/Obligations.lean ====
section
/-! DEFINITION. The statements for the provers. A conclusion `s.after fun m => …` is the state with its machine changed to what
the function gives, its queue, its pins and its variant as they were (Machine/Run.lean). -/

open Sys2Proof Sys2Proof.Machine

/-- At a line's home with nothing under way on the line: RD_SHARED and RD_OWN that no die's copy stands against open a
transaction and read the media for the requester in state E; UPGRADE of the only sharer is granted by ACK; EVICT
clears the presence bit; WB writes the line to the media and clears the presence bit. Nothing else of the machine
changes. -/
def Obligations.ColRequests : Prop :=
  (∀ (s : State) (home req line : Nat) (x : ColMsg),
     s.m.clocked = true →
     s.m.dieActive home = true →
     s.m.dieActive req = true →
     s.m.colFind .rdShared req home line = some x →
     (s.m.colTake x).lineFree home req line = true →
     (s.m.colTake x).holders home line = (.S, []) →
     exec (.colRdShared home req line) s =
     .next (s.after fun m => ((m.colTake x).openTxn line (ColTxn.fresh .shared req home)).readMedia home req line .E)) ∧
  (∀ (s : State) (home req line : Nat) (x : ColMsg),
     s.m.clocked = true →
     s.m.dieActive home = true →
     s.m.dieActive req = true →
     s.m.colFind .rdOwn req home line = some x →
     (s.m.colTake x).lineFree home req line = true →
     (s.m.colTake x).holders home line = (.S, []) →
     exec (.colRdOwn home req line) s =
     .next (s.after fun m => ((m.colTake x).openTxn line (ColTxn.fresh .own req home)).readMedia home req line .E)) ∧
  (∀ (s : State) (home req line : Nat) (x : ColMsg),
     s.m.clocked = true →
     s.m.dieActive home = true →
     s.m.dieActive req = true →
     s.m.colFind .upgrade req home line = some x →
     (s.m.colTake x).lineFree home req line = true →
     (s.m.colTake x).holders home line = (.S, [req]) →
     exec (.colUpgrade home req line) s =
     .next (s.after fun m => ((m.colTake x).openTxn line (ColTxn.fresh .upgrade req home)).colSend .ack home req line req .inv .poison .E)) ∧
  (∀ (s : State) (home src line : Nat) (x : ColMsg),
     s.m.clocked = true →
     s.m.colFind .evict src home line = some x →
     exec (.colEvict home src line) s = .next (s.after fun m => (m.colTake x).clearPresence home line src)) ∧
  (∀ (s : State) (home src line : Nat) (x : ColMsg),
     s.m.clocked = true →
     s.m.colFind .wb src home line = some x →
     tget (((s.m.colTake x).writeBackLine src line x.val).clearPresence home line src).col.txns line = none →
     exec (.colWb home src line) s =
     .next (s.after fun m => ((m.colTake x).writeBackLine src line x.val).clearPresence home line src))

/-- A snoop that no host's copy stands against is answered by the snooped die: SNP_SHARE and SNP_INV as its Col cache
holds the line, SNP_FWD by sending the line in S. A SNP_RSP that says I clears the presence bit and is counted off.
ACK makes the S copy E and DATA installs the line at the requester, and each closes the transaction when nothing of it
is outstanding. -/
def Obligations.ColAnswers : Prop :=
  (∀ (s : State) (home die line : Nat) (x : ColMsg),
     s.m.clocked = true →
     s.m.colFind .snpShare home die line = some x →
     ((s.m.colTake x).settleLine die line).hostOwns die line = false →
     exec (.colSnpShare home die line) s =
     .next (s.after fun m => ((m.colTake x).settleLine die line).answerShare die home x.req line)) ∧
  (∀ (s : State) (home die line : Nat) (x : ColMsg),
     s.m.clocked = true →
     s.m.colFind .snpInv home die line = some x →
     ((s.m.colTake x).settleLine die line).hostLines die line = [] →
     exec (.colSnpInv home die line) s =
     .next (s.after fun m => ((m.colTake x).settleLine die line).answerInv die home x.req line)) ∧
  (∀ (s : State) (home die line : Nat) (x : ColMsg) (l : ColLine),
     s.m.clocked = true →
     s.m.colFind .snpFwd home die line = some x →
     s.m.cached die line = some l →
     exec (.colSnpFwd home die line) s =
     .next (s.after fun m => (((m.colTake x).putCached die line ⟨.S, l.val⟩).colSend .data die x.req line x.req .inv l.val .S).colSend
       .snpRsp die home line x.req .dataSent .poison .S)) ∧
  (∀ (s : State) (home src line : Nat) (x : ColMsg) (t : ColTxn),
     s.m.clocked = true →
     s.m.colFind .snpRsp src home line = some x →
     x.ans = .inv →
     tget s.m.col.txns line = some t →
     remove t.waiting src ≠ [] →
     exec (.colSnpRsp home src line) s =
     .next (s.after fun m => ((m.colTake x).clearPresence home line src).openTxn line { t with waiting := remove t.waiting src })) ∧
  (∀ (s : State) (src die line : Nat) (x : ColMsg) (l : ColLine) (t : ColTxn),
     s.m.clocked = true →
     s.m.colFind .ack src die line = some x →
     s.m.cached die line = some l →
     tget s.m.col.txns line = some t →
     exec (.colAck src die line) s =
     .next (s.after fun m => (((((m.colTake x).putCached die line ⟨.E, l.val⟩).openTxn line { t with done := some .E }).tryClose line)).hostRetry die line)) ∧
  (∀ (s : State) (src die line : Nat) (x : ColMsg) (t : ColTxn) (bs : List Byte),
     s.m.clocked = true →
     s.m.colFind .data src die line = some x →
     tget s.m.col.txns line = some t →
     x.val = .data bs →
     t.kind ≠ .recall →
     die = t.req →
     (die = t.home && x.st == .M) = false →
     die ≠ s.m.homeOf (line * 64) →
     (s.m.cached die line).any (·.st == .M) = false →
     exec (.colData src die line) s =
     .next (s.after fun m =>
       let p := ((((m.colTake x).openTxn line t).install die line ⟨x.st, .data bs⟩).openTxn line
         { t with done := some (if t.kind = .shared then (if x.st = .E then .E else .S) else .E) }).hostFirst die line x.st (.data bs)
       p.1.foldl Mach.hostAccess (p.2.tryClose line)))

/-- A present link that errs reads 2, retraining, with notice 0x8011, counted in 0x7010.02; it reads 1 again when it has
retrained between two dies in service; one that does not retrain in time reads 3, counted in 0x7010.05, and with
rerouting on every die that it cuts off is fenced. A write of 0x3380.03 retrains the links of dies in service that it
names and that are down, and is answered. -/
def Obligations.ColLinks : Prop :=
  (∀ (s : State) (link : Nat),
     s.m.clocked = true →
     link < 10 →
     s.m.reg 0x7011 (1 + link) 0 = 1 →
     exec (.colLinkError link) s =
     .next (s.after fun m => ((m.setReg 0x7011 (1 + link) 0 2).notice 0x8011 [byteOf link, 1, 2]).bump 0x7010 2)) ∧
  (∀ (s : State) (link a b : Nat),
     s.m.clocked = true →
     s.m.reg 0x7011 (1 + link) 0 = 2 →
     (link, a, b) ∈ s.m.colLinks →
     s.m.dieActive a = true →
     s.m.dieActive b = true →
     exec (.colLinkRetrainDone link) s =
     .next (s.after fun m => (m.setReg 0x7011 (1 + link) 0 1).notice 0x8011 [byteOf link, 2, 1])) ∧
  (∀ (s : State) (link : Nat) (l : Nat × Nat × Nat),
     s.m.clocked = true →
     link < 10 →
     s.m.reg 0x7011 (1 + link) 0 = 2 →
     (((s.m.setReg 0x7011 (1 + link) 0 3).notice 0x8011 [byteOf link, 2, 3]).bump 0x7010 5).colLinks.find? (fun l => l.1 == link) = some l →
     (((s.m.setReg 0x7011 (1 + link) 0 3).notice 0x8011 [byteOf link, 2, 3]).bump 0x7010 5).reg 0x3380 1 0 = 1 →
     exec (.colRetrainLimitExpiry link) s =
     .next (s.after fun m => Mach.fenceSplit 8 (((m.setReg 0x7011 (1 + link) 0 3).notice 0x8011 [byteOf link, 2, 3]).bump 0x7010 5))) ∧
  (∀ (s : State) (w : Src) (v : Nat),
     s.m.clocked = true →
     s.m.admits w 0x3380 3 = true →
     v < 1024 →
     exec (.clearDownLink w v) s =
     .next (s.after fun m => (m.heard.colLinks.foldl (fun m l =>
       if bit v l.1 && m.reg 0x7011 (1 + l.1) 0 == 3 && m.dieActive l.2.1 && m.dieActive l.2.2 then m.setColLink l.1 2 else m) m.heard).answerWrite w 0x3380 3 0))

/-- The watchdog of a die, an uncorrectable error in it and the loss of its CORE supply each fence it: an ACTIVE die whose
loss leaves die 0 or die 1 ACTIVE becomes FENCING (2), with notice 0x8010, is cut off at once, and then every die that
this cuts off is fenced too. -/
def Obligations.AbruptFences : Prop :=
  (∀ (s : State) (d : Nat),
     s.m.clocked = true →
     d < s.m.dies →
     s.m.dieState d = 1 →
     s.m.fence? d = none →
     s.m.fenceAllowed d = true →
     exec (.dieWatchdogExpiry d) s = .next (s.after fun m => Mach.fenceSplit 8 ((m.setDie d 2).cutDie d true))) ∧
  (∀ (s : State) (d : Nat),
     s.m.clocked = true →
     d < s.m.dies →
     s.m.dieState d = 1 →
     s.m.fence? d = none →
     s.m.fenceAllowed d = true →
     exec (.dieUncorrectableError d) s = .next (s.after fun m => Mach.fenceSplit 8 ((m.setDie d 2).cutDie d true))) ∧
  (∀ (s : State) (d : Nat),
     s.m.clocked = true →
     d < s.m.dies →
     s.m.dieState d = 1 →
     s.m.fence? d = none →
     s.m.fenceAllowed d = true →
     exec (.coreSupplyLoss d) s = .next (s.after fun m => Mach.fenceSplit 8 ((m.setDie d 2).cutDie d true)))

/-- An orderly fence of an ACTIVE die makes it FENCING with its stacks retiring and the first channel leaving, logs 0x0031
and answers. Its steps follow in order: drain once the media are empty, write-back once no command is in flight or the
bound has ended those that run, the cut once hosts hold none of its lines, and FENCED under a new generation of the
home remap table once the survivors have dropped every line that it homes. -/
def Obligations.OrderlyFences : Prop :=
  (∀ (s : State) (w : Src) (d : Nat),
     s.m.clocked = true →
     s.m.reg 0x2211 2 0 = 0 →
     s.m.admits w 0x2211 1 = true →
     d < s.m.dies →
     s.m.heard.dieState d = 1 →
     s.m.heard.fenceAllowed d = true →
     exec (.fenceOrderly w d) s =
     .next (s.after fun m => ((([2 * d, 2 * d + 1].foldl (fun m k => if m.stackState k = 1 then m.beginRetire k else m)
       ((m.heard.setDie d 2).setFence d ⟨.evacuating⟩)).nextRemoval).auditReq w.q 0x0031 [byteOf d, 0]).answerWrite w 0x2211 1 0)) ∧
  (∀ (s : State) (d : Nat),
     s.m.clocked = true →
     s.m.fence? d = some ⟨.evacuating⟩ →
     s.m.evacuated d = true →
     exec (.fenceEvacuationDone d) s = .next (s.after fun m => m.setFence d ⟨.draining⟩)) ∧
  (∀ (s : State) (d : Nat),
     s.m.clocked = true →
     s.m.fence? d = some ⟨.draining⟩ →
     (s.m.sched.slots.all fun p => slotDie p.1 != d) = true →
     exec (.fenceDrainDone d) s = .next (s.after fun m => m.setFence d ⟨.writeback⟩)) ∧
  (∀ (s : State) (d : Nat),
     s.m.clocked = true →
     s.m.fence? d = some ⟨.draining⟩ →
     (s.m.xl.migrations.filter fun g => slotDie g.slot == d) = [] →
     exec (.commandDrainBoundExpiry d) s =
     .next (s.after fun m => ((((tkeys m.sched.slots).filter fun k => slotDie k == d).foldl (fun m k => m.endNow k stFencedDie) m).teardownCheck).setFence d ⟨.writeback⟩)) ∧
  (∀ (s : State) (d : Nat),
     s.m.clocked = true →
     s.m.fence? d = some ⟨.writeback⟩ →
     s.m.recallHosts (fun die _ => die == d) = none →
     exec (.fenceWritebackDone d) s = .next (s.after fun m => Mach.fenceSplit 8 (m.cutDie d false))) ∧
  (∀ (s : State) (d : Nat),
     s.m.clocked = true →
     s.m.fence? d = some ⟨.survivors⟩ →
     s.m.recallHosts (fun _ h => s.m.homeOf (h.line * 64) == d) = none →
     exec (.fenceSurvivorWritebackDone d) s =
     .next (s.after fun m =>
       let n := ((m.cachedLines fun l => m.homeOf (l * 64) == d).foldl Mach.purgeLine m).remapFence d
       let n := ({ n with fences := tdel n.fences d } : Mach).setDie d 3
       let n := [0, 1, 2, 3, 4, 5, 6].foldl (fun m k => if m.domain d k = 0 then m else m.setDomain d k 3) n
       (List.range n.dies).foldl Mach.hostRetryAll n))

/-- A fence whose evacuation bound expires with no movement or removal of its own left puts the retiring stacks back,
makes the die ACTIVE and raises notice 0x8012. A FENCED die asked to rejoin is REJOINING, its links to dies in service
retrain and 0x0031 is logged; its domain, media, queues, channels and ports return with the die ACTIVE once it is
done. -/
def Obligations.FenceAbandoned : Prop :=
  (∀ (s : State) (d : Nat),
     s.m.clocked = true →
     s.m.fence? d = some ⟨.evacuating⟩ →
     s.m.store.moves = [] →
     (s.m.fenceGivenUp d).store.reshape = none →
     exec (.fenceEvacuationBoundExpiry d) s =
     .next (s.after fun m => ((m.fenceGivenUp d).setDie d 1).notice 0x8012 ([byteOf d] ++ leBytes 2 ((m.fenceGivenUp d).reg 0x3022 3 0)))) ∧
  (∀ (s : State) (w : Src) (d : Nat),
     s.m.clocked = true →
     s.m.reg 0x2211 2 0 = 1 →
     s.m.admits w 0x2211 1 = true →
     d < s.m.dies →
     s.m.heard.dieState d = 3 →
     exec (.dieRejoin w d) s =
     .next (s.after fun m =>
       let n := (m.heard.setDie d 4).auditReq w.q 0x0031 [byteOf d, 1]
       (n.colLinks.foldl (fun m l =>
         if (l.2.1 = d ∧ m.dieActive l.2.2) ∨ (l.2.2 = d ∧ m.dieActive l.2.1) then m.setReg 0x7011 (1 + l.1) 0 2 else m) n).answerWrite w 0x2211 1 0))

/-- A decoder commit of a link that is up writes decoder k with what the host wrote and says whether it committed.
AST_ENABLE takes the selected AST's pending fields into force and counts it; AST_DISABLE takes it out when no command
uses it; a Steward's owner write sets the pending owner. A die that rejoins is ACTIVE once its links have trained. A
commit of the home remap table, once no host holds a line that moves, has every die drop those lines and finishes. -/
def Obligations.Decoders : Prop :=
  (∀ (s : State) (link ld k base size dpa g ways : Nat) (l : Ld),
     s.m.clocked = true →
     s.m.ld? link ld = some l →
     s.m.linkState link = 4 →
     k < 4 →
     [1, 2, 4, 8].contains ways = true →
     8 ≤ g →
     g ≤ 14 →
     l.bind = .bound →
     s.m.inGrant l.ident dpa (size / 2 ^ Nat.log2 ways) = true →
     exec (.hdmDecoderCommit link ld k base size dpa g ways) s =
     .next (s.after fun m => (m.setLd link ld { l with decoders := l.decoders.set k ⟨base, size, dpa, g, Nat.log2 ways, true⟩ }).emit (.decoder link ld k true))) ∧
  (∀ (s : State) (w : Src) (a : Nat) (t : Ast),
     s.m.clocked = true →
     s.m.admits w 0x3610 7 = true →
     a = s.m.heard.sel w.q 0x3610 1 →
     t = ⟨s.m.heard.reg 0x3610 2 a, s.m.heard.reg 0x3610 3 a, s.m.heard.reg 0x3610 4 a, s.m.heard.reg 0x3610 5 a, s.m.heard.reg 0x3610 6 a⟩ →
     s.m.heard.ast? a = none →
     t.kind = 0 →
     s.m.heard.inGrant t.owner t.root 4096 = true →
     s.m.heard.inGrant t.owner t.keys 128 = true →
     exec (.astEnable w) s =
     .next (s.after fun m => ((({ m.heard with xl := { m.xl with asts := tput m.xl.asts a t } } : Mach).setReg 0x3610 7 a 1).countAsts).answerWrite w 0x3610 7 0)) ∧
  (∀ (s : State) (w : Src) (a : Nat),
     s.m.clocked = true →
     s.m.admits w 0x3610 7 = true →
     a = s.m.heard.sel w.q 0x3610 1 →
     s.m.heard.astInFlight a = 0 →
     exec (.astDisable w) s =
     .next (s.after fun m => ((({ m.heard with xl := { m.xl with asts := tdel m.xl.asts a } } : Mach).setReg 0x3610 7 a 0).countAsts).answerWrite w 0x3610 7 0)) ∧
  (∀ (s : State) (w : Src) (v a : Nat),
     s.m.clocked = true →
     s.m.admits w 0x3610 3 = true →
     a = s.m.heard.sel w.q 0x3610 1 →
     s.m.heard.identOf w.q = none →
     v < 64 →
     s.m.heard.ast? a = none →
     exec (.astOwnerWrite w v) s = .next (s.after fun m => (m.heard.setReg 0x3610 3 a v).answerWrite w 0x3610 3 0)) ∧
  (∀ (s : State) (d : Nat) (t0 t1 : Bool),
     s.m.clocked = true →
     d < s.m.dies →
     s.m.dieState d = 4 →
     exec (.dieRejoinDone d t0 t1) s =
     .next (s.after fun m =>
       let n := (m.linksOf d).foldl (fun m l => if m.reg 0x7011 (1 + l) 0 = 2 then m.setReg 0x7011 (1 + l) 0 1 else m) m
       let n := [0, 1, 2, 3, 4, 5, 6].foldl (fun m k => if m.domain d k = 3 then m.setDomain d k 1 else m) n
       let n := [2 * d, 2 * d + 1].foldl (fun m k => if m.stackState k = 0 then m else m.setStack k 1) n
       let n := [(2 * d, t0), (2 * d + 1, t1)].foldl (fun m c => if m.chanState c.1 = 3 ∧ c.2 then m.setDimmChan c.1 1 else m) n
       let n := (List.range 512).foldl (fun m i => m.setQState (512 * d + i) 0) n
       let n := (List.range 64).foldl (fun m c => m.setReg 0x5301 3 (chanKey d c) 0) n
       let n := n.setDie d 1
       let n := [2 * d, 2 * d + 1].foldl (fun m l => if m.linkState l = 5 then m.setLinkState l 1 else m) n
       ((if d < 2 ∧ n.hasStandby then n.setReg 0x6010 6 0 1 else n).bringPort d).watch.retryAllocs)) ∧
  (∀ (s : State) (c : PendingCommit),
     s.m.clocked = true →
     s.m.cairn.commit = some c →
     c.remap = true →
     s.m.recallHosts (fun _ h => s.m.homeOf (h.line * 64) != (s.m.putAll c.stage).homeOf (h.line * 64)) = none →
     exec .homeRemapWritebackDone s =
     .next (s.after fun m =>
       let n := (m.cachedLines fun l => m.homeOf (l * 64) != (m.putAll c.stage).homeOf (l * 64)).foldl Mach.purgeLine m
       ({ n with cairn := { n.cairn with commit := some { c with remap := false } } } : Mach).finishCommit)) ∧
  (∀ (s : State) (c : PendingCommit),
     s.m.clocked = true →
     s.m.cairn.commit = some c →
     c.scrub ≠ [] →
     s.m.recallHosts (fun _ h => c.scrub.any fun r => overlap (h.line * 64, 64) r) = none →
     exec .hrtScrubDone s =
     .next (s.after fun m =>
       let n := c.scrub.foldl (fun m r => m.scrubRange r.1 r.2) m
       ({ n with cairn := { n.cairn with commit := some { c with scrub := [] } } } : Mach).finishCommit))

/-- A prefetch walk starts at its AST's root while fewer than 24 of the die's slots are busy, counted in 0x7020.03; a step
whose entry points to a table is cached and goes one level down. A CXL.io completion ends the read it answers, a
timeout ends it with the bus-error status. -/
def Obligations.WalksAndReads : Prop :=
  (∀ (s : State) (die ast dva : Nat) (a : Ast),
     s.m.clocked = true →
     s.m.ast? ast = some a →
     s.m.dieActive die = true →
     (s.m.xl.walks.filter fun w => w.die == die).length < 24 →
     dva < 2 ^ 48 →
     a.root ≠ 0 →
     s.m.cachedLeaf die engOther ast dva = none →
     a.kind = 0 →
     exec (.prefetchWalkStart die ast dva) s =
     .next (s.after fun m => ({ m with xl := { m.xl with walks := m.xl.walks ++ [⟨die, ast, dva, 4, a.root, none⟩] } } : Mach).bump 0x7020 3)) ∧
  (∀ (s : State) (die ast dva e : Nat) (a : Ast) (w : Walk) (m' : Mach),
     s.m.clocked = true →
     s.m.xl.walks.find? (fun w => w.die == die && w.ast == ast && w.dva == dva) = some w →
     s.m.ast? ast = some a →
     m' = (s.m.readEntry die a.owner (w.table + 8 * levelIndex w.level dva)).2 →
     (s.m.readEntry die a.owner (w.table + 8 * levelIndex w.level dva)).1 = .entry e →
     entryCause w.level e = 0 →
     bit e 1 = false →
     2 ≤ w.level →
     exec (.walkStepDone die ast dva) s =
     .next (s.after fun _ => (m'.cacheTable die ast w.level dva e).setWalk w (some { w with level := w.level - 1, table := nextTable e }))) ∧
  (∀ (s : State) (slot hpa : Nat) (bs : List Byte),
     s.m.clocked = true →
     exec (.hostCxlioCompletion slot hpa (.data bs)) s = .next (s.after fun m => m.endFetch slot hpa false (.ok bs))) ∧
  (∀ (s : State) (slot hpa : Nat),
     s.m.clocked = true →
     exec (.hostCompletionTimeout slot hpa) s = .next (s.after fun m => m.endFetch slot hpa false (.failed stBusErr)))

/-- A dictionary invalidation drops the cached translations it names and what engines copied under them, and begins; an
ATS invalidation that matches no AST is completed at once; an invalidation with nothing outstanding is acknowledged,
and one whose bound expires after its commands have ended with TIMEOUT. MIGRATE's checks passed, its leaves are found
and writes to its range are held from then on; its copy made, the leaves are rewritten, the AST is invalidated and the
command is done. ADVISE records its hints and is done. -/
def Obligations.Invalidations : Prop :=
  (∀ (s : State) (link ld lo n : Nat) (pasid : Option Nat),
     s.m.clocked = true →
     s.m.xl.asts = [] →
     exec (.atsInvalidationRequest link ld pasid lo n) s = .next (s.after fun m => m.emit (.atsCompletion link ld))) ∧
  (∀ (s : State) (w : Src) (ast : Nat),
     s.m.clocked = true →
     s.m.admits w 0x3630 1 = true →
     s.m.heard.identOf w.q = none →
     ast < 4096 →
     exec (.invalidateAst w ast) s =
     .next (s.after fun m => ((m.heard.dropAst (some ast)).dropCopies (some ast)).invalStart (some ast) (.dict w))) ∧
  (∀ (s : State) (w : Src),
     s.m.clocked = true →
     s.m.admits w 0x3630 2 = true →
     s.m.heard.identOf w.q = none →
     exec (.invalidateAll w) s = .next (s.after fun m => ((m.heard.dropAst none).dropCopies none).invalStart none (.dict w))) ∧
  (∀ (s : State) (ast : Option Nat) (i : Inval),
     s.m.clocked = true →
     s.m.xl.invals.find? (fun i => i.ast == ast) = some i →
     i.slots = [] →
     exec (.invalidationAck ast) s = .next (s.after fun m => m.invalAck i)) ∧
  (∀ (s : State) (ast : Option Nat) (i : Inval),
     s.m.clocked = true →
     s.m.xl.invals.find? (fun i => i.ast == ast) = some i →
     exec (.invalidationBoundExpiry ast) s =
     .next (s.after fun m => (i.slots.foldl (fun m k => (m.failCmd k stTimeout).invalProgress k) m).invalAck { i with slots := [] })) ∧
  (∀ (s : State) (slot : Nat) (c : Cmd) (a : Ast) (ls : List (Nat × MigLeaf)) (m' : Mach),
     s.m.clocked = true →
     s.m.cmd? slot = some c →
     descOp c.desc = 0x40 →
     c.done = false →
     s.m.xl.migrations = [] →
     s.m.ast? (fld c.desc 16 2) = some a →
     s.m.astOk c.queue (fld c.desc 16 2) = true →
     a.kind = 0 →
     fld c.desc 18 1 = 0 →
     fld c.desc 19 1 = 0 →
     fld c.desc 20 4 = 0 →
     rangeOk c.desc = true →
     fld c.desc 40 8 % 65536 = 0 →
     fld c.desc 40 8 + fld c.desc 32 8 ≤ s.m.reg 0x3000 1 0 →
     allZero (slice c.desc 48 16) = true →
     (s.m.askChan slot 0xFF).chanRunning slot = true →
     m' = (Mach.migLeaves (fld c.desc 32 8 / 65536 + 1) (s.m.askChan slot 0xFF) (slot / 1024) a.owner a.root (fld c.desc 24 8) (fld c.desc 24 8 + fld c.desc 32 8) []).2 →
     (Mach.migLeaves (fld c.desc 32 8 / 65536 + 1) (s.m.askChan slot 0xFF) (slot / 1024) a.owner a.root (fld c.desc 24 8) (fld c.desc 24 8 + fld c.desc 32 8) []).1 = .ok ls →
     migBad false (fld c.desc 24 8) (fld c.desc 24 8 + fld c.desc 32 8) (fld c.desc 40 8) ls = false →
     m'.inGrant a.owner (fld c.desc 40 8) (fld c.desc 32 8) = true →
     exec (.migrate slot) s =
     .next (s.after fun _ => ({ m' with xl := { m'.xl with migrations := m'.xl.migrations ++
       [⟨slot, fld c.desc 16 2, false, 0, fld c.desc 24 8, fld c.desc 32 8, fld c.desc 40 8,
         ls.map fun p => (p.2.at', p.2.entry, 2 ^ p.2.shift), []⟩] } } : Mach).setCmd slot { c with started := true })) ∧
  (∀ (s : State) (slot : Nat) (c : Cmd) (g : Migration) (bs : List Byte) (m' m'' : Mach),
     s.m.clocked = true →
     s.m.xl.migrations.find? (·.slot == slot) = some g →
     s.m.cmd? slot = some c →
     c.fail = none →
     s.m.chanRunning slot = true →
     m' = (Mach.migRead (g.len / 4096 + 1) s.m g g.dva g.len [] (.ok [])).2 →
     (Mach.migRead (g.len / 4096 + 1) s.m g g.dva g.len [] (.ok [])).1 = .ok bs →
     g.toHost = false →
     m'.recall g.dest g.len true = none →
     m'' = (m'.storeDpa (slot / 1024) g.dest bs (.cmd slot)).2 →
     (m'.storeDpa (slot / 1024) g.dest bs (.cmd slot)).1 = 0 →
     g.leaves = [] →
     exec (.migrateCopyDone slot) s =
     .next (s.after fun _ => (((((m''.migSwap g).dropAst (some g.ast)).dropCopies (some g.ast)).invalStart (some g.ast) .silent).migRelease g).finish slot 0 0)) ∧
  (∀ (s : State) (slot : Nat) (c : Cmd) (a : Ast) (m' : Mach),
     s.m.clocked = true →
     s.m.cmd? slot = some c →
     descOp c.desc = 0x41 →
     c.done = false →
     s.m.ast? (fld c.desc 16 2) = some a →
     s.m.astOk c.queue (fld c.desc 16 2) = true →
     fld c.desc 18 1 ≤ 4 →
     allZero (slice c.desc 19 5) = true →
     rangeOk c.desc = true →
     allZero (slice c.desc 40 24) = true →
     m' = (Mach.adviseFrom (fld c.desc 32 8 / 65536 + 1) s.m (slot / 1024) (fld c.desc 16 2) a (fld c.desc 24 8) (fld c.desc 24 8 + fld c.desc 32 8) (fld c.desc 18 1)).2.2 →
     (Mach.adviseFrom (fld c.desc 32 8 / 65536 + 1) s.m (slot / 1024) (fld c.desc 16 2) a (fld c.desc 24 8) (fld c.desc 24 8 + fld c.desc 32 8) (fld c.desc 18 1)).1 = none →
     (Mach.adviseFrom (fld c.desc 32 8 / 65536 + 1) s.m (slot / 1024) (fld c.desc 16 2) a (fld c.desc 24 8) (fld c.desc 24 8 + fld c.desc 32 8) (fld c.desc 18 1)).2.1 = false →
     exec (.advise slot) s = .next (s.after fun _ => m'.finish slot 0 0))

/-- A media read that has ended answers the read that has waited longest with what the medium gave. A write reaches its
medium and its owner is told. A write for which no frame came free in time ends with STORE_FULL, counted. A zeroed
frame is free again and what waited for one goes on. The flush tick gives the granules gathered through a die their
last access; the sweep visits the granules in turn. A watermark record read is cleared in the same step. -/
def Obligations.StoreAccesses : Prop :=
  (∀ (s : State) (line : Nat) (r : MediaResult),
     s.m.clocked = true →
     s.m.col.reads.any (·.line == line) = true →
     exec (.mediaReadDone line r) s =
     .next (s.after fun m => (m.mediaValue line r).2.answerMedia line (m.mediaValue line r).1)) ∧
  (∀ (s : State) (w : StoreWrite),
     s.m.clocked = true →
     w.bytes ≠ [] →
     w.dpa % 64 + w.bytes.length ≤ 64 →
     w.dpa < s.m.reg 0x3000 1 0 →
     (s.m.mediaWrite w).2 = .done →
     exec (.mediaWrite w) s = .next (s.after fun m => (m.mediaWrite w).1.writeEnded w.owner 0)) ∧
  (∀ (s : State) (g : Nat),
     s.m.clocked = true →
     s.m.store.heldWrites = [] →
     exec (.allocationBoundExpiry g) s =
     .next (s.after fun m => (m.store.allocWaits.filter fun w => granuleOf w.dpa == g).foldl
       (fun m w => (m.bump 0x7030 3).writeEnded w.owner stStoreFull)
       { m with store := { m.store with allocWaits := m.store.allocWaits.filter fun w => !(granuleOf w.dpa == g) } })) ∧
  (∀ (s : State) (f : Frame),
     s.m.clocked = true →
     f ∈ s.m.store.unzeroed →
     exec (.frameZeroed f) s =
     .next (s.after fun m => ({ m with store := { m.store with unzeroed := m.store.unzeroed.erase f } } : Mach).watch.retryAllocs)) ∧
  (∀ (s : State) (w : Src) (k : Nat),
     s.m.clocked = true →
     s.m.fresh? w.q w.txn = true →
     k < 4 →
     s.m.heard.roles w.q ≠ 0 →
     w.q.isInBand = false →
     exec (.watermarkRecordRead w k) s =
     .next (s.after fun m => (m.heard.setOct 0x3051 (1 + k) 0 (zeros 16)).answerGet w 0x3051 (1 + k) (m.heard.oct 0x3051 (1 + k) 0))) ∧
  (∀ (s : State) (die : Nat),
     s.m.clocked = true →
     exec (.accessFlushTick die) s =
     .next (s.after fun m => (tgetD m.store.gathered die []).foldl
       (fun m g => m.setGran g { m.gran g with last := m.nowMs, sat := false })
       { m with store := { m.store with gathered := tdel m.store.gathered die } })) ∧
  (∀ (s : State),
     s.m.clocked = true →
     ({ s.m with store := { s.m.store with sweep := (if s.m.store.sweep + 1 < s.m.reg 0x3000 1 0 / 65536 then s.m.store.sweep + 1 else 0) } } : Mach).age s.m.store.sweep ≠ 255 →
     exec .ageSweepVisit s =
     .next (s.after fun m => { m with store := { m.store with sweep := (if m.store.sweep + 1 < m.reg 0x3000 1 0 / 65536 then m.store.sweep + 1 else 0) } }))

/-- Below its low mark a die starts evictions, oldest first, enough for the high mark; below its mark a domain's granules
of age 255 are compressed. A movement's copy made, its final pass holds writes; the final pass made, the map leads to
the new frame, the old frame is freed, the movement is counted and held writes go on; a movement that fails frees its
destination, is counted, and held writes go to the source. A retiring stack that is empty goes to RETIRED. -/
def Obligations.Movements : Prop :=
  (∀ (s : State) (die : Nat),
     s.m.clocked = true →
     perMille s.m.stackFreeAll s.m.stackUsable < s.m.reg 0x3010 2 0 →
     exec (.evictionStart die) s =
     .next (s.after fun m => ((m.evictable die).foldl (fun (r : Nat × Mach) g =>
         if r.1 = 0 then r else if (tget (r.2.requestEvict g).store.moves g).isSome then (r.1 - 1, r.2.requestEvict g) else r)
       (ceilDiv (m.reg 0x3010 3 0 * m.stackUsable) 1000 - m.stackFreeAll -
         (m.store.moves.filter fun p => (m.gran p.1).loc == .stack).length, m)).2)) ∧
  (∀ (s : State) (d : Nat),
     s.m.clocked = true →
     s.m.reg 0x3010 5 0 ≠ 0 →
     perMille (s.m.dimmFree d) (s.m.domainFrames d) < s.m.reg 0x3010 5 0 →
     exec (.compressionStart d) s =
     .next (s.after fun m => (((m.store.gran.filter fun p => p.2.loc == .dimm && p.2.domain == d && m.age p.1 == 255 &&
         (tget m.store.moves p.1).isNone && !m.store.keepPlain.contains p.1 && !m.sealedAt (p.1 * 65536)).map Prod.fst).foldl
       (fun (r : Nat × Mach) g =>
         if r.1 = 0 then r else
         if r.2.reg 0x3010 4 0 < slotChunks (r.2.bytes (g * 65536) 65536) then
           (r.1, { r.2 with store := { r.2.store with keepPlain := insSorted r.2.store.keepPlain g } })
         else match r.2.newSlot d (slotChunks (r.2.bytes (g * 65536) 65536)) with
           | some (f, c) => (r.1 - 1, r.2.startMove g .compress (.slot d f c (slotChunks (r.2.bytes (g * 65536) 65536))) false)
           | none => r)
       (ceilDiv (2 * m.reg 0x3010 5 0 * m.domainFrames d) 1000 - m.dimmFree d, m)).2)) ∧
  (∀ (s : State) (g : Nat),
     s.m.clocked = true →
     exec (.movementCopyDone g) s =
     .next (s.after fun m => { m with store := { m.store with moves := tmod m.store.moves g fun mv => { mv with finalPass := true } } })) ∧
  (∀ (s : State) (g f : Nat) (mv : Movement),
     s.m.clocked = true →
     tget s.m.store.moves g = some mv →
     mv.finalPass = true →
     mv.dst = .stack f →
     mv.promotePending = false →
     mv.evacPending = false →
     exec (.movementFinalPassDone g) s =
     .next (s.after fun m => ((((({ m with store := { m.store with moves := tdel m.store.moves g } } : Mach).setGran g
         { (MoveDest.stack f).entry (m.gran g) with moving := false }).freeFrame (m.gran g)).bump 0x7030
           (if mv.kind = .promote ∨ mv.kind = .expand then 1 else 2)).watch).releaseHeld g)) ∧
  (∀ (s : State) (g : Nat) (mv : Movement),
     s.m.clocked = true →
     tget s.m.store.moves g = some mv →
     exec (.movementFailed g) s = .next (s.after fun m => ((m.stopMove g).bump 0x7030 6).releaseHeld g)) ∧
  (∀ (s : State) (w : Src) (k : Nat),
     s.m.clocked = true →
     s.m.admits w 0x3026 1 = true →
     k < 2 * s.m.dies →
     s.m.heard.stackState k = 1 →
     s.m.heard.dieActive (k / 2) = true →
     s.m.heard.activeStacks ≠ [k] →
     s.m.heard.retireFits k = true →
     exec (.stackRetire w k) s = .next (s.after fun m => (m.heard.beginRetire k).answerWrite w 0x3026 1 0)) ∧
  (∀ (s : State) (k : Nat),
     s.m.clocked = true →
     s.m.stackState k = 2 →
     s.m.onStack k = [] →
     s.m.store.moves = [] →
     exec (.stackEvacuationDone k) s = .next (s.after fun m => (m.setStack k 3).watch))

/-- A request that waits for a DIMM too long ends with LOWER_TIER_FAIL; a line that fails a second read is poisoned,
counted in 0x7030.07; a channel in service that fails goes DOWN with notice 0x8031 and the reads that wait on it end.
A removal begins by asking its tails to move; an addition puts the channel in training, which ends in joining with its
frames; a removal whose tails are empty makes the channel ABSENT from its domains and removed. -/
def Obligations.LowerTier : Prop :=
  (∀ (s : State) (line : Nat),
     s.m.clocked = true →
     (s.m.gran (granuleOfLine line)).loc = .dimm →
     exec (.dimmAccessBoundExpiry line) s = .next (s.after fun m => m.answerMedia line (.failed stLowerTierFail))) ∧
  (∀ (s : State) (line : Nat),
     s.m.clocked = true →
     line ∈ s.m.store.rereads →
     exec (.dimmRereadDone line false) s =
     .next (s.after fun m => ({ m with store := { m.store with rereads := remove m.store.rereads line } } : Mach).mediaPoison line)) ∧
  (∀ (s : State) (c : Nat),
     s.m.clocked = true →
     s.m.chanState c = 1 →
     exec (.channelFail c) s =
     .next (s.after fun m => (((m.setDimmChan c 3).col.reads.filter fun x => (m.setDimmChan c 3).channelDown x.line).map (·.line)).foldl
       (fun m l => m.answerMedia l (.failed stLowerTierFail)) (m.setDimmChan c 3))) ∧
  (∀ (s : State) (w : Src) (c : Nat),
     s.m.clocked = true →
     s.m.admits w 0x3022 1 = true →
     c < 2 * s.m.dies →
     s.m.heard.reg 0x3022 2 0 = 0 →
     s.m.store.reshape = none →
     s.m.heard.chanState c = 1 →
     s.m.heard.removalTail c = [] →
     exec (.channelRemove w c) s = .next (s.after fun m => (m.heard.beginRemove c none).answerWrite w 0x3022 1 0)) ∧
  (∀ (s : State) (w : Src) (c : Nat),
     s.m.clocked = true →
     s.m.admits w 0x3022 1 = true →
     c < 2 * s.m.dies →
     s.m.heard.reg 0x3022 2 0 = 1 →
     s.m.store.reshape = none →
     s.m.heard.chanState c = 0 →
     exec (.channelAdd w c) s =
     .next (s.after fun m => { m.heard.setDimmChan c 2 with store := { (m.heard.setDimmChan c 2).store with
       reshape := some { channel := c, adding := true, sweeping := false, src := some w } } })) ∧
  (∀ (s : State) (c gib : Nat) (r : Reshape),
     s.m.clocked = true →
     s.m.store.reshape = some r →
     r.adding = true →
     r.sweeping = false →
     r.channel = c →
     r.src = none →
     s.m.globalGiB ≤ gib →
     exec (.channelTrained c gib true) s =
     .next (s.after fun m => { m.setDimmChan c 6 with store := { (m.setDimmChan c 6).store with
       reshape := some { r with sweeping := true }, dimmGiB := tput (m.setDimmChan c 6).store.dimmGiB c gib } })) ∧
  (∀ (s : State) (r : Reshape),
     s.m.clocked = true →
     s.m.store.reshape = some r →
     r.adding = false →
     r.sweeping = true →
     s.m.removalTail r.channel = [] →
     s.m.chanState r.channel = 4 →
     exec .reshapeSweepDone s =
     .next (s.after fun m =>
       let n := m.bumpBy 0x7030 7 0 0
       let n := ({ n with store := { n.store with members := n.store.members.map fun p => (p.1, remove p.2 r.channel) } } : Mach).setDimmChan r.channel 5
       ((({ n with store := { n.store with reshape := none } } : Mach).setReg 0x3022 3 0 1000).nextRemoval).watch))

/-- LEASE_ACQUIRE gives the lowest free extent to the holder until the lease time has passed and shows it to the
requester; a renewal makes a HELD extent's expiry later; a release and the end of the grace time make it SCRUBBING;
its expiry makes it GRACE; its scrub done, every granule of it is UNBACKED and it is FREE. Every change of state
raises notice 0x8033 (setLease). -/
def Obligations.Leases : Prop :=
  (∀ (s : State) (w : Src) (holder k : Nat),
     s.m.clocked = true →
     s.m.admits w 0x3421 1 = true →
     s.m.heard.mayHold w.q holder = true →
     holder < 64 →
     firstFrom s.m.heard.extents 0 (fun k => (s.m.heard.lease k).state == 0) = some k →
     exec (.leaseAcquire w holder) s =
     .next (s.after fun m => ((m.heard.setLease k ⟨1, holder, m.heard.leaseEnd⟩).setReq w.q
       { (m.heard.setLease k ⟨1, holder, m.heard.leaseEnd⟩).req w.q with acquired := k }).answerWrite w 0x3421 1 0)) ∧
  (∀ (s : State) (w : Src) (k : Nat),
     s.m.clocked = true →
     s.m.admits w 0x3421 3 = true →
     s.m.heard.leaseRefusal w.q k = none →
     (s.m.heard.lease k).state = 1 →
     exec (.leaseRenew w k) s =
     .next (s.after fun m => (m.heard.setLease k { m.heard.lease k with expiry := m.heard.leaseEnd }).answerWrite w 0x3421 3 0)) ∧
  (∀ (s : State) (w : Src) (holder : Nat),
     s.m.clocked = true →
     s.m.admits w 0x3421 4 = true →
     s.m.heard.mayHold w.q holder = true →
     holder < 64 →
     exec (.leaseRenewHolder w holder) s =
     .next (s.after fun m => ((m.store.leases.filter fun p => p.2.holder == holder && (p.2.state == 1 || p.2.state == 2)).foldl
       (fun m p => m.renew p.1) m.heard).answerWrite w 0x3421 4 0)) ∧
  (∀ (s : State) (w : Src) (k : Nat),
     s.m.clocked = true →
     s.m.admits w 0x3421 5 = true →
     s.m.heard.leaseRefusal w.q k = none →
     exec (.leaseRelease w k) s =
     .next (s.after fun m => (m.heard.setLease k { m.heard.lease k with state := 3 }).answerWrite w 0x3421 5 0)) ∧
  (∀ (s : State) (k : Nat),
     s.m.clocked = true →
     (s.m.lease k).state = 1 →
     exec (.leaseExpiry k) s = .next (s.after fun m => m.setLease k { m.lease k with state := 2 })) ∧
  (∀ (s : State) (k : Nat),
     s.m.clocked = true →
     (s.m.lease k).state = 2 →
     tkeys (s.m.setLease k { s.m.lease k with state := 3 }).store.moves = [] →
     exec (.graceEnd k) s = .next (s.after fun m => m.setLease k { m.lease k with state := 3 })) ∧
  (∀ (s : State) (k : Nat),
     s.m.clocked = true →
     (s.m.lease k).state = 3 →
     s.m.recallHosts (fun _ h => h.line * 64 / 2 ^ 30 == s.m.extentBase k / 2 ^ 30) = none →
     exec (.extentScrubDone k) s =
     .next (s.after fun m => ((m.scrubRange (m.extentBase k) (2 ^ 30)).setLease k
       { m.lease k with state := 0 }).watch))

/-- With a CXL link up: a read or a write of an address that the LD's decoders and grants allow is served at its line;
another one is counted and answered with poison or discarded. A line written back by its holder is the line's data,
its filter entry freed and its writer told; where another die is the line's home that data is the die's M copy. A
BIRsp frees the entry, or leaves it in S, and what waited goes on. A BISnp without answer loses the holding paths. A
snoop is answered RspIHitI. A doorbell that qualifies rings its queue. -/
def Obligations.HostMemory : Prop :=
  (∀ (s : State) (link ld hpa tag dpa : Nat) (ask : HostAsk),
     s.m.clocked = true →
     s.m.linkState link = 4 →
     (s.m.mirrorHost link 1).hostDpa link ld hpa 64 = some dpa →
     exec (.hostCxlMemRead link ld hpa ask tag) s =
     .next (s.after fun m => (m.mirrorHost link 1).hostAccess ⟨link, ld, tag, lineOf dpa, ask, 0, none⟩)) ∧
  (∀ (s : State) (link ld hpa tag : Nat) (ask : HostAsk),
     s.m.clocked = true →
     s.m.linkState link = 4 →
     (s.m.mirrorHost link 1).hostDpa link ld hpa 64 = none →
     exec (.hostCxlMemRead link ld hpa ask tag) s =
     .next (s.after fun m => ((m.mirrorHost link 1).hostRefuse link ld hpa).emit (.memData link ld tag .poison))) ∧
  (∀ (s : State) (link ld hpa tag dpa : Nat) (bs : List Byte),
     s.m.clocked = true →
     s.m.linkState link = 4 →
     (s.m.mirrorHost link 1).hostDpa link ld hpa bs.length = some dpa →
     exec (.hostCxlMemWrite link ld hpa bs tag) s =
     .next (s.after fun m => (m.mirrorHost link 1).hostAccess ⟨link, ld, tag, lineOf dpa, .current, dpa % 64, some bs⟩)) ∧
  (∀ (s : State) (link ld hpa tag dpa : Nat) (bs : List Byte),
     s.m.clocked = true →
     s.m.linkState link = 4 →
     (s.m.mirrorHost link 1).heldDpa link ld hpa = some dpa →
     ((s.m.mirrorHost link 1).markReloc (lineOf dpa)).biOpen (link / 2) (lineOf dpa) = false →
     ((s.m.mirrorHost link 1).markReloc (lineOf dpa)).homeOf (lineOf dpa * 64) ≠ link / 2 →
     exec (.hostWriteback link ld hpa bs .current tag) s =
     .next (s.after fun m => ((((m.mirrorHost link 1).markReloc (lineOf dpa)).freeHostLine (link / 2) link (lineOf dpa)).putCached
       (link / 2) (lineOf dpa) ⟨.M, .data bs⟩).answerHostWrite link ld tag 0)) ∧
  (∀ (s : State) (link line : Nat) (b : BiSnp),
     s.m.clocked = true →
     s.m.host.bis.find? (fun b => b.link == link && b.line == line) = some b →
     b.inv = true →
     exec (.birsp link line) s =
     .next (s.after fun m =>
       let n := (m.mirrorHost link 1).freeHostLine b.die link line
       ({ n with host := { n.host with bis := n.host.bis.erase b } } : Mach).biComplete b)) ∧
  (∀ (s : State) (link line : Nat) (b : BiSnp),
     s.m.clocked = true →
     s.m.host.bis.find? (fun b => b.link == link && b.line == line) = some b →
     (((s.m.hostLines b.die line).filter fun h => h.link == link).flatMap (·.lds)) = [] →
     exec (.biBoundExpiry link line) s =
     .next (s.after fun m =>
       let n := m.settleLine b.die line
       ({ n with host := { n.host with bis := n.host.bis.erase b } } : Mach).biComplete b)) ∧
  (∀ (s : State) (link : Nat),
     s.m.clocked = true →
     s.m.linkState link = 4 →
     exec (.hostSnoop link) s = .next (s.after fun m => (m.mirrorHost link 1).emit (.snoopAnswer link))) ∧
  (∀ (s : State) (link ld q value : Nat) (l : Ld),
     s.m.clocked = true →
     value < 65536 →
     q < 512 * s.m.dies →
     s.m.dieActive (queueDie q) = true →
     s.m.ld? link ld = some l →
     l.bind = .bound →
     s.m.qOwner q = l.ident →
     s.m.ideRequired (link / 2) = false →
     exec (.doorbellWrite link ld (q * 4096) 4 value) s = .next (s.after fun m => m.doorbell q value))

/-- A link that trains at x4, x8 or x16 shows its state, rate and width and its LDs that were DOWN are UNBOUND; a link
that goes down, or whose PERST_L is asserted, is lost. A hot reset loses every bound path of the link and resets its
LDs; a Function Level Reset does so to one LD and keeps its decoders; an IDE integrity failure ends the link's streams
and loses the LD's path. Unbinding an identity loses every path of it. The sweep of a lost path done, its LD is
UNBOUND or DOWN and notice 0x8041 is sent. -/
def Obligations.HostPaths : Prop :=
  (∀ (s : State) (link rate lanes : Nat),
     s.m.clocked = true →
     s.m.linkExists link = true →
     s.m.linkState link = 2 →
     rate ≤ s.m.reg 0x3400 4 (link / 2) →
     (lanes = 4 ∨ lanes = 8 ∨ (lanes = 16 ∧ s.m.reg 0x3400 2 (link / 2) = 0)) →
     exec (.hostLinkTrained link rate lanes) s =
     .next (s.after fun m =>
       let n := (m.setLinkState link (if 5 ≤ rate then 4 else 3)).setReg 0x3401 (0x11 + link) 0 (rate * 256 + lanes)
       (List.range (n.reg 0x3400 3 (link / 2))).foldl (fun n ld =>
         match n.ld? link ld with
         | some l => if l.bind = .down then n.setLd link ld { l with bind := .unbound } else n
         | none => n.setLd link ld { Ld.reset with bind := .unbound }) n)) ∧
  (∀ (s : State) (port : Nat),
     s.m.linkExists (2 * port) = true →
     s.m.linkState (2 * port) = 1 →
     s.m.linkState (2 * port + 1) = 0 →
     exec (.perstLRelease port) s = .next (s.atPort fun m => m.setLinkState (2 * port) 2)) ∧
  (∀ (s : State) (link : Nat),
     s.m.clocked = true →
     2 ≤ s.m.linkState link →
     s.m.linkState link ≤ 4 →
     exec (.hostLinkDown link) s = .next (s.after fun m => m.linkLost link 0 1)) ∧
  (∀ (s : State) (port : Nat),
     s.m.linkState (2 * port) = 4 →
     (s.m.linkLost (2 * port) 1 1).linkState (2 * port + 1) = 0 →
     exec (.perstLAssert port) s = .next (s.atPort fun m => m.linkLost (2 * port) 1 1)) ∧
  (∀ (s : State) (link : Nat),
     s.m.clocked = true →
     (s.m.linkState link = 3 ∨ s.m.linkState link = 4) →
     exec (.hotReset link) s =
     .next (s.after fun m => (m.ldsOf link).foldl (fun m ld =>
       (((m.losePath link ld 2).endBinding link ld).ld? link ld).elim ((m.losePath link ld 2).endBinding link ld) fun l =>
         ((m.losePath link ld 2).endBinding link ld).setLd link ld l.linkReset) m)) ∧
  (∀ (s : State) (link ld : Nat) (l : Ld),
     s.m.clocked = true →
     ((s.m.losePath link ld 3).endBinding link ld).ld? link ld = some l →
     exec (.functionLevelReset link ld) s =
     .next (s.after fun m => ((m.losePath link ld 3).endBinding link ld).setLd link ld { l.linkReset with decoders := l.decoders })) ∧
  (∀ (s : State) (link ld : Nat),
     s.m.clocked = true →
     exec (.ideIntegrityFailure link ld) s =
     .next (s.after fun m => ((m.ldsOf link).foldl (fun m d =>
       (m.ld? link d).elim m fun l => m.setLd link d { l with ideIo := false, ideMem := false }) m).losePath link ld 11)) ∧
  (∀ (s : State) (w : Src) (ident : Nat),
     s.m.clocked = true →
     s.m.admits w 0x3432 1 = true →
     ident < 64 →
     exec (.unbindIdentity w ident) s =
     .next (s.after fun m => (((m.heard.paths ident).foldl (fun m p => m.losePath (p / 16) (p % 16) 8) m.heard).auditReq w.q 0x30
       [byteOf ident]).answerWrite w 0x3432 1 0)) ∧
  (∀ (s : State) (link ld : Nat) (l : Ld),
     s.m.clocked = true →
     s.m.ld? link ld = some l →
     l.bind = .teardown →
     ((s.m.hostFilter (link / 2)).filter fun h => h.link == link && h.lds.contains ld) = [] →
     exec (.pathTeardownSweepDone link ld) s =
     .next (s.after fun m =>
       let n := ({ m with host := { m.host with lost := remove m.host.lost (link * 16 + ld) } } : Mach).setLd link ld
         { l with bind := if m.linkState link == 3 || m.linkState link == 4 then .unbound else .down }
       (n.notice 0x8041 (byteOf l.ident :: leBytes 2 (pathCode link ld) ++
         [byteOf l.lossEvent, byteOf (n.reg 0x3431 2 l.ident)])).audit 0x30 [byteOf l.ident, byteOf link, byteOf ld, byteOf l.lossEvent])) ∧
  (∀ (s : State) (link ld : Nat) (l : Ld),
     s.m.clocked = true →
     s.m.ld? link ld = some l →
     l.bind = .authenticating →
     exec (.authenticationBoundExpiry link ld) s = .next (s.after fun m => m.setLd link ld { l with bind := .unbound })) ∧
  (∀ (s : State) (link ld : Nat) (io mem : Bool) (l : Ld),
     s.m.clocked = true →
     s.m.ld? link ld = some l →
     l.bind = .bound →
     exec (.ideKeyManagement link ld io mem) s =
     .next (s.after fun m => m.setLd link ld { l with ideIo := l.ideIo || io, ideMem := l.ideMem || mem }))

/-- Once the device is ready a configuration or BAR access of an LD whose link is up is answered with the register's
value, or writes it. The mirror's request buffer takes bytes while it is not busy; GO of an empty request is answered
with an abort frame; a well-formed request of a bound LD is served with the mirror busy; the response bound answers
with an abort frame. -/
def Obligations.HostRegisters : Prop :=
  (∀ (s : State) (link ld : Nat) (a : HostAcc) (l : Ld),
     s.m.clocked = true →
     s.m.ld? link ld = some l →
     (s.m.linkState link = 3 ∨ s.m.linkState link = 4) →
     11 ≤ s.m.clk.stage →
     exec (.hostConfigAccess link ld a) s =
     .next (s.after fun m =>
       match a with
       | .cfgRead r => m.emit (.config link ld (m.cfgRead link ld l r))
       | .cfgWrite r v => m.cfgWrite link ld l r v
       | .barRead bar off => m.emit (.config link ld (m.barRead link ld l bar off))
       | .barWrite bar off v => m.barWrite link ld l bar off v
       | .cdat => m.emit (.cdat link ld (m.cdatRange l).1 (m.cdatRange l).2))) ∧
  (∀ (s : State) (link ld off : Nat) (bs : List Byte) (l : Ld),
     s.m.clocked = true →
     s.m.ld? link ld = some l →
     l.mirror.busy = false →
     off + bs.length ≤ 4096 →
     exec (.mirrorBufferWrite link ld off bs) s =
     .next (s.after fun m => m.setLd link ld { l with mirror := { l.mirror with req := patch (slice l.mirror.req 0 4096) off bs } })) ∧
  (∀ (s : State) (link ld : Nat) (bs : List Byte) (l : Ld),
     s.m.clocked = true →
     s.m.ld? link ld = some l →
     l.mirror.busy = false →
     exec (.mirrorBufferWrite link ld 0x2004 bs) s =
     .next (s.after fun m => m.setLd link ld { l with mirror := { l.mirror with reqLen := leNat bs % 8192 } })) ∧
  (∀ (s : State) (link ld : Nat) (l : Ld),
     s.m.clocked = true →
     s.m.ld? link ld = some l →
     l.bind = .bound →
     l.mirror.busy = false →
     16 ≤ l.mirror.reqLen →
     l.mirror.reqLen ≤ 1024 →
     fld (slice l.mirror.req 0 l.mirror.reqLen) 0 1 = 1 →
     fld (slice l.mirror.req 0 l.mirror.reqLen) 1 1 = 1 →
     fld (slice l.mirror.req 0 l.mirror.reqLen) 2 2 = l.mirror.reqLen →
     allZero (slice (slice l.mirror.req 0 l.mirror.reqLen) 8 8) = true →
     exec (.mirrorGo link ld) s =
     .next (s.after fun m => (m.setLd link ld { l with mirror := { l.mirror with busy := true } }).serveRequest (.inBand link ld)
       (parseRequest (slice l.mirror.req 0 l.mirror.reqLen)))) ∧
  (∀ (s : State) (link ld : Nat) (l : Ld),
     s.m.clocked = true →
     s.m.ld? link ld = some l →
     l.mirror.busy = true →
     exec (.mirrorResponseBoundExpiry link ld) s =
     .next (s.after fun m => (m.bump 0x7110 2).mirrorDone link ld (mirrorAbort (parseRequest l.mirror.req).txn
       (parseRequest l.mirror.req).op (parseRequest l.mirror.req).index (parseRequest l.mirror.req).sub abGeneral).bytes))

/-- Over a Cairn port that is up: KEY_EXCHANGE takes the lowest free slot; FINISH whose key is a credential's opens the
session with its roles, and a refused one is counted; END_SESSION ends the session; measurements are answered;
SET_CERTIFICATE of slot 1 by a Custodian stores the chain; another request is answered. Each message is counted in and
out. On an LD, KEY_EXCHANGE makes it AUTHENTICATING, a heartbeat of a bound LD is answered. A session silent too long
ends and is counted. -/
def Obligations.Sessions : Prop :=
  (∀ (s : State) (a n : Nat),
     s.m.clocked = true →
     s.m.cairnUp = true →
     (s.m.bump 0x7110 1).freeSession = some n →
     exec (.spdmKeyExchange (.cairn a)) s =
     .next (s.after fun m =>
       let h := m.bump 0x7110 1
       (({ h with cairn := { h.cairn with handshakes := tput h.cairn.handshakes n (.cairn a) } } : Mach).emit
         (.spdm (.cairn a) (.keyExchange n))).bump 0x7110 2)) ∧
  (∀ (s : State) (link ld : Nat) (l : Ld),
     s.m.clocked = true →
     s.m.ld? link ld = some l →
     l.bind = .unbound →
     exec (.spdmKeyExchange (.host link ld)) s =
     .next (s.after fun m => (m.setLd link ld { l with bind := .authenticating }).emit (.spdm (.host link ld) (.keyExchange (link * 16 + ld))))) ∧
  (∀ (s : State) (a n : Nat) (leaf root : List Byte) (signed inDate : Bool),
     s.m.clocked = true →
     s.m.cairnUp = true →
     tget s.m.cairn.handshakes n = some (.cairn a) →
     s.m.sec.claimable = true →
     s.m.reg 0x6002 2 0 = 0 →
     exec (.spdmFinish (.cairn a) n leaf root signed inDate) s =
     .next (s.after fun m => ((((m.bump 0x7110 1).claim (Config.sha384 leaf)).openSession n 0 15 (.cairn a)).emit
       (.spdm (.cairn a) .finished)).bump 0x7110 2)) ∧
  (∀ (s : State) (a n : Nat) (leaf root : List Byte) (signed inDate : Bool),
     s.m.clocked = true →
     s.m.cairnUp = true →
     tget s.m.cairn.handshakes n = some (.cairn a) →
     s.m.sec.claimable = false →
     (s.m.bump 0x7110 1).chainOk root signed inDate = true →
     exec (.spdmFinish (.cairn a) n leaf root signed inDate) s =
     .next (s.after fun m =>
       let h := m.bump 0x7110 1
       match h.credentialOf (Config.sha384 leaf) with
       | some k => ((h.countUndated.openSession n k (h.reg 0x1200 3 k % 16) (.cairn a)).emit (.spdm (.cairn a) .finished)).bump 0x7110 2
       | none => ((((h.countUndated.endSession n).bump 0x7110 5).audit 0x0012 [byteOf n]).emit
           (.spdm (.cairn a) .errorInvalidRequest)).bump 0x7110 2)) ∧
  (∀ (s : State) (a n : Nat) (leaf root : List Byte) (signed inDate : Bool),
     s.m.clocked = true →
     s.m.cairnUp = true →
     tget s.m.cairn.handshakes n = some (.cairn a) →
     s.m.sec.claimable = false →
     (s.m.bump 0x7110 1).chainOk root signed inDate = false →
     exec (.spdmFinish (.cairn a) n leaf root signed inDate) s =
     .next (s.after fun m => ((((((m.bump 0x7110 1).endSession n).bump 0x7110 5).audit 0x0012 [byteOf n]).emit
       (.spdm (.cairn a) .errorInvalidRequest)).bump 0x7110 2))) ∧
  (∀ (s : State) (a n : Nat),
     s.m.clocked = true →
     s.m.cairnUp = true →
     (s.m.bump 0x7110 1).sessionOf (.cairn a) n = true →
     exec (.spdmEndSession (.cairn a) n) s =
     .next (s.after fun m => (((m.bump 0x7110 1).endSession n).emit (.spdm (.cairn a) .endSession)).bump 0x7110 2)) ∧
  (∀ (s : State) (link ld n : Nat) (l : Ld),
     s.m.clocked = true →
     s.m.ld? link ld = some l →
     l.bind = .bound →
     exec (.spdmHeartbeat (.host link ld) n) s = .next (s.after fun m => m.emit (.spdm (.host link ld) .heartbeat))) ∧
  (∀ (s : State) (a n : Nat),
     s.m.clocked = true →
     s.m.sessionOf (.cairn a) n = true →
     exec (.spdmHeartbeatTimeout (.cairn a) n) s = .next (s.after fun m => (m.endSession n).bump 0x7110 6)) ∧
  (∀ (s : State) (a : Nat),
     s.m.clocked = true →
     s.m.cairnUp = true →
     exec (.spdmGetMeasurements (.cairn a)) s =
     .next (s.after fun m => ((m.bump 0x7110 1).emit (.spdm (.cairn a) (.measurements (m.bump 0x7110 1).measurements))).bump 0x7110 2)) ∧
  (∀ (s : State) (a n : Nat) (chain : List Byte),
     s.m.clocked = true →
     s.m.cairnUp = true →
     (s.m.bump 0x7110 1).sessionOf (.cairn a) n = true →
     hasRole ((s.m.bump 0x7110 1).roles (.session n)) .custodian = true →
     exec (.spdmSetCertificate (.cairn a) n 1 chain) s =
     .next (s.after fun m =>
       let h := m.bump 0x7110 1
       (({ h with sec := { h.sec with flash := { h.sec.flash with ownerChain := chain } } } : Mach).emit
         (.spdm (.cairn a) .certificateSet)).bump 0x7110 2)) ∧
  (∀ (s : State) (a : Nat),
     s.m.clocked = true →
     s.m.cairnUp = true →
     exec (.spdmOtherRequest (.cairn a)) s =
     .next (s.after fun m => ((m.bump 0x7110 1).emit (.spdm (.cairn a) .answered)).bump 0x7110 2))

/-- On a port in a numbered state that awaits no replay, a header flit is accepted (EFN advances) and begins its frame; a
data flit is accepted and added to the frame in reception, which ends when LENGTH flits have come; a STOMP flit
likewise, its content void, and the frame is stomped. An IDLE flit changes nothing. A slot in error counts its
codewords and asks for a retry, as the resend interval does again; a REPLAY_START with EFN and the retry number ends
the wait. -/
def Obligations.PortReception : Prop :=
  (∀ (s : State) (p : Nat) (bs : List Byte),
     s.m.clocked = true →
     s.m.pState p = 7 →
     (s.m.port p).awaiting = false →
     ((s.m.acceptFlit p).port p).rx = none →
     ((s.m.acceptFlit p).port p).suspended = none →
     exec (.headerFlit p bs) s = .next (s.after fun m => (m.acceptFlit p).headerIn p bs)) ∧
  (∀ (s : State) (p : Nat) (bs : List Byte) (r : RxFrame),
     s.m.clocked = true →
     s.m.pState p = 7 →
     (s.m.port p).awaiting = false →
     ((s.m.acceptFlit p).port p).rx = some r →
     r.got + 1 = r.frame.len →
     exec (.dataFlit p bs) s =
     .next (s.after fun m => ((m.acceptFlit p).setPort p { (m.acceptFlit p).port p with rx := none }).frameWhole p
       { r with got := r.got + 1, frame := { r.frame with payload := r.frame.payload ++ slice bs 0 64 } })) ∧
  (∀ (s : State) (p : Nat) (bs : List Byte) (r : RxFrame),
     s.m.clocked = true →
     s.m.pState p = 7 →
     (s.m.port p).awaiting = false →
     ((s.m.acceptFlit p).port p).rx = some r →
     r.got + 1 < r.frame.len →
     exec (.dataFlit p bs) s =
     .next (s.after fun m => (m.acceptFlit p).setPort p { (m.acceptFlit p).port p with
       rx := some { r with got := r.got + 1, frame := { r.frame with payload := r.frame.payload ++ slice bs 0 64 } } })) ∧
  (∀ (s : State) (p : Nat) (r : RxFrame),
     s.m.clocked = true →
     s.m.pState p = 7 →
     (s.m.port p).awaiting = false →
     ((s.m.acceptFlit p).port p).rx = some r →
     r.got + 1 = r.frame.len →
     exec (.stompFlit p) s =
     .next (s.after fun m => ((m.acceptFlit p).setPort p { (m.acceptFlit p).port p with rx := none }).frameWhole p
       { r with got := r.got + 1, stomped := true, frame := { r.frame with payload := r.frame.payload ++ slice (zeros 64) 0 64 } })) ∧
  (∀ (s : State) (p : Nat),
     exec (.idleFlit p) s = .next s) ∧
  (∀ (s : State) (p c u : Nat),
     s.m.clocked = true →
     p < s.m.dies →
     ((s.m.bumpBy 0x7050 7 p c).bumpBy 0x7050 8 p u).pState p = 7 →
     ((((s.m.bumpBy 0x7050 7 p c).bumpBy 0x7050 8 p u).bumpPort p 3).port p).awaiting = false →
     exec (.slotInError p c u) s =
     .next (s.after fun m => (((m.bumpBy 0x7050 7 p c).bumpBy 0x7050 8 p u).bumpPort p 3).sendRetry p)) ∧
  (∀ (s : State) (p : Nat),
     s.m.clocked = true →
     s.m.pState p = 7 →
     (s.m.port p).awaiting = true →
     (s.m.port p).retries < s.m.reg 0x4020 1 0 →
     0 < (s.m.port p).retries →
     exec (.resendIntervalExpiry p) s =
     .next (s.after fun m => ((m.setPort p { m.port p with
       retryNum := ((m.port p).retryNum + 1) % 256, awaiting := true, retries := (m.port p).retries + 1 }).bumpPort p 4).emit
         (.retry p (m.port p).efn (((m.port p).retryNum + 1) % 256)))) ∧
  (∀ (s : State) (p : Nat),
     s.m.clocked = true →
     s.m.pState p = 7 →
     (s.m.port p).awaiting = true →
     exec (.replayStartFlit p (s.m.port p).efn (s.m.port p).retryNum) s =
     .next (s.after fun m => m.setPort p { m.port p with awaiting := false }))

/-- An ACK frees the frames it covers and gives the credit limits. A RETRY within the replay buffer is answered with
REPLAY_START and the flits from EFN on are counted. The ACK interval sends the last accepted flit's number and the
credits. The keepalive's expiry enters RECOVERY, a lane in use that loses lock too; a fast retrain done returns to the
state left; the recovery bound loses the link with cause 5. A frame transmitted is the one next in turn and is kept
until acknowledged. -/
def Obligations.PortTransmission : Prop :=
  (∀ (s : State) (p ackfn : Nat) (limits : List Nat),
     s.m.clocked = true →
     s.m.pState p = 7 →
     (s.m.port p).unacked = [] →
     (ackfn + 1 + 65536 - (s.m.port p).ackedTo) % 65536 ≤ ((s.m.port p).nextNum + 65536 - (s.m.port p).ackedTo) % 65536 →
     exec (.ackFlit p ackfn limits) s =
     .next (s.after fun m => m.setPort p { m.port p with ackedTo := (ackfn + 1) % 65536, limit := limits.take 6 })) ∧
  (∀ (s : State) (p efn num : Nat),
     s.m.clocked = true →
     s.m.pState p = 7 →
     (s.m.port p).lastAnswered ≠ some num →
     (efn + 65536 - (s.m.port p).ackedTo) % 65536 < ((s.m.port p).nextNum + 65536 - (s.m.port p).ackedTo) % 65536 →
     exec (.retryFlit p efn num) s =
     .next (s.after fun m => (((m.setPort p { m.port p with lastAnswered := some num }).bumpBy 0x7050 5 p
       (((m.port p).nextNum + 65536 - (m.port p).ackedTo) % 65536 - (efn + 65536 - (m.port p).ackedTo) % 65536)).emit
         (.replayStart p efn num)).resend p efn)) ∧
  (∀ (s : State) (p : Nat),
     s.m.clocked = true →
     s.m.pState p = 7 →
     exec (.ackIntervalExpiry p) s =
     .next (s.after fun m => m.emit (.ack p (if (m.port p).accepted then ((m.port p).efn + 65535) % 65536 else 0xFFFF) (m.port p).rxLimit))) ∧
  (∀ (s : State) (p : Nat),
     s.m.clocked = true →
     s.m.pState p = 7 →
     exec (.keepaliveExpiry p) s = .next (s.after fun m => ((m.setPort p { m.port p with left := 7 }).setPState p 10).bumpPort p 6)) ∧
  (∀ (s : State) (p : Nat),
     s.m.clocked = true →
     s.m.pState p = 10 →
     exec (.fastRetrainDone p) s =
     .next (s.after fun m => (((m.setPort p { m.port p with awaiting := false, retries := 0 }).restartEyes p).setPState p
       (m.port p).left).requeue p)) ∧
  (∀ (s : State) (p : Nat),
     s.m.clocked = true →
     s.m.pState p = 10 →
     exec (.recoveryBoundExpiry p) s = .next (s.after fun m => m.portLost p 5 true)) ∧
  (∀ (s : State) (p lane : Nat),
     s.m.clocked = true →
     lane < 32 →
     bit (s.m.reg 0x4011 3 p) lane = true →
     exec (.laneLockLoss p lane) s =
     .next (s.after fun m => (m.setReg 0x4011 3 p (setBit (m.reg 0x4011 3 p) lane false)).enterRecovery p)) ∧
  (∀ (s : State) (p : Nat) (q : QFrame) (m1 : Mach) (f : RFrame),
     s.m.clocked = true →
     s.m.nextFrame p = some q →
     m1 = (s.m.stampBeacon p { q.frame with hops := q.frame.hops + 1 }).2 →
     f = (s.m.stampBeacon p { q.frame with hops := q.frame.hops + 1 }).1 →
     exec (.frameTransmitStart p) s =
     .next (s.after fun _ => ((((m1.setPort p { m1.port p with
         queue := (m1.port p).queue.erase q
         unacked := (m1.port p).unacked ++ [⟨(m1.port p).nextNum, { q with frame := f }, m1.now⟩]
         nextNum := ((m1.port p).nextNum + (f.len + 1)) % 65536
         sent := if 3 ≤ f.cls then (m1.port p).sent
           else (m1.port p).sent.set (2 * f.cls + f.vc) (((m1.port p).sent.getD (2 * f.cls + f.vc) 0 + (f.len + 1)) % 65536) }).bumpBy
         0x7050 1 p (f.len + 1)).emit (.frame p f)).releaseCredit q.input q.frame).mirrorFrame p 2 f))

/-- Lane signals take DETECT to EQUALISE, equalisation done takes it to ALIGN, alignment done to HELLO with a HELLO sent;
each step's time-out returns to DETECT with its cause and DETECT's own sets cause 1. A HELLO with a width in common
and no wrong peer takes a torus port to DIGEST with a DIGEST sent; without a width, to DETECT with cause 4; the DIGEST
state's time-out quarantines. A DIGEST is checked. A LOST port with auto restore goes to DETECT. -/
def Obligations.PortTraining : Prop :=
  (∀ (s : State) (p : Nat),
     s.m.clocked = true →
     s.m.pState p = 2 →
     s.m.reg 0x4011 8 p ≠ 12 →
     exec (.laneSignalDetected p) s = .next (s.after fun m => m.setPState p 3)) ∧
  (∀ (s : State) (p : Nat),
     s.m.clocked = true →
     s.m.pState p = 2 →
     s.m.reg 0x4011 8 p ≠ 12 →
     (s.m.port p).signalNoticed = false →
     exec (.detectTimeout p) s =
     .next (s.after fun m => ((m.setCause p 1).setPort p { m.port p with signalNoticed := true }).notice 0x8050 [byteOf p, 2, 2, byteOf 1])) ∧
  (∀ (s : State) (p : Nat),
     s.m.clocked = true →
     s.m.pState p = 3 →
     exec (.equaliseDone p) s = .next (s.after fun m => m.setPState p 4)) ∧
  (∀ (s : State) (p : Nat),
     s.m.clocked = true →
     s.m.pState p = 3 →
     exec (.equaliseTimeout p) s = .next (s.after fun m => (m.setCause p 2).setPState p 2)) ∧
  (∀ (s : State) (p inverted good : Nat) (reversed : Bool),
     s.m.clocked = true →
     s.m.pState p = 4 →
     exec (.alignDone p true reversed inverted good) s =
     .next (s.after fun m => ((((m.setReg 0x4011 4 p (b2n reversed)).setReg 0x4011 5 p (inverted % 2 ^ 32)).setReg 0x4011 3 p
       (good % 2 ^ 32)).setPState p 5).sendHello p)) ∧
  (∀ (s : State) (p node port widths lanes : Nat),
     s.m.clocked = true →
     s.m.pState p = 5 →
     agreeWidth (Nat.land widths (s.m.reg 0x4010 3 p)) (Nat.land lanes (s.m.reg 0x4011 3 p)) = 0 →
     exec (.helloFlit p node port widths lanes) s =
     .next (s.after fun m => (((m.setReg 0x4011 6 p node).setReg 0x4011 7 p port).setCause p 4).setPState p 2)) ∧
  (∀ (s : State) (p node port widths lanes w : Nat) (m2 : Mach),
     s.m.clocked = true →
     s.m.pState p = 5 →
     agreeWidth (Nat.land widths (s.m.reg 0x4010 3 p)) (Nat.land lanes (s.m.reg 0x4011 3 p)) = w →
     w ≠ 0 →
     m2 = ((((s.m.setReg 0x4011 6 p node).setReg 0x4011 7 p port).setReg 0x4011 3 p (Nat.land lanes (s.m.reg 0x4011 3 p))).setWidth p w) →
     (m2.setPort p { Port.fresh with numbered := true, fromLost := (m2.port p).fromLost, queue := (m2.port p).queue }).edgePort p = false →
     (m2.setPort p { Port.fresh with numbered := true, fromLost := (m2.port p).fromLost, queue := (m2.port p).queue }).reg 0x4010 7 p = 0 →
     m2.port p = s.m.port p →
     exec (.helloFlit p node port widths lanes) s =
     .next (s.after fun _ => ((m2.setPort p { Port.fresh with numbered := true, fromLost := (m2.port p).fromLost, queue := (m2.port p).queue }).setPState
       p 6).sendDigest p false)) ∧
  (∀ (s : State) (p : Nat),
     s.m.clocked = true →
     s.m.pState p = 5 →
     exec (.helloTimeout p) s = .next (s.after fun m => (m.setCause p 11).setPState p 2)) ∧
  (∀ (s : State) (p : Nat),
     s.m.clocked = true →
     s.m.pState p = 6 →
     exec (.digestStateTimeout p) s = .next (s.after fun m => m.quarantine p)) ∧
  (∀ (s : State) (p : Nat) (bs : List Byte),
     s.m.clocked = true →
     exec (.digestFlit p bs) s = .next (s.after fun m => m.digestIn p (slice bs 0 62))) ∧
  (∀ (s : State) (p : Nat),
     s.m.clocked = true →
     s.m.pState p = 11 →
     s.m.reg 0x4010 6 p = 1 →
     s.m.dieActive p = true →
     (s.m.portHall p).drainAct = false →
     exec (.autoRestoreExpiry p) s = .next (s.after fun m => m.setPState p 2))

/-- Enabling a DISABLED port of an active die takes it to DETECT; disabling drains it toward DISABLED with cause 9; a fast
retrain of an ACTIVE port enters RECOVERY, a full retrain drains it toward EQUALISE; a drained port goes to the state
it drained toward, at the bound its unacknowledged frames are treated as on a lost link; a RESTORED port released is
ACTIVE; GENERATE_ROUTES stages the routes that the topology gives. -/
def Obligations.PortCommands : Prop :=
  (∀ (s : State) (w : Src) (p : Nat) (m2 : Mach),
     s.m.clocked = true →
     s.m.admits w 0x4010 2 = true →
     s.m.heard.rowOf w.q 0x4010 2 = p →
     m2 = (s.m.heard.setReg 0x4010 2 p 1).setPortHall p { (s.m.heard.setReg 0x4010 2 p 1).portHall p with drainAct := false } →
     m2.pState p = 1 →
     m2.dieActive p = true →
     m2.offPort p = false →
     exec (.portEnable w) s = .next (s.after fun _ => (m2.setPState p 2).answerWrite w 0x4010 2 0)) ∧
  (∀ (s : State) (w : Src) (p : Nat),
     s.m.clocked = true →
     s.m.admits w 0x4010 2 = true →
     s.m.heard.rowOf w.q 0x4010 2 = p →
     ((s.m.heard.setReg 0x4010 2 p 0).setCause p 9).pState p = 7 →
     exec (.portDisable w) s =
     .next (s.after fun m => (((m.heard.setReg 0x4010 2 p 0).setCause p 9).drainPort p 1).answerWrite w 0x4010 2 0)) ∧
  (∀ (s : State) (w : Src) (p : Nat),
     s.m.clocked = true →
     s.m.admits w 0x4010 4 = true →
     s.m.heard.rowOf w.q 0x4010 4 = p →
     s.m.heard.pState p = 7 →
     exec (.portFastRetrainRequest w) s = .next (s.after fun m => (m.heard.enterRecovery p).answerWrite w 0x4010 4 0)) ∧
  (∀ (s : State) (w : Src) (p : Nat),
     s.m.clocked = true →
     s.m.admits w 0x4010 4 = true →
     s.m.heard.rowOf w.q 0x4010 4 = p →
     s.m.heard.pState p = 7 →
     exec (.portFullRetrainRequest w) s = .next (s.after fun m => (m.heard.drainPort p 3).answerWrite w 0x4010 4 0)) ∧
  (∀ (s : State) (p t : Nat),
     s.m.clocked = true →
     (s.m.port p).drainTo = some t →
     (s.m.port p).unacked = [] →
     exec (.portDrainDone p) s =
     .next (s.after fun m => ((m.setReg 0x4011 2 p 0).setPort p
       { Port.fresh with fromLost := (m.port p).fromLost, signalNoticed := (m.port p).signalNoticed }).setPState p t)) ∧
  (∀ (s : State) (p t : Nat),
     s.m.clocked = true →
     (s.m.port p).drainTo = some t →
     (s.m.port p).suspended = none →
     (s.m.port p).rx = none →
     exec (.portDrainBoundExpiry p) s =
     .next (s.after fun m => ((m.port p).unacked.foldl (fun m x => m.lostFrame p x.frame) m).drained p t)) ∧
  (∀ (s : State) (w : Src) (p : Nat),
     s.m.clocked = true →
     s.m.admits w 0x4010 5 = true →
     s.m.heard.rowOf w.q 0x4010 5 = p →
     s.m.heard.pState p = 9 →
     exec (.portRelease w) s =
     .next (s.after fun m => ((m.heard.setPort p { m.heard.port p with fromLost := false }).setPState p 7).answerWrite w 0x4010 5 0)) ∧
  (∀ (s : State) (w : Src),
     s.m.clocked = true →
     s.m.admits w 0x4100 5 = true →
     exec (.generateRoutes w) s =
     .next (s.after fun m => ((List.range 512).foldl (fun m t =>
         let (src, tr, ok) := if t = m.node then (8, 8, 1)
           else if m.torusNode t then (if m.takesExpress t then 9 else m.dorPort m.node t, m.dorPort m.node t, 1)
           else (15, 15, 0)
         ((m.stagePut w.q 0x4100 2 t (.num src)).stagePut w.q 0x4100 3 t (.num tr)).stagePut w.q 0x4100 4 t (.num ok))
       m.heard).answerWrite w 0x4100 5 0))

/-- A WRITE, WRITE_POSTED, ATOMIC, FENCE, PUBLISH or PUBLISH_FWD frame whose form is its opcode's and that passes the
target's checks, its window not moved, its sequence within the stream's window and not held yet, is held in its
source's stream and what is in turn is applied; so is a POISON_MARK in the stream of the source it stands for. -/
def Obligations.FabricStreams : Prop :=
  (∀ (s : State) (port : Nat) (f : RFrame) (m2 : Mach),
     s.m.clocked = true →
     f.opcode = opWrite →
     RFrameFormOk f = true →
     ((s.m.takeArrived port f).targetCheck f).1 = 0 →
     m2 = ((s.m.takeArrived port f).targetCheck f).2 →
     m2.forwarded f = none →
     (f.sequence + 65536 - (m2.stream (streamKey f.src f.cls)).n) % 65536 < 1024 →
     tget (m2.stream (streamKey f.src f.cls)).held f.sequence = none →
     exec (.frameWrite port f) s =
     .next (s.after fun _ => (m2.setStream (streamKey f.src f.cls) { m2.stream (streamKey f.src f.cls) with
       held := tput (m2.stream (streamKey f.src f.cls)).held f.sequence ⟨f, port, 0, m2.targetDpa f⟩ }).runStream (streamKey f.src f.cls))) ∧
  (∀ (s : State) (port : Nat) (f : RFrame) (m2 : Mach),
     s.m.clocked = true →
     f.opcode = opWritePosted →
     RFrameFormOk f = true →
     ((s.m.takeArrived port f).targetCheck f).1 = 0 →
     m2 = ((s.m.takeArrived port f).targetCheck f).2 →
     m2.forwarded f = none →
     (f.sequence + 65536 - (m2.stream (streamKey f.src f.cls)).n) % 65536 < 1024 →
     tget (m2.stream (streamKey f.src f.cls)).held f.sequence = none →
     exec (.frameWritePosted port f) s =
     .next (s.after fun _ => (m2.setStream (streamKey f.src f.cls) { m2.stream (streamKey f.src f.cls) with
       held := tput (m2.stream (streamKey f.src f.cls)).held f.sequence ⟨f, port, 0, m2.targetDpa f⟩ }).runStream (streamKey f.src f.cls))) ∧
  (∀ (s : State) (port : Nat) (f : RFrame) (m2 : Mach),
     s.m.clocked = true →
     f.opcode = opAtomic →
     RFrameFormOk f = true →
     ((s.m.takeArrived port f).targetCheck f).1 = 0 →
     m2 = ((s.m.takeArrived port f).targetCheck f).2 →
     m2.forwarded f = none →
     (f.sequence + 65536 - (m2.stream (streamKey f.src f.cls)).n) % 65536 < 1024 →
     tget (m2.stream (streamKey f.src f.cls)).held f.sequence = none →
     exec (.frameAtomic port f) s =
     .next (s.after fun _ => (m2.setStream (streamKey f.src f.cls) { m2.stream (streamKey f.src f.cls) with
       held := tput (m2.stream (streamKey f.src f.cls)).held f.sequence ⟨f, port, 0, m2.targetDpa f⟩ }).runStream (streamKey f.src f.cls))) ∧
  (∀ (s : State) (port : Nat) (f : RFrame) (m2 : Mach),
     s.m.clocked = true →
     f.opcode = opFence →
     RFrameFormOk f = true →
     ((s.m.takeArrived port f).targetCheck f).1 = 0 →
     m2 = ((s.m.takeArrived port f).targetCheck f).2 →
     m2.forwarded f = none →
     (f.sequence + 65536 - (m2.stream (streamKey f.src f.cls)).n) % 65536 < 1024 →
     tget (m2.stream (streamKey f.src f.cls)).held f.sequence = none →
     exec (.frameFence port f) s =
     .next (s.after fun _ => (m2.setStream (streamKey f.src f.cls) { m2.stream (streamKey f.src f.cls) with
       held := tput (m2.stream (streamKey f.src f.cls)).held f.sequence ⟨f, port, 0, m2.targetDpa f⟩ }).runStream (streamKey f.src f.cls))) ∧
  (∀ (s : State) (port : Nat) (f : RFrame) (m2 : Mach),
     s.m.clocked = true →
     f.opcode = opPublish →
     RFrameFormOk f = true →
     ((s.m.takeArrived port f).targetCheck f).1 = 0 →
     m2 = ((s.m.takeArrived port f).targetCheck f).2 →
     m2.forwarded f = none →
     (f.sequence + 65536 - (m2.stream (streamKey f.src f.cls)).n) % 65536 < 1024 →
     tget (m2.stream (streamKey f.src f.cls)).held f.sequence = none →
     exec (.framePublish port f) s =
     .next (s.after fun _ => (m2.setStream (streamKey f.src f.cls) { m2.stream (streamKey f.src f.cls) with
       held := tput (m2.stream (streamKey f.src f.cls)).held f.sequence ⟨f, port, 0, m2.targetDpa f⟩ }).runStream (streamKey f.src f.cls))) ∧
  (∀ (s : State) (port : Nat) (f : RFrame) (m2 : Mach),
     s.m.clocked = true →
     f.opcode = opPublishFwd →
     RFrameFormOk f = true →
     ((s.m.takeArrived port f).targetCheck f).1 = 0 →
     m2 = ((s.m.takeArrived port f).targetCheck f).2 →
     m2.forwarded f = none →
     (f.sequence + 65536 - (m2.stream (streamKey f.src f.cls)).n) % 65536 < 1024 →
     tget (m2.stream (streamKey f.src f.cls)).held f.sequence = none →
     exec (.framePublishFwd port f) s =
     .next (s.after fun _ => (m2.setStream (streamKey f.src f.cls) { m2.stream (streamKey f.src f.cls) with
       held := tput (m2.stream (streamKey f.src f.cls)).held f.sequence ⟨f, port, 0, m2.targetDpa f⟩ }).runStream (streamKey f.src f.cls))) ∧
  (∀ (s : State) (port : Nat) (f : RFrame) (m2 : Mach) (src : Nat),
     s.m.clocked = true →
     f.opcode = opPoisonMark →
     RFrameFormOk f = true →
     ((s.m.takeArrived port f).targetCheck f).1 = 0 →
     m2 = ((s.m.takeArrived port f).targetCheck f).2 →
     bits (f.word 5) 8 0 = src →
     bit (f.word 5) 32 = false →
     exec (.framePoisonMark port f) s =
     .next (s.after fun _ => m2.streamArrive (streamKey src 2) (bits (f.word 5) 31 16)
       ⟨{ f with src := src, cls := 2, sequence := bits (f.word 5) 31 16 }, port, 0, m2.targetDpa f⟩))

/-- A READ of one whole line that passes the checks, its window not moved, no host's copy in the way, is answered with the
coherent value. The first response for a TAG ends its request with its status; one for no TAG is counted. A SEQ_ACK
frees the posted writes it covers and lets waiting frames go. A mirror copy is taken and nothing more; an URGENT frame
of an unknown opcode is counted in 0x70D0.0D, any other request is answered INVAL_DESC. -/
def Obligations.FabricFrames : Prop :=
  (∀ (s : State) (port : Nat) (f : RFrame) (m1 m2 : Mach) (bs : List Byte),
     s.m.clocked = true →
     f.opcode = opRead →
     RFrameFormOk f = true →
     (s.m.targetCheck f).1 = 0 →
     m1 = (s.m.targetCheck f).2 →
     m1.forwarded f = none →
     f.nbytes = 64 →
     m1.targetDpa f % 64 = 0 →
     m1.recall (m1.targetDpa f) 64 false = none →
     m2 = (m1.takeArrived port f).accessed (if port < (m1.takeArrived port f).dies then port else (m1.takeArrived port f).homeOf (m1.targetDpa f)) (granuleOfLine (lineOf (m1.targetDpa f))) →
     m2.coherentLine (lineOf (m1.targetDpa f)) = .data bs →
     exec (.frameRead port f) s =
     .next (s.after fun _ => m2.sendFrame (m2.respFrame f 0 0 0 (slice (slice bs 0 64) 0 64)))) ∧
  (∀ (s : State) (port : Nat) (f : RFrame) (r : OutReq),
     s.m.clocked = true →
     f.opcode = opResp →
     RFrameFormOk f = true →
     tget (s.m.takeArrived port f).fab.reqs f.tag = some r →
     f.status ≠ stRedirect →
     f.status ≠ stTargetDead →
     exec (.frameResp port f) s =
     .next (s.after fun m => (m.takeArrived port f).endReq f.tag f.status (f.word 6 ≠ 0) f.payload)) ∧
  (∀ (s : State) (port : Nat) (f : RFrame),
     s.m.clocked = true →
     f.opcode = opResp →
     RFrameFormOk f = true →
     tget (s.m.takeArrived port f).fab.reqs f.tag = none →
     f.status ≠ stRedirect →
     exec (.frameResp port f) s = .next (s.after fun m => (m.takeArrived port f).bump 0x7060 3)) ∧
  (∀ (s : State) (port : Nat) (f : RFrame),
     s.m.clocked = true →
     f.opcode = opSeqAck →
     RFrameFormOk f = true →
     bit (f.word 5) 16 = true →
     exec (.frameSeqAck port f) s =
     .next (s.after fun m =>
       let h := m.takeArrived port f
       ({ h with fab := { h.fab with
         ackSeq := tput h.fab.ackSeq (streamKey f.src 3) (f.word 5 % 65536)
         retained := h.fab.retained.filter fun r => !(r.frame.dst == f.src && r.frame.cls == 3 &&
           decide ((f.word 5 % 65536 + 65535 - r.frame.sequence) % 65536 < 32768)) } } : Mach).releaseUnsent.epochCheck)) ∧
  (∀ (s : State) (port : Nat) (f : RFrame),
     s.m.clocked = true →
     f.opcode = opMirrorCopy →
     RFrameFormOk f = true →
     exec (.frameMirrorCopy port f) s = .next (s.after fun m => m.takeArrived port f)) ∧
  (∀ (s : State) (port : Nat) (f : RFrame),
     s.m.clocked = true →
     exec (.frameUnknownOpcode port f) s =
     .next (s.after fun m =>
       if 0xC4 ≤ f.opcode ∧ f.opcode ≤ 0xDF then (m.takeArrived port f).bump 0x70D0 0x0D
       else if f.cls = 2 then (m.takeArrived port f).sendFrame ((m.takeArrived port f).respFrame f stInvalDesc 0 0 [])
       else (m.takeArrived port f).bump 0x7060 0x0F))

/-- The gap bound declares the missing sequence lost and the stream goes on. SEQ_ACKs are sent for streams whose N moved.
A BULK write not covered is sent again up to the limit. A request without response ends with TIMEOUT; requests of a
draining epoch end with MAPSTALE at its bound. A write of E + 1 starts a new epoch and drains the old one. Clearing a
dead node unmarks it, a job torn down ends its commands, a key bump raises the region's generation. -/
def Obligations.FabricBounds : Prop :=
  (∀ (s : State) (src : Nat) (bulk : Bool),
     s.m.clocked = true →
     (s.m.stream (src * 2 + b2n bulk)).held ≠ [] →
     tget (s.m.stream (src * 2 + b2n bulk)).held (s.m.stream (src * 2 + b2n bulk)).n = none →
     exec (.gapBoundExpiry src bulk) s =
     .next (s.after fun m => (((m.setSource src { m.source src with lost := true }).bump 0x7060 6).advance (src * 2 + b2n bulk)).runStream
       (src * 2 + b2n bulk))) ∧
  (∀ (s : State),
     s.m.clocked = true →
     exec .seqAckIntervalExpiry s =
     .next (s.after fun m => (m.fab.streams.filter fun p => 0 < p.2.since).foldl (fun m p => m.sendSeqAck p.1) m)) ∧
  (∀ (s : State) (dst sequence : Nat) (r : Retained),
     s.m.clocked = true →
     s.m.fab.retained.find? (fun r => r.frame.dst == dst && r.frame.cls == 3 && r.frame.sequence == sequence) = some r →
     r.resends < s.m.reg 0x4200 3 0 →
     exec (.bulkRetransmitExpiry dst sequence) s =
     .next (s.after fun m => (({ m with fab := { m.fab with retained := m.fab.retained.map fun x =>
       if x = r then { x with resends := x.resends + 1 } else x } } : Mach).bump 0x7060 7).sendFrame r.frame)) ∧
  (∀ (s : State) (tag : Nat) (r : OutReq),
     s.m.clocked = true →
     tget s.m.fab.reqs tag = some r →
     r.frame.opcode ≠ opColl →
     exec (.responseBoundExpiry tag) s = .next (s.after fun m => m.endReq tag stTimeout false [])) ∧
  (∀ (s : State) (tags : List Nat) (posted : List Retained),
     s.m.clocked = true →
     s.m.reg 0x4480 4 0 = 1 →
     ((s.m.fab.reqs.filter fun p => p.2.frame.epoch == (s.m.epoch + 255) % 256 && p.2.frame.opcode != opColl).map Prod.fst) = tags →
     ((s.m.fab.retained ++ s.m.fab.unsent).filter fun r => r.frame.opcode == opWritePosted && r.frame.epoch == (s.m.epoch + 255) % 256) = posted →
     exec .retireBoundExpiry s =
     .next (s.after fun m => ((tags.foldl (fun m t => m.endReq t stMapStale false []) (m.bumpBy 0x7060 4 0
       (tags.length + posted.length))).dropPosted stMapStale fun r => r.frame.epoch == (m.epoch + 255) % 256).epochCheck)) ∧
  (∀ (s : State) (w : Src) (region : Nat),
     s.m.clocked = true →
     s.m.admits w 0x4400 8 = true →
     region < 65536 →
     exec (.regionKeyBump w region) s =
     .next (s.after fun m => ((((m.heard.setReg 0x4400 5 region ((m.heard.reg 0x4400 5 region + 1) % 65536)).nextGen 0x4400 9).auditReq w.q
       0x0032 (leBytes 4 region)).answerWrite w 0x4400 8 0))) ∧
  (∀ (s : State) (w : Src) (v : Nat),
     s.m.clocked = true →
     s.m.admits w 0x4480 1 = true →
     v = (s.m.heard.epoch + 1) % 256 →
     s.m.heard.reg 0x4480 4 0 ≠ 1 →
     exec (.epochWrite w v) s =
     .next (s.after fun m => (((((m.heard.setReg 0x4480 1 0 v).setReg 0x4480 4 0 1).setReg 0x4480 5 0 m.heard.now).epochCheck).answerWrite w 0x4480 1 0))) ∧
  (∀ (s : State) (w : Src) (node : Nat),
     s.m.clocked = true →
     s.m.admits w 0x4520 3 = true →
     node < 512 →
     exec (.clearDeadNode w node) s =
     .next (s.after fun m =>
       let n := (m.heard.setReg 0x4520 2 node 0).setOct 0x4502 1 0 (setMaskBit (m.heard.oct 0x4502 1 0) node false)
       ({ n with hall := { n.hall with lostLinks := n.hall.lostLinks.filter fun x => x.1 ≠ node } } : Mach).answerWrite w 0x4520 3 0)) ∧
  (∀ (s : State) (w : Src) (job : Nat),
     s.m.clocked = true →
     s.m.admits w 0x4521 1 = true →
     job < 4096 →
     exec (.jobTeardown w job) s =
     .next (s.after fun m => ((m.heard.tearDown job).auditReq w.q 0x0032 (leBytes 2 job)).answerWrite w 0x4521 1 0))

/-- A relocation of a valid window that no relocation holds and that is neither moving nor moved starts its bulk copy; a
copy done with little left dirty goes on to the final pass, with more to another pass, and after eight passes it
fails; the final pass done, the window is FORWARDED to its new place and the requests it held go on; a final pass that
takes too long fails with TIMEOUT; a copy that failed ends it with its status. -/
def Obligations.Relocations : Prop :=
  (∀ (s : State) (w : Src) (k : Nat),
     s.m.clocked = true →
     s.m.admits w 0x4481 1 = true →
     k < 4096 →
     s.m.heard.reg 0x4410 6 k ≠ 0 →
     s.m.fab.reloc = none →
     s.m.heard.reg 0x4411 1 k = 0 →
     s.m.heard.reg 0x4481 2 0 ≠ s.m.heard.node →
     exec (.relocateWindow w k) s =
     .next (s.after fun m =>
       let n := { m.heard with fab := { m.heard.fab with reloc := some ⟨k, 0, [], [], 0, 0, 0⟩ } }
       let n := ((n.setReg 0x4411 1 k 1).setReg 0x4481 7 0 1).setReg 0x4481 6 0 0
       ((Mach.relocPump 512 n).auditReq w.q 0x0032 (leBytes 2 k ++ leBytes 2 (m.heard.reg 0x4481 2 0) ++
         leBytes 2 (m.heard.reg 0x4481 3 0))).answerWrite w 0x4481 1 0)) ∧
  (∀ (s : State) (r : Relocation),
     s.m.clocked = true →
     s.m.fab.reloc = some r →
     s.m.reg 0x4481 7 0 ≠ 3 →
     r.failed = 0 →
     r.outstanding = 0 →
     r.todo = [] →
     s.m.reg 0x4410 3 r.window ≤ r.next →
     r.dirty.length ≤ 262144 →
     exec .relocationCopyDone s = .next (s.after fun m => m.relocPass 3)) ∧
  (∀ (s : State) (r : Relocation),
     s.m.clocked = true →
     s.m.fab.reloc = some r →
     s.m.reg 0x4481 7 0 ≠ 3 →
     r.failed = 0 →
     r.outstanding = 0 →
     r.todo = [] →
     s.m.reg 0x4410 3 r.window ≤ r.next →
     262144 < r.dirty.length →
     exec .relocationCopyDone s =
     .next (s.after fun m => if 8 ≤ r.passes then m.relocEnd 5 stTimeout else m.relocPass 2)) ∧
  (∀ (s : State) (r : Relocation),
     s.m.clocked = true →
     s.m.fab.reloc = some r →
     s.m.reg 0x4481 7 0 = 3 →
     r.failed = 0 →
     r.outstanding = 0 →
     r.todo = [] →
     exec .relocationFinalPassDone s =
     .next (s.after fun m =>
       let n := { m with fab := { m.fab with reloc := none } }
       let n := ((n.setReg 0x4411 1 r.window 2).setReg 0x4411 2 r.window (n.reg 0x4481 2 0)).setReg 0x4411 3 r.window (n.reg 0x4481 3 0)
       (((n.setReg 0x4481 7 0 4).setReg 0x4481 6 0 1000).notice 0x8060 (leBytes 2 r.window ++ leBytes 2 0)).runStreams)) ∧
  (∀ (s : State),
     s.m.clocked = true →
     s.m.reg 0x4481 7 0 = 3 →
     exec .relocationHoldBoundExpiry s = .next (s.after fun m => m.relocEnd 5 stTimeout))

/-- Enabling a DISABLED queue whose rings are sized, aligned and granted starts it with its pointer block initialised;
disabling an idle one frees it; a RUNNING queue stops; a stopped one whose rings are granted runs again; the doorbell
register rings. The next posted descriptor fetched, its header is checked and it waits as a head. CQ_HEAD re-read and
in range is taken. Failed heads whose record can be written end first and last (endFailed). -/
def Obligations.QueueControl : Prop :=
  (∀ (s : State) (w : Src) (q : Nat),
     s.m.clocked = true →
     s.m.admits w 0x5401 0x0F = true →
     s.m.rowOf w.q 0x5401 0x0F = q →
     s.m.heard.rowOf w.q 0x5401 0x0F = q →
     s.m.recall (s.m.reg 0x5401 0x0A q) 24 true = none →
     s.m.heard.qState q = 0 →
     s.m.heard.ringsOk q = true →
     exec (.queueEnable w) s =
     .next (s.after fun m => ((m.heard.setReg 0x5401 0x0F q 1).startQueue q).answerWrite w 0x5401 0x0F 0)) ∧
  (∀ (s : State) (w : Src) (q : Nat),
     s.m.clocked = true →
     s.m.admits w 0x5401 0x0F = true →
     s.m.heard.rowOf w.q 0x5401 0x0F = q →
     s.m.heard.qState q = 1 →
     s.m.heard.inFlight q = [] →
     exec (.queueDisable w) s =
     .next (s.after fun m => (((m.heard.setReg 0x5401 0x0F q 0).setQState q 0).setQueue q Queue.fresh).answerWrite w 0x5401 0x0F 0)) ∧
  (∀ (s : State) (w : Src) (q : Nat),
     s.m.clocked = true →
     s.m.admits w 0x5402 2 = true →
     s.m.heard.ownQueue w q = true →
     q < 512 * s.m.dies →
     s.m.heard.qState q = 1 →
     exec (.queueStop w q) s = .next (s.after fun m => (m.heard.setQState q 2).answerWrite w 0x5402 2 0)) ∧
  (∀ (s : State) (w : Src) (q : Nat),
     s.m.clocked = true →
     s.m.admits w 0x5402 1 = true →
     s.m.heard.ownQueue w q = true →
     q < 512 * s.m.dies →
     s.m.heard.qState q = 3 →
     s.m.heard.ringsGranted q = true →
     exec (.queueRestart w q) s = .next (s.after fun m => (m.heard.setQState q 1).answerWrite w 0x5402 1 0)) ∧
  (∀ (s : State) (w : Src) (v : Nat),
     s.m.clocked = true →
     s.m.admits w 0x5402 3 = true →
     v < 2 ^ 28 →
     bits v 27 16 < 512 * s.m.dies →
     s.m.heard.dieState (queueDie (bits v 27 16)) = 1 →
     exec (.ringDoorbellRegister w v) s =
     .next (s.after fun m => (m.heard.doorbell (bits v 27 16) (v % 65536)).answerWrite w 0x5402 3 0)) ∧
  (∀ (s : State) (q : Nat) (d : List Byte) (m2 : Mach),
     s.m.clocked = true →
     (s.m.queue q).heads = [] →
     s.m.qState q = 1 →
     s.m.dieTakes (queueDie q) = true →
     (s.m.queue q).sqHead ≠ (s.m.queue q).tail →
     s.m.recall (s.m.reg 0x5401 6 q + 64 * (s.m.queue q).sqHead) 64 false = none →
     s.m.recall (s.m.reg 0x5401 0x0A q) 4 true = none →
     (s.m.loadDpa (queueDie q) (s.m.reg 0x5401 6 q + 64 * (s.m.queue q).sqHead) 64).1 = .ok d →
     m2 = (s.m.loadDpa (queueDie q) (s.m.reg 0x5401 6 q + 64 * (s.m.queue q).sqHead) 64).2 →
     exec (.descriptorFetchDone q) s =
     .next (s.after fun m => Mach.endFailed 65536 ((m2.setQueue q { m2.queue q with
       sqHead := ((m.queue q).sqHead + 1) % m2.sqSize q
       heads := (m2.queue q).heads ++ [⟨(m.queue q).sqHead, d, m2.now, !descFlag d 0 || m2.reached (fld d 2 2) (fld d 4 4),
         m2.headerFail q d⟩] }).writeSqHead q) q)) ∧
  (∀ (s : State) (q : Nat) (bs : List Byte) (m2 : Mach),
     s.m.clocked = true →
     s.m.qState q = 1 →
     s.m.recall (s.m.reg 0x5401 0x0A q + 8) 4 false = none →
     (s.m.loadDpa (queueDie q) (s.m.reg 0x5401 0x0A q + 8) 4).1 = .ok bs →
     m2 = (s.m.loadDpa (queueDie q) (s.m.reg 0x5401 0x0A q + 8) 4).2 →
     leNat bs < m2.cqSize q →
     ((m2.queue q).cqTail + m2.cqSize q - leNat bs) % m2.cqSize q ≤ ((m2.queue q).cqTail + m2.cqSize q - (m2.queue q).cqHead) % m2.cqSize q →
     exec (.cqHeadReadDone q) s =
       .next (s.after fun _ => Mach.endFailed 65536 (m2.setQueue q { m2.queue q with cqHead := leNat bs }) q) ∧
     exec (.cqHeadPollExpiry q) s =
       .next (s.after fun _ => Mach.endFailed 65536 (m2.setQueue q { m2.queue q with cqHead := leNat bs }) q))

/-- The scheduler of a die that takes commands admits the head it chooses into the lowest free slot, counted and traced. A
flush read done is one less to wait for. A command whose work is over, whose writes are visible and whose host and
fabric writes are answered ends: its engines are released, its record is written and what follows it happens. The
coalescing time over, a held interrupt is raised. A command past its bound without an engine ends with TIMEOUT. -/
def Obligations.CommandLife : Prop :=
  (∀ (s : State) (die q k : Nat) (h : Head) (m1 : Mach),
     s.m.clocked = true →
     m1 = ((tkeys s.m.sched.queues).filter fun q => queueDie q == die).foldl (fun m q => Mach.endFailed 65536 m q) s.m →
     m1.dieTakes die = true →
     m1.reg 0x2200 3 0 = 1 →
     m1.chooseHead die = some (q, h, false) →
     m1.freeSlot die = some k →
     m1.confState = 0 →
     needsEng (descOp h.desc) = false →
     m1.confBarred q h.desc = false →
     exec (.commandAdmit die) s =
     .next (s.after fun _ =>
       let n := m1.setQueue q { m1.queue q with heads := ((m1.queue q).heads.erase h).map fun x => { x with readyAt := max x.readyAt m1.now } }
       let n := { n with sched := { n.sched with rr := tput n.sched.rr (die * 8 + n.reg 0x5401 5 q) ((q + 1) % 512) } }
       let c := { Cmd.fresh q h.index h.desc n.sched.nextOrder
         (if descOp h.desc = 0x50 ∧ fld h.desc 18 1 = 2 then n.ownerSlots q else []) with progress := n.now }
       let n := { n with sched := { n.sched with nextOrder := n.sched.nextOrder + 1 } }
       (((n.setCmd k c).bump 0x7070 1).event 2 q).trace 0 die (leBytes 2 q ++ [byteOf (descOp h.desc), 0, 0, 0]))) ∧
  (∀ (s : State) (slot path : Nat) (c : Cmd),
     s.m.clocked = true →
     s.m.cmd? slot = some c →
     c.flushOut.contains path = true →
     exec (.hostFlushReadDone slot path true) s = .next (s.after fun m => m.setCmd slot { c with flushOut := c.flushOut.erase path })) ∧
  (∀ (s : State) (slot path : Nat) (c : Cmd),
     s.m.clocked = true →
     s.m.cmd? slot = some c →
     c.flushOut.contains path = true →
     exec (.hostFlushReadDone slot path false) s =
     .next (s.after fun m => (m.setCmd slot { c with flushOut := c.flushOut.erase path }).noteFail slot stBusErr)) ∧
  (∀ (s : State) (slot : Nat) (c : Cmd) (m1 m2 : Mach),
     s.m.clocked = true →
     s.m.cmd? slot = some c →
     c.done = true →
     c.fabricDests = [] →
     m1 = (s.m.stopCrags slot).sendFlushes slot →
     m1.cragsSettled slot = true →
     m1.writesPending slot = false →
     m1.cmd? slot = some c →
     c.flushOut = [] →
     c.fabricOut = 0 →
     (m1.xl.migrations.any (·.slot == slot)) = false →
     (m1.releaseLock slot).1 = true →
     m2 = (m1.releaseLock slot).2 →
     m2.recordBlocked c.queue = none →
     exec (.commandEnd slot) s =
     .next (s.after fun _ => (((match endedCounter (descOp c.desc) with | some e => m2.bump e.1 e.2 | none => m2).enginesGone slot).endSlot
       slot).teardownCheck)) ∧
  (∀ (s : State) (q : Nat),
     s.m.clocked = true →
     (s.m.queue q).coalescing = true →
     exec (.coalescingExpiry q) s =
     .next (s.after fun m => if (m.queue q).raisePending then (m.raiseVector q).setQueue q { m.queue q with raisePending := false }
       else m.setQueue q { m.queue q with coalescing := false })) ∧
  (∀ (s : State) (slot : Nat) (c : Cmd),
     s.m.clocked = true →
     s.m.cmd? slot = some c →
     c.done = false →
     descOp c.desc = 0x20 →
     s.m.timeBound c.desc ≠ 0 →
     s.m.talus? slot = none →
     exec (.commandTimeBoundExpiry slot) s = .next (s.after fun m => m.failCmd slot stTimeout))

/-- A SIGNAL sets its event or adds to it and is done. A WAIT of kind EVENT is done once its event is reached; one of kind
MEMORY reads its word at admission and at each poll; a WAIT's timeout fails it, counted. A FENCE of kind QUEUE is
done; of kind ACQUIRE retires what Talus and Cirque keep of the AST; of kind OWNER is done once the commands it waits
for have ended, or fails at its timeout. A write of 0x5410.04 sets the event. -/
def Obligations.EventsAndFences : Prop :=
  (∀ (s : State) (w : Src) (v : Nat),
     s.m.clocked = true →
     s.m.admits w 0x5410 4 = true →
     exec (.eventCountWrite w v) s =
     .next (s.after fun m => (m.heard.setEvent (m.heard.rowOf w.q 0x5410 4) v).answerWrite w 0x5410 4 0)) ∧
  (∀ (s : State) (slot : Nat) (c : Cmd),
     s.m.clocked = true →
     s.m.cmd? slot = some c →
     descOp c.desc = 0x51 →
     c.done = false →
     s.m.eventOk (s.m.qOwner c.queue) (fld c.desc 16 2) = true →
     fld c.desc 18 1 ≤ 1 →
     fld c.desc 19 1 = 0 →
     allZero (slice c.desc 24 40) = true →
     exec (.signal slot) s =
     .next (s.after fun m => (m.setEvent (fld c.desc 16 2) (if fld c.desc 18 1 = 1 then fld c.desc 20 4
       else m.eventCount (fld c.desc 16 2) + fld c.desc 20 4)).finish slot 0 0)) ∧
  (∀ (s : State) (slot : Nat) (c : Cmd),
     s.m.clocked = true →
     s.m.cmd? slot = some c →
     descOp c.desc = 0x52 →
     fld c.desc 18 1 ≠ 1 →
     c.done = false →
     s.m.waitFail c = 0 →
     s.m.reached (fld c.desc 24 2) (fld c.desc 32 4) = true →
     exec (.waitEvent slot) s = .next (s.after fun m => m.finish slot 0 0)) ∧
  (∀ (s : State) (slot : Nat) (c : Cmd) (dpa span : Nat) (bs : List Byte) (m1 m2 : Mach),
     s.m.clocked = true →
     s.m.cmd? slot = some c →
     descOp c.desc = 0x52 →
     fld c.desc 18 1 = 1 →
     c.done = false →
     c.started = false →
     s.m.waitFail c = 0 →
     (s.m.xlate (slotDie slot) engOther (fld c.desc 16 2) (fld c.desc 24 8) .read).1 = .local dpa span →
     m1 = (s.m.xlate (slotDie slot) engOther (fld c.desc 16 2) (fld c.desc 24 8) .read).2 →
     (m1.loadDva slot engOther (fld c.desc 16 2) (fld c.desc 24 8) 8).1 = .ok bs →
     m2 = (m1.loadDva slot engOther (fld c.desc 16 2) (fld c.desc 24 8) 8).2 →
     waitHolds c.desc (leNat bs) = true →
     exec (.waitMemory slot) s =
     .next (s.after fun _ => ({ m2 with xl := { m2.xl with fetches := m2.xl.fetches.filter fun f => f.slot ≠ slot } } : Mach).finish slot 0 0)) ∧
  (∀ (s : State) (slot : Nat) (c : Cmd),
     s.m.clocked = true →
     s.m.cmd? slot = some c →
     memoryWait c.desc = true →
     c.done = false →
     c.started = true →
     exec (.waitPollExpiry slot) s = .next (s.after fun m => m.pollWait slot c)) ∧
  (∀ (s : State) (slot : Nat) (c : Cmd),
     s.m.clocked = true →
     s.m.cmd? slot = some c →
     descOp c.desc = 0x52 →
     fld c.desc 48 4 ≠ 0 →
     c.done = false →
     exec (.waitTimeout slot) s = .next (s.after fun m => (m.bump 0x7070 4).failCmd slot stTimeout)) ∧
  (∀ (s : State) (slot : Nat) (c : Cmd),
     s.m.clocked = true →
     s.m.cmd? slot = some c →
     descOp c.desc = 0x50 →
     fld c.desc 18 1 = 0 →
     c.done = false →
     s.m.fenceFail c = 0 →
     exec (.fenceQueue slot) s = .next (s.after fun m => m.finish slot 0 0)) ∧
  (∀ (s : State) (slot : Nat) (c : Cmd),
     s.m.clocked = true →
     s.m.cmd? slot = some c →
     descOp c.desc = 0x50 →
     fld c.desc 18 1 = 1 →
     c.done = false →
     s.m.fenceFail c = 0 →
     s.m.eng.talus.sets = [] →
     (s.m.freeSets fun s => (s.ast == fld c.desc 16 2 && !s.retired) && s.user.isNone) = s.m →
     s.m.setSets [] = s.m →
     exec (.fenceAcquire slot) s =
     .next (s.after fun m => (((m.bumpBy 0x70C0 3 0 0).bump 0x70C0 2).dropStructs (·.ast == fld c.desc 16 2)).finish slot 0
       ((m.eng.cirque.cache.filter (·.ast == fld c.desc 16 2)).length * 2 ^ 32))) ∧
  (∀ (s : State) (slot : Nat) (c : Cmd),
     s.m.clocked = true →
     s.m.cmd? slot = some c →
     descOp c.desc = 0x50 →
     fld c.desc 18 1 = 2 →
     c.done = false →
     s.m.fenceFail c = 0 →
     c.waitsFor = [] →
     exec (.fenceOwner slot) s = .next (s.after fun m => m.finish slot 0 0)) ∧
  (∀ (s : State) (slot : Nat) (c : Cmd),
     s.m.clocked = true →
     s.m.cmd? slot = some c →
     descOp c.desc = 0x50 →
     fld c.desc 18 1 = 2 →
     c.done = false →
     s.m.fenceFail c = 0 →
     c.waitsFor ≠ [] →
     exec (.fenceOwnerTimeout slot) s = .next (s.after fun m => (m.bump 0x70C0 5).failCmd slot stTimeout))

/-- A request in back-off presents itself again at its interval. A request that waits past the report level raises notice
0x8072, once, and the greatest wait is kept (the wait itself is a free value). A bank that holds a grant and moves no
beat is bitten: its queue is cleared, what it served ends with BANKHANG, counted, notice 0x8071, and it resets; the
reset done, its bytes are 0 and it grants again. -/
def Obligations.BankArbiters : Prop :=
  (∀ (s : State) (die crag bank input : Nat) (r : BankReq),
     s.m.clocked = true →
     (s.m.bank (bankKey die crag bank)).backing.find? (·.input == input) = some r →
     exec (.passBackoffExpiry die crag bank input) s =
     .next (s.after fun m => (m.setBank (bankKey die crag bank) { m.bank (bankKey die crag bank) with
       backing := (m.bank (bankKey die crag bank)).backing.erase r }).presentBank (bankKey die crag bank) r)) ∧
  (∀ (s : State) (die crag bank input : Nat),
     s.m.clocked = true →
     (s.m.bank (bankKey die crag bank)).starved = false →
     ((s.m.bank (bankKey die crag bank)).parked ++ (s.m.bank (bankKey die crag bank)).stalled ++ (s.m.bank (bankKey die crag bank)).backing).any (·.input == input) = true →
     exec (.starvationReport die crag bank input) s =
     .next (s.after fun m =>
       ((((m.fresh (2 ^ 32)).2.setReg 0x7070 9 0 (max (m.fresh (2 ^ 32)).1 ((m.fresh (2 ^ 32)).2.reg 0x7070 9 0))).tracePass
         (bankKey die crag bank) input 2).setBank (bankKey die crag bank) { m.bank (bankKey die crag bank) with starved := true }).notice
         0x8072 [byteOf die, byteOf crag, byteOf bank, byteOf input])) ∧
  (∀ (s : State) (die crag bank : Nat) (h : BankReq),
     s.m.clocked = true →
     (s.m.bank (bankKey die crag bank)).holder = some h →
     exec (.bankWatchdogBite die crag bank) s =
     .next (s.after fun m =>
       let k := bankKey die crag bank
       (((((h :: (m.bank k).parked).foldl (fun m r => m.bankHang k r) (m.setBank k { m.bank k with
         holder := none, parked := [], resetting := true })).bump 0x7070 0x0B).tracePass k h.input 1).notice 0x8071
         [byteOf die, byteOf crag, byteOf bank, byteOf h.input]))) ∧
  (∀ (s : State) (die crag bank : Nat),
     s.m.clocked = true →
     (s.m.bank (bankKey die crag bank)).resetting = true →
     exec (.bankResetDone die crag bank) s =
     .next (s.after fun m =>
       ((m.setCrag (cragKey die crag) { m.crag (cragKey die crag) with
           scratch := Memory.clear (m.crag (cragKey die crag)).scratch (bank * 131072) ((bank + 1) * 131072) }).setBank
         (bankKey die crag bank) { m.bank (bankKey die crag bank) with resetting := false }).nextBank (bankKey die crag bank)))

/-- An ATOMIC on a LOCAL word with NORESULT is applied at the word's home and done. A PUBLISH with valid fields and ranges
asks for a channel. A COLLECTIVE of a ready group reads its source; in a group of one it copies it to its destination,
in a larger one it takes a TAG and begins. A COLL frame of the group's epoch joins the running COLLECTIVE. A
management request that is not a request of a session is served as sealed; a response ends the relay it answers. -/
def Obligations.AcrossDevices : Prop :=
  (∀ (s : State) (slot : Nat) (c : Cmd) (dpa span old : Nat) (m1 m2 : Mach),
     s.m.clocked = true →
     s.m.cmd? slot = some c →
     descOp c.desc = 0x42 →
     c.done = false →
     s.m.astOk c.queue (fld c.desc 16 2) = true →
     atomicOk c.desc = true →
     bit (fld c.desc 19 1) 0 = true →
     fld c.desc 18 1 ≠ 0x24 →
     (s.m.xlate (slotDie slot) engOther (fld c.desc 16 2) (fld c.desc 24 8) .atomic).1 = .local dpa span →
     m1 = (s.m.xlate (slotDie slot) engOther (fld c.desc 16 2) (fld c.desc 24 8) .atomic).2 →
     m1.recall dpa (atomicWidth (fld c.desc 18 1)) true = none →
     (m1.atomicAt (m1.homeOf dpa) dpa (fld c.desc 18 1) (fld (leBytes 16 (fld c.desc 40 8) ++ leBytes 16 (fld c.desc 48 8)) 0 16) (fld (leBytes 16 (fld c.desc 40 8) ++ leBytes 16 (fld c.desc 48 8)) 16 16) (.cmd slot)).1.toOption = some old →
     m2 = (m1.atomicAt (m1.homeOf dpa) dpa (fld c.desc 18 1) (fld (leBytes 16 (fld c.desc 40 8) ++ leBytes 16 (fld c.desc 48 8)) 0 16) (fld (leBytes 16 (fld c.desc 40 8) ++ leBytes 16 (fld c.desc 48 8)) 16 16) (.cmd slot)).2 →
     exec (.atomic slot) s = .next (s.after fun _ => m2.finish slot 0 0)) ∧
  (∀ (s : State) (slot : Nat) (c : Cmd) (bs cs : List Byte) (m1 m2 : Mach),
     s.m.clocked = true →
     s.m.cmd? slot = some c →
     descOp c.desc = 0x43 →
     c.done = false →
     s.m.astOk c.queue (fld c.desc 16 2) = true →
     publishOk c.desc = true →
     s.m.chanOf slot = none →
     (s.m.localReady (slotDie slot) engOther (fld c.desc 16 2) (fld c.desc 24 8) (fld c.desc 40 8) .read).1 = .ok bs →
     m1 = (s.m.localReady (slotDie slot) engOther (fld c.desc 16 2) (fld c.desc 24 8) (fld c.desc 40 8) .read).2 →
     (Mach.memberRange (fld c.desc 40 8 / 65536 + 4) m1 (slotDie slot) (fld c.desc 16 2) (fld c.desc 32 8) (fld c.desc 40 8)).1 = .ok cs →
     m2 = (Mach.memberRange (fld c.desc 40 8 / 65536 + 4) m1 (slotDie slot) (fld c.desc 16 2) (fld c.desc 32 8) (fld c.desc 40 8)).2 →
     exec (.publish slot) s = .next (s.after fun _ => m2.askChan slot 0xFF)) ∧
  (∀ (s : State) (slot : Nat) (c : Cmd) (bs src : List Byte) (m1 m2 : Mach),
     s.m.clocked = true →
     s.m.cmd? slot = some c →
     descOp c.desc = 0x60 →
     c.done = false →
     s.m.hall.colls = [] →
     s.m.astOk c.queue (fld c.desc 16 2) = true →
     fld c.desc 22 2 < 1024 →
     s.m.groupMembers (fld c.desc 22 2) = [s.m.node] →
     s.m.ownBlock (fld c.desc 22 2) = some 0 →
     collFail c.desc 1 = 0 →
     s.m.reg 0x4510 0x0A (fld c.desc 22 2) = 1 →
     fld c.desc 18 1 ≠ 3 →
     (s.m.localReady (slotDie slot) engOther (fld c.desc 16 2) (fld c.desc 32 8) (collSpans c.desc 1).2 .write).1 = .ok bs →
     m1 = (s.m.localReady (slotDie slot) engOther (fld c.desc 16 2) (fld c.desc 32 8) (collSpans c.desc 1).2 .write).2 →
     (m1.loadLocal slot (slotDie slot) engOther (fld c.desc 16 2) (fld c.desc 24 8) (collSpans c.desc 1).1).1 = .ok src →
     m2 = (m1.loadLocal slot (slotDie slot) engOther (fld c.desc 16 2) (fld c.desc 24 8) (collSpans c.desc 1).1).2 →
     exec (.collective slot) s =
     .next (s.after fun _ => (m2.storeDva slot engOther (fld c.desc 16 2) (fld c.desc 32 8) src).finish slot 0 0)) ∧
  (∀ (s : State) (slot p tag : Nat) (c : Cmd) (bs src : List Byte) (m1 m2 : Mach),
     s.m.clocked = true →
     s.m.cmd? slot = some c →
     descOp c.desc = 0x60 →
     c.done = false →
     s.m.hall.colls = [] →
     s.m.astOk c.queue (fld c.desc 16 2) = true →
     fld c.desc 22 2 < 1024 →
     (s.m.groupMembers (fld c.desc 22 2)).length = p →
     1 < p →
     (s.m.ownBlock (fld c.desc 22 2)).isSome = true →
     collFail c.desc p = 0 →
     s.m.reg 0x4510 0x0A (fld c.desc 22 2) = 1 →
     fld c.desc 18 1 ≠ 3 →
     (s.m.localReady (slotDie slot) engOther (fld c.desc 16 2) (fld c.desc 32 8) (collSpans c.desc p).2 .write).1 = .ok bs →
     m1 = (s.m.localReady (slotDie slot) engOther (fld c.desc 16 2) (fld c.desc 32 8) (collSpans c.desc p).2 .write).2 →
     (m1.loadLocal slot (slotDie slot) engOther (fld c.desc 16 2) (fld c.desc 24 8) (collSpans c.desc p).1).1 = .ok src →
     m2 = (m1.loadLocal slot (slotDie slot) engOther (fld c.desc 16 2) (fld c.desc 24 8) (collSpans c.desc p).1).2 →
     m2.newTag (slotDie slot) false = some tag →
     exec (.collective slot) s = .next (s.after fun _ => m2.collBegin slot (fld c.desc 22 2) tag c.desc src)) ∧
  (∀ (s : State) (port : Nat) (f : RFrame) (c : Coll) (m1 : Mach),
     s.m.clocked = true →
     f.opcode = opColl →
     RFrameFormOk f = true →
     (s.m.keyCheck f).1 = 0 →
     m1 = (s.m.keyCheck f).2 →
     bits (f.word 5) 23 16 = m1.reg 0x4510 9 (f.word 5 % 65536) →
     (m1.ownBlock (f.word 5 % 65536)).isSome = true →
     m1.hall.colls.find? (·.group == f.word 5 % 65536) = some c →
     exec (.frameColl port f) s =
     .next (s.after fun _ => (m1.takeArrived port f).collWork { c with inbox := c.inbox ++
       [⟨bits (f.word 5) 33 32, bits (f.word 5) 31 24, bits (f.word 7) 51 36, f.word 7 % 2 ^ 36,
         elemsOf (c.wire (bits (f.word 5) 33 32)) (f.nbytes / c.wire (bits (f.word 5) 33 32)) f.payload⟩] })) ∧
  (∀ (s : State) (port : Nat) (f : RFrame) (n : Nat) (k : Nat),
     s.m.clocked = true →
     mgmtFormOk f 0xE0 2 = true →
     exec (.frameMgmtReq port f (.secured n (.noticeAck k))) s =
     .next (s.after fun m => if (m.takeArrived port f).sessionOf (.ridgeline f.src) n then (m.takeArrived port f).rowNoticeAck n k
       else (m.takeArrived port f).discardFrame)) ∧
  (∀ (s : State) (port address txn : Nat) (f : RFrame) (r : OutReq),
     s.m.clocked = true →
     mgmtFormOk f 0xE1 1 = true →
     tget (s.m.takeArrived port f).fab.reqs f.tag = some r →
     r.purpose = .relay address txn →
     exec (.frameMgmtRsp port f) s = .next (s.after fun m => (m.takeArrived port f).endReq f.tag f.status false f.payload))

/-- A COPY or TRANSFORM whose fields are valid asks for its channel, a TRANSFORM that names a crag for that crag first. A
TRANSFORM's element read and valid becomes the element in progress. A slice moves at most 256 steps and is counted as
full or as ended by a stall. A failed access of a command without NOHALT halts the channel with its latch; with NOHALT
it ends the command. -/
def Obligations.Transfers : Prop :=
  (∀ (s : State) (slot : Nat) (c : Cmd),
     s.m.clocked = true →
     s.m.cmd? slot = some c →
     descOp c.desc = 0x01 →
     c.done = false →
     s.m.chanOf slot = none →
     s.m.astOk c.queue (fld c.desc 16 2) = true →
     copyOk c.desc = true →
     (xferCopy c.desc).geometryOk = true →
     exec (.copy slot) s = .next (s.after fun m => m.askChan slot (fld c.desc 18 1))) ∧
  (∀ (s : State) (slot : Nat) (c : Cmd),
     s.m.clocked = true →
     s.m.cmd? slot = some c →
     descOp c.desc = 0x02 →
     c.done = false →
     s.m.chanOf slot = none →
     s.m.astOk c.queue (fld c.desc 16 2) = true →
     transformOk c.desc = true →
     exec (.transform slot) s =
     .next (s.after fun m =>
       (if fld c.desc 20 1 = 0xFF then m else m.askCrags slot (slotDie slot) (fld c.desc 20 1) 1).askChan slot (fld c.desc 18 1))) ∧
  (∀ (s : State) (die ch : Nat) (r : ChanRun) (c : Cmd) (e : List Byte) (m2 : Mach),
     s.m.clocked = true →
     s.m.chanReady (chanKey die ch) = some (r, c) →
     descOp c.desc = 0x02 →
     r.elem = none →
     r.index < fld c.desc 32 4 →
     (s.m.loadLocal r.slot die engCouloir (fld c.desc 16 2) r.elemDva 64).1 = .ok e →
     m2 = (s.m.loadLocal r.slot die engCouloir (fld c.desc 16 2) r.elemDva 64).2 →
     m2.elementOk e (couloirCrag c.desc).isSome = true →
     exec (.elementReadDone die ch) s = .next (s.after fun _ => m2.setChan (chanKey die ch) { r with elem := some e, beat := 0 })) ∧
  (∀ (s : State) (die ch steps taken : Nat) (r : ChanRun) (c : Cmd) (m2 : Mach),
     s.m.clocked = true →
     s.m.chanReady (chanKey die ch) = some (r, c) →
     (Mach.sliceSteps (min steps 256) s.m (chanKey die ch) 0).1 = taken →
     m2 = (Mach.sliceSteps (min steps 256) s.m (chanKey die ch) 0).2 →
     ((m2.cmd? r.slot).map (·.done)) = some false →
     exec (.sliceEnd die ch steps) s = .next (s.after fun _ => m2.bump 0x70B0 (if taken = 256 then 0x0B else 0x0A))) ∧
  (∀ (s : State) (die ch st : Nat) (r : ChanRun) (c : Cmd) (m2 : Mach),
     s.m.clocked = true →
     s.m.chan? (chanKey die ch) = some r →
     s.m.cmd? r.slot = some c →
     descOp c.desc = 0x02 →
     couloirCrag c.desc = none →
     c.done = false →
     s.m.channel (chanKey die ch) = 1 →
     r.elem = none →
     r.index < fld c.desc 32 4 →
     (s.m.loadLocal r.slot die engCouloir (fld c.desc 16 2) r.elemDva 64).1 = .failed st →
     m2 = (s.m.loadLocal r.slot die engCouloir (fld c.desc 16 2) r.elemDva 64).2 →
     st ≠ stBadFormat →
     st ≠ stPoison →
     exec (.channelAccessFailed die ch) s = .next (s.after fun _ => m2.chanFailed (chanKey die ch) r c r.elemDva 2 st 0))

/-- By the owner of the channel's command or on the dictionary's own right: START runs a STOPPED channel, STOP stops a
RUNNING one, CLEAR skips the rest of a HALTED channel's element with BUSERR, RESUME lets it issue its accesses again,
ABORT ends its command with BUSERR; the halt bound does as ABORT. -/
def Obligations.ChannelControls : Prop :=
  (∀ (s : State) (w : Src) (k : Nat),
     s.m.clocked = true →
     s.m.admits w 0x5301 4 = true →
     s.m.heard.rowOf w.q 0x5301 4 = k →
     s.m.heard.identOf w.q = none →
     s.m.heard.engDown (k / 64) = false →
     s.m.heard.channel k = 2 →
     exec (.channelStart w) s = .next (s.after fun m => (m.heard.setChanState k 1).answerWrite w 0x5301 4 0)) ∧
  (∀ (s : State) (w : Src) (k : Nat),
     s.m.clocked = true →
     s.m.admits w 0x5301 4 = true →
     s.m.heard.rowOf w.q 0x5301 4 = k →
     s.m.heard.identOf w.q = none →
     s.m.heard.channel k = 1 →
     exec (.channelStop w) s = .next (s.after fun m => (m.heard.setChanState k 2).answerWrite w 0x5301 4 0)) ∧
  (∀ (s : State) (w : Src) (k : Nat) (r : ChanRun) (c : Cmd),
     s.m.clocked = true →
     s.m.admits w 0x5301 4 = true →
     s.m.heard.rowOf w.q 0x5301 4 = k →
     s.m.heard.identOf w.q = none →
     s.m.heard.channel k = 3 →
     s.m.heard.chan? k = some r →
     s.m.heard.cmd? r.slot = some c →
     exec (.channelClear w) s =
     .next (s.after fun m =>
       let n := ((m.heard.bump 0x70B0 6).noteFail r.slot stBusErr).auditControl w.q k 3
       ((n.setChanState k 1).nextElement k { r with skipped := r.skipped + 1, last := n.reg 0x5302 3 k, since := some n.now }
         c.desc).answerWrite w 0x5301 4 0)) ∧
  (∀ (s : State) (w : Src) (k : Nat) (r : ChanRun),
     s.m.clocked = true →
     s.m.admits w 0x5301 4 = true →
     s.m.heard.rowOf w.q 0x5301 4 = k →
     s.m.heard.identOf w.q = none →
     s.m.heard.channel k = 3 →
     s.m.heard.chan? k = some r →
     s.m.heard.engDown (k / 64) = false →
     exec (.channelResume w) s =
     .next (s.after fun m =>
       ((((({ m.heard with xl := { m.heard.xl with fetches := m.heard.xl.fetches.filter fun f => f.slot ≠ r.slot } } : Mach).bump
         0x70B0 5).auditControl w.q k 4).setChanState k 1).answerWrite w 0x5301 4 0))) ∧
  (∀ (s : State) (w : Src) (k : Nat),
     s.m.clocked = true →
     s.m.admits w 0x5301 4 = true →
     s.m.heard.rowOf w.q 0x5301 4 = k →
     s.m.heard.identOf w.q = none →
     s.m.heard.channel k = 3 →
     exec (.channelAbort w) s = .next (s.after fun m => ((m.heard.abortChan k).auditControl w.q k 5).answerWrite w 0x5301 4 0)) ∧
  (∀ (s : State) (die ch : Nat) (r : ChanRun),
     s.m.clocked = true →
     s.m.channel (chanKey die ch) = 3 →
     s.m.reg 0x5300 2 0 ≠ 0 →
     s.m.chan? (chanKey die ch) = some r →
     exec (.haltBoundExpiry die ch) s =
     .next (s.after fun m => ((m.bump 0x70B0 7).setChan (chanKey die ch) { r with last := m.reg 0x5302 3 (chanKey die ch) }).chanEnd
       (chanKey die ch) (some stBusErr)))

/-- A NOP goes to the next index, with the effect of the loops that end there. END ends a crag with nothing in flight and
its KERNEL with its last crag, and leaves it ending otherwise. TRAP faults with code 7 and its own code. A BR whose
target is in the program goes there when its condition holds, ending the loops it leaves. A LOOP with a place on the
stack and a valid last index enters its body, or skips it at count 0. WAIT goes on once its tokens, or with ALL every
instruction, have completed. -/
def Obligations.TileControl : Prop :=
  (∀ (s : State) (die n : Nat) (i : TileInstr),
     s.m.clocked = true →
     s.m.issues 0x00 die n i = true →
     exec (.nop die n) s = .next (s.after fun m =>
       m.setCrag (cragKey die n) (m.crag (cragKey die n)).stepPc)) ∧
  (∀ (s : State) (die n : Nat) (i : TileInstr),
     s.m.clocked = true →
     s.m.issues 0x01 die n i = true →
     (s.m.crag (cragKey die n)).asyncs = [] →
     (s.m.crag (cragKey die n)).slot = none →
     exec (.endProgram die n) s = .next (s.after fun m =>
       m.setCrag (cragKey die n) { (m.crag (cragKey die n)) with phase := .ended })) ∧
  (∀ (s : State) (die n : Nat) (i : TileInstr) (k : Nat),
     s.m.clocked = true →
     s.m.issues 0x01 die n i = true →
     (s.m.crag (cragKey die n)).asyncs = [] →
     (s.m.crag (cragKey die n)).slot = some k →
     exec (.endProgram die n) s = .next (s.after fun m =>
       (m.setCrag (cragKey die n) { (m.crag (cragKey die n)) with phase := .ended }).kernelCheck k)) ∧
  (∀ (s : State) (die n : Nat) (i : TileInstr),
     s.m.clocked = true →
     s.m.issues 0x02 die n i = true →
     exec (.trap die n) s = .next (s.after fun m =>
       (m.setReg 0x5010 8 0 (i.b % 65536)).cragFault (cragKey die n) 7 stBadFormat)) ∧
  (∀ (s : State) (die n : Nat) (i : TileInstr),
     s.m.clocked = true →
     s.m.issues 0x03 die n i = true →
     16 * (i.b % 4096) < (s.m.crag (cragKey die n)).prog.length →
     exec (.br die n) s = .next (s.after fun m =>
       m.setCrag (cragKey die n) (if brTaken (bits i.a 14 12) ((m.crag (cragKey die n)).s i.ra) ((m.crag (cragKey die n)).s i.rb) then (m.crag (cragKey die n)).branch (i.b % 4096) else (m.crag (cragKey die n)).stepPc))) ∧
  (∀ (s : State) (die n : Nat) (i : TileInstr),
     s.m.clocked = true →
     s.m.issues 0x04 die n i = true →
     (s.m.crag (cragKey die n)).pc < i.c % 4096 →
     16 * (i.c % 4096) < (s.m.crag (cragKey die n)).prog.length →
     (s.m.crag (cragKey die n)).loops = [] →
     exec (.loop die n) s = .next (s.after fun m =>
       m.setCrag (cragKey die n) (if (if bit i.a 16 then i.b else (m.crag (cragKey die n)).s i.ra % 2 ^ 32) = 0 then ({ (m.crag (cragKey die n)) with pc := i.c % 4096 } : Crag).stepPc else
         { (m.crag (cragKey die n)) with pc := (m.crag (cragKey die n)).pc + 1, loops := [⟨(m.crag (cragKey die n)).pc + 1, i.c % 4096, (if bit i.a 16 then i.b else (m.crag (cragKey die n)).s i.ra % 2 ^ 32)⟩] }))) ∧
  (∀ (s : State) (die n : Nat) (i : TileInstr),
     s.m.clocked = true →
     s.m.issues 0x05 die n i = true →
     (bit i.a 0 && !(s.m.crag (cragKey die n)).asyncs.isEmpty) = false →
     exec (.wait die n) s = .next (s.after fun m =>
       m.setCrag (cragKey die n) (m.crag (cragKey die n)).stepPc))

/-- A scalar instruction that issues writes its result, modulo 2^64, to s[d] and goes to the next index: SMOV the
immediate sign-extended, SMOVH the immediate over the low half, the others their operation of s[a] and s[b] or the
immediate. SLD reads and SST writes 8 bytes of the scratchpad at an aligned address in it, through the Pass. -/
def Obligations.TileScalar : Prop :=
  (∀ (s : State) (die n : Nat) (i : TileInstr),
     s.m.clocked = true →
     s.m.issues 0x10 die n i = true →
     exec (.smov die n) s = .next (s.after fun m =>
       m.setCrag (cragKey die n) ((m.crag (cragKey die n)).setS i.d (sext32 i.b)).stepPc)) ∧
  (∀ (s : State) (die n : Nat) (i : TileInstr),
     s.m.clocked = true →
     s.m.issues 0x11 die n i = true →
     exec (.smovh die n) s = .next (s.after fun m =>
       m.setCrag (cragKey die n) ((m.crag (cragKey die n)).setS i.d (i.b * 2 ^ 32 + (m.crag (cragKey die n)).s i.d % 2 ^ 32)).stepPc)) ∧
  (∀ (s : State) (die n : Nat) (i : TileInstr),
     s.m.clocked = true →
     s.m.issues 0x12 die n i = true →
     exec (.sadd die n) s = .next (s.after fun m =>
       m.setCrag (cragKey die n) ((m.crag (cragKey die n)).setS i.d ((m.crag (cragKey die n)).s i.ra + i.op2 (m.crag (cragKey die n)))).stepPc)) ∧
  (∀ (s : State) (die n : Nat) (i : TileInstr),
     s.m.clocked = true →
     s.m.issues 0x13 die n i = true →
     exec (.ssub die n) s = .next (s.after fun m =>
       m.setCrag (cragKey die n) ((m.crag (cragKey die n)).setS i.d ((m.crag (cragKey die n)).s i.ra + 2 ^ 64 - i.op2 (m.crag (cragKey die n)))).stepPc)) ∧
  (∀ (s : State) (die n : Nat) (i : TileInstr),
     s.m.clocked = true →
     s.m.issues 0x14 die n i = true →
     exec (.smul die n) s = .next (s.after fun m =>
       m.setCrag (cragKey die n) ((m.crag (cragKey die n)).setS i.d ((m.crag (cragKey die n)).s i.ra * i.op2 (m.crag (cragKey die n)))).stepPc)) ∧
  (∀ (s : State) (die n : Nat) (i : TileInstr),
     s.m.clocked = true →
     s.m.issues 0x15 die n i = true →
     exec (.sand die n) s = .next (s.after fun m =>
       m.setCrag (cragKey die n) ((m.crag (cragKey die n)).setS i.d (Nat.land ((m.crag (cragKey die n)).s i.ra) (i.op2 (m.crag (cragKey die n))))).stepPc)) ∧
  (∀ (s : State) (die n : Nat) (i : TileInstr),
     s.m.clocked = true →
     s.m.issues 0x16 die n i = true →
     exec (.sor die n) s = .next (s.after fun m =>
       m.setCrag (cragKey die n) ((m.crag (cragKey die n)).setS i.d (Nat.lor ((m.crag (cragKey die n)).s i.ra) (i.op2 (m.crag (cragKey die n))))).stepPc)) ∧
  (∀ (s : State) (die n : Nat) (i : TileInstr),
     s.m.clocked = true →
     s.m.issues 0x17 die n i = true →
     exec (.sshl die n) s = .next (s.after fun m =>
       m.setCrag (cragKey die n) ((m.crag (cragKey die n)).setS i.d ((m.crag (cragKey die n)).s i.ra * 2 ^ ((i.op2 (m.crag (cragKey die n))) % 64))).stepPc)) ∧
  (∀ (s : State) (die n : Nat) (i : TileInstr),
     s.m.clocked = true →
     s.m.issues 0x18 die n i = true →
     exec (.sshr die n) s = .next (s.after fun m =>
       m.setCrag (cragKey die n) ((m.crag (cragKey die n)).setS i.d ((m.crag (cragKey die n)).s i.ra / 2 ^ ((i.op2 (m.crag (cragKey die n))) % 64))).stepPc)) ∧
  (∀ (s : State) (die n : Nat) (i : TileInstr) (a : Nat),
     s.m.clocked = true →
     s.m.issues 0x19 die n i = true →
     slAddr (s.m.crag (cragKey die n)) i = some a →
     exec (.sld die n) s = .next (s.after fun m =>
       (m.touchBanks die n 15 ((m.crag (cragKey die n)).slot.getD 0) a 8).setCrag (cragKey die n) ((m.crag (cragKey die n)).setS i.d (leNat ((m.crag (cragKey die n)).read a 8))).stepPc)) ∧
  (∀ (s : State) (die n : Nat) (i : TileInstr) (a : Nat),
     s.m.clocked = true →
     s.m.issues 0x1A die n i = true →
     slAddr (s.m.crag (cragKey die n)) i = some a →
     exec (.sst die n) s = .next (s.after fun m =>
       (m.touchBanks die n 15 ((m.crag (cragKey die n)).slot.getD 0) a 8).setCrag (cragKey die n) ((m.crag (cragKey die n)).write a (leBytes 8 ((m.crag (cragKey die n)).s i.rb))).stepPc))

/-- A vector instruction that issues writes vd lane by lane, counts NaN results in 0x7080.07 and goes to the next index:
the FP32 operations of R247, VRED the fixed tree of R248 in every lane, VCVT the conversion that its direction and SUB
name, VSPLAT the low half of s[sa]; VEXP exact for integers and otherwise a free choice within 2 ULP. VLD and VST move
256 bytes between a register and an aligned scratchpad address. -/
def Obligations.TileVector : Prop :=
  (∀ (s : State) (die n : Nat) (i : TileInstr) (a : Nat),
     s.m.clocked = true →
     s.m.issues 0x40 die n i = true →
     vlAddr (s.m.crag (cragKey die n)) i = some a →
     exec (.vld die n) s = .next (s.after fun m =>
       (m.touchBanks die n 6 ((m.crag (cragKey die n)).slot.getD 0) a 256).setCrag (cragKey die n) ((m.crag (cragKey die n)).setV i.vd (elemCodes 7 64 ((m.crag (cragKey die n)).read a 256))).stepPc)) ∧
  (∀ (s : State) (die n : Nat) (i : TileInstr) (a : Nat),
     s.m.clocked = true →
     s.m.issues 0x41 die n i = true →
     vlAddr (s.m.crag (cragKey die n)) i = some a →
     exec (.vst die n) s = .next (s.after fun m =>
       (m.touchBanks die n 5 ((m.crag (cragKey die n)).slot.getD 0) a 256).setCrag (cragKey die n) ((m.crag (cragKey die n)).write a (packCodes 7 ((m.crag (cragKey die n)).v i.va))).stepPc)) ∧
  (∀ (s : State) (die n : Nat) (i : TileInstr),
     s.m.clocked = true →
     s.m.issues 0x42 die n i = true →
     exec (.vsplat die n) s = .next (s.after fun m =>
       m.setCrag (cragKey die n) ((m.crag (cragKey die n)).setV i.vd (List.replicate 64 ((m.crag (cragKey die n)).s i.sa % 2 ^ 32))).stepPc)) ∧
  (∀ (s : State) (die n : Nat) (i : TileInstr),
     s.m.clocked = true →
     s.m.issues 0x43 die n i = true →
     exec (.vadd die n) s = .next (s.after fun m =>
       m.vectorOut (cragKey die n) (m.crag (cragKey die n)) i.vd ((List.range 64).map fun x => f32add (lane ((m.crag (cragKey die n)).v i.va) x) (lane ((m.crag (cragKey die n)).v i.vb) x)))) ∧
  (∀ (s : State) (die n : Nat) (i : TileInstr),
     s.m.clocked = true →
     s.m.issues 0x44 die n i = true →
     exec (.vsub die n) s = .next (s.after fun m =>
       m.vectorOut (cragKey die n) (m.crag (cragKey die n)) i.vd ((List.range 64).map fun x => f32op FVal.sub (lane ((m.crag (cragKey die n)).v i.va) x) (lane ((m.crag (cragKey die n)).v i.vb) x)))) ∧
  (∀ (s : State) (die n : Nat) (i : TileInstr),
     s.m.clocked = true →
     s.m.issues 0x45 die n i = true →
     exec (.vmul die n) s = .next (s.after fun m =>
       m.vectorOut (cragKey die n) (m.crag (cragKey die n)) i.vd ((List.range 64).map fun x => f32mul (lane ((m.crag (cragKey die n)).v i.va) x) (lane ((m.crag (cragKey die n)).v i.vb) x)))) ∧
  (∀ (s : State) (die n : Nat) (i : TileInstr),
     s.m.clocked = true →
     s.m.issues 0x46 die n i = true →
     exec (.vfma die n) s = .next (s.after fun m =>
       m.vectorOut (cragKey die n) (m.crag (cragKey die n)) i.vd ((List.range 64).map fun x => f32fma (lane ((m.crag (cragKey die n)).v i.va) x) (lane ((m.crag (cragKey die n)).v i.vb) x) (lane ((m.crag (cragKey die n)).v i.vc) x)))) ∧
  (∀ (s : State) (die n : Nat) (i : TileInstr),
     s.m.clocked = true →
     s.m.issues 0x47 die n i = true →
     exec (.vmin die n) s = .next (s.after fun m =>
       m.vectorOut (cragKey die n) (m.crag (cragKey die n)) i.vd ((List.range 64).map fun x => f32op FVal.min (lane ((m.crag (cragKey die n)).v i.va) x) (lane ((m.crag (cragKey die n)).v i.vb) x)))) ∧
  (∀ (s : State) (die n : Nat) (i : TileInstr),
     s.m.clocked = true →
     s.m.issues 0x48 die n i = true →
     exec (.vmax die n) s = .next (s.after fun m =>
       m.vectorOut (cragKey die n) (m.crag (cragKey die n)) i.vd ((List.range 64).map fun x => f32op FVal.max (lane ((m.crag (cragKey die n)).v i.va) x) (lane ((m.crag (cragKey die n)).v i.vb) x)))) ∧
  (∀ (s : State) (die n : Nat) (i : TileInstr),
     s.m.clocked = true →
     s.m.issues 0x49 die n i = true →
     exec (.vdiv die n) s = .next (s.after fun m =>
       m.vectorOut (cragKey die n) (m.crag (cragKey die n)) i.vd ((List.range 64).map fun x => f32op FVal.div (lane ((m.crag (cragKey die n)).v i.va) x) (lane ((m.crag (cragKey die n)).v i.vb) x)))) ∧
  (∀ (s : State) (die n : Nat) (i : TileInstr),
     s.m.clocked = true →
     s.m.issues 0x4A die n i = true →
     exec (.vsqrt die n) s = .next (s.after fun m =>
       m.vectorOut (cragKey die n) (m.crag (cragKey die n)) i.vd ((List.range 64).map fun x => f32sqrt (lane ((m.crag (cragKey die n)).v i.va) x)))) ∧
  (∀ (s : State) (die n : Nat) (i : TileInstr) (v : List Nat) (m1 : Mach),
     s.m.clocked = true →
     s.m.issues 0x4B die n i = true →
     (((s.m.crag (cragKey die n)).v i.va).foldl (fun (r : List Nat × Mach) a => (r.1 ++ [(r.2.exp2Lane a).1], (r.2.exp2Lane a).2)) ([], s.m)).1 = v →
     m1 = (((s.m.crag (cragKey die n)).v i.va).foldl (fun (r : List Nat × Mach) a => (r.1 ++ [(r.2.exp2Lane a).1], (r.2.exp2Lane a).2)) ([], s.m)).2 →
     exec (.vexp die n) s = .next (s.after fun m =>
       m1.vectorOut (cragKey die n) (m.crag (cragKey die n)) i.vd v)) ∧
  (∀ (s : State) (die n : Nat) (i : TileInstr),
     s.m.clocked = true →
     s.m.issues 0x4C die n i = true →
     bit i.a 28 = true →
     exec (.vcvt die n) s = .next (s.after fun m =>
       m.vectorOut (cragKey die n) (m.crag (cragKey die n)) i.vd (cvtWiden i.sub (packCodes 7 ((m.crag (cragKey die n)).v i.va))))) ∧
  (∀ (s : State) (die n : Nat) (i : TileInstr),
     s.m.clocked = true →
     s.m.issues 0x4C die n i = true →
     bit i.a 28 = false →
     exec (.vcvt die n) s = .next (s.after fun m =>
       m.setCrag (cragKey die n) ((m.crag (cragKey die n)).setV i.vd (elemCodes 7 64 (slice (cvtNarrow i.sub ((m.crag (cragKey die n)).v i.va)) 0 256))).stepPc)) ∧
  (∀ (s : State) (die n : Nat) (i : TileInstr),
     s.m.clocked = true →
     s.m.issues 0x4D die n i = true →
     exec (.vred die n) s = .next (s.after fun m =>
       let x := lane (reduceTree (match i.sub with | 0 => f32add | 1 => f32op FVal.max | _ => f32op FVal.min)
         [32, 16, 8, 4, 2, 1] ((m.crag (cragKey die n)).v i.va)) 0
       (m.setCrag (cragKey die n) ((m.crag (cragKey die n)).setV i.vd (List.replicate 64 x)).stepPc).bumpBy 0x7080 7 0 (nanCount [x]))) ∧
  (∀ (s : State) (die n : Nat) (i : TileInstr),
     s.m.clocked = true →
     s.m.issues 0x4E die n i = true →
     exec (.vsgn die n) s = .next (s.after fun m =>
       m.vectorOut (cragKey die n) (m.crag (cragKey die n)) i.vd ((List.range 64).map fun x => f32sgn (lane ((m.crag (cragKey die n)).v i.va) x))))

/-- An asynchronous instruction whose operands break no rule of R237 goes in flight with the scalars it reads, its banks
asked for at the Pass, and the crag goes on. One that no earlier one in flight orders before it (R238) completes:
TCOPY and TFILL write the scratchpad, WLOAD the weights, MMA adds its rows into the accumulators of its arrays and
counts rows and NaNs, ACCZ clears and ACCRD and ACCWR move accumulator rows, and a TLOAD writes the rows it has read;
its place and its banks are given back. -/
def Obligations.TileAsync : Prop :=
  (∀ (s : State) (die n : Nat) (i : TileInstr),
     s.m.clocked = true →
     s.m.issues 0x20 die n i = true →
     asyncFault i (sregA i (s.m.crag (cragKey die n))) (sregB i (s.m.crag (cragKey die n))) = none →
     exec (.tload die n) s = .next (s.after fun m =>
       let o := (⟨0x20, i.a, i.b, i.c, if i.s then some i.tok else none, sregA i (m.crag (cragKey die n)), sregB i (m.crag (cragKey die n)), sregNone i (m.crag (cragKey die n)), (m.crag (cragKey die n)).pc⟩ : AsyncOp)
       ((asyncTraffic o).foldl (fun x t => (spanBanks t.2.1 t.2.2).foldl (fun x b =>
         x.presentBank (bankKey die n b) ⟨t.1, min 64 (ceilDiv t.2.2 64), 0, (m.crag (cragKey die n)).slot.getD 0⟩) x) m).setCrag (cragKey die n)
         ({ (m.crag (cragKey die n)) with asyncs := (m.crag (cragKey die n)).asyncs ++ [o] } : Crag).stepPc)) ∧
  (∀ (s : State) (die n : Nat) (i : TileInstr),
     s.m.clocked = true →
     s.m.issues 0x21 die n i = true →
     asyncFault i (sregA i (s.m.crag (cragKey die n))) (sregB i (s.m.crag (cragKey die n))) = none →
     exec (.tloadx die n) s = .next (s.after fun m =>
       let o := (⟨0x21, i.a, i.b, i.c, if i.s then some i.tok else none, sregA i (m.crag (cragKey die n)), sregB i (m.crag (cragKey die n)), sregC i (m.crag (cragKey die n)), (m.crag (cragKey die n)).pc⟩ : AsyncOp)
       ((asyncTraffic o).foldl (fun x t => (spanBanks t.2.1 t.2.2).foldl (fun x b =>
         x.presentBank (bankKey die n b) ⟨t.1, min 64 (ceilDiv t.2.2 64), 0, (m.crag (cragKey die n)).slot.getD 0⟩) x) m).setCrag (cragKey die n)
         ({ (m.crag (cragKey die n)) with asyncs := (m.crag (cragKey die n)).asyncs ++ [o] } : Crag).stepPc)) ∧
  (∀ (s : State) (die n : Nat) (i : TileInstr),
     s.m.clocked = true →
     s.m.issues 0x22 die n i = true →
     asyncFault i (sregA i (s.m.crag (cragKey die n))) (sregB i (s.m.crag (cragKey die n))) = none →
     exec (.tstore die n) s = .next (s.after fun m =>
       let o := (⟨0x22, i.a, i.b, i.c, if i.s then some i.tok else none, sregA i (m.crag (cragKey die n)), sregB i (m.crag (cragKey die n)), sregNone i (m.crag (cragKey die n)), (m.crag (cragKey die n)).pc⟩ : AsyncOp)
       ((asyncTraffic o).foldl (fun x t => (spanBanks t.2.1 t.2.2).foldl (fun x b =>
         x.presentBank (bankKey die n b) ⟨t.1, min 64 (ceilDiv t.2.2 64), 0, (m.crag (cragKey die n)).slot.getD 0⟩) x) m).setCrag (cragKey die n)
         ({ (m.crag (cragKey die n)) with asyncs := (m.crag (cragKey die n)).asyncs ++ [o] } : Crag).stepPc)) ∧
  (∀ (s : State) (die n : Nat) (i : TileInstr),
     s.m.clocked = true →
     s.m.issues 0x23 die n i = true →
     asyncFault i (sregNone i (s.m.crag (cragKey die n))) (sregNone i (s.m.crag (cragKey die n))) = none →
     exec (.tcopy die n) s = .next (s.after fun m =>
       let o := (⟨0x23, i.a, i.b, i.c, if i.s then some i.tok else none, sregNone i (m.crag (cragKey die n)), sregNone i (m.crag (cragKey die n)), sregNone i (m.crag (cragKey die n)), (m.crag (cragKey die n)).pc⟩ : AsyncOp)
       ((asyncTraffic o).foldl (fun x t => (spanBanks t.2.1 t.2.2).foldl (fun x b =>
         x.presentBank (bankKey die n b) ⟨t.1, min 64 (ceilDiv t.2.2 64), 0, (m.crag (cragKey die n)).slot.getD 0⟩) x) m).setCrag (cragKey die n)
         ({ (m.crag (cragKey die n)) with asyncs := (m.crag (cragKey die n)).asyncs ++ [o] } : Crag).stepPc)) ∧
  (∀ (s : State) (die n : Nat) (i : TileInstr),
     s.m.clocked = true →
     s.m.issues 0x24 die n i = true →
     asyncFault i (sregNone i (s.m.crag (cragKey die n))) (sregNone i (s.m.crag (cragKey die n))) = none →
     exec (.tfill die n) s = .next (s.after fun m =>
       let o := (⟨0x24, i.a, i.b, i.c, if i.s then some i.tok else none, sregNone i (m.crag (cragKey die n)), sregNone i (m.crag (cragKey die n)), sregNone i (m.crag (cragKey die n)), (m.crag (cragKey die n)).pc⟩ : AsyncOp)
       ((asyncTraffic o).foldl (fun x t => (spanBanks t.2.1 t.2.2).foldl (fun x b =>
         x.presentBank (bankKey die n b) ⟨t.1, min 64 (ceilDiv t.2.2 64), 0, (m.crag (cragKey die n)).slot.getD 0⟩) x) m).setCrag (cragKey die n)
         ({ (m.crag (cragKey die n)) with asyncs := (m.crag (cragKey die n)).asyncs ++ [o] } : Crag).stepPc)) ∧
  (∀ (s : State) (die n : Nat) (i : TileInstr),
     s.m.clocked = true →
     s.m.issues 0x30 die n i = true →
     asyncFault i (sregM i (s.m.crag (cragKey die n))) (sregNone i (s.m.crag (cragKey die n))) = none →
     exec (.wload die n) s = .next (s.after fun m =>
       let o := (⟨0x30, i.a, i.b, i.c, if i.s then some i.tok else none, sregM i (m.crag (cragKey die n)), sregNone i (m.crag (cragKey die n)), sregNone i (m.crag (cragKey die n)), (m.crag (cragKey die n)).pc⟩ : AsyncOp)
       ((asyncTraffic o).foldl (fun x t => (spanBanks t.2.1 t.2.2).foldl (fun x b =>
         x.presentBank (bankKey die n b) ⟨t.1, min 64 (ceilDiv t.2.2 64), 0, (m.crag (cragKey die n)).slot.getD 0⟩) x) m).setCrag (cragKey die n)
         ({ (m.crag (cragKey die n)) with asyncs := (m.crag (cragKey die n)).asyncs ++ [o] } : Crag).stepPc)) ∧
  (∀ (s : State) (die n : Nat) (i : TileInstr),
     s.m.clocked = true →
     s.m.issues 0x31 die n i = true →
     asyncFault i (sregM i (s.m.crag (cragKey die n))) (sregNone i (s.m.crag (cragKey die n))) = none →
     exec (.mma die n) s = .next (s.after fun m =>
       let o := (⟨0x31, i.a, i.b, i.c, if i.s then some i.tok else none, sregM i (m.crag (cragKey die n)), sregNone i (m.crag (cragKey die n)), sregNone i (m.crag (cragKey die n)), (m.crag (cragKey die n)).pc⟩ : AsyncOp)
       ((asyncTraffic o).foldl (fun x t => (spanBanks t.2.1 t.2.2).foldl (fun x b =>
         x.presentBank (bankKey die n b) ⟨t.1, min 64 (ceilDiv t.2.2 64), 0, (m.crag (cragKey die n)).slot.getD 0⟩) x) m).setCrag (cragKey die n)
         ({ (m.crag (cragKey die n)) with asyncs := (m.crag (cragKey die n)).asyncs ++ [o] } : Crag).stepPc)) ∧
  (∀ (s : State) (die n : Nat) (i : TileInstr),
     s.m.clocked = true →
     s.m.issues 0x32 die n i = true →
     asyncFault i (sregM i (s.m.crag (cragKey die n))) (sregNone i (s.m.crag (cragKey die n))) = none →
     exec (.accz die n) s = .next (s.after fun m =>
       let o := (⟨0x32, i.a, i.b, i.c, if i.s then some i.tok else none, sregM i (m.crag (cragKey die n)), sregNone i (m.crag (cragKey die n)), sregNone i (m.crag (cragKey die n)), (m.crag (cragKey die n)).pc⟩ : AsyncOp)
       ((asyncTraffic o).foldl (fun x t => (spanBanks t.2.1 t.2.2).foldl (fun x b =>
         x.presentBank (bankKey die n b) ⟨t.1, min 64 (ceilDiv t.2.2 64), 0, (m.crag (cragKey die n)).slot.getD 0⟩) x) m).setCrag (cragKey die n)
         ({ (m.crag (cragKey die n)) with asyncs := (m.crag (cragKey die n)).asyncs ++ [o] } : Crag).stepPc)) ∧
  (∀ (s : State) (die n : Nat) (i : TileInstr),
     s.m.clocked = true →
     s.m.issues 0x33 die n i = true →
     asyncFault i (sregM i (s.m.crag (cragKey die n))) (sregNone i (s.m.crag (cragKey die n))) = none →
     exec (.accrd die n) s = .next (s.after fun m =>
       let o := (⟨0x33, i.a, i.b, i.c, if i.s then some i.tok else none, sregM i (m.crag (cragKey die n)), sregNone i (m.crag (cragKey die n)), sregNone i (m.crag (cragKey die n)), (m.crag (cragKey die n)).pc⟩ : AsyncOp)
       ((asyncTraffic o).foldl (fun x t => (spanBanks t.2.1 t.2.2).foldl (fun x b =>
         x.presentBank (bankKey die n b) ⟨t.1, min 64 (ceilDiv t.2.2 64), 0, (m.crag (cragKey die n)).slot.getD 0⟩) x) m).setCrag (cragKey die n)
         ({ (m.crag (cragKey die n)) with asyncs := (m.crag (cragKey die n)).asyncs ++ [o] } : Crag).stepPc)) ∧
  (∀ (s : State) (die n : Nat) (i : TileInstr),
     s.m.clocked = true →
     s.m.issues 0x34 die n i = true →
     asyncFault i (sregM i (s.m.crag (cragKey die n))) (sregNone i (s.m.crag (cragKey die n))) = none →
     exec (.accwr die n) s = .next (s.after fun m =>
       let o := (⟨0x34, i.a, i.b, i.c, if i.s then some i.tok else none, sregM i (m.crag (cragKey die n)), sregNone i (m.crag (cragKey die n)), sregNone i (m.crag (cragKey die n)), (m.crag (cragKey die n)).pc⟩ : AsyncOp)
       ((asyncTraffic o).foldl (fun x t => (spanBanks t.2.1 t.2.2).foldl (fun x b =>
         x.presentBank (bankKey die n b) ⟨t.1, min 64 (ceilDiv t.2.2 64), 0, (m.crag (cragKey die n)).slot.getD 0⟩) x) m).setCrag (cragKey die n)
         ({ (m.crag (cragKey die n)) with asyncs := (m.crag (cragKey die n)).asyncs ++ [o] } : Crag).stepPc)) ∧
  (∀ (s : State) (die n idx slot : Nat) (o : AsyncOp) (bs : List Byte) (m2 : Mach),
     s.m.clocked = true →
     (s.m.crag (cragKey die n)).asyncs[idx]? = some o →
     (s.m.crag (cragKey die n)).slot = some slot →
     ((s.m.crag (cragKey die n)).asyncs.take idx).any (fun e => asyncBefore e o) = false →
     o.op = 0x20 →
     (s.m.loadRows slot die n (((s.m.cmd? slot).map fun d => fld d.desc 16 2).getD 0) o.x o.y (tLen o.b) (tRows o.b)).1 = .ok bs →
     m2 = (s.m.loadRows slot die n (((s.m.cmd? slot).map fun d => fld d.desc 16 2).getD 0) o.x o.y (tLen o.b) (tRows o.b)).2 →
     exec (.asyncComplete die n idx) s = .next (s.after fun _ =>
       (m2.setCrag (cragKey die n) ((m2.crag (cragKey die n)).writeRows (o.a % 2 ^ 21) (tStride o.c) (tLen o.b) bs (tRows o.b))).asyncOver (cragKey die n) o)) ∧
  (∀ (s : State) (die n idx slot : Nat) (o : AsyncOp),
     s.m.clocked = true →
     (s.m.crag (cragKey die n)).asyncs[idx]? = some o →
     (s.m.crag (cragKey die n)).slot = some slot →
     ((s.m.crag (cragKey die n)).asyncs.take idx).any (fun e => asyncBefore e o) = false →
     o.op = 0x23 →
     exec (.asyncComplete die n idx) s = .next (s.after fun m =>
       (m.setCrag (cragKey die n) ((m.crag (cragKey die n)).write (o.a % 2 ^ 21) ((m.crag (cragKey die n)).read (o.b % 2 ^ 21) (o.c % 65536 * 16)))).asyncOver (cragKey die n) o)) ∧
  (∀ (s : State) (die n idx slot : Nat) (o : AsyncOp),
     s.m.clocked = true →
     (s.m.crag (cragKey die n)).asyncs[idx]? = some o →
     (s.m.crag (cragKey die n)).slot = some slot →
     ((s.m.crag (cragKey die n)).asyncs.take idx).any (fun e => asyncBefore e o) = false →
     o.op = 0x24 →
     exec (.asyncComplete die n idx) s = .next (s.after fun m =>
       (m.setCrag (cragKey die n) ((m.crag (cragKey die n)).write (o.a % 2 ^ 21) (List.replicate (o.c % 65536 * 4) (leBytes 4 o.b)).flatten)).asyncOver (cragKey die n) o)) ∧
  (∀ (s : State) (die n idx slot : Nat) (o : AsyncOp),
     s.m.clocked = true →
     (s.m.crag (cragKey die n)).asyncs[idx]? = some o →
     (s.m.crag (cragKey die n)).slot = some slot →
     ((s.m.crag (cragKey die n)).asyncs.take idx).any (fun e => asyncBefore e o) = false →
     o.op = 0x30 →
     exec (.asyncComplete die n idx) s = .next (s.after fun m =>
       (m.setCrag (cragKey die n) { (m.crag (cragKey die n)) with weights := (maskArrays o.a).foldl (fun w a => tput w (a * 2 + b2n (bit o.a 8)) (mFmt o.a, (m.crag (cragKey die n)).read (o.b % 2 ^ 21 + a * mStride o.c) (tileBytes (mFmt o.a)))) (m.crag (cragKey die n)).weights }).asyncOver (cragKey die n) o)) ∧
  (∀ (s : State) (die n idx slot : Nat) (o : AsyncOp),
     s.m.clocked = true →
     (s.m.crag (cragKey die n)).asyncs[idx]? = some o →
     (s.m.crag (cragKey die n)).slot = some slot →
     ((s.m.crag (cragKey die n)).asyncs.take idx).any (fun e => asyncBefore e o) = false →
     o.op = 0x31 →
     (maskArrays o.a).any (fun a => !pairOk (s.m.crag (cragKey die n)) o a) = false →
     exec (.asyncComplete die n idx) s = .next (s.after fun m =>
       let r := (maskArrays o.a).foldl (fun (r : Crag × Nat) a => ((mmaArray r.1 o a).1, r.2 + (mmaArray r.1 o a).2)) ((m.crag (cragKey die n)), 0)
       (((m.setCrag (cragKey die n) r.1).bumpBy 0x7080 4 0 (mRows o.c * (maskArrays o.a).length)).bumpBy 0x7080 7 0 r.2).asyncOver (cragKey die n) o)) ∧
  (∀ (s : State) (die n idx slot : Nat) (o : AsyncOp),
     s.m.clocked = true →
     (s.m.crag (cragKey die n)).asyncs[idx]? = some o →
     (s.m.crag (cragKey die n)).slot = some slot →
     ((s.m.crag (cragKey die n)).asyncs.take idx).any (fun e => asyncBefore e o) = false →
     o.op = 0x32 →
     exec (.asyncComplete die n idx) s = .next (s.after fun m =>
       (m.setCrag (cragKey die n) { (m.crag (cragKey die n)) with acc := (accPairs o).foldl (fun t p => tdel t (p.1 * 512 + (o.c % 512 + p.2))) (m.crag (cragKey die n)).acc }).asyncOver (cragKey die n) o)) ∧
  (∀ (s : State) (die n idx slot : Nat) (o : AsyncOp),
     s.m.clocked = true →
     (s.m.crag (cragKey die n)).asyncs[idx]? = some o →
     (s.m.crag (cragKey die n)).slot = some slot →
     ((s.m.crag (cragKey die n)).asyncs.take idx).any (fun e => asyncBefore e o) = false →
     o.op = 0x33 →
     exec (.asyncComplete die n idx) s = .next (s.after fun m =>
       (m.setCrag (cragKey die n) ((accPairs o).foldl (fun c p => c.accOut o p.1 p.2) (m.crag (cragKey die n)))).asyncOver (cragKey die n) o)) ∧
  (∀ (s : State) (die n idx slot : Nat) (o : AsyncOp),
     s.m.clocked = true →
     (s.m.crag (cragKey die n)).asyncs[idx]? = some o →
     (s.m.crag (cragKey die n)).slot = some slot →
     ((s.m.crag (cragKey die n)).asyncs.take idx).any (fun e => asyncBefore e o) = false →
     o.op = 0x34 →
     exec (.asyncComplete die n idx) s = .next (s.after fun m =>
       (m.setCrag (cragKey die n) ((accPairs o).foldl (fun c p => c.setAcc p.1 (o.c % 512 + p.2)
         (elemCodes 7 32 (c.read (o.b % 2 ^ 21 + p.2 * mStride o.c + p.1 * 128) 128))) (m.crag (cragKey die n)))).asyncOver (cragKey die n) o))

/-- A KERNEL or OPTIM whose fields are valid asks the allocator of its die for its crags, an OPTIM after its
hyperparameters are read. A grant gives the crags free of other commands. A KERNEL's program and arguments read, every
crag of it starts at index 0 with the state of R243. A chunk of an OPTIM read is computed and written by R251, and its
crag's next chunk starts. -/
def Obligations.CragCommands : Prop :=
  (∀ (s : State) (slot : Nat) (c : Cmd),
     s.m.clocked = true →
     s.m.cmd? slot = some c →
     descOp c.desc = 0x30 →
     c.done = false →
     s.m.hasCrags slot = false →
     s.m.astOk c.queue (fld c.desc 16 2) = true →
     kernelOk c.desc = true →
     kernelDie slot c.desc < s.m.dies →
     s.m.dieActive (kernelDie slot c.desc) = true →
     exec (.kernel slot) s =
     .next (s.after fun m => m.askCrags slot (kernelDie slot c.desc) (fld c.desc 19 1) (fld c.desc 18 1))) ∧
  (∀ (s : State) (slot : Nat) (c : Cmd) (b1 b2 b3 h : List Byte) (m1 m2 m3 m4 : Mach),
     s.m.clocked = true →
     s.m.cmd? slot = some c →
     descOp c.desc = 0x31 →
     c.done = false →
     (tget s.m.eng.crag.optims slot).isSome = false →
     s.m.astOk c.queue (fld c.desc 16 2) = true →
     optimOk c.desc = true →
     (s.m.localReady (slotDie slot) (fld c.desc 21 1) (fld c.desc 16 2) (fld c.desc 24 8) 1 .write).1 = .ok b1 →
     m1 = (s.m.localReady (slotDie slot) (fld c.desc 21 1) (fld c.desc 16 2) (fld c.desc 24 8) 1 .write).2 →
     (m1.localReady (slotDie slot) (fld c.desc 21 1) (fld c.desc 16 2) (fld c.desc 32 8) 1 .read).1 = .ok b2 →
     m2 = (m1.localReady (slotDie slot) (fld c.desc 21 1) (fld c.desc 16 2) (fld c.desc 32 8) 1 .read).2 →
     (m2.localReady (slotDie slot) (fld c.desc 21 1) (fld c.desc 16 2) (fld c.desc 40 8) 1 .write).1 = .ok b3 →
     m3 = (m2.localReady (slotDie slot) (fld c.desc 21 1) (fld c.desc 16 2) (fld c.desc 40 8) 1 .write).2 →
     (m3.loadDva slot (fld c.desc 21 1) (fld c.desc 16 2) (fld c.desc 48 8) 64).1 = .ok h →
     m4 = (m3.loadDva slot (fld c.desc 21 1) (fld c.desc 16 2) (fld c.desc 48 8) 64).2 →
     hyperOk (fld c.desc 18 1) h = true →
     exec (.optim slot) s =
     .next (s.after fun _ =>
       ({ m4 with eng := { m4.eng with crag := { m4.eng.crag with
         optims := tput m4.eng.crag.optims slot
           { hyper := h, started := List.range (min (fld c.desc 20 1) (ceilDiv (fld c.desc 56 8) 4096)), written := 0 } } } } :
         Mach).askCrags slot (slotDie slot) (fld c.desc 21 1) (fld c.desc 20 1))) ∧
  (∀ (s : State) (slot : Nat) (r : CragReq) (c : Cmd),
     s.m.clocked = true →
     s.m.eng.crag.reqs.find? (·.slot == slot) = some r →
     s.m.mayGrant r = true →
     (s.m.grantCrags r).cmd? slot = some c →
     descOp c.desc = 0x30 →
     exec (.cragGrant slot) s =
     .next (s.after fun m => (m.grantCrags r).setCmd slot { c with started := true, progress := (m.grantCrags r).now })) ∧
  (∀ (s : State) (slot : Nat) (r : CragReq) (c : Cmd),
     s.m.clocked = true →
     s.m.eng.crag.reqs.find? (·.slot == slot) = some r →
     s.m.mayGrant r = true →
     (s.m.grantCrags r).cmd? slot = some c →
     descOp c.desc ≠ 0x30 →
     exec (.cragGrant slot) s =
     .next (s.after fun m =>
       let n := (m.grantCrags r).setCmd slot { c with started := true, progress := (m.grantCrags r).now }
       r.keys.foldl (fun x k => x.takeCrag (x.qOwner c.queue) (descOp c.desc == 0x31) k) n)) ∧
  (∀ (s : State) (slot : Nat) (c : Cmd) (r : CragReq) (prog args : List Byte) (m1 m2 : Mach),
     s.m.clocked = true →
     s.m.cmd? slot = some c →
     tget s.m.eng.crag.granted slot = some r →
     descOp c.desc = 0x30 →
     c.done = false →
     (s.m.crag (cragKey r.die r.first)).phase = .idle →
     (s.m.loadDvaOn slot r.die r.first (fld c.desc 16 2) (fld c.desc 24 8) (fld c.desc 32 4)).1 = .ok prog →
     m1 = (s.m.loadDvaOn slot r.die r.first (fld c.desc 16 2) (fld c.desc 24 8) (fld c.desc 32 4)).2 →
     (m1.loadDvaOn slot r.die r.first (fld c.desc 16 2) (fld c.desc 40 8) 64).1 = .ok args →
     m2 = (m1.loadDvaOn slot r.die r.first (fld c.desc 16 2) (fld c.desc 40 8) 64).2 →
     exec (.programLoadDone slot) s =
     .next (s.after fun _ =>
       (List.range r.count).foldl (fun x i =>
         let k := cragKey r.die (r.first + i)
         let g := x.crag k
         let keep := bit (fld c.desc 21 1) 0 && x.reg 0x5000 2 0 == 1 && g.lastOwner == m2.qOwner c.queue && !g.confChanged
         (if keep then x else x.bump 0x7080 8).setCrag k (g.start (m2.qOwner c.queue) keep prog args i r.count)) m2)) ∧
  (∀ (s : State) (slot j : Nat) (c : Cmd) (r : OptimRun) (x : List Byte × List Byte × List Byte × List Byte) (m1 : Mach),
     s.m.clocked = true →
     s.m.cmd? slot = some c →
     tget s.m.eng.crag.optims slot = some r →
     r.started.contains j = true →
     s.m.hasCrags slot = true →
     (s.m.chunkIn slot j c).1.toOption = some x →
     m1 = (s.m.chunkIn slot j c).2 →
     ((m1.chunkOut slot j c r.hyper x.1 x.2.1 x.2.2.1 x.2.2.2).cmd? slot).bind (·.fail) = none →
     exec (.optimChunkReadsDone slot j) s =
     .next (s.after fun _ => (m1.chunkOut slot j c r.hyper x.1 x.2.1 x.2.2.1 x.2.2.2).chunkOver slot j
       (min 4096 ((optimOf c.desc).n - 4096 * j))))

/-- A GATHER, SCATTER or POOL with a valid descriptor and a place takes its place, its queue's sets and its scratchpad's
crag. Delivered again with its table read, a GATHER whose rows are placed asks for them; a SCATTER and a POOL carry
their lists on from where they stand. A row read for a GATHER is written to its destination, one for a POOL is added
to its bag. A prefetched row is kept in its set. 0x5110.46 clears a slot's counters. -/
def Obligations.TalusWork : Prop :=
  (∀ (s : State) (slot : Nat) (c : Cmd) (r : TalusRun),
     s.m.clocked = true →
     s.m.cmd? slot = some c →
     descOp c.desc = 0x10 →
     c.done = false →
     s.m.talus? slot = some r →
     talusScratch c.desc = false →
     r.table ≠ [] →
     r.begun = true →
     exec (.gather slot) s = .next (s.after fun m => (m.gatherZeros slot c).gatherCheck slot c)) ∧
  (∀ (s : State) (slot : Nat) (c : Cmd) (r : TalusRun),
     s.m.clocked = true →
     s.m.cmd? slot = some c →
     descOp c.desc = 0x11 →
     c.done = false →
     s.m.talus? slot = some r →
     r.table ≠ [] →
     exec (.scatter slot) s = .next (s.after fun m => Mach.scatterRun 65536 m slot c)) ∧
  (∀ (s : State) (slot : Nat) (c : Cmd) (r : TalusRun),
     s.m.clocked = true →
     s.m.cmd? slot = some c →
     descOp c.desc = 0x12 →
     c.done = false →
     s.m.talus? slot = some r →
     talusScratch c.desc = false →
     r.table ≠ [] →
     exec (.pool slot) s = .next (s.after fun m => Mach.poolRun 65536 m slot c)) ∧
  (∀ (s : State) (slot : Nat) (c : Cmd),
     s.m.clocked = true →
     s.m.cmd? slot = some c →
     c.done = false →
     s.m.talus? slot = none →
     s.m.astOk c.queue (fld c.desc 16 2) = true →
     s.m.talusTurn slot = true →
     talusScratch c.desc = false →
     s.m.eng.talus.sets = [] →
     (descOp c.desc = 0x10 ∧ gatherOk c.desc = true →
       exec (.gather slot) s = .next (s.after fun m => m.talusPlace slot c)) ∧
     (descOp c.desc = 0x11 ∧ scatterOk c.desc = true →
       exec (.scatter slot) s = .next (s.after fun m => m.talusPlace slot c)) ∧
     (descOp c.desc = 0x12 ∧ poolOk c.desc = true →
       exec (.pool slot) s = .next (s.after fun m => m.talusPlace slot c))) ∧
  (∀ (s : State) (slot pos : Nat) (c : Cmd) (r : TalusRun) (ref : RowRef) (bs : List Byte) (m1 m2 : Mach) (r2 : TalusRun),
     s.m.clocked = true →
     s.m.cmd? slot = some c →
     s.m.talus? slot = some r →
     c.done = false →
     descOp c.desc = 0x10 →
     r.todo.find? (·.pos == pos) = some ref →
     (s.m.loadRow slot c r.table ref).1 = .ok bs →
     m1 = (s.m.loadRow slot c r.table ref).2 →
     (m1.outRow slot c.desc (fld c.desc 40 8 + pos * fld c.desc 48 4) (tabRowBytes r.table) (some bs)).1 = true →
     m2 = (m1.outRow slot c.desc (fld c.desc 40 8 + pos * fld c.desc 48 4) (tabRowBytes r.table) (some bs)).2 →
     m2.talus? slot = some r2 →
     exec (.rowReadDone slot pos) s =
     .next (s.after fun _ => (m2.setTalus slot { r2 with todo := r2.todo.erase ref }).gatherCheck slot c)) ∧
  (∀ (s : State) (slot pos : Nat) (c : Cmd) (r : TalusRun) (ref : RowRef) (row : List Byte) (m1 : Mach),
     s.m.clocked = true →
     s.m.cmd? slot = some c →
     s.m.talus? slot = some r →
     c.done = false →
     descOp c.desc = 0x12 →
     bit (fld c.desc 18 1) 2 = false →
     r.waiting = some ref →
     ref.pos = pos →
     (s.m.loadRow slot c r.table ref).1 = .ok row →
     m1 = (s.m.loadRow slot c r.table ref).2 →
     exec (.rowReadDone slot pos) s =
     .next (s.after fun _ => Mach.poolRun 65536 (m1.setTalus slot { r with
       acc := poolAdd r.table row 0x3F800000 r.acc, waiting := none, next := r.next + 1 }) slot c)) ∧
  (∀ (s : State) (q idx : Nat) (p : PrefetchSet) (r : RowRef) (bs : List Byte) (m1 : Mach),
     s.m.clocked = true →
     s.m.prefetchSet q = some p →
     p.todo.find? (·.idx == idx) = some r →
     p.todo.erase r ≠ [] →
     (s.m.loadDvaOn (prefetchSlot q) (queueDie q) engTalus p.ast r.dva p.rowBytes).1 = .ok bs →
     m1 = (s.m.loadDvaOn (prefetchSlot q) (queueDie q) engTalus p.ast r.dva p.rowBytes).2 →
     exec (.prefetchReadDone q idx) s =
     .next (s.after fun _ => m1.setSets (m1.eng.talus.sets.map fun x => if x = p then
       { p with todo := p.todo.erase r, rows := p.rows ++ [(idx, bs)] } else x))) ∧
  (∀ (s : State) (w : Src),
     s.m.clocked = true →
     s.m.admits w 0x5110 0x46 = true →
     exec (.clearSlotCounters w) s =
     .next (s.after fun m => ((List.range 68).foldl (fun x i => x.setReg 0x5110 (2 + i) (m.heard.rowOf w.q 0x5110 0x46) 0) m.heard).answerWrite w 0x5110 0x46 0))

/-- A SEARCH, INSERT, DELETE or MERGE with a valid descriptor takes its place. With its crags a SEARCH searches the index
and ends with its refused queries and its distances. A lock not yet held is taken by the command or its retry, and the
command goes on. A bell carries on the services of this node. At the origin a counter or the response bound merges the
members accepted; members not accepted by the bound end with TIMEOUT. -/
def Obligations.CirqueWork : Prop :=
  (∀ (s : State) (slot : Nat) (c : Cmd),
     s.m.clocked = true →
     s.m.cmd? slot = some c →
     c.done = false →
     s.m.cirque? slot = none →
     s.m.astOk c.queue (fld c.desc 16 2) = true →
     s.m.cirqueTurn slot = true →
     (descOp c.desc = 0x20 ∧ searchOk c.desc = true →
       exec (.search slot) s = .next (s.after fun m => if fld c.desc 19 1 = 0 then m.cirquePlace slot c
         else (m.cirquePlace slot c).askCrags slot (slotDie slot) (fld c.desc 20 1) (fld c.desc 19 1))) ∧
     (descOp c.desc = 0x21 ∧ insertOk c.desc = true →
       exec (.insert slot) s = .next (s.after fun m => if fld c.desc 19 1 = 0 then m.cirquePlace slot c
         else (m.cirquePlace slot c).askCrags slot (slotDie slot) (fld c.desc 20 1) (fld c.desc 19 1))) ∧
     (descOp c.desc = 0x22 ∧ insertOk c.desc = true → fld c.desc 19 1 = 0 →
       exec (.delete slot) s = .next (s.after fun m => m.cirquePlace slot c)) ∧
     (descOp c.desc = 0x23 ∧ mergeOk c.desc = true → fld c.desc 19 1 = 0 →
       exec (.merge slot) s = .next (s.after fun m => m.cirquePlace slot c))) ∧
  (∀ (s : State) (slot : Nat) (c : Cmd) (r : CirqueRun) (refused scored : Nat) (m1 : Mach),
     s.m.clocked = true →
     s.m.cmd? slot = some c →
     descOp c.desc = 0x20 →
     c.done = false →
     s.m.cirque? slot = some r →
     (fld c.desc 19 1 = 0 ∨ s.m.hasCrags slot = true) →
     bit (fld c.desc 18 1) 3 = false →
     ((Eng.localSearch slot c.desc).on s.m).1.toOption = some (refused, scored) →
     m1 = ((Eng.localSearch slot c.desc).on s.m).2 →
     exec (.search slot) s = .next (s.after fun _ => m1.finish slot (refused % 65536) scored)) ∧
  (∀ (s : State) (slot : Nat) (c : Cmd) (r : CirqueRun),
     s.m.clocked = true →
     s.m.cmd? slot = some c →
     c.done = false →
     s.m.cirque? slot = some r →
     (fld c.desc 19 1 = 0 ∨ s.m.hasCrags slot = true) →
     r.wrote = true →
     r.published = true →
     r.lockDpa.isSome = true →
     (descOp c.desc = 0x21 → exec (.insert slot) s = .next (s.after fun m => m.finish slot 0 0) ∧
       exec (.indexLockRetry slot) s = .next (s.after fun m => m.finish slot 0 0)) ∧
     (descOp c.desc = 0x22 → exec (.delete slot) s = .next (s.after fun m => m.finish slot 0 0) ∧
       exec (.indexLockRetry slot) s = .next (s.after fun m => m.finish slot 0 0)) ∧
     (descOp c.desc = 0x23 ∧ fld c.desc 18 1 = 0 →
       exec (.merge slot) s = .next (s.after fun m => m.finish slot r.detail r.result) ∧
       exec (.indexLockRetry slot) s = .next (s.after fun m => m.finish slot r.detail r.result))) ∧
  (∀ (s : State),
     s.m.clocked = true →
     s.m.reg 0x5220 6 0 = 0 →
     exec .fanoutBell s = .next (s.after fun m => (m.eng.cirque.services.foldl Mach.runService m).fanFinish)) ∧
  (∀ (s : State) (f : Fanout) (w len i node shard : Nat) (c : Cmd) (line bs : List Byte) (m1 m2 : Mach),
     s.m.clocked = true →
     s.m.eng.cirque.fan = some f →
     f.members = [(i, node, shard)] →
     s.m.fanWindow = some (w, len) →
     s.m.cmd? f.slot = some c →
     node ≠ s.m.node →
     s.m.xl.fetches = [] →
     s.m.recall (w + 4096 + 64 * i) 64 false = none →
     (s.m.loadDpa (slotDie f.slot) (w + 4096 + 64 * i) 64).1 = .ok line →
     m1 = (s.m.loadDpa (slotDie f.slot) (w + 4096 + 64 * i) 64).2 →
     fld line 0 8 = f.number →
     fld line 8 2 = 0 →
     m1.recall (w + f.resultsAt) (fld c.desc 48 2 * fld c.desc 22 2 * 16) false = none →
     (m1.loadDpa (slotDie f.slot) (w + f.resultsAt) (fld c.desc 48 2 * fld c.desc 22 2 * 16)).1 = .ok bs →
     m2 = (m1.loadDpa (slotDie f.slot) (w + f.resultsAt) (fld c.desc 48 2 * fld c.desc 22 2 * 16)).2 →
     exec .fanoutCounter s = .next (s.after fun _ => (m2.fanAccept i 0 (fld line 16 8) bs).fanFinish)) ∧
  (∀ (s : State) (f : Fanout),
     s.m.clocked = true →
     s.m.eng.cirque.fan = some f →
     exec .fanoutResponseBoundExpiry s =
     .next (s.after fun m => (f.members.foldl (fun x y => if (tget f.accepted y.1).isSome then x
       else (x.bump 0x70A0 0x0A).fanAccept y.1 stTimeout 0 []) m).fanFinish))

/-- A port above HELLO sends its DIGEST at its period; a DIGEST missing quarantines the port; a quarantined port whose
latest digest agreed is cleared to ACTIVE with notice 0x80D1 and an audit record. A flood not seen before is recorded,
acted on by its kind and sent on; a recorded one expires. A group settles; its progress bound aborts it; a write of
its epoch ends this device's COLLECTIVE of it. -/
def Obligations.Membership : Prop :=
  (∀ (s : State) (p : Nat),
     s.m.clocked = true →
     [7, 8, 9].contains (s.m.pState p) = true →
     exec (.digestPeriodExpiry p) s = .next (s.after fun m => m.sendDigest p false)) ∧
  (∀ (s : State) (p : Nat),
     s.m.clocked = true →
     s.m.digestState p = true →
     s.m.edgePort p = false →
     exec (.digestMissingExpiry p) s =
     .next (s.after fun m => ((m.setReg 0x4501 2 p (setBit (m.reg 0x4501 2 p) 5 true)).setReg 0x4501 7 p 0).quarantine p)) ∧
  (∀ (s : State) (w : Src) (p : Nat),
     s.m.clocked = true →
     s.m.admits w 0x4501 3 = true →
     p < 8 →
     s.m.heard.reg 0x4501 7 p ≠ 0 →
     s.m.heard.pState p = 8 →
     exec (.clearQuarantine w p) s =
     .next (s.after fun m => (((m.heard.setPState p 7).notice 0x80D1 [byteOf p]).auditReq w.q 0x0033 [byteOf p]).answerWrite w 0x4501 3 0)) ∧
  (∀ (s : State) (p : Nat) (f : RFrame),
     s.m.clocked = true →
     p < 8 →
     (s.m.takeArrived p f).edgePort p = false →
     (s.m.takeArrived p f).hall.seen.any (fun x => x.1 == f.src && x.2.1 == f.sequence) = false →
     (f.opcode = 0xC1 → exec (.floodFault p f) s =
       .next (s.after fun m => ((((m.takeArrived p f).floodSeen f.opcode f.src f.sequence).acceptFault f.src (f.word 5)).floodOut f p))) ∧
     (f.opcode = 0xC2 → exec (.floodCollAbort p f) s =
       .next (s.after fun m => ((((m.takeArrived p f).floodSeen f.opcode f.src f.sequence).acceptAbort (f.word 5 % 65536)
         (bits (f.word 5) 23 16)).floodOut f p))) ∧
     (f.opcode = 0xC3 → exec (.floodWarn p f) s =
       .next (s.after fun m => ((m.takeArrived p f).floodSeen f.opcode f.src f.sequence).floodOut f p))) ∧
  (∀ (s : State) (p : Nat) (f : RFrame),
     s.m.clocked = true →
     p < 8 →
     (s.m.takeArrived p f).edgePort p = false →
     (s.m.takeArrived p f).hall.seen.any (fun x => x.1 == f.src && x.2.1 == f.sequence) = true →
     (f.opcode = 0xC1 → exec (.floodFault p f) s = .next (s.after fun m => (m.takeArrived p f).bump 0x70D0 7)) ∧
     (f.opcode = 0xC2 → exec (.floodCollAbort p f) s = .next (s.after fun m => (m.takeArrived p f).bump 0x70D0 7)) ∧
     (f.opcode = 0xC3 → exec (.floodWarn p f) s = .next (s.after fun m => (m.takeArrived p f).bump 0x70D0 7))) ∧
  (∀ (s : State) (origin number : Nat),
     s.m.clocked = true →
     exec (.floodRecordExpiry origin number) s =
     .next (s.after fun m => { m with hall := { m.hall with seen := m.hall.seen.filter fun x => !(x.1 == origin && x.2.1 == number) } })) ∧
  (∀ (s : State) (g : Nat),
     s.m.clocked = true →
     s.m.reg 0x4510 0x0A g = 2 →
     (s.m.groupMembers g).filter (fun n => !maskBit (s.m.oct 0x4502 1 0) n) = s.m.groupMembers g →
     exec (.groupSettleExpiry g) s = .next (s.after fun m => m.setReg 0x4510 0x0A g 1)) ∧
  (∀ (s : State) (g : Nat),
     s.m.clocked = true →
     s.m.reg 0x4510 0x0A g = 2 →
     ((s.m.groupMembers g).filter (fun n => !maskBit (s.m.oct 0x4502 1 0) n)).length ≠ (s.m.groupMembers g).length →
     s.m.reg 0x4510 8 g = 1 →
     exec (.groupSettleExpiry g) s =
     .next (s.after fun m =>
       let rest := (m.groupMembers g).filter (fun n => !maskBit (m.oct 0x4502 1 0) n)
       let n := (m.setReg 0x4510 2 g 1).setOct 0x4510 5 g (rest.foldl (fun b n => setMaskBit b n true) (zeros 64))
       ((n.setReg 0x4510 0x0A g 1).showGroup g).bump 0x70D0 9)) ∧
  (∀ (s : State) (g : Nat),
     s.m.clocked = true →
     (s.m.ownBlock g).isSome = true →
     s.m.sched.slots = [] →
     s.m.hall.colls.any (fun x => x.group == g) = true →
     exec (.progressBoundExpiry g) s = .next (s.after fun m => m.abortGroup g stCollAbort)) ∧
  (∀ (s : State) (w : Src) (v : Nat),
     s.m.clocked = true →
     s.m.admits w 0x4510 9 = true →
     v < 256 →
     exec (.groupEpochWrite w v) s =
     .next (s.after fun m => ((m.heard.endColl (m.heard.rowOf w.q 0x4510 9)).setGroupEpoch (m.heard.rowOf w.q 0x4510 9) v).answerWrite w 0x4510 9 0))

/-- A BEACON heard is kept and the root is chosen again; when it echoes one of this port's beacons, it gives delay and
offset, and the parent's offset is the error. The interval sends a BEACON on every torus port above HELLO. A PTP
exchange of the device's domain gives the error of a root. A reference lost takes LOCKED to FREERUN. A small error
held, or a resynchronisation, takes HOLDOVER to LOCKED; the steering rate below the bound is a free value. -/
def Obligations.Timebase : Prop :=
  (∀ (s : State) (p : Nat) (f : RFrame),
     s.m.clocked = true →
     f.opcode = 0xC0 →
     (s.m.takeArrived p f).torusPort p = true →
     (s.m.takeArrived p f).digestState p = true →
     ((s.m.takeArrived p f).portHall p).sentAt = [] →
     exec (.beacon p f) s =
     .next (s.after fun m =>
       let n := ((m.takeArrived p f).fresh 65536).2
       let b : BeaconIn := { number := f.sequence, arrived := n.now * 65536 + ((m.takeArrived p f).fresh 65536).1
                             dist := bits (f.word 5) 47 40, root := bits (f.word 5) 39 31, forced := bit (f.word 5) 30
                             locked := bit (f.word 5) 29, synced := bit (f.word 5) 27 }
       ((n.setPortHall p { n.portHall p with beacon := some b }).bumpBy 0x4501 9 p 1).chooseRoot)) ∧
  (∀ (s : State),
     s.m.clocked = true →
     s.m.hall.selfRoot = true →
     (List.range s.m.dies).filter (fun p => s.m.torusPort p && s.m.digestState p) = [] →
     exec .beaconIntervalExpiry s =
     .next (s.after fun m => ({ m with hall := { m.hall with selfRoot := false } } : Mach).chooseRoot)) ∧
  (∀ (s : State) (p : Nat),
     s.m.clocked = true →
     s.m.hall.selfRoot = false →
     (List.range s.m.dies).filter (fun p => s.m.torusPort p && s.m.digestState p) = [p] →
     (s.m.portHall p).beacon = none →
     exec .beaconIntervalExpiry s =
     .next (s.after fun m =>
       let r := m.rootFlags
       let n := (m.portHall p).nextBeacon
       ((m.setPortHall p { m.portHall p with nextBeacon := (n + 1) % 65536 }).bump 0x70D0 0x0A).enqueue p 8 false false
         (((m.setPortHall p { m.portHall p with nextBeacon := (n + 1) % 65536 }).bump 0x70D0 0x0A).urgent 0xC0
           (((m.setPortHall p { m.portHall p with nextBeacon := (n + 1) % 65536 }).bump 0x70D0 0x0A).neighbour p)
           (((m.setPortHall p { m.portHall p with nextBeacon := (n + 1) % 65536 }).bump 0x70D0 0x0A).node) 0 n 0
           (r.2.2.2 * 2 ^ 40 + r.1 * 2 ^ 31 + b2n r.2.1 * 2 ^ 30 + b2n r.2.2.1 * 2 ^ 29 + b2n (m.timeState == 2) * 2 ^ 28 +
             b2n (m.timeState != 0) * 2 ^ 27) 0 0))) ∧
  (∀ (s : State) (domain : Nat) (e : Int) (m1 : Mach),
     s.m.clocked = true →
     s.m.reg 0x1320 3 0 = 1 →
     s.m.reg 0x1320 2 0 = domain →
     s.m.cairnUp = true →
     m1 = ({ s.m.setReg 0x1320 0x0A 0 (ofSigned 64 e) with hall := { s.m.hall with ptpLocked := true } } : Mach).chooseRoot →
     m1.reg 0x1320 6 0 = m1.node →
     exec (.ptpMessage domain none (some e)) s = .next (s.after fun _ => m1.timeError (e * 1000))) ∧
  (∀ (s : State) (domain : Nat) (utc : Option Int),
     s.m.clocked = true →
     s.m.reg 0x1320 3 0 = 1 →
     s.m.reg 0x1320 2 0 = domain →
     s.m.cairnUp = true →
     exec (.ptpMessage domain (some utc) none) s = .next (s.after fun m => m.ptpUtc utc)) ∧
  (∀ (s : State) (m1 : Mach),
     s.m.clocked = true →
     s.m.reg 0x1320 6 0 = s.m.node →
     m1 = ({ s.m with hall := { s.m.hall with ptpLocked := false, smallSince := none } } : Mach).chooseRoot →
     m1.timeState = 1 →
     exec .timebaseReferenceLoss s = .next (s.after fun _ => m1.setTimeState 3)) ∧
  (∀ (s : State) (t : Nat),
     s.m.clocked = true →
     s.m.timeState = 2 →
     s.m.hall.smallSince = some t →
     exec .holdoverExitExpiry s =
     .next (s.after fun m =>
       (({ m with hall := { m.hall with smallSince := none } } : Mach).setTimeState 1).steer (toSigned 64 (m.reg 0x1320 9 0)))) ∧
  (∀ (s : State) (w : Src),
     s.m.clocked = true →
     s.m.admits w 0x1320 0x0D = true →
     s.m.heard.timeState = 2 →
     exec (.resynchronise w) s =
     .next (s.after fun m =>
       let e := toSigned 64 (m.heard.reg 0x1320 9 0)
       (((({ m.heard with hall := { m.heard.hall with smallSince := none, resync := true } } : Mach).setTimeState 1).setReg 0x1320 0x0B 0
         (ofSigned 32 (if e < 0 then -100000 else 100000))).auditReq w.q 0x0034 (leBytes 8 (ofSigned 64 e))).answerWrite w 0x1320 0x0D 0))

/-- A READ that passes its checks is answered with the entry's bytes and clears a read-clear entry; a WRITE with an
allowed value is applied; a WRITE of a staged entry joins the writer's set; a segmented read takes its copy; a segment
joins the unfinished write, and both lapse. A COMMIT with nothing against it becomes due; DISCARD empties the set.
SPDM, secured and relayed frames are served; a malformed frame is discarded and counted. -/
def Obligations.CairnRequests : Prop :=
  (∀ (s : State) (q : Requester) (r : Request),
     s.m.clocked = true →
     s.m.reaches q = true →
     s.m.kept? q r.txn = none →
     q ≠ .bare →
     s.m.openGate q r.index r.sub = none →
     reqFaults { r with op := 1 } = [] →
     (s.m.entryBytes q r.index r.sub (bit r.flags 1)).length ≤ 992 →
     ¬ (r.index = 0x3051 ∧ 1 ≤ r.sub) ∧ ¬ (r.index = 0x9010 ∧ r.sub = 5) ∧ ¬ (r.index = 0x7150 ∧ r.sub = 0x0B) →
     exec (.cairnRequestRead q r) s =
     .next (s.after fun m =>
       let bs := m.entryBytes q r.index r.sub (bit r.flags 1)
       (m.heard.readClear q r.index r.sub).answerReq q { r with op := 1 } 0 bs.length bs)) ∧
  (∀ (s : State) (q : Requester) (r : Request) (e : DEntry),
     s.m.clocked = true →
     s.m.reaches q = true →
     s.m.kept? q r.txn = none →
     q ≠ .bare →
     s.m.gate q r.index r.sub = none →
     dictLine r.index r.sub = some e →
     s.m.spanLocked q r.index r.sub (leNat r.data) = false →
     firstAbort (reqFaults { r with op := 2 } ++ valueFaults r.index r.sub r.ty e r.data) = none →
     e.acc = .rw →
     e.ty.isBytes = false →
     (s.m.ownWrite ⟨q, r.txn, false⟩ r.index r.sub (leNat r.data) r.data).isNone = true →
     ¬ (r.index = 0x7150 ∧ r.sub = 0x0B) →
     s.m.writeRange q r.index r.sub (leNat r.data) = false →
     s.m.writeBusy q r.index r.sub = false →
     exec (.cairnRequestWrite q r) s =
     .next (s.after fun m => (m.applyEntry q r.index r.sub (leNat r.data)).heard.answerWrite ⟨q, r.txn, false⟩ r.index r.sub 0)) ∧
  (∀ (s : State) (q : Requester) (r : Request) (e : DEntry),
     s.m.clocked = true →
     s.m.reaches q = true →
     s.m.kept? q r.txn = none →
     q ≠ .bare →
     s.m.gate q r.index r.sub = none →
     dictLine r.index r.sub = some e →
     s.m.spanLocked q r.index r.sub (leNat r.data) = false →
     firstAbort (reqFaults { r with op := 2 } ++ valueFaults r.index r.sub r.ty e r.data) = none →
     e.acc = .rws →
     (s.m.ownWrite ⟨q, r.txn, false⟩ r.index r.sub (leNat r.data) r.data).isNone = true →
     ¬ (r.index = 0x7150 ∧ r.sub = 0x0B) →
     (s.m.stageWrite q r.index r.sub (e.parse r.data)).isOk = true →
     exec (.stagedWrite q r) s =
     .next (s.after fun m => (m.stagePut q r.index r.sub (m.rowOf q r.index r.sub) (e.parse r.data)).heard.answerWrite
       ⟨q, r.txn, false⟩ r.index r.sub 0)) ∧
  (∀ (s : State) (q : Requester) (r : Request),
     s.m.clocked = true →
     s.m.reaches q = true →
     s.m.kept? q r.txn = none →
     q ≠ .bare →
     (¬ (r.index = 0x7150 ∧ r.sub = 0x0B ∨ r.index = 0x9010 ∧ r.sub = 5)) →
     s.m.heard.readGate q r.index r.sub = none →
     reqFaults { r with op := 3 } = [] →
     r.off = 0 →
     exec (.cairnRequestSegRead q r) s =
     .next (s.after fun m =>
       let bs := m.heard.entryBytes q r.index r.sub false
       let n := m.heard.readClear q r.index r.sub
       (n.setReq q { n.req q with segRead := some ⟨r.index, r.sub, bs⟩ }).answerReq q { r with op := 3 } 0 bs.length (bs.take 992))) ∧
  (∀ (s : State) (q : Requester) (r : Request) (m1 : Mach),
     s.m.clocked = true →
     s.m.reaches q = true →
     s.m.kept? q r.txn = none →
     q ≠ .bare →
     ¬ (r.index = 0x6010 ∧ r.sub = 3) ∧ ¬ (r.index = 0x7150 ∧ r.sub = 0x0B) →
     s.m.gate q r.index r.sub = none →
     firstAbort (reqFaults { r with op := 4 } ++ (if r.ty ≠ typeCode r.index r.sub then [abType] else [])) = none →
     (s.m.takeSegment q { r with op := 4 }).1.toOption = some none →
     m1 = (s.m.takeSegment q { r with op := 4 }).2 →
     exec (.cairnRequestSegWrite q r) s = .next (s.after fun _ => m1.heard.answerReq q { r with op := 4 } 0 0 [])) ∧
  (∀ (s : State) (q : Requester) (x : ReqState) (write : Bool),
     s.m.clocked = true →
     tget s.m.cairn.reqs q.code = some x →
     exec (.segmentLapseExpiry q write) s =
     .next (s.after fun m => m.setReq q (if write then { x with segWrite := none } else { x with segRead := none }))) ∧
  (∀ (s : State) (w : Src),
     s.m.clocked = true →
     s.m.reaches w.q = true →
     s.m.kept? w.q w.txn = none →
     s.m.gate w.q 0x1110 1 = none →
     s.m.cairn.commit = none →
     s.m.heard.commitChecks (s.m.heard.req w.q).stage = [] →
     fusesOf s.m.heard (s.m.heard.putAll (s.m.heard.req w.q).stage) = [] →
     exec (.commit w none) s =
     .next (s.after fun m =>
       let v := m.heard.putAll (m.heard.req w.q).stage
       let n := ({ m.heard with sec := { m.heard.sec with flash := { m.heard.sec.flash with recorded := m.heard.sec.flash.burnt } } } : Mach).noticeLow
       let n := n.setReq w.q { n.req w.q with stage := [] }
       let c : PendingCommit :=
         { src := w, stage := (m.heard.req w.q).stage
           remap := (List.range 8).any fun k => n.reg 0x3381 (1 + k) 0 != v.reg 0x3381 (1 + k) 0, scrub := hrtRemoved n v }
       ({ n with cairn := { n.cairn with commit := some c } } : Mach).finishCommit)) ∧
  (∀ (s : State) (w : Src),
     s.m.clocked = true →
     s.m.admits w 0x1110 2 = true →
     exec (.discard w) s =
     .next (s.after fun m => (m.heard.setReq w.q { m.heard.req w.q with stage := [] }).answerWrite w 0x1110 2 0)) ∧
  (∀ (s : State) (address : Nat) (msg : SpdmMsg),
     s.m.clocked = true →
     exec (.cairnSpdmMessage address msg) s = .next (s.after fun m => m.spdm (.cairn address) msg)) ∧
  (∀ (s : State) (n : Nat) (r : Request) (x : ReqState),
     s.m.clocked = true →
     tget s.m.cairn.reqs n = some x →
     n < 8 →
     x.ridgeline = false →
     s.m.cairnUp = true →
     exec (.cairnSecuredMessage n (.request r)) s = .next (s.after fun m => m.serveRequest (.session n) r) ∧
     exec (.cairnSecuredMessage n .other) s = .next (s.after fun m => m.discardFrame)) ∧
  (∀ (s : State) (address txn node : Nat) (bs : List Byte) (msg : SpdmMsg) (tag : Nat),
     s.m.clocked = true →
     s.m.cairnUp = true →
     node ≠ (s.m.bump 0x7110 0x0A).node →
     node < 512 →
     ((s.m.bump 0x7110 0x0A).bump 0x7110 1).nodeDead node = false →
     ((s.m.bump 0x7110 0x0A).bump 0x7110 1).newTag 0 false = some tag →
     exec (.cairnRelay address txn node bs (.spdm msg)) s =
     .next (s.after fun m =>
       let n := (m.bump 0x7110 0x0A).bump 0x7110 1
       n.sendReq 0 { n.reqFrame 0xE0 2 0 (node * 2 ^ 50) 0 tag bs.length 0 0 0 false false (bs ++ zeros ((64 - bs.length % 64) % 64)) with
         mg := true } (.relay address txn))) ∧
  (∀ (s : State) (txn : Nat),
     s.m.clocked = true →
     s.m.cairnUp = true →
     exec (.cairnFrameDiscard .cairn txn) s = .next (s.after fun m => m.discardFrame))

/-- A write of 0x1121.01 gives its requester a slot with an empty queue, its own if it has one; 0x1121.02 frees a slot for
its owner or a Steward. An acknowledgement frees the sent notices up to its sequence. A notice sent and unacknowledged
is sent again while it has gone fewer than five times and the subscriber can be reached; after that it is discarded
and counted, and the third discard in a row drops the subscription with notice 0x8112. -/
def Obligations.Notices : Prop :=
  (∀ (s : State) (w : Src) (bs : List Byte) (k : Bool × Nat × Nat) (n : Nat),
     s.m.clocked = true →
     s.m.admits w 0x1121 1 = true →
     s.m.heard.subscriberKey w.q = some k →
     bs.length = 48 →
     allZero (slice bs 2 6) = true →
     fld bs 8 8 = 0 →
     ((s.m.heard.cairn.subs.find? fun p => p.2.isOf k).map Prod.fst).or (firstFrom 4 0 fun n => (tget s.m.heard.cairn.subs n).isNone) = some n →
     exec (.subscribe w bs) s =
     .next (s.after fun m =>
       ({ m.heard with cairn := { m.heard.cairn with subs := tput m.heard.cairn.subs n { inBand := k.1, owner := k.2.1, addr := k.2.2, port := fld bs 0 2, ring := 0, filter := fld bs 16 32, queue := [], next := 0, lost := 0, lostReported := 0, discards := 0 } } } :
         Mach).answerWrite w 0x1121 1 0)) ∧
  (∀ (s : State) (w : Src) (slot : Nat),
     s.m.clocked = true →
     s.m.admits w 0x1121 2 = true →
     slot < 4 →
     hasRole (s.m.heard.roles w.q) .steward = true →
     exec (.unsubscribe w slot) s =
     .next (s.after fun m => ({ m.heard with cairn := { m.heard.cairn with subs := tdel m.heard.cairn.subs slot } } :
       Mach).answerWrite w 0x1121 2 0)) ∧
  (∀ (s : State) (n sequence : Nat),
     s.m.clocked = true →
     s.m.reaches (.session n) = true →
     exec (.noticeAck n sequence) s = .next (s.after fun m => m.heard.acknowledge (.session n) sequence)) ∧
  (∀ (s : State) (w : Src) (sequence : Nat),
     s.m.clocked = true →
     s.m.admits w 0x1121 3 = true →
     exec (.noticeAckInBand w sequence) s =
     .next (s.after fun m => (if w.q.isInBand then m.heard.acknowledge w.q sequence else m.heard).answerWrite w 0x1121 3 0)) ∧
  (∀ (s : State) (slot sequence : Nat) (x : Subscriber) (n : QueuedNotice),
     s.m.clocked = true →
     tget s.m.cairn.subs slot = some x →
     x.queue.find? (fun n => n.sequence == sequence && n.sends != 0) = some n →
     n.sends < 5 →
     s.m.subReach x = true →
     exec (.noticeRetransmitExpiry slot sequence) s = .next (s.after fun m => m.sendNotice slot x n)) ∧
  (∀ (s : State) (slot sequence : Nat) (x : Subscriber) (n : QueuedNotice),
     s.m.clocked = true →
     tget s.m.cairn.subs slot = some x →
     x.queue.find? (fun n => n.sequence == sequence && n.sends != 0) = some n →
     5 ≤ n.sends →
     x.discards = 2 →
     exec (.noticeRetransmitExpiry slot sequence) s =
     .next (s.after fun m => ({ m.bump 0x7110 8 with cairn := { (m.bump 0x7110 8).cairn with subs := tdel (m.bump 0x7110 8).cairn.subs slot } } :
       Mach).notice 0x8112 [byteOf slot, byteOf x.owner]))

/-- A pulse outside 1 to 31 steps is counted; the second equal pulse in WAITING gives the node ID and starts DAD; 1 s
without one times out with notice 0x8110; the own pulse is driven by a node ID of 0 to 30; an in-band requester may
set the ID while none is held. DAD ends with the port up, or with a conflict and its notice. ICMPv6 requests for the
link-local address are answered. A valid date or time of day sets the calendar, 0 to its source returns the offset to
0. -/
def Obligations.NodeAndCalendar : Prop :=
  (∀ (s : State) (k : Nat),
     s.m.clocked = true →
     s.m.managed = true →
     ((k = 0 ∨ 31 < k) → exec (.enumPulse k) s = .next (s.after fun m => m.bump 0x7110 9)) ∧
     (¬ (k = 0 ∨ 31 < k) → s.m.reg 0x1100 6 0 = 0 → s.m.cairn.enum.lastPulse = some k →
       exec (.enumPulse k) s = .next (s.after fun m => (m.setEnum { m.cairn.enum with lastPulse := some k }).takeNodeId k 1)) ∧
     (¬ (k = 0 ∨ 31 < k) → s.m.reg 0x1100 6 0 = 0 → s.m.cairn.enum.lastPulse ≠ some k →
       exec (.enumPulse k) s = .next (s.after fun m => m.setEnum { m.cairn.enum with lastPulse := some k })) ∧
     (¬ (k = 0 ∨ 31 < k) → (s.m.reg 0x1100 6 0 = 1 ∨ s.m.reg 0x1100 6 0 = 3) →
       exec (.enumPulse k) s = .next (s.after fun m => m.heldPulse k))) ∧
  (∀ (s : State),
     s.m.clocked = true →
     s.m.managed = true →
     s.m.reg 0x1100 6 0 = 0 →
     exec .enumPulseTimeout s = .next (s.after fun m => (m.setReg 0x1100 6 0 2).enumNotice)) ∧
  (∀ (s : State),
     s.m.clocked = true →
     s.m.managed = true →
     s.m.reg 0x1100 1 0 ≤ 30 →
     exec .enumPulsePeriod s =
     .next (s.after fun m => (m.setEnum { m.cairn.enum with drives := true }).emit (.position ((m.reg 0x1100 1 0 + 1) * 8)))) ∧
  (∀ (s : State) (w : Src) (v : Nat),
     s.m.clocked = true →
     s.m.admits w 0x1100 7 = true →
     1 ≤ v ∧ v ≤ 31 →
     w.q.isInBand = true →
     s.m.heard.reg 0x1100 6 0 = 0 →
     exec (.nodeIdSetInBand w v) s =
     .next (s.after fun m => ((m.heard.setReg 0x1100 7 0 v).takeNodeId v 3).answerWrite w 0x1100 7 0)) ∧
  (∀ (s : State),
     s.m.clocked = true →
     s.m.managed = true →
     s.m.cairn.enum.dadRunning = true →
     exec .dadComplete s = .next (s.after fun m => m.setEnum { m.cairn.enum with dadRunning := false, dadDone := true }) ∧
     exec .dadConflict s = .next (s.after fun m =>
       ((m.setEnum { m.cairn.enum with dadRunning := false, dadDone := false }).setReg 0x1100 6 0 4).enumNotice)) ∧
  (∀ (s : State) (ok : Bool),
     s.m.clocked = true →
     s.m.managed = true →
     s.m.reg 0x1100 1 0 ≠ 0xFF →
     exec (.plcaStatusChange ok) s = .next (s.after fun m => m.setReg 0x1100 0x0C 0 (b2n ok))) ∧
  (∀ (s : State),
     s.m.clocked = true →
     s.m.cairnUp = true →
     exec (.icmpv6Message 128 s.m.linkLocal) s = .next (s.after fun m => m.emit (.icmp 129)) ∧
     exec (.icmpv6Message 135 s.m.linkLocal) s = .next (s.after fun m => m.emit (.icmp 136))) ∧
  (∀ (s : State) (w : Src) (v : Nat),
     s.m.clocked = true →
     s.m.admits w 0x1300 1 = true →
     dateOk v = true →
     exec (.dateWrite w v) s = .next (s.after fun m => (m.heard.writeDate w.q v).answerWrite w 0x1300 1 0)) ∧
  (∀ (s : State) (w : Src) (v : Nat),
     s.m.clocked = true →
     s.m.admits w 0x1300 2 = true →
     todOk v = true →
     exec (.timeOfDayWrite w v) s =
     .next (s.after fun m => (m.heard.writeCalendar w.q m.heard.dateNow v).answerWrite w 0x1300 2 0)) ∧
  (∀ (s : State) (w : Src) (bs : List Byte),
     s.m.clocked = true →
     s.m.admits w 0x1300 3 = true →
     bs.length = 12 →
     dateOk (fld bs 0 4) = true →
     todOk (fld bs 4 8) = true →
     exec (.dateAndTimeWrite w bs) s =
     .next (s.after fun m => (m.heard.writeCalendar w.q (fld bs 0 4) (fld bs 4 8)).answerWrite w 0x1300 3 0)) ∧
  (∀ (s : State) (w : Src),
     s.m.clocked = true →
     s.m.admits w 0x1300 5 = true →
     exec (.calendarSourceWrite w 0) s =
     .next (s.after fun m => ((m.heard.setReg 0x1300 5 0 0).setCalendar (m.heard.actorOf w.q.code) 0).answerWrite w 0x1300 5 0))

/-- An input whose edges begin is present; absent ones lose their state, and the active input lost with the other
qualified starts a switch, with none a coast. A qualified input is taken at power-up, ends a coast, or is switched to
when preferred. An input that disagrees is refused. A dwell over lets the ramp go on; the loop locked starts the
timebase, ends a coast or ramps up. The spread moves in steps of 0.05%; a count gives count and frequency, or times
out. -/
def Obligations.References : Prop :=
  (∀ (s : State) (i : Nat),
     s.m.elec.vauxOk = true →
     i < 2 →
     s.m.refState i = 0 →
     s.m.clk.stage ≠ 2 →
     exec (.referencePresent i) s = .next (s.after fun m => m.setRef i 1)) ∧
  (∀ (s : State) (i : Nat),
     s.m.clocked = true →
     i < 2 →
     s.m.refState i ≠ 0 →
     (s.m.setRef i 0).reg 0x2000 0x0A 0 = 0 →
     (s.m.setRef i 0).activeRef = i →
     (s.m.setRef i 0).refState (1 - i) = 2 →
     exec (.referenceAbsent i) s =
     .next (s.after fun m => ((m.setRef i 0).setClk { (m.setRef i 0).clk with locking := false }).startSwitch (1 - i))) ∧
  (∀ (s : State) (i : Nat),
     s.m.clocked = true →
     i < 2 →
     s.m.refState i ≠ 0 →
     (s.m.setRef i 0).reg 0x2000 0x0A 0 = 0 →
     (s.m.setRef i 0).activeRef = i →
     (s.m.setRef i 0).refState (1 - i) ≠ 2 →
     exec (.referenceAbsent i) s = .next (s.after fun m => (m.setRef i 0).startCoast)) ∧
  (∀ (s : State) (i : Nat),
     s.m.powered = true →
     i < 2 →
     s.m.clk.stage = 3 →
     s.m.refState i = 1 →
     (s.m.setRef i 2).activeRef = 0xFF →
     exec (.referenceQualified i) s =
     .next (s.after fun m => ((m.setRef i 2).setReg 0x2000 3 0 i).setClk { (m.setRef i 2).clk with stage := 4, locking := true })) ∧
  (∀ (s : State) (a b : Nat),
     s.m.clocked = true →
     s.m.activeRef = 0 →
     s.m.refState 0 = 2 →
     s.m.refState 1 = 2 →
     s.m.clk.switchTo = none →
     s.m.reg 0x2000 9 0 * ((s.m.corrected 0 a).1 * (s.m.corrected 1 b).2) <
     (if (s.m.corrected 0 a).1 * (s.m.corrected 1 b).2 ≤ (s.m.corrected 1 b).1 * (s.m.corrected 0 a).2 then
       (s.m.corrected 1 b).1 * (s.m.corrected 0 a).2 - (s.m.corrected 0 a).1 * (s.m.corrected 1 b).2
     else (s.m.corrected 0 a).1 * (s.m.corrected 1 b).2 - (s.m.corrected 1 b).1 * (s.m.corrected 0 a).2) * 1000000 →
     exec (.referenceCompare a b) s = .next (s.after fun m => ((m.setRef 1 3).bump 0x7120 2).refNotice 1 2 3)) ∧
  (∀ (s : State) (w : Src) (v : Nat),
     s.m.clocked = true →
     s.m.admits w 0x2000 1 = true →
     v < 2 →
     (s.m.heard.setReg 0x2000 1 0 v).steadyRef = false →
     exec (.preferredReferenceWrite w v) s = .next (s.after fun m => (m.heard.setReg 0x2000 1 0 v).answerWrite w 0x2000 1 0)) ∧
  (∀ (s : State),
     s.m.clocked = true →
     s.m.clk.dwelling = true →
     exec .cclkDwellEnd s = .next (s.after fun m => (m.setClk { m.clk with dwelling := false }).ramp)) ∧
  (∀ (s : State),
     s.m.powered = true →
     s.m.clk.locking = true →
     s.m.clk.stage < 5 →
     exec .pllLocked s =
     .next (s.after fun m => { m with clk := { m.clk with locking := false, stage := 5 }, time := { m.time with running := true } })) ∧
  (∀ (s : State),
     s.m.powered = true →
     s.m.clk.locking = true →
     5 ≤ s.m.clk.stage →
     s.m.reg 0x2000 0x0A 0 = 1 →
     exec .pllLocked s =
     .next (s.after fun m =>
       let n := m.setClk { m.clk with locking := false }
       ((((n.setReg 0x2000 0x0A 0 0).notice 0x8121 (0 :: leBytes 8 n.now)).setReg 0x2001 3 0 0).setReg 0x2200 3 0 2))) ∧
  (∀ (s : State) (w : Src) (v : Nat),
     s.m.clocked = true →
     s.m.admits w 0x2001 1 = true →
     [4, 5, 6, 8].contains v = true →
     exec (.divisorCeilingWrite w v) s =
     .next (s.after fun m => ((m.heard.setReg 0x2001 1 0 v).auditReq w.q 0x0035 [byteOf v]).ramp.answerWrite w 0x2001 1 0)) ∧
  (∀ (s : State) (r : Nat),
     s.m.clocked = true →
     (if s.m.activeRef < 2 then s.m.reg 0x2000 (7 + s.m.activeRef) 0 else 0) = r →
     s.m.reg 0x2002 3 0 < min (s.m.reg 0x2002 1 0) (50 - r) →
     exec .spreadPeriodEnd s =
     .next (s.after fun m => m.setReg 0x2002 3 0 (min (min (m.reg 0x2002 1 0) (50 - r)) (m.reg 0x2002 3 0 + 5)))) ∧
  (∀ (s : State) (w : Src),
     s.m.clocked = true →
     s.m.admits w 0x2010 4 = true →
     s.m.heard.reg 0x2010 5 0 ≠ 1 →
     exec (.frequencyCountStart w) s = .next (s.after fun m => (m.heard.setReg 0x2010 5 0 1).answerWrite w 0x2010 4 0)) ∧
  (∀ (s : State) (count : Nat),
     s.m.clocked = true →
     s.m.reg 0x2010 5 0 = 1 →
     exec (.frequencyGateEnd count) s =
       .next (s.after fun m => ((m.setReg 0x2010 6 0 (count % 2 ^ 64)).setReg 0x2010 7 0
         ((m.nominalHz (m.reg 0x2010 2 0)).1 * count / ((m.nominalHz (m.reg 0x2010 2 0)).2 * m.reg 0x2010 3 0) % 2 ^ 64)).setReg
           0x2010 5 0 2) ∧
     exec .frequencyCountTimeout s = .next (s.after fun m => m.setReg 0x2010 5 0 3))

/-- RESET_IN_L low for 1 µs resets the package with cause 1, a pulse below 100 ns does nothing, between them a free value
decides; released, the straps are sampled. The supplies in range begin step 1; 12 V low stops every clock and back in
range resets it; 3.3 V low stops everything. Each step of Table 15-8 follows the last. Warm and cold resets, shutdown
and an engine's reset do what their rules say; a tripped device only follows its pin. -/
def Obligations.Resets : Prop :=
  (∀ (s : State) (ns : Nat),
     (ns < 100 → exec (.resetInLAssert ns) s = .next s) ∧
     (1000 ≤ ns → s.m.clk.tripped = false → exec (.resetInLAssert ns) s =
       .next (s.pinEvent fun m => ({ m with elec := { m.elec with resetLow := true } } : Mach).coldReset 1)) ∧
     (1000 ≤ ns → s.m.clk.tripped = true → exec (.resetInLAssert ns) s =
       .next (s.pinEvent fun m => { m with elec := { m.elec with resetLow := true } }))) ∧
  (∀ (s : State) (segid refqual : Nat),
     s.m.elec.resetLow = true →
     s.m.clk.tripped = false →
     exec (.resetInLRelease segid refqual) s =
     .next (s.pinEvent fun m =>
       let n : Mach := { m with elec := { m.elec with resetLow := false, segid := segid % 16, refqual := refqual % 8, strapCheck := true } }
       let n := if m.elec.suppliesOk then n.setClk { n.clk with stage := if m.refState 0 = 0 ∧ m.refState 1 = 0 then 2 else 3 } else n
       n.showStraps)) ∧
  (∀ (s : State) (up down : Nat),
     s.m.elec.strapCheck = true →
     exec (.strapCheckDone up down) s =
     .next (s.pinEvent fun m => ({ m with elec := { m.elec with strapCheck := false } } : Mach).setReg 0x2230 3 0
       (Nat.xor (up % 128) (down % 128)))) ∧
  (∀ (s : State),
     s.m.elec.suppliesOk = false →
     s.m.clk.stage = 0 →
     exec .suppliesInRange s =
     .next (s.pinEvent fun m => { m with
       elec := { m.elec with suppliesOk := true, vauxOk := true, vinLow := false }
       clk := { m.clk with stage := if m.elec.resetLow then 1 else 2 } })) ∧
  (∀ (s : State),
     s.m.elec.suppliesOk = true →
     s.m.elec.vinLow = false →
     exec .vinUndervoltage s = .next (s.pinEvent fun m => ({ m with elec := { m.elec with vinLow := true } } : Mach).stopClocks)) ∧
  (∀ (s : State),
     s.m.elec.vinLow = true →
     s.m.clk.tripped = false →
     exec .vinReturnExpiry s = .next (s.pinEvent fun m => ({ m with elec := { m.elec with vinLow := false } } : Mach).coldReset 6)) ∧
  (∀ (s : State),
     s.m.elec.vauxOk = true →
     exec .vauxUndervoltage s =
     .next (s.pinEvent fun m => ({ m with elec := { m.elec with vauxOk := false, suppliesOk := false, vinLow := false, resetLow := true } } :
       Mach).coldReset 0)) ∧
  (∀ (s : State),
     s.m.clocked = true →
     (s.m.clk.stage = 5 → s.m.reg 0x2230 3 0 = 0 →
       exec .powerUpStageDone s = .next (s.after fun m => m.setClk { m.clk with stage := 6 })) ∧
     (s.m.clk.stage = 6 → s.m.clk.booted = true →
       exec .powerUpStageDone s = .next (s.after fun m => m.setClk { m.clk with stage := 7 })) ∧
     (s.m.clk.stage = 7 →
       exec .powerUpStageDone s = .next (s.after fun m => (m.setClk { m.clk with stage := 8 }).domainsOn [0, 1, 5, 6])) ∧
     (s.m.clk.stage = 8 →
       exec .powerUpStageDone s = .next (s.after fun m => ((m.setClk { m.clk with stage := 9 }).domainsOn [2, 3, 4]).ramp)) ∧
     (s.m.clk.stage = 9 → s.m.clk.dwelling = false → s.m.reg 0x2001 2 0 = s.m.divisorInForce →
       exec .powerUpStageDone s = .next (s.after fun m => m.setClk { m.clk with stage := 10 })) ∧
     (s.m.clk.stage = 10 →
       exec .powerUpStageDone s = .next (s.after fun m => (m.setClk { m.clk with stage := 11 }).deviceReady))) ∧
  (∀ (s : State) (w : Src),
     s.m.clocked = true →
     s.m.admits w 0x2200 1 = true →
     s.m.heard.ready = true →
     exec (.warmResetRequest w) s =
       .next (s.after fun m => ((m.heard.auditReq w.q 0x0035 [1]).drainPorts.beginWarm 2 3).answerWrite w 0x2200 1 0) ∧
     exec (.shutdownRequest w) s =
       .next (s.after fun m =>
         let a := (m.heard.auditReq w.q 0x0035 [3]).sendFault 1 0 0 3
         let n := (List.range a.dies).foldl Mach.disablePort a
         (n.beginWarm 4 n.clk.cause).answerWrite w 0x2200 1 0)) ∧
  (∀ (s : State) (w : Src),
     s.m.clocked = true →
     s.m.admits w 0x2200 1 = true →
     s.m.ready = true →
     s.m.kept? w.q w.txn = none →
     s.m.gate w.q 0x2200 1 = none →
     s.m.heard.ready = true →
     exec (.coldResetRequest w) s =
     .next (s.after fun m => ((m.heard.auditReq w.q 0x0035 [2]).answerWrite w 0x2200 1 0).coldReset 2)) ∧
  (∀ (s : State),
     s.m.clocked = true →
     s.m.reg 0x2200 3 0 = 2 →
     s.m.clk.entered = false →
     (s.m.warmLoss.setReg 0x2001 2 0 8).reg 0x2000 0x0A 0 = 0 →
     exec .warmResetEntryDone s =
     .next (s.after fun m =>
       ((m.warmLoss.setReg 0x2001 2 0 8).setClk { (m.warmLoss.setReg 0x2001 2 0 8).clk with dwelling := false }).ramp)) ∧
  (∀ (s : State),
     s.m.clocked = true →
     s.m.reg 0x2200 3 0 = 2 →
     s.m.clk.entered = true →
     s.m.clk.locking = false →
     s.m.clk.dwelling = false →
     s.m.reg 0x2001 2 0 = s.m.divisorInForce →
     exec .warmResetExitDone s =
     .next (s.after fun m =>
       let n := (List.range m.warmConf.dies).foldl (fun x d => [0, 1, 2, 3, 4, 5, 6].foldl (fun x k =>
         if x.domain d k = 2 ∨ x.domain d k = 4 then x.setDomain d k 1 else x) x) m.warmConf
       let n := ((n.setReg 0x2200 3 0 1).setReg 0x2200 2 0 n.clk.cause).bumpBy 0x2200 4 0 1
       ((n.notice 0x8125 [byteOf n.clk.cause]).audit 0x0035 [byteOf n.clk.cause]).bringPorts)) ∧
  (∀ (s : State) (w : Src),
     s.m.clocked = true →
     s.m.admits w 0x2201 3 = true →
     s.m.heard.domain (s.m.heard.sel w.q 0x2201 1) 1 = 1 →
     s.m.heard.reg 0x2201 2 0 < 3 →
     exec (.engineReset w) s =
     .next (s.after fun m =>
       let die := m.heard.sel w.q 0x2201 1
       let eng := m.heard.reg 0x2201 2 0
       let n := (m.heard.engineCmds die eng).foldl (fun x k => x.engineEnd stDomainDown k) m.heard
       ((n.setClk { n.clk with engReset := (n.clk.engReset.filter (· ≠ (die, eng))) ++ [(die, eng)] }).auditReq w.q 0x0035
         [byteOf die, byteOf eng]).answerWrite w 0x2201 3 0)) ∧
  (∀ (s : State) (die eng : Nat),
     s.m.clocked = true →
     exec (.engineResetDone die eng) s =
     .next (s.after fun m => m.setClk { m.clk with engReset := m.clk.engReset.filter (· ≠ (die, eng)) }))

/-- An admitted request takes a domain that is ON and may go down to GOING_DOWN, and one that is OFF to GOING_UP, audited.
Its transfers drained or its bound over, a domain goes OFF, ENG settling its commands; coming up done, it is ON. A
power window's mean is recorded, and the controller stays, or moves a level. The current cut lowers and its end
restores array duty. A reading at the trip level trips the device; one below every limit changes no limit's state. -/
def Obligations.PowerAndHeat : Prop :=
  (∀ (s : State) (w : Src) (die dom : Nat),
     s.m.clocked = true →
     s.m.admits w 0x2220 4 = true →
     s.m.rowOf w.q 0x2220 4 = die * 16 + dom →
     1 ≤ dom ∧ dom < 7 →
     s.m.heard.domain die dom = 1 →
     s.m.heard.downBar die dom = none →
     exec (.domainPowerDownRequest w) s =
     .next (s.after fun m => ((m.heard.setDomain die dom 2).auditReq w.q 0x0035 [byteOf die, byteOf dom]).answerWrite w 0x2220 4 0)) ∧
  (∀ (s : State) (w : Src) (die dom : Nat),
     s.m.clocked = true →
     s.m.admits w 0x2220 4 = true →
     s.m.rowOf w.q 0x2220 4 = die * 16 + dom →
     1 ≤ dom ∧ dom < 7 →
     s.m.heard.domain die dom = 3 →
     exec (.domainPowerUpRequest w) s =
     .next (s.after fun m => ((m.heard.setDomain die dom 4).auditReq w.q 0x0035 [byteOf die, byteOf dom]).answerWrite w 0x2220 4 0)) ∧
  (∀ (s : State) (die dom : Nat),
     s.m.clocked = true →
     s.m.domain die dom = 2 →
     dom ≠ 1 →
     exec (.domainTransfersDrained die dom) s = .next (s.after fun m => m.setDomain die dom 3) ∧
     exec (.domainDownBoundExpiry die dom) s = .next (s.after fun m => (m.bumpBy 0x7120 0x0A 0 0).domainOff die dom)) ∧
  (∀ (s : State) (die : Nat),
     s.m.clocked = true →
     s.m.domain die 1 = 2 →
     exec (.domainTransfersDrained die 1) s = .next (s.after fun m => (m.settleEng die).setDomain die 1 3)) ∧
  (∀ (s : State) (die dom : Nat),
     s.m.clocked = true →
     s.m.domain die dom = 4 →
     exec (.domainUpDone die dom) s = .next (s.after fun m => m.setDomain die dom 1)) ∧
  (∀ (s : State) (watts mA vin vaux vauxMa : Nat) (m1 : Mach),
     s.m.clocked = true →
     m1 = (((((s.m.setReg 0x2232 1 0 (vin % 65536)).setReg 0x2232 2 0 (vaux % 65536)).setReg 0x2232 3 0 (vauxMa % 65536)).setReg 0x2100 3 0 watts).setReg 0x2100 4 0 mA) →
     m1.reg 0x2100 1 0 < watts →
     (m1.setClk { m1.clk with below := 0 }).ramping = false →
     watts * 100 ≥ 98 * m1.reg 0x2100 1 0 →
     exec (.powerEvaluation watts mA vin vaux vauxMa) s =
     .next (s.after fun _ => (((m1.setClk { m1.clk with below := 0 }).levelDown).capCheck watts).showPower true)) ∧
  (∀ (s : State),
     s.m.clocked = true →
     s.m.clk.cut = false →
     exec .currentCut s =
     .next (s.after fun m => ((m.setClk { m.clk with cut := true }).bump 0x7120 9).showPower
       (bit (m.reg 0x2100 7 0) 0))) ∧
  (∀ (s : State),
     s.m.clocked = true →
     s.m.clk.cut = true →
     exec .currentCutEnd s =
     .next (s.after fun m => (m.setClk { m.clk with cut := false }).showPower (bit (m.reg 0x2100 7 0) 0))) ∧
  (∀ (s : State) (n : Nat) (readings : List Int),
     s.m.clocked = true →
     n < s.m.dies →
     readings ≠ [] →
     1150 ≤ maxInt readings →
     exec (.thermalSample false n readings) s =
     .next (s.after fun m =>
       let x := m.setReg 0x2101 2 n (ofSigned 32 (maxInt readings))
       ((x.setReg 0x2100 0x0B 0 (ofSigned 32 (maxInt ((List.range x.dies).map fun d => toSigned 32 (x.reg 0x2101 2 d))))).setReg 0x2100 0x0C 0
         (ofSigned 32 (maxInt ((List.range (2 * x.dies)).map fun k => toSigned 32 (x.reg 0x2101 (3 + k % 2) (k / 2)))))).trip)) ∧
  (∀ (s : State) (n : Nat) (readings : List Int) (m1 : Mach),
     s.m.clocked = true →
     n < s.m.dies →
     readings ≠ [] →
     maxInt readings < 1050 →
     s.m.clk.critical = false →
     m1 = (let x := s.m.setReg 0x2101 2 n (ofSigned 32 (maxInt readings))
       (x.setReg 0x2100 0x0B 0 (ofSigned 32 (maxInt ((List.range x.dies).map fun d => toSigned 32 (x.reg 0x2101 2 d))))).setReg 0x2100 0x0C 0
         (ofSigned 32 (maxInt ((List.range (2 * x.dies)).map fun k => toSigned 32 (x.reg 0x2101 (3 + k % 2) (k / 2)))))) →
     maxInt ((List.range s.m.dies).map fun d => toSigned 32 ((s.m.setReg 0x2101 2 n (ofSigned 32 (maxInt readings))).reg 0x2101 2 d)) ≤ ((10 * m1.reg 0x2100 8 0 : Nat) : Int) →
     exec (.thermalSample false n readings) s =
     .next (s.after fun _ => (m1.setClk { m1.clk with hotDie := false }).showPower (bit (m1.reg 0x2100 7 0) 0)))

/-- At step 7 a valid image is chosen and started, with the tallies at their most restrictive when no copy of their record
qualifies; without one the device waits and tries again. A segment empties the other slot and joins its image.
Activating a valid image prefers it in trial. A takeover makes it the running one; its timeout prefers the old one and
fails the update. The claim window closes; a flash write done, retried or lost settles the oldest audit entry. -/
def Obligations.BootAndUpdate : Prop :=
  (∀ (s : State) (ok : Bool) (k : Nat),
     s.m.clocked = true →
     s.m.clk.stage = 6 →
     s.m.clk.booted = false →
     s.m.chooseSlot = (some k, 0) →
     (s.m.bumpBy 0x7130 3 0 0).sec.flash.recorded = (s.m.bumpBy 0x7130 3 0 0).sec.flash.burnt →
     exec (.bootChoose ok) s =
     .next (s.after fun m => (if ok then m.bumpBy 0x7130 3 0 0 else (m.bumpBy 0x7130 3 0 0).tallyRejected).startImage k)) ∧
  (∀ (s : State) (ok : Bool),
     s.m.clocked = true →
     s.m.clk.stage = 6 →
     s.m.clk.booted = false →
     s.m.chooseSlot = (none, 2) →
     exec (.bootChoose ok) s =
       .next (s.after fun m => (m.bumpBy 0x7130 3 0 2).setClk { (m.bumpBy 0x7130 3 0 2).clk with noImage := true }) ∧
     (s.m.clk.noImage = true → exec (.bootRetryExpiry ok) s =
       .next (s.after fun m => (m.bumpBy 0x7130 3 0 2).setClk { (m.bumpBy 0x7130 3 0 2).clk with noImage := true }))) ∧
  (∀ (s : State) (q : Requester) (r : Request) (m1 : Mach),
     s.m.clocked = true →
     r.op = 4 →
     r.index = 0x6010 →
     r.sub = 3 →
     s.m.fresh? q r.txn = true →
     s.m.heard.gate q 0x6010 3 = none →
     firstAbort (reqFaults r ++ (if r.ty ≠ typeCode 0x6010 3 then [abType] else []) ++
     (if [2, 3, 4].contains (s.m.heard.reg 0x6010 5 0) then some abBusy else none).toList) = none →
     (s.m.heard.takeSegment q r).1.toOption = some none →
     m1 = (s.m.heard.takeSegment q r).2 →
     exec (.imageUpload q r) s =
     .next (s.after fun _ => ((m1.setFlash (m1.sec.flash.setSlot m1.otherSlot none)).setReg 0x6010 5 0 1).answerReq q r 0 0 [])) ∧
  (∀ (s : State) (w : Src),
     s.m.clocked = true →
     s.m.admits w 0x6010 4 = true →
     s.m.heard.imageValid (s.m.heard.sec.flash.slot s.m.heard.otherSlot) = true →
     [2, 3, 4].contains (s.m.heard.reg 0x6010 5 0) = false →
     s.m.heard.hasStandby = true →
     exec (.activateLive w) s =
       .next (s.after fun m => (((((m.heard.prefer m.heard.otherSlot true).setReg 0x6010 5 0 3).setReg 0x6010 6 0 2).auditReq w.q 0x0002
         [1, byteOf m.heard.otherSlot]).answerWrite w 0x6010 4 0)) ∧
     exec (.activateAtColdReset w) s =
       .next (s.after fun m => ((((m.heard.prefer m.heard.otherSlot true).setReg 0x6010 5 0 4).auditReq w.q 0x0002
         [2, byteOf m.heard.otherSlot]).answerWrite w 0x6010 4 0))) ∧
  (∀ (s : State),
     s.m.clocked = true →
     s.m.reg 0x6010 5 0 = 3 →
     s.m.hasStandby = true →
     exec .handoverDone s =
     .next (s.after fun m =>
       let k := m.otherSlot
       let n := m.setFlash { m.sec.flash with boot := m.sec.flash.boot.map fun b => { b with trial := false } }
       (((((n.setReg 0x6010 1 0 k).setReg 0x6010 2 0 (((n.sec.flash.slot k).map (·.release)).getD 0)).setReg 0x6010 5 0 0).setReg 0x6010 6 0
         1).updateNotice k).audit 0x0002 [3, byteOf k])) ∧
  (∀ (s : State),
     s.m.clocked = true →
     s.m.reg 0x6010 5 0 = 3 →
     exec .handoverTimeout s =
     .next (s.after fun m =>
       let k := m.otherSlot
       let n := ((m.prefer (1 - k) false).setReg 0x6010 5 0 5)
       ((n.setReg 0x6010 6 0 (if m.hasStandby then 1 else 0)).updateNotice k).audit 0x0002 [5, byteOf k])) ∧
  (∀ (s : State),
     s.m.clocked = true →
     exec .claimWindowExpiry s = .next (s.after fun m => { m with sec := { m.sec with claimable := false } })) ∧
  (∀ (s : State) (n : Nat) (rest : List Nat),
     s.m.clocked = true →
     s.m.sec.auditUnwritten = n :: rest →
     exec (.auditFlashWriteDone true) s =
       .next (s.after fun m => { m with sec := { m.sec with auditUnwritten := rest, auditRetried := false } }) ∧
     (s.m.sec.auditRetried = false → exec (.auditFlashWriteDone false) s =
       .next (s.after fun m => { m with sec := { m.sec with auditRetried := true } })) ∧
     (s.m.sec.auditRetried = true → exec (.auditFlashWriteDone false) s =
       .next (s.after fun m => ((({ m with sec := { m.sec with
         auditUnwritten := rest, auditLost := m.sec.auditLost ++ [n], auditRetried := false } } : Mach).bump 0x7130 0x0A).notice 0x8137
           (leBytes 8 n)))))

/-- A tenant whose bounce region and paths qualify enters; once no other owner's command is in flight the engines are
cleared, the sealed region scrubbed and the keys made: ON. An exit asked for, or the tenant without a path for its
time, is ended likewise once the tenant's commands have gone, the keys destroyed; at the entry bound the commands that
hold it up end with TENANT_BUSY. A region within its grants that meets no other is registered; its package then
decides it; unbound, its key is gone. -/
def Obligations.ConfidentialMode : Prop :=
  (∀ (s : State) (w : Src),
     s.m.clocked = true →
     s.m.admits w 0x6020 5 = true →
     s.m.heard.reg 0x6001 2 0 ≠ 0 →
     s.m.heard.reg 0x3430 5 s.m.heard.tenant = 1 →
     s.m.heard.bounceOk = true →
     s.m.heard.tenantPathsOk = true →
     s.m.heard.confState = 0 →
     exec (.confidentialEnter w) s = .next (s.after fun m => (m.heard.setConf 1).answerWrite w 0x6020 5 0)) ∧
  (∀ (s : State) (w : Src),
     s.m.clocked = true →
     s.m.admits w 0x6020 6 = true →
     s.m.heard.confState = 2 →
     exec (.confidentialExit w) s = .next (s.after fun m => (m.heard.setConf 3).answerWrite w 0x6020 6 0)) ∧
  (∀ (s : State),
     s.m.clocked = true →
     exec .confidentialEntryBoundExpiry s = .next (s.after fun m => m.confWaits.foldl (fun x k => x.engineEnd stTenantBusy k) m)) ∧
  (∀ (s : State) (key : List Byte),
     s.m.clocked = true →
     s.m.confState = 1 →
     s.m.confWaits = [] →
     exec (.confidentialEntryDone key) s =
     .next (s.after fun m =>
       let n := (m.clearEngines.scrubSealed.setReg 0x6020 9 0 0).setReg 0x6020 0x0A 0 0
       ({ n with sec := { n.sec with bounceKey := slice key 0 32 } } : Mach).setConf 2)) ∧
  (∀ (s : State),
     s.m.clocked = true →
     s.m.confState = 3 →
     s.m.confWaits = [] →
     exec .confidentialExitDone s =
     .next (s.after fun m =>
       ({ m.clearEngines.scrubSealed with sec := { m.clearEngines.scrubSealed.sec with bounceKey := [] } } : Mach).setConf 0)) ∧
  (∀ (s : State),
     s.m.clocked = true →
     s.m.confState = 2 →
     s.m.paths s.m.tenant = [] →
     s.m.reg 0x6020 8 0 ≠ 0 →
     exec .pathLossExitExpiry s = .next (s.after fun m => m.setConf 3)) ∧
  (∀ (s : State) (w : Src) (k base len who : Nat),
     s.m.clocked = true →
     s.m.admits w 0x6031 6 = true →
     s.m.heard.sel w.q 0x6031 1 = k →
     s.m.heard.reg 0x6031 4 k = base →
     s.m.heard.reg 0x6031 5 k = len →
     s.m.heard.bindOwner w.q = who →
     base % 2 ^ 21 = 0 →
     len % 2 ^ 21 = 0 →
     len ≠ 0 →
     s.m.heard.sec.bound = [] →
     s.m.heard.inGrant who (s.m.heard.reg 0x6031 2 k) (s.m.heard.reg 0x6031 3 k) = true →
     s.m.heard.inGrant who base len = true →
     exec (.weightBind w) s =
     .next (s.after fun m =>
       (((({ m.heard with sec := { m.heard.sec with bound := tput m.heard.sec.bound k { base := base, len := len, key := [] } } } :
         Mach).setReg 0x6031 7 k 0).setReg 0x6031 8 k 0).setReg 0x6031 9 k who).answerWrite w 0x6031 6 0)) ∧
  (∀ (s : State) (w : Src) (k : Nat),
     s.m.clocked = true →
     s.m.admits w 0x6031 6 = true →
     s.m.heard.sel w.q 0x6031 1 = k →
     exec (.weightUnbind w) s =
     .next (s.after fun m =>
       ((((({ m.heard with sec := { m.heard.sec with bound := tdel m.heard.sec.bound k } } : Mach).setReg 0x6031 7 k 0).setReg 0x6031 8 k
         0).setReg 0x6031 9 k 0xFF).auditReq w.q 0x0021 [byteOf k, 0, 0]).answerWrite w 0x6031 6 0)) ∧
  (∀ (s : State) (slot : Nat) (b : BoundRegion) (p : List Byte) (m1 : Mach),
     s.m.clocked = true →
     tget s.m.sec.bound slot = some b →
     s.m.reg 0x6031 7 slot = 0 →
     s.m.recall (s.m.reg 0x6031 2 slot) (s.m.reg 0x6031 3 slot) false = none →
     (s.m.loadDpa 0 (s.m.reg 0x6031 2 slot) (s.m.reg 0x6031 3 slot)).1 = .ok p →
     m1 = (s.m.loadDpa 0 (s.m.reg 0x6031 2 slot) (s.m.reg 0x6031 3 slot)).2 →
     (∀ key, m1.checkPackage p = .ok key →
       exec (.bindingDecision slot) s =
         .next (s.after fun _ =>
           (((({ m1 with sec := { m1.sec with bound := tput m1.sec.bound slot { b with key := key } } } : Mach).setReg 0x6031 7 slot 1).setReg
             0x6031 8 slot 0).notice 0x8134 [byteOf slot, 1, 0]).audit 0x0021 [byteOf slot, 1, 0])) ∧
     (∀ why, m1.checkPackage p = .error why →
       exec (.bindingDecision slot) s =
         .next (s.after fun _ =>
           ((((m1.bump 0x7130 7).setReg 0x6031 7 slot 2).setReg 0x6031 8 slot why).notice 0x8134 [byteOf slot, 2, byteOf why]).audit 0x0021
             [byteOf slot, 2, byteOf why])))

/-- A snapshot captures the counters into its requester's bank; a clear drops what is cleared. Units are armed, disarmed
and cleared; software starts and stops are events; the events of the lowest stamp are applied to every unit when its
window ends. An eye measured is kept for its lane and the next comes in turn. A margin evaluation records its readings
and evaluates every source. The trace starts, stops, and ends when the records after its trigger are written. -/
def Obligations.Telemetry : Prop :=
  (∀ (s : State) (w : Src),
     s.m.clocked = true →
     s.m.admits w 0x7000 1 = true →
     exec (.snapshot w) s =
     .next (s.after fun m => (m.heard.setReq w.q { m.heard.req w.q with
       snap := m.heard.cairn.regs.filter (fun x => snapCounter (keyIndex x.1) (keySub x.1)), snapTime := m.heard.now }).answerWrite w 0x7000 1 0)) ∧
  (∀ (s : State) (w : Src),
     s.m.clocked = true →
     s.m.admits w 0x7000 3 = true →
     exec (.clearCounters w) s = .next (s.after fun m => (m.heard.dropRegs clearedCounter).answerWrite w 0x7000 3 0)) ∧
  (∀ (s : State) (w : Src) (u : Nat),
     s.m.clocked = true →
     s.m.admits w 0x7140 5 = true →
     s.m.heard.rowOf w.q 0x7140 5 = u →
     (s.m.heard.span u = 0 → exec (.spanArm w) s =
       .next (s.after fun m => ((m.heard.setReg 0x7140 5 u 1).setReg 0x7140 8 u 1).answerWrite w 0x7140 5 0)) ∧
     exec (.spanDisarm w) s =
       .next (s.after fun m => (((m.heard.setTele { m.heard.tele with starts := tdel m.heard.tele.starts u }).setReg 0x7140 5 u 0).setReg
         0x7140 8 u 0).answerWrite w 0x7140 5 0)) ∧
  (∀ (s : State) (w : Src),
     s.m.clocked = true →
     s.m.admits w 0x7140 6 = true →
     exec (.softwareStart w) s = .next (s.after fun m => (m.heard.event 0 0).answerWrite w 0x7140 6 0)) ∧
  (∀ (s : State) (w : Src),
     s.m.clocked = true →
     s.m.admits w 0x7140 7 = true →
     exec (.softwareStop w) s = .next (s.after fun m => (m.heard.spanEvent 0 1).answerWrite w 0x7140 7 0)) ∧
  (∀ (s : State) (t : Nat),
     s.m.clocked = true →
     (s.m.tele.events.map (·.stamp)).min? = some t →
     exec .spanSettleExpiry s =
     .next (s.after fun m => (List.range 16).foldl (fun x u => x.applySpan (m.tele.events.partition fun e => e.stamp == t).1 u)
       (m.setTele { m.tele with events := (m.tele.events.partition fun e => e.stamp == t).2 }))) ∧
  (∀ (s : State) (w : Src),
     s.m.clocked = true →
     s.m.admits w 0x7140 0x13 = true →
     exec (.clearSpan w) s =
     .next (s.after fun m => ((List.range 10).foldl (fun x k => x.setReg 0x7140 (9 + k) (m.heard.rowOf w.q 0x7140 0x13)
       (dictDefault 0x7140 (9 + k))) m.heard).answerWrite w 0x7140 0x13 0)) ∧
  (∀ (s : State) (p height width first : Nat) (rest : List Nat),
     s.m.clocked = true →
     s.m.lanesUsed p = first :: rest →
     p < 8 →
     s.m.numberedState p = true →
     (first :: rest).contains (tgetD s.m.tele.eyeLane p first) = true →
     exec (.eyeMeasurementDone p height width) s =
     .next (s.after fun m =>
       let lane := tgetD m.tele.eyeLane p first
       m.setTele { m.tele with
         eyes := tput m.tele.eyes (p * 32 + lane) (height % 65536, width % 65536, m.now),
         eyeLane := tput m.tele.eyeLane p (((first :: rest).find? fun l => decide (lane < l)).getD first) })) ∧
  (∀ (s : State) (rails : List (Nat × Int × Nat)) (slacks : List (Nat × Int)),
     s.m.clocked = true →
     exec (.marginEvaluation rails slacks) s =
     .next (s.after fun m =>
       let a := rails.foldl (fun x r => x.setTele { x.tele with rails := tput x.tele.rails r.1 (ofSigned 32 r.2.1, r.2.2 % 65536) }) m
       let b := slacks.foldl (fun x r => x.setTele { x.tele with slack := tput x.tele.slack r.1 (ofSigned 32 r.2) }) a
       let c := (List.range b.dies).foldl (fun x p => x.setTele { x.tele with
         codewords := tput x.tele.codewords p ((x.reg (0x7050 + p) 8 p :: tgetD x.tele.codewords p []).take 101) }) b
       (List.range ((c.marginOne 0 0xF).marginOne 1 0xF).dies).foldl (fun x p => [2, 3, 4, 5, 6].foldl (fun x k => x.marginOne k p) x)
         ((c.marginOne 0 0xF).marginOne 1 0xF))) ∧
  (∀ (s : State) (w : Src),
     s.m.clocked = true →
     s.m.admits w 0x9000 7 = true →
     s.m.heard.tracing = false →
     exec (.traceStart w) s =
     .next (s.after fun m =>
       let t : Trace := {
         dieMask := m.heard.reg 0x9000 1 0, srcMask := m.heard.reg 0x9000 2 0, ring := m.heard.reg 0x9000 3 0,
         length := m.heard.reg 0x9000 4 0, trigger := m.heard.reg 0x9000 5 0, postLeft := 0, sequence := m.heard.tele.trace.sequence }
       (((((((m.heard.setTele { m.heard.tele with trace := t }).setReg 0x9000 8 0 1).setReg 0x9000 9 0 0).setReg 0x9000 0x0A 0 0).setReg
         0x9000 0x0B 0 0).setReg 0x9000 0x0C 0 (2 ^ 64 - 1)).auditUncoded w.q [1]).answerWrite w 0x9000 7 0)) ∧
  (∀ (s : State) (w : Src),
     s.m.clocked = true →
     s.m.admits w 0x9000 7 = true →
     exec (.traceStop w) s = .next (s.after fun m => (m.heard.stopTrace.auditUncoded w.q [2]).answerWrite w 0x9000 7 0)) ∧
  (∀ (s : State),
     s.m.clocked = true →
     s.m.reg 0x9000 8 0 = 2 →
     s.m.tele.trace.postLeft = 0 →
     exec .tracePostTriggerDone s = .next (s.after fun m => m.stopTrace))

/-- A module inserted initialises; ready with an application it is READY, without one UNSUITABLE; its time or its fault
flag take it to FAULT, where a retry begins again; removed, it is ABSENT. A poll records powers; a failed one is
counted. A map access passes its checks and is answered. The TAP loads what it accepts and BYPASS otherwise. A
scratchpad access with its bank free is made, without a grant it ends Busy. A line's check keeps its state and raises
notice 0x8151 on two lines. -/
def Obligations.ModulesAndDebug : Prop :=
  (∀ (s : State) (i : Nat),
     s.m.position i = true →
     s.m.moduleState i = 0 →
     exec (.moduleInserted i) s =
     .next (s.atPort fun m => (m.setModule i { m.module i with present := true }).setModuleState i 1)) ∧
  (∀ (s : State) (i : Nat),
     s.m.position i = true →
     exec (.moduleRemoved i) s =
     .next (s.atPort fun m =>
       let n := (m.setModule i Module.absent).setModuleState i 0
       n.setTele { n.tele with power := n.tele.power.filter fun p => p.1 / 8 ≠ i })) ∧
  (∀ (s : State) (i app a b c d : Nat),
     s.m.clocked = true →
     s.m.position i = true →
     s.m.moduleState i = 1 →
     (app = 0 → exec (.moduleReady i app a b c d) s = .next (s.after fun m => (m.setModuleState i 3).setCause (i / 4) 12)) ∧
     (app ≠ 0 → exec (.moduleReady i app a b c d) s =
       .next (s.after fun m => ((m.setModule i { m.module i with rxWarn := a, rxAlarm := b, txWarn := c, txAlarm := d }).setModuleState i
         2).setReg 0x7150 3 i (app % 256)))) ∧
  (∀ (s : State) (i : Nat),
     s.m.clocked = true →
     s.m.moduleState i = 1 →
     exec (.moduleInitTimeout i) s = .next (s.after fun m => m.moduleFault i)) ∧
  (∀ (s : State) (i : Nat),
     s.m.clocked = true →
     s.m.moduleState i = 4 →
     exec (.moduleFaultRetryExpiry i) s = .next (s.after fun m => m.setModuleState i 1)) ∧
  (∀ (s : State) (i : Nat) (lanes : List (Nat × Nat)) (fault : Bool),
     s.m.clocked = true →
     s.m.moduleState i = 2 →
     exec (.modulePoll i none) s = .next (s.after fun m => m.busFailed i) ∧
     exec (.modulePoll i (some (lanes, fault))) s =
       .next (s.after fun m =>
         let n := ((lanes.take 8).zipIdx).foldl (fun x y => x.setTele { x.tele with power := tput x.tele.power (i * 8 + y.2) (ofSigned 32 (dbm (y.1.1 % 65536)), ofSigned 32 (dbm (y.1.2 % 65536))) })
           (m.setModule i { m.module i with busFails := 0 })
         if fault then n.moduleFault i else n)) ∧
  (∀ (s : State) (w : Src) (bs : List Byte),
     s.m.clocked = true →
     s.m.fresh? w.q w.txn = true →
     s.m.heard.readGate w.q 0x7150 0x0B = none →
     s.m.heard.mapFault w.q (s.m.heard.sel w.q 0x7150 0x0A) false = none →
     exec (.moduleMapRead w (some bs)) s =
     .next (s.after fun m =>
       let i := m.heard.sel w.q 0x7150 1
       let d := slice bs 0 (m.heard.sel w.q 0x7150 0x0A)
       (m.heard.setModule i { m.heard.module i with busFails := 0 }).answer w.q
         ⟨w.txn, 1, 0x7150, 0x0B, typeCode 0x7150 0x0B, 0, d.length, d⟩)) ∧
  (∀ (s : State) (w : Src) (bs : List Byte),
     s.m.clocked = true →
     s.m.admits w 0x7150 0x0B = true →
     bs.length = s.m.heard.sel w.q 0x7150 0x0A →
     s.m.heard.mapFault w.q bs.length true = none →
     exec (.moduleMapWrite w bs true) s =
     .next (s.after fun m =>
       let i := m.heard.sel w.q 0x7150 1
       ((m.heard.setModule i { m.heard.module i with busFails := 0 }).emit (.moduleWrite i (m.heard.sel w.q 0x7150 8)
         (m.heard.sel w.q 0x7150 9) bs)).answerWrite w 0x7150 0x0B 0)) ∧
  (∀ (s : State) (code : Nat),
     s.m.elec.vauxOk = true →
     (code = 1 → exec (.tapInstructionUpdate code) s = .next (s.after fun m => m.setTele { m.tele with tapInstr := 1, tapRefused := false })) ∧
     (code = 2 → s.m.reg 0x6001 1 0 ≠ 1 → s.m.confState = 0 → exec (.tapInstructionUpdate code) s =
       .next (s.after fun m => m.setTele { m.tele with tapInstr := 2, tapRefused := false })) ∧
     (code = 2 → s.m.reg 0x6001 1 0 = 1 → exec (.tapInstructionUpdate code) s =
       .next (s.after fun m => m.setTele { m.tele with tapInstr := 0xFF, tapRefused := true })) ∧
     (3 ≤ code ∧ code ≤ 7 → s.m.pinsAccepted = true → exec (.tapInstructionUpdate code) s =
       .next (s.after fun m => m.setTele { m.tele with tapInstr := code, tapRefused := false })) ∧
     (3 ≤ code ∧ code ≤ 7 → s.m.pinsAccepted = false → exec (.tapInstructionUpdate code) s =
       .next (s.after fun m => m.setTele { m.tele with tapInstr := 0xFF, tapRefused := true }))) ∧
  (∀ (s : State) (w : Src) (bs : List Byte) (m1 : Mach),
     s.m.clocked = true →
     s.m.tele.scratchAsk = none →
     s.m.fresh? w.q w.txn = true →
     s.m.heard.readGate w.q 0x9010 5 = none →
     s.m.heard.scratchFault w.q = none →
     s.m.heard.scratchFree w.q = true →
     ((s.m.heard.setTele { s.m.heard.tele with scratchAsk := none }).scratchRead (s.m.heard.sel w.q 0x9010 1) (s.m.heard.sel w.q 0x9010 2) 0 0xFFFF (s.m.heard.sel w.q 0x9010 3) (s.m.heard.sel w.q 0x9010 4)).1 = bs →
     m1 = ((s.m.heard.setTele { s.m.heard.tele with scratchAsk := none }).scratchRead (s.m.heard.sel w.q 0x9010 1) (s.m.heard.sel w.q 0x9010 2) 0 0xFFFF (s.m.heard.sel w.q 0x9010 3) (s.m.heard.sel w.q 0x9010 4)).2 →
     exec (.debugScratchRead w) s =
     .next (s.after fun _ => m1.answer w.q ⟨w.txn, 1, 0x9010, 5, typeCode 0x9010 5, 0, bs.length, bs⟩)) ∧
  (∀ (s : State) (w : Src) (bs : List Byte),
     s.m.clocked = true →
     s.m.tele.scratchAsk = none →
     s.m.fresh? w.q w.txn = true →
     s.m.heard.gate w.q 0x9010 5 = none →
     bs.length = s.m.heard.sel w.q 0x9010 4 →
     s.m.heard.scratchFault w.q = none →
     s.m.heard.scratchFree w.q = true →
     exec (.debugScratchWrite w bs) s =
     .next (s.after fun m =>
       let die := m.heard.sel w.q 0x9010 1
       let n := (m.heard.setTele { m.heard.tele with scratchAsk := none }).scratchWrite die (m.heard.sel w.q 0x9010 2) 0 0xFFFF
         (m.heard.sel w.q 0x9010 3) bs
       (n.auditUncoded w.q ([byteOf die, byteOf (n.sel w.q 0x9010 2)] ++ leBytes 4 (n.sel w.q 0x9010 3))).answer w.q
         ⟨w.txn, 2, 0x9010, 5, typeCode 0x9010 5, 0, 0, []⟩)) ∧
  (∀ (s : State) (d : DebugAccess),
     s.m.clocked = true →
     s.m.tele.scratchAsk = some d →
     exec .debugScratchGrantTimeout s =
     .next (s.after fun m => (m.setTele { m.tele with scratchAsk := none }).answer (requesterOf d.req)
       ⟨d.txn, if d.write then 2 else 1, 0x9010, 5, typeCode 0x9010 5, abBusy, 0, []⟩)) ∧
  (∀ (s : State) (st : Nat),
     s.m.elec.vauxOk = true →
     (st = 1 → s.m.lineDriven 0 = false → s.m.lineState 0 ≠ 1 →
       exec (.sidebandLineCheck 0 st) s = .next (s.after fun m => m.setReg 0x2231 1 0 1)) ∧
     (st = 2 → s.m.lineDriven 0 = true → s.m.lineState 0 ≠ 2 →
       exec (.sidebandLineCheck 0 st) s = .next (s.after fun m => m.setReg 0x2231 1 0 2)) ∧
     (st = 0 → s.m.lineState 0 ≠ 0 →
       exec (.sidebandLineCheck 0 st) s = .next (s.after fun m => m.setReg 0x2231 1 0 0)))

/-- A step of a state with a command at the front of its queue is that command's exec on the state with the queue's rest.
A step of a state whose queue is empty is a next state: the machine's tick, the queue still empty (the model's choice,
log entry 2). -/
def Obligations.StepTakesFront : Prop :=
  (∀ (c : Instr) (s : State),
     step { s with pending := c :: s.pending } = exec c s) ∧
  (∀ (m : Mach),
     step ⟨m, []⟩ = .next ⟨m.tick, []⟩)

/-- The state after reset has no command waiting, no supply in range, RESET_IN_L low, no clock running and the device not
ready; the timebase reads 0; no reference is active; every domain but ALWAYS is OFF, and ALWAYS of dies 0 and 1 is ON;
every granule is UNBACKED; every queue is DISABLED; no command is on a scoreboard; nothing has been sent. Its memory
is in the canonical form and its pins are consistent. (That a power-up starts with no DIMM and from a KZ8-8 is the
model's choice, log entry 1.) -/
def Obligations.ResetState : Prop :=
    State.reset.pending = [] ∧ State.reset.m.pinsConsistent = true ∧ State.reset.m.elec.suppliesOk = false ∧
    State.reset.m.elec.resetLow = true ∧ State.reset.m.clocked = false ∧ State.reset.m.ready = false ∧ State.reset.m.time.count = 0 ∧
    State.reset.m.time.running = false ∧ State.reset.m.activeRef = 0xFF ∧ (∀ d < 8, ∀ k < 7, State.reset.m.domain d k = 3) ∧
    (∀ d < 2, State.reset.m.domain d 7 = 1) ∧ (∀ g, (State.reset.m.gran g).loc = .unbacked) ∧
    (∀ q < 1024, State.reset.m.reg 0x5401 2 q = 0) ∧ State.reset.m.sched.slots = [] ∧ State.reset.m.out = [] ∧
    Memory.wf State.reset.m.store.mem = true

/-- Whatever the state, a step answers a next state: no command faults and none is refused. The queue of that state is the
queue's rest, and the package has the dies it had. -/
def Obligations.EveryStepGoesOn : Prop :=
  ∀ (s : State),
    ∃ t, step s = .next t ∧ t.pending = s.pending.tail ∧ t.m.dies = s.m.dies

/-- A command that is not of the supplies, of RESET_IN_L or of the strap check leaves supplies, RESET_IN_L and straps as
they are. No command but the release of RESET_IN_L changes the strap samples. Without 3.3 V, a command that is neither
of those nor at a pin of a port or a module changes nothing. -/
def Obligations.PinsAlone : Prop :=
  (∀ (c : Instr) (s t : State),
     pinCommand c = false →
     exec c s = .next t →
     t.m.elec = s.m.elec) ∧
  (∀ (c : Instr) (s t : State),
     (∀ a b, c ≠ .resetInLRelease a b) →
     exec c s = .next t →
     t.m.elec.segid = s.m.elec.segid ∧ t.m.elec.refqual = s.m.elec.refqual) ∧
  (∀ (c : Instr) (s : State),
     pinCommand c = false →
     portPinCommand c = false →
     s.m.elec.vauxOk = false →
     exec c s = .next s)

/-- From every state in which THERMTRIP_L is held, a step whose command is not the loss of 3.3 V leads to a state in which
THERMTRIP_L is still held and the root clock does not run: no command, no reset line, no return of 12 V and no tick
ends a trip. -/
def Obligations.TripHolds : Prop :=
  ∀ (s t : State),
    s.m.clk.tripped = true →
    s.pending.head? ≠ some .vauxUndervoltage →
    step s = .next t →
    t.m.clk.tripped = true ∧ t.m.clocked = false

/-- From every state in which no supply is in range without 3.3 V, 12 V is reported low only of supplies that came into
range, and the strap samples have four bits and three, every step leads to such a state. (That it holds after reset is
ResetState.) -/
def Obligations.PinsStayConsistent : Prop :=
  ∀ (s t : State),
    s.m.pinsConsistent = true →
    step s = .next t →
    t.m.pinsConsistent = true

/-- Of a machine whose store is in its canonical form: after bytes are written at an address, reading as many there gives
them, every range that does not meet them reads as before, and the store is in its canonical form again. -/
def Obligations.StoreReadsBack : Prop :=
  ∀ (m : Mach) (a b n : Nat) (bs : List Byte),
    Memory.wf m.store.mem = true →
    (m.setBytes a bs).bytes a bs.length = bs ∧
    (b + n ≤ a ∨ a + bs.length ≤ b → (m.setBytes a bs).bytes b n = m.bytes b n) ∧ Memory.wf (m.setBytes a bs).store.mem = true

/-- A frame whose opcode Table 06-1 does not have, or whose class or LENGTH the table forbids, is taken off those that
have arrived and not acted on: of class REQUEST, it is answered RESP with status INVAL_DESC; of any other class, it is
counted in 0x7060.0F. So whichever of the fabric's frame rows delivers it. -/
def Obligations.RefusedFrames : Prop :=
  ∀ (s : State) (port : Nat) (f : RFrame),
    s.m.clocked = true →
    f.opcode < 0xC0 →
    RFrameFormOk f = false →
    ∀ c ∈ [Instr.frameRead port f, .frameWrite port f, .frameWritePosted port f, .frameAtomic port f, .frameFence port f,
      .framePublish port f, .framePublishFwd port f, .framePoisonMark port f, .frameColl port f, .frameResp port f,
      .frameSeqAck port f, .frameMirrorCopy port f, .frameUnknownOpcode port f],
    (f.cls = 2 → exec c s = .next (s.after fun m => (m.takeArrived port f).sendFrame ((m.takeArrived port f).respFrame f stInvalDesc 0 0 []))) ∧
    (f.cls ≠ 2 → exec c s = .next (s.after fun m => (m.takeArrived port f).bump 0x7060 0x0F))

/-- A COLL frame that passes the checks of its window and key, and whose group epoch differs from the receiving member's
current epoch for that group, is discarded and counted in 0x7060.0C; the store is as it was. -/
def Obligations.StaleCollFrames : Prop :=
  ∀ (s : State) (port : Nat) (f : RFrame),
    s.m.clocked = true →
    f.opcode = opColl →
    RFrameFormOk f = true →
    (s.m.keyCheck f).1 = 0 →
    bits (f.word 5) 23 16 ≠ s.m.reg 0x4510 9 (f.word 5 % 65536) →
    exec (.frameColl port f) s = .next (s.after fun m => (m.takeArrived port f).bump 0x7060 0x0C) ∧
    ((s.m.takeArrived port f).bump 0x7060 0x0C).store = s.m.store
end

