-- ==== Sys2Proof/Laws/Dispatch.lean ====
section
/-! SUPPORT. What each command's dispatch is: its row's operation under what must run for it. A proof about a command starts
by rewriting with its lemma. -/

namespace Sys2Proof.Machine

theorem exec_colRdShared (home req line : Nat) (s : State) :
    exec (.colRdShared home req line) s = .next (s.run fun m => m.rowColRdShared home req line) := rfl
theorem exec_colRdOwn (home req line : Nat) (s : State) :
    exec (.colRdOwn home req line) s = .next (s.run fun m => m.rowColRdOwn home req line) := rfl
theorem exec_colUpgrade (home req line : Nat) (s : State) :
    exec (.colUpgrade home req line) s = .next (s.run fun m => m.rowColUpgrade home req line) := rfl
theorem exec_colEvict (home src line : Nat) (s : State) :
    exec (.colEvict home src line) s = .next (s.run fun m => m.rowColEvict home src line) := rfl
theorem exec_colWb (home src line : Nat) (s : State) :
    exec (.colWb home src line) s = .next (s.run fun m => m.rowColWb home src line) := rfl
theorem exec_colSnpShare (home die line : Nat) (s : State) :
    exec (.colSnpShare home die line) s = .next (s.run fun m => m.rowColSnpShare home die line) := rfl
theorem exec_colSnpInv (home die line : Nat) (s : State) :
    exec (.colSnpInv home die line) s = .next (s.run fun m => m.rowColSnpInv home die line) := rfl
theorem exec_colSnpFwd (home die line : Nat) (s : State) :
    exec (.colSnpFwd home die line) s = .next (s.run fun m => m.rowColSnpFwd home die line) := rfl
theorem exec_colSnpRsp (home src line : Nat) (s : State) :
    exec (.colSnpRsp home src line) s = .next (s.run fun m => m.rowColSnpRsp home src line) := rfl
theorem exec_colAck (src die line : Nat) (s : State) :
    exec (.colAck src die line) s = .next (s.run fun m => m.rowColAck src die line) := rfl
theorem exec_colData (src die line : Nat) (s : State) :
    exec (.colData src die line) s = .next (s.run fun m => m.rowColData src die line) := rfl
theorem exec_colRetrainLimitExpiry (link : Nat) (s : State) :
    exec (.colRetrainLimitExpiry link) s = .next (s.run fun m => m.rowColRetrainLimitExpiry link) := rfl
theorem exec_clearDownLink (sender : Src) (v : Nat) (s : State) :
    exec (.clearDownLink sender v) s = .next (s.run fun m => m.rowClearDownLink sender v) := rfl
theorem exec_dieWatchdogExpiry (d : Nat) (s : State) :
    exec (.dieWatchdogExpiry d) s = .next (s.run fun m => m.rowDieWatchdogExpiry d) := rfl
theorem exec_dieUncorrectableError (d : Nat) (s : State) :
    exec (.dieUncorrectableError d) s = .next (s.run fun m => m.rowDieUncorrectableError d) := rfl
theorem exec_coreSupplyLoss (d : Nat) (s : State) :
    exec (.coreSupplyLoss d) s = .next (s.run fun m => m.rowCoreSupplyLoss d) := rfl
theorem exec_fenceOrderly (sender : Src) (d : Nat) (s : State) :
    exec (.fenceOrderly sender d) s = .next (s.run fun m => m.rowFenceOrderly sender d) := rfl
theorem exec_fenceEvacuationDone (d : Nat) (s : State) :
    exec (.fenceEvacuationDone d) s = .next (s.run fun m => m.rowFenceEvacuationDone d) := rfl
theorem exec_fenceEvacuationBoundExpiry (d : Nat) (s : State) :
    exec (.fenceEvacuationBoundExpiry d) s = .next (s.run fun m => m.rowFenceEvacuationBoundExpiry d) := rfl
theorem exec_fenceDrainDone (d : Nat) (s : State) :
    exec (.fenceDrainDone d) s = .next (s.run fun m => m.rowFenceDrainDone d) := rfl
theorem exec_commandDrainBoundExpiry (d : Nat) (s : State) :
    exec (.commandDrainBoundExpiry d) s = .next (s.run fun m => m.rowCommandDrainBoundExpiry d) := rfl
theorem exec_fenceWritebackDone (d : Nat) (s : State) :
    exec (.fenceWritebackDone d) s = .next (s.run fun m => m.rowFenceWritebackDone d) := rfl
theorem exec_fenceSurvivorWritebackDone (d : Nat) (s : State) :
    exec (.fenceSurvivorWritebackDone d) s = .next (s.run fun m => m.rowFenceSurvivorWritebackDone d) := rfl
theorem exec_dieRejoin (sender : Src) (d : Nat) (s : State) :
    exec (.dieRejoin sender d) s = .next (s.run fun m => m.rowDieRejoin sender d) := rfl
theorem exec_dieRejoinDone (d : Nat) (t0 t1 : Bool) (s : State) :
    exec (.dieRejoinDone d t0 t1) s = .next (s.run fun m => m.rowDieRejoinDone d t0 t1) := rfl
theorem exec_homeRemapWritebackDone (s : State) :
    exec (.homeRemapWritebackDone) s = .next (s.run fun m => m.rowHomeRemapWritebackDone) := rfl
theorem exec_hdmDecoderCommit (link ld k base size dpa g ways : Nat) (s : State) :
    exec (.hdmDecoderCommit link ld k base size dpa g ways) s = .next (s.run fun m => m.rowHdmDecoderCommit link ld k base size dpa g ways) := rfl
theorem exec_astEnable (sender : Src) (s : State) :
    exec (.astEnable sender) s = .next (s.run fun m => m.rowAstEnable sender) := rfl
theorem exec_astDisable (sender : Src) (s : State) :
    exec (.astDisable sender) s = .next (s.run fun m => m.rowAstDisable sender) := rfl
theorem exec_astOwnerWrite (sender : Src) (v : Nat) (s : State) :
    exec (.astOwnerWrite sender v) s = .next (s.run fun m => m.rowAstOwnerWrite sender v) := rfl
theorem exec_walkStepDone (die ast dva : Nat) (s : State) :
    exec (.walkStepDone die ast dva) s = .next (s.run fun m => m.rowWalkStepDone die ast dva) := rfl
theorem exec_prefetchWalkStart (die ast dva : Nat) (s : State) :
    exec (.prefetchWalkStart die ast dva) s = .next (s.run fun m => m.rowPrefetchWalkStart die ast dva) := rfl
theorem exec_hostCxlioCompletion (slot hpa : Nat) (c : Completion) (s : State) :
    exec (.hostCxlioCompletion slot hpa c) s = .next (s.run fun m => m.rowHostCxlioCompletion slot hpa c) := rfl
theorem exec_hostCompletionTimeout (slot hpa : Nat) (s : State) :
    exec (.hostCompletionTimeout slot hpa) s = .next (s.run fun m => m.rowHostCompletionTimeout slot hpa) := rfl
theorem exec_atsInvalidationRequest (link ld : Nat) (pasid : Option Nat) (lo n : Nat) (s : State) :
    exec (.atsInvalidationRequest link ld pasid lo n) s = .next (s.run fun m => m.rowAtsInvalidationRequest link ld pasid lo n) := rfl
theorem exec_invalidateAst (sender : Src) (ast : Nat) (s : State) :
    exec (.invalidateAst sender ast) s = .next (s.run fun m => m.rowInvalidateAst sender ast) := rfl
theorem exec_invalidateAll (sender : Src) (s : State) :
    exec (.invalidateAll sender) s = .next (s.run fun m => m.rowInvalidateAll sender) := rfl
theorem exec_invalidationAck (ast : Option Nat) (s : State) :
    exec (.invalidationAck ast) s = .next (s.run fun m => m.rowInvalidationAck ast) := rfl
theorem exec_invalidationBoundExpiry (ast : Option Nat) (s : State) :
    exec (.invalidationBoundExpiry ast) s = .next (s.run fun m => m.rowInvalidationBoundExpiry ast) := rfl
theorem exec_migrate (slot : Nat) (s : State) :
    exec (.migrate slot) s = .next (s.run fun m => m.rowMigrate slot) := rfl
theorem exec_migrateCopyDone (slot : Nat) (s : State) :
    exec (.migrateCopyDone slot) s = .next (s.run fun m => m.rowMigrateCopyDone slot) := rfl
theorem exec_advise (slot : Nat) (s : State) :
    exec (.advise slot) s = .next (s.run fun m => m.rowAdvise slot) := rfl
theorem exec_mediaReadDone (line : Nat) (r : MediaResult) (s : State) :
    exec (.mediaReadDone line r) s = .next (s.run fun m => m.rowMediaReadDone line r) := rfl
theorem exec_mediaWrite (w : StoreWrite) (s : State) :
    exec (.mediaWrite w) s = .next (s.run fun m => m.rowMediaWrite w) := rfl
theorem exec_allocationBoundExpiry (g : Nat) (s : State) :
    exec (.allocationBoundExpiry g) s = .next (s.run fun m => m.rowAllocationBound g) := rfl
theorem exec_frameZeroed (f : Frame) (s : State) :
    exec (.frameZeroed f) s = .next (s.run fun m => m.rowFrameZeroed f) := rfl
theorem exec_watermarkRecordRead (sender : Src) (k : Nat) (s : State) :
    exec (.watermarkRecordRead sender k) s = .next (s.run fun m => m.rowWatermarkRecordRead sender k) := rfl
theorem exec_accessFlushTick (die : Nat) (s : State) :
    exec (.accessFlushTick die) s = .next (s.run fun m => m.rowAccessFlushTick die) := rfl
theorem exec_ageSweepVisit (s : State) :
    exec (.ageSweepVisit) s = .next (s.run fun m => m.rowAgeSweepVisit) := rfl
theorem exec_evictionStart (die : Nat) (s : State) :
    exec (.evictionStart die) s = .next (s.run fun m => m.rowEvictionStart die) := rfl
theorem exec_compressionStart (d : Nat) (s : State) :
    exec (.compressionStart d) s = .next (s.run fun m => m.rowCompressionStart d) := rfl
theorem exec_movementCopyDone (g : Nat) (s : State) :
    exec (.movementCopyDone g) s = .next (s.run fun m => m.rowMovementCopyDone g) := rfl
theorem exec_movementFinalPassDone (g : Nat) (s : State) :
    exec (.movementFinalPassDone g) s = .next (s.run fun m => m.rowMovementFinalPassDone g) := rfl
theorem exec_movementFailed (g : Nat) (s : State) :
    exec (.movementFailed g) s = .next (s.run fun m => m.rowMovementFailed g) := rfl
theorem exec_dimmAccessBoundExpiry (line : Nat) (s : State) :
    exec (.dimmAccessBoundExpiry line) s = .next (s.run fun m => m.rowDimmAccessBound line) := rfl
theorem exec_dimmRereadDone (line : Nat) (ok : Bool) (s : State) :
    exec (.dimmRereadDone line ok) s = .next (s.run fun m => m.rowDimmRereadDone line ok) := rfl
theorem exec_channelFail (c : Nat) (s : State) :
    exec (.channelFail c) s = .next (s.run fun m => m.rowChannelFail c) := rfl
theorem exec_hrtScrubDone (s : State) :
    exec (.hrtScrubDone) s = .next (s.run fun m => m.rowHrtScrubDone) := rfl
theorem exec_leaseAcquire (sender : Src) (holder : Nat) (s : State) :
    exec (.leaseAcquire sender holder) s = .next (s.run fun m => m.rowLeaseAcquire sender holder) := rfl
theorem exec_leaseRenew (sender : Src) (k : Nat) (s : State) :
    exec (.leaseRenew sender k) s = .next (s.run fun m => m.rowLeaseRenew sender k) := rfl
theorem exec_leaseRenewHolder (sender : Src) (holder : Nat) (s : State) :
    exec (.leaseRenewHolder sender holder) s = .next (s.run fun m => m.rowLeaseRenewHolder sender holder) := rfl
theorem exec_leaseRelease (sender : Src) (k : Nat) (s : State) :
    exec (.leaseRelease sender k) s = .next (s.run fun m => m.rowLeaseRelease sender k) := rfl
theorem exec_leaseExpiry (k : Nat) (s : State) :
    exec (.leaseExpiry k) s = .next (s.run fun m => m.rowLeaseExpiry k) := rfl
theorem exec_graceEnd (k : Nat) (s : State) :
    exec (.graceEnd k) s = .next (s.run fun m => m.rowGraceEnd k) := rfl
theorem exec_extentScrubDone (k : Nat) (s : State) :
    exec (.extentScrubDone k) s = .next (s.run fun m => m.rowExtentScrubDone k) := rfl
theorem exec_stackRetire (sender : Src) (k : Nat) (s : State) :
    exec (.stackRetire sender k) s = .next (s.run fun m => m.rowStackRetire sender k) := rfl
theorem exec_stackEvacuationDone (k : Nat) (s : State) :
    exec (.stackEvacuationDone k) s = .next (s.run fun m => m.rowStackEvacuationDone k) := rfl
theorem exec_channelRemove (sender : Src) (c : Nat) (s : State) :
    exec (.channelRemove sender c) s = .next (s.run fun m => m.rowChannelRemove sender c) := rfl
theorem exec_channelAdd (sender : Src) (c : Nat) (s : State) :
    exec (.channelAdd sender c) s = .next (s.run fun m => m.rowChannelAdd sender c) := rfl
theorem exec_channelTrained (c gib : Nat) (ok : Bool) (s : State) :
    exec (.channelTrained c gib ok) s = .next (s.run fun m => m.rowChannelTrained c gib ok) := rfl
theorem exec_reshapeSweepDone (s : State) :
    exec (.reshapeSweepDone) s = .next (s.run fun m => m.rowReshapeSweepDone) := rfl
theorem exec_hostCxlMemRead (link ld hpa : Nat) (ask : HostAsk) (tag : Nat) (s : State) :
    exec (.hostCxlMemRead link ld hpa ask tag) s = .next (s.run fun m => m.rowHostCxlMemRead link ld hpa ask tag) := rfl
theorem exec_hostCxlMemWrite (link ld hpa : Nat) (bs : List Byte) (tag : Nat) (s : State) :
    exec (.hostCxlMemWrite link ld hpa bs tag) s = .next (s.run fun m => m.rowHostCxlMemWrite link ld hpa bs tag) := rfl
theorem exec_hostWriteback (link ld hpa : Nat) (bs : List Byte) (keep : HostAsk) (tag : Nat) (s : State) :
    exec (.hostWriteback link ld hpa bs keep tag) s = .next (s.run fun m => m.rowHostWriteback link ld hpa bs keep tag) := rfl
theorem exec_birsp (link line : Nat) (s : State) :
    exec (.birsp link line) s = .next (s.run fun m => m.rowBirsp link line) := rfl
theorem exec_biBoundExpiry (link line : Nat) (s : State) :
    exec (.biBoundExpiry link line) s = .next (s.run fun m => m.rowBiBoundExpiry link line) := rfl
theorem exec_hostSnoop (link : Nat) (s : State) :
    exec (.hostSnoop link) s = .next (s.run fun m => m.rowHostSnoop link) := rfl
theorem exec_doorbellWrite (link ld off width value : Nat) (s : State) :
    exec (.doorbellWrite link ld off width value) s = .next (s.run fun m => m.rowDoorbellWrite link ld off width value) := rfl
theorem exec_hostLinkTrained (link rate lanes : Nat) (s : State) :
    exec (.hostLinkTrained link rate lanes) s = .next (s.run fun m => m.rowHostLinkTrained link rate lanes) := rfl
theorem exec_spdmKeyExchange (chan : SpdmChan) (s : State) :
    exec (.spdmKeyExchange chan) s = .next (s.run fun m => m.rowSpdmKeyExchange chan) := rfl
theorem exec_spdmFinish (chan : SpdmChan) (session : Nat) (leaf root : List Byte) (signed inDate : Bool) (s : State) :
    exec (.spdmFinish chan session leaf root signed inDate) s = .next (s.run fun m => m.rowSpdmFinish chan session leaf root signed inDate) := rfl
theorem exec_authenticationBoundExpiry (link ld : Nat) (s : State) :
    exec (.authenticationBoundExpiry link ld) s = .next (s.run fun m => m.rowAuthenticationBoundExpiry link ld) := rfl
theorem exec_spdmEndSession (chan : SpdmChan) (session : Nat) (s : State) :
    exec (.spdmEndSession chan session) s = .next (s.run fun m => m.rowSpdmEndSession chan session) := rfl
theorem exec_spdmHeartbeatTimeout (chan : SpdmChan) (session : Nat) (s : State) :
    exec (.spdmHeartbeatTimeout chan session) s = .next (s.run fun m => m.rowSpdmHeartbeatTimeout chan session) := rfl
theorem exec_spdmHeartbeat (chan : SpdmChan) (session : Nat) (s : State) :
    exec (.spdmHeartbeat chan session) s = .next (s.run fun m => m.rowSpdmHeartbeat chan session) := rfl
theorem exec_spdmGetMeasurements (chan : SpdmChan) (s : State) :
    exec (.spdmGetMeasurements chan) s = .next (s.run fun m => m.rowSpdmGetMeasurements chan) := rfl
theorem exec_spdmSetCertificate (chan : SpdmChan) (session slot : Nat) (chain : List Byte) (s : State) :
    exec (.spdmSetCertificate chan session slot chain) s = .next (s.run fun m => m.rowSpdmSetCertificate chan session slot chain) := rfl
theorem exec_spdmOtherRequest (chan : SpdmChan) (s : State) :
    exec (.spdmOtherRequest chan) s = .next (s.run fun m => m.rowSpdmOtherRequest chan) := rfl
theorem exec_hostLinkDown (link : Nat) (s : State) :
    exec (.hostLinkDown link) s = .next (s.run fun m => m.rowHostLinkDown link) := rfl
theorem exec_perstLAssert (port : Nat) (s : State) :
    exec (.perstLAssert port) s = .next (s.atPort fun m => m.rowPerstAssert port) := rfl
theorem exec_hotReset (link : Nat) (s : State) :
    exec (.hotReset link) s = .next (s.run fun m => m.rowHotReset link) := rfl
theorem exec_functionLevelReset (link ld : Nat) (s : State) :
    exec (.functionLevelReset link ld) s = .next (s.run fun m => m.rowFunctionLevelReset link ld) := rfl
theorem exec_ideIntegrityFailure (link ld : Nat) (s : State) :
    exec (.ideIntegrityFailure link ld) s = .next (s.run fun m => m.rowIdeIntegrityFailure link ld) := rfl
theorem exec_unbindIdentity (sender : Src) (ident : Nat) (s : State) :
    exec (.unbindIdentity sender ident) s = .next (s.run fun m => m.rowUnbindIdentity sender ident) := rfl
theorem exec_pathTeardownSweepDone (link ld : Nat) (s : State) :
    exec (.pathTeardownSweepDone link ld) s = .next (s.run fun m => m.rowPathTeardownSweepDone link ld) := rfl
theorem exec_hostConfigAccess (link ld : Nat) (a : HostAcc) (s : State) :
    exec (.hostConfigAccess link ld a) s = .next (s.run fun m => m.rowHostConfigAccess link ld a) := rfl
theorem exec_mirrorGo (link ld : Nat) (s : State) :
    exec (.mirrorGo link ld) s = .next (s.run fun m => m.rowMirrorGo link ld) := rfl
theorem exec_mirrorBufferWrite (link ld off : Nat) (bs : List Byte) (s : State) :
    exec (.mirrorBufferWrite link ld off bs) s = .next (s.run fun m => m.rowMirrorBufferWrite link ld off bs) := rfl
theorem exec_mirrorResponseBoundExpiry (link ld : Nat) (s : State) :
    exec (.mirrorResponseBoundExpiry link ld) s = .next (s.run fun m => m.rowMirrorResponseBoundExpiry link ld) := rfl
theorem exec_headerFlit (p : Nat) (bs : List Byte) (s : State) :
    exec (.headerFlit p bs) s = .next (s.run fun m => m.rowHeaderFlit p bs) := rfl
theorem exec_dataFlit (p : Nat) (bs : List Byte) (s : State) :
    exec (.dataFlit p bs) s = .next (s.run fun m => m.rowDataFlit p bs) := rfl
theorem exec_stompFlit (p : Nat) (s : State) :
    exec (.stompFlit p) s = .next (s.run fun m => m.rowStompFlit p) := rfl
theorem exec_idleFlit (p : Nat) (s : State) :
    exec (.idleFlit p) s = .next (s.run fun m => m.rowIdleFlit p) := rfl
theorem exec_slotInError (p corrected uncorrectable : Nat) (s : State) :
    exec (.slotInError p corrected uncorrectable) s = .next (s.run fun m => m.rowSlotInError p corrected uncorrectable) := rfl
theorem exec_ackFlit (p ackfn : Nat) (limits : List Nat) (s : State) :
    exec (.ackFlit p ackfn limits) s = .next (s.run fun m => m.rowAckFlit p ackfn limits) := rfl
theorem exec_retryFlit (p efn num : Nat) (s : State) :
    exec (.retryFlit p efn num) s = .next (s.run fun m => m.rowRetryFlit p efn num) := rfl
theorem exec_replayStartFlit (p first num : Nat) (s : State) :
    exec (.replayStartFlit p first num) s = .next (s.run fun m => m.rowReplayStartFlit p first num) := rfl
theorem exec_helloFlit (p node port widths lanes : Nat) (s : State) :
    exec (.helloFlit p node port widths lanes) s = .next (s.run fun m => m.rowHelloFlit p node port widths lanes) := rfl
theorem exec_digestFlit (p : Nat) (bs : List Byte) (s : State) :
    exec (.digestFlit p bs) s = .next (s.run fun m => m.rowDigestFlit p bs) := rfl
theorem exec_ackIntervalExpiry (p : Nat) (s : State) :
    exec (.ackIntervalExpiry p) s = .next (s.run fun m => m.rowAckIntervalExpiry p) := rfl
theorem exec_keepaliveExpiry (p : Nat) (s : State) :
    exec (.keepaliveExpiry p) s = .next (s.run fun m => m.rowKeepaliveExpiry p) := rfl
theorem exec_resendIntervalExpiry (p : Nat) (s : State) :
    exec (.resendIntervalExpiry p) s = .next (s.run fun m => m.rowResendIntervalExpiry p) := rfl
theorem exec_fastRetrainDone (p : Nat) (s : State) :
    exec (.fastRetrainDone p) s = .next (s.run fun m => m.rowFastRetrainDone p) := rfl
theorem exec_recoveryBoundExpiry (p : Nat) (s : State) :
    exec (.recoveryBoundExpiry p) s = .next (s.run fun m => m.rowRecoveryBoundExpiry p) := rfl
theorem exec_frameTransmitStart (p : Nat) (s : State) :
    exec (.frameTransmitStart p) s = .next (s.run fun m => m.rowFrameTransmitStart p) := rfl
theorem exec_laneSignalDetected (p : Nat) (s : State) :
    exec (.laneSignalDetected p) s = .next (s.run fun m => m.rowLaneSignalDetected p) := rfl
theorem exec_detectTimeout (p : Nat) (s : State) :
    exec (.detectTimeout p) s = .next (s.run fun m => m.rowDetectTimeout p) := rfl
theorem exec_equaliseDone (p : Nat) (s : State) :
    exec (.equaliseDone p) s = .next (s.run fun m => m.rowEqualiseDone p) := rfl
theorem exec_equaliseTimeout (p : Nat) (s : State) :
    exec (.equaliseTimeout p) s = .next (s.run fun m => m.rowEqualiseTimeout p) := rfl
theorem exec_alignDone (p : Nat) (correctable reversed : Bool) (inverted good : Nat) (s : State) :
    exec (.alignDone p correctable reversed inverted good) s = .next (s.run fun m => m.rowAlignDone p correctable reversed inverted good) := rfl
theorem exec_helloTimeout (p : Nat) (s : State) :
    exec (.helloTimeout p) s = .next (s.run fun m => m.rowHelloTimeout p) := rfl
theorem exec_digestStateTimeout (p : Nat) (s : State) :
    exec (.digestStateTimeout p) s = .next (s.run fun m => m.rowDigestStateTimeout p) := rfl
theorem exec_laneLockLoss (p lane : Nat) (s : State) :
    exec (.laneLockLoss p lane) s = .next (s.run fun m => m.rowLaneLockLoss p lane) := rfl
theorem exec_autoRestoreExpiry (p : Nat) (s : State) :
    exec (.autoRestoreExpiry p) s = .next (s.run fun m => m.rowAutoRestoreExpiry p) := rfl
theorem exec_portEnable (sender : Src) (s : State) :
    exec (.portEnable sender) s = .next (s.run fun m => m.rowPortEnable sender) := rfl
theorem exec_portDisable (sender : Src) (s : State) :
    exec (.portDisable sender) s = .next (s.run fun m => m.rowPortDisable sender) := rfl
theorem exec_portFastRetrainRequest (sender : Src) (s : State) :
    exec (.portFastRetrainRequest sender) s = .next (s.run fun m => m.rowPortFastRetrain sender) := rfl
theorem exec_portFullRetrainRequest (sender : Src) (s : State) :
    exec (.portFullRetrainRequest sender) s = .next (s.run fun m => m.rowPortFullRetrain sender) := rfl
theorem exec_portDrainDone (p : Nat) (s : State) :
    exec (.portDrainDone p) s = .next (s.run fun m => m.rowPortDrainDone p) := rfl
theorem exec_portDrainBoundExpiry (p : Nat) (s : State) :
    exec (.portDrainBoundExpiry p) s = .next (s.run fun m => m.rowPortDrainBoundExpiry p) := rfl
theorem exec_portRelease (sender : Src) (s : State) :
    exec (.portRelease sender) s = .next (s.run fun m => m.rowPortRelease sender) := rfl
theorem exec_generateRoutes (sender : Src) (s : State) :
    exec (.generateRoutes sender) s = .next (s.run fun m => m.rowGenerateRoutes sender) := rfl
theorem exec_frameRead (port : Nat) (f : RFrame) (s : State) :
    exec (.frameRead port f) s = .next (s.run fun m => m.rowFrameRead port f) := rfl
theorem exec_frameWrite (port : Nat) (f : RFrame) (s : State) :
    exec (.frameWrite port f) s = .next (s.run fun m => m.rowFrameWrite port f) := rfl
theorem exec_frameWritePosted (port : Nat) (f : RFrame) (s : State) :
    exec (.frameWritePosted port f) s = .next (s.run fun m => m.rowFrameWritePosted port f) := rfl
theorem exec_frameAtomic (port : Nat) (f : RFrame) (s : State) :
    exec (.frameAtomic port f) s = .next (s.run fun m => m.rowFrameAtomic port f) := rfl
theorem exec_frameFence (port : Nat) (f : RFrame) (s : State) :
    exec (.frameFence port f) s = .next (s.run fun m => m.rowFrameFence port f) := rfl
theorem exec_framePublish (port : Nat) (f : RFrame) (s : State) :
    exec (.framePublish port f) s = .next (s.run fun m => m.rowFramePublish port f) := rfl
theorem exec_framePublishFwd (port : Nat) (f : RFrame) (s : State) :
    exec (.framePublishFwd port f) s = .next (s.run fun m => m.rowFramePublishFwd port f) := rfl
theorem exec_framePoisonMark (port : Nat) (f : RFrame) (s : State) :
    exec (.framePoisonMark port f) s = .next (s.run fun m => m.rowFramePoisonMark port f) := rfl
theorem exec_frameColl (port : Nat) (f : RFrame) (s : State) :
    exec (.frameColl port f) s = .next (s.run fun m => m.rowFrameColl port f) := rfl
theorem exec_frameResp (port : Nat) (f : RFrame) (s : State) :
    exec (.frameResp port f) s = .next (s.run fun m => m.rowFrameResp port f) := rfl
theorem exec_frameSeqAck (port : Nat) (f : RFrame) (s : State) :
    exec (.frameSeqAck port f) s = .next (s.run fun m => m.rowFrameSeqAck port f) := rfl
theorem exec_frameMirrorCopy (port : Nat) (f : RFrame) (s : State) :
    exec (.frameMirrorCopy port f) s = .next (s.run fun m => m.rowFrameMirrorCopy port f) := rfl
theorem exec_frameMgmtReq (port : Nat) (f : RFrame) (inner : SealedFrame) (s : State) :
    exec (.frameMgmtReq port f inner) s = .next (s.run fun m => m.rowFrameMgmtReq port f inner) := rfl
theorem exec_frameMgmtRsp (port : Nat) (f : RFrame) (s : State) :
    exec (.frameMgmtRsp port f) s = .next (s.run fun m => m.rowFrameMgmtRsp port f) := rfl
theorem exec_frameUnknownOpcode (port : Nat) (f : RFrame) (s : State) :
    exec (.frameUnknownOpcode port f) s = .next (s.run fun m => m.rowFrameUnknown port f) := rfl
theorem exec_gapBoundExpiry (src : Nat) (bulk : Bool) (s : State) :
    exec (.gapBoundExpiry src bulk) s = .next (s.run fun m => m.rowGapBoundExpiry src bulk) := rfl
theorem exec_seqAckIntervalExpiry (s : State) :
    exec (.seqAckIntervalExpiry) s = .next (s.run fun m => m.rowSeqAckInterval) := rfl
theorem exec_bulkRetransmitExpiry (dst sequence : Nat) (s : State) :
    exec (.bulkRetransmitExpiry dst sequence) s = .next (s.run fun m => m.rowBulkRetransmit dst sequence) := rfl
theorem exec_responseBoundExpiry (tag : Nat) (s : State) :
    exec (.responseBoundExpiry tag) s = .next (s.run fun m => m.rowResponseBound tag) := rfl
theorem exec_retireBoundExpiry (s : State) :
    exec (.retireBoundExpiry) s = .next (s.run fun m => m.rowRetireBound) := rfl
theorem exec_regionKeyBump (sender : Src) (region : Nat) (s : State) :
    exec (.regionKeyBump sender region) s = .next (s.run fun m => m.rowRegionKeyBump sender region) := rfl
theorem exec_epochWrite (sender : Src) (v : Nat) (s : State) :
    exec (.epochWrite sender v) s = .next (s.run fun m => m.rowEpochWrite sender v) := rfl
theorem exec_relocateWindow (sender : Src) (w : Nat) (s : State) :
    exec (.relocateWindow sender w) s = .next (s.run fun m => m.rowRelocateWindow sender w) := rfl
theorem exec_relocationCopyDone (s : State) :
    exec (.relocationCopyDone) s = .next (s.run fun m => m.rowRelocationCopyDone) := rfl
theorem exec_relocationFinalPassDone (s : State) :
    exec (.relocationFinalPassDone) s = .next (s.run fun m => m.rowRelocationFinalPassDone) := rfl
theorem exec_relocationHoldBoundExpiry (s : State) :
    exec (.relocationHoldBoundExpiry) s = .next (s.run fun m => m.rowRelocationHoldBound) := rfl
theorem exec_clearDeadNode (sender : Src) (node : Nat) (s : State) :
    exec (.clearDeadNode sender node) s = .next (s.run fun m => m.rowClearDeadNode sender node) := rfl
theorem exec_jobTeardown (sender : Src) (job : Nat) (s : State) :
    exec (.jobTeardown sender job) s = .next (s.run fun m => m.rowJobTeardown sender job) := rfl
theorem exec_queueEnable (sender : Src) (s : State) :
    exec (.queueEnable sender) s = .next (s.run fun m => m.rowQueueEnable sender) := rfl
theorem exec_queueDisable (sender : Src) (s : State) :
    exec (.queueDisable sender) s = .next (s.run fun m => m.rowQueueDisable sender) := rfl
theorem exec_queueStop (sender : Src) (q : Nat) (s : State) :
    exec (.queueStop sender q) s = .next (s.run fun m => m.rowQueueStop sender q) := rfl
theorem exec_queueRestart (sender : Src) (q : Nat) (s : State) :
    exec (.queueRestart sender q) s = .next (s.run fun m => m.rowQueueRestart sender q) := rfl
theorem exec_ringDoorbellRegister (sender : Src) (v : Nat) (s : State) :
    exec (.ringDoorbellRegister sender v) s = .next (s.run fun m => m.rowRingDoorbellRegister sender v) := rfl
theorem exec_descriptorFetchDone (q : Nat) (s : State) :
    exec (.descriptorFetchDone q) s = .next (s.run fun m => m.rowDescriptorFetchDone q) := rfl
theorem exec_commandAdmit (die : Nat) (s : State) :
    exec (.commandAdmit die) s = .next (s.run fun m => m.rowCommandAdmit die) := rfl
theorem exec_cqHeadReadDone (q : Nat) (s : State) :
    exec (.cqHeadReadDone q) s = .next (s.run fun m => m.rowCqHeadReadDone q) := rfl
theorem exec_cqHeadPollExpiry (q : Nat) (s : State) :
    exec (.cqHeadPollExpiry q) s = .next (s.run fun m => m.rowCqHeadPollExpiry q) := rfl
theorem exec_commandEnd (slot : Nat) (s : State) :
    exec (.commandEnd slot) s = .next (s.run fun m => m.rowCommandEnd slot) := rfl
theorem exec_coalescingExpiry (q : Nat) (s : State) :
    exec (.coalescingExpiry q) s = .next (s.run fun m => m.rowCoalescingExpiry q) := rfl
theorem exec_eventCountWrite (sender : Src) (v : Nat) (s : State) :
    exec (.eventCountWrite sender v) s = .next (s.run fun m => m.rowEventCountWrite sender v) := rfl
theorem exec_copy (slot : Nat) (s : State) :
    exec (.copy slot) s = .next (s.run fun m => m.rowCopy slot) := rfl
theorem exec_transform (slot : Nat) (s : State) :
    exec (.transform slot) s = .next (s.run fun m => m.rowTransform slot) := rfl
theorem exec_gather (slot : Nat) (s : State) :
    exec (.gather slot) s = .next (s.run fun m => m.rowGather slot) := rfl
theorem exec_scatter (slot : Nat) (s : State) :
    exec (.scatter slot) s = .next (s.run fun m => m.rowScatter slot) := rfl
theorem exec_pool (slot : Nat) (s : State) :
    exec (.pool slot) s = .next (s.run fun m => m.rowPool slot) := rfl
theorem exec_search (slot : Nat) (s : State) :
    exec (.search slot) s = .next (s.run fun m => m.rowSearch slot) := rfl
theorem exec_insert (slot : Nat) (s : State) :
    exec (.insert slot) s = .next (s.run fun m => m.rowInsert slot) := rfl
theorem exec_delete (slot : Nat) (s : State) :
    exec (.delete slot) s = .next (s.run fun m => m.rowDelete slot) := rfl
theorem exec_merge (slot : Nat) (s : State) :
    exec (.merge slot) s = .next (s.run fun m => m.rowMerge slot) := rfl
theorem exec_kernel (slot : Nat) (s : State) :
    exec (.kernel slot) s = .next (s.run fun m => m.rowKernel slot) := rfl
theorem exec_optim (slot : Nat) (s : State) :
    exec (.optim slot) s = .next (s.run fun m => m.rowOptim slot) := rfl
theorem exec_atomic (slot : Nat) (s : State) :
    exec (.atomic slot) s = .next (s.run fun m => m.rowAtomic slot) := rfl
theorem exec_publish (slot : Nat) (s : State) :
    exec (.publish slot) s = .next (s.run fun m => m.rowPublish slot) := rfl
theorem exec_collective (slot : Nat) (s : State) :
    exec (.collective slot) s = .next (s.run fun m => m.rowCollective slot) := rfl
theorem exec_fenceQueue (slot : Nat) (s : State) :
    exec (.fenceQueue slot) s = .next (s.run fun m => m.rowFenceQueue slot) := rfl
theorem exec_fenceAcquire (slot : Nat) (s : State) :
    exec (.fenceAcquire slot) s = .next (s.run fun m => m.rowFenceAcquire slot) := rfl
theorem exec_fenceOwner (slot : Nat) (s : State) :
    exec (.fenceOwner slot) s = .next (s.run fun m => m.rowFenceOwner slot) := rfl
theorem exec_fenceOwnerTimeout (slot : Nat) (s : State) :
    exec (.fenceOwnerTimeout slot) s = .next (s.run fun m => m.rowFenceOwnerTimeout slot) := rfl
theorem exec_signal (slot : Nat) (s : State) :
    exec (.signal slot) s = .next (s.run fun m => m.rowSignal slot) := rfl
theorem exec_waitEvent (slot : Nat) (s : State) :
    exec (.waitEvent slot) s = .next (s.run fun m => m.rowWaitEvent slot) := rfl
theorem exec_waitMemory (slot : Nat) (s : State) :
    exec (.waitMemory slot) s = .next (s.run fun m => m.rowWaitMemory slot) := rfl
theorem exec_waitPollExpiry (slot : Nat) (s : State) :
    exec (.waitPollExpiry slot) s = .next (s.run fun m => m.rowWaitPollExpiry slot) := rfl
theorem exec_waitTimeout (slot : Nat) (s : State) :
    exec (.waitTimeout slot) s = .next (s.run fun m => m.rowWaitTimeout slot) := rfl
theorem exec_hostFlushReadDone (slot path : Nat) (ok : Bool) (s : State) :
    exec (.hostFlushReadDone slot path ok) s = .next (s.run fun m => m.rowHostFlushReadDone slot path ok) := rfl
theorem exec_passBackoffExpiry (die crag bank input : Nat) (s : State) :
    exec (.passBackoffExpiry die crag bank input) s = .next (s.run fun m => m.rowPassBackoffExpiry die crag bank input) := rfl
theorem exec_starvationReport (die crag bank input : Nat) (s : State) :
    exec (.starvationReport die crag bank input) s = .next (s.run fun m => m.rowStarvationReport die crag bank input) := rfl
theorem exec_bankWatchdogBite (die crag bank : Nat) (s : State) :
    exec (.bankWatchdogBite die crag bank) s = .next (s.run fun m => m.rowBankWatchdogBite die crag bank) := rfl
theorem exec_bankResetDone (die crag bank : Nat) (s : State) :
    exec (.bankResetDone die crag bank) s = .next (s.run fun m => m.rowBankResetDone die crag bank) := rfl
theorem exec_cragGrant (slot : Nat) (s : State) :
    exec (.cragGrant slot) s = .next (s.run fun m => m.rowCragGrant slot) := rfl
theorem exec_programLoadDone (slot : Nat) (s : State) :
    exec (.programLoadDone slot) s = .next (s.run fun m => m.rowProgramLoadDone slot) := rfl
theorem exec_nop (die n : Nat) (s : State) :
    exec (.nop die n) s = .next (s.run fun m => m.rowNop die n) := rfl
theorem exec_endProgram (die n : Nat) (s : State) :
    exec (.endProgram die n) s = .next (s.run fun m => m.rowEnd die n) := rfl
theorem exec_trap (die n : Nat) (s : State) :
    exec (.trap die n) s = .next (s.run fun m => m.rowTrap die n) := rfl
theorem exec_br (die n : Nat) (s : State) :
    exec (.br die n) s = .next (s.run fun m => m.rowBr die n) := rfl
theorem exec_loop (die n : Nat) (s : State) :
    exec (.loop die n) s = .next (s.run fun m => m.rowLoop die n) := rfl
theorem exec_wait (die n : Nat) (s : State) :
    exec (.wait die n) s = .next (s.run fun m => m.rowTileWait die n) := rfl
theorem exec_smov (die n : Nat) (s : State) :
    exec (.smov die n) s = .next (s.run fun m => m.rowSmov die n) := rfl
theorem exec_smovh (die n : Nat) (s : State) :
    exec (.smovh die n) s = .next (s.run fun m => m.rowSmovh die n) := rfl
theorem exec_sadd (die n : Nat) (s : State) :
    exec (.sadd die n) s = .next (s.run fun m => m.rowSadd die n) := rfl
theorem exec_ssub (die n : Nat) (s : State) :
    exec (.ssub die n) s = .next (s.run fun m => m.rowSsub die n) := rfl
theorem exec_smul (die n : Nat) (s : State) :
    exec (.smul die n) s = .next (s.run fun m => m.rowSmul die n) := rfl
theorem exec_sand (die n : Nat) (s : State) :
    exec (.sand die n) s = .next (s.run fun m => m.rowSand die n) := rfl
theorem exec_sor (die n : Nat) (s : State) :
    exec (.sor die n) s = .next (s.run fun m => m.rowSor die n) := rfl
theorem exec_sshl (die n : Nat) (s : State) :
    exec (.sshl die n) s = .next (s.run fun m => m.rowSshl die n) := rfl
theorem exec_sshr (die n : Nat) (s : State) :
    exec (.sshr die n) s = .next (s.run fun m => m.rowSshr die n) := rfl
theorem exec_sld (die n : Nat) (s : State) :
    exec (.sld die n) s = .next (s.run fun m => m.rowSld die n) := rfl
theorem exec_sst (die n : Nat) (s : State) :
    exec (.sst die n) s = .next (s.run fun m => m.rowSst die n) := rfl
theorem exec_tload (die n : Nat) (s : State) :
    exec (.tload die n) s = .next (s.run fun m => m.rowTload die n) := rfl
theorem exec_tloadx (die n : Nat) (s : State) :
    exec (.tloadx die n) s = .next (s.run fun m => m.rowTloadx die n) := rfl
theorem exec_tstore (die n : Nat) (s : State) :
    exec (.tstore die n) s = .next (s.run fun m => m.rowTstore die n) := rfl
theorem exec_tcopy (die n : Nat) (s : State) :
    exec (.tcopy die n) s = .next (s.run fun m => m.rowTcopy die n) := rfl
theorem exec_tfill (die n : Nat) (s : State) :
    exec (.tfill die n) s = .next (s.run fun m => m.rowTfill die n) := rfl
theorem exec_wload (die n : Nat) (s : State) :
    exec (.wload die n) s = .next (s.run fun m => m.rowWload die n) := rfl
theorem exec_mma (die n : Nat) (s : State) :
    exec (.mma die n) s = .next (s.run fun m => m.rowMma die n) := rfl
theorem exec_accz (die n : Nat) (s : State) :
    exec (.accz die n) s = .next (s.run fun m => m.rowAccz die n) := rfl
theorem exec_accrd (die n : Nat) (s : State) :
    exec (.accrd die n) s = .next (s.run fun m => m.rowAccrd die n) := rfl
theorem exec_accwr (die n : Nat) (s : State) :
    exec (.accwr die n) s = .next (s.run fun m => m.rowAccwr die n) := rfl
theorem exec_vld (die n : Nat) (s : State) :
    exec (.vld die n) s = .next (s.run fun m => m.rowVld die n) := rfl
theorem exec_vst (die n : Nat) (s : State) :
    exec (.vst die n) s = .next (s.run fun m => m.rowVst die n) := rfl
theorem exec_vsplat (die n : Nat) (s : State) :
    exec (.vsplat die n) s = .next (s.run fun m => m.rowVsplat die n) := rfl
theorem exec_vadd (die n : Nat) (s : State) :
    exec (.vadd die n) s = .next (s.run fun m => m.rowVadd die n) := rfl
theorem exec_vsub (die n : Nat) (s : State) :
    exec (.vsub die n) s = .next (s.run fun m => m.rowVsub die n) := rfl
theorem exec_vmul (die n : Nat) (s : State) :
    exec (.vmul die n) s = .next (s.run fun m => m.rowVmul die n) := rfl
theorem exec_vfma (die n : Nat) (s : State) :
    exec (.vfma die n) s = .next (s.run fun m => m.rowVfma die n) := rfl
theorem exec_vmin (die n : Nat) (s : State) :
    exec (.vmin die n) s = .next (s.run fun m => m.rowVmin die n) := rfl
theorem exec_vmax (die n : Nat) (s : State) :
    exec (.vmax die n) s = .next (s.run fun m => m.rowVmax die n) := rfl
theorem exec_vdiv (die n : Nat) (s : State) :
    exec (.vdiv die n) s = .next (s.run fun m => m.rowVdiv die n) := rfl
theorem exec_vsqrt (die n : Nat) (s : State) :
    exec (.vsqrt die n) s = .next (s.run fun m => m.rowVsqrt die n) := rfl
theorem exec_vexp (die n : Nat) (s : State) :
    exec (.vexp die n) s = .next (s.run fun m => m.rowVexp die n) := rfl
theorem exec_vcvt (die n : Nat) (s : State) :
    exec (.vcvt die n) s = .next (s.run fun m => m.rowVcvt die n) := rfl
theorem exec_vred (die n : Nat) (s : State) :
    exec (.vred die n) s = .next (s.run fun m => m.rowVred die n) := rfl
theorem exec_vsgn (die n : Nat) (s : State) :
    exec (.vsgn die n) s = .next (s.run fun m => m.rowVsgn die n) := rfl
theorem exec_asyncComplete (die n idx : Nat) (s : State) :
    exec (.asyncComplete die n idx) s = .next (s.run fun m => m.rowAsyncComplete die n idx) := rfl
theorem exec_commandTimeBoundExpiry (slot : Nat) (s : State) :
    exec (.commandTimeBoundExpiry slot) s = .next (s.run fun m => m.rowCommandTimeBoundExpiry slot) := rfl
theorem exec_optimChunkReadsDone (slot j : Nat) (s : State) :
    exec (.optimChunkReadsDone slot j) s = .next (s.run fun m => m.rowOptimChunkReadsDone slot j) := rfl
theorem exec_rowReadDone (slot pos : Nat) (s : State) :
    exec (.rowReadDone slot pos) s = .next (s.run fun m => m.rowRowReadDone slot pos) := rfl
theorem exec_prefetchReadDone (q idx : Nat) (s : State) :
    exec (.prefetchReadDone q idx) s = .next (s.run fun m => m.rowPrefetchReadDone q idx) := rfl
theorem exec_clearSlotCounters (sender : Src) (s : State) :
    exec (.clearSlotCounters sender) s = .next (s.run fun m => m.rowClearSlotCounters sender) := rfl
theorem exec_indexLockRetry (slot : Nat) (s : State) :
    exec (.indexLockRetry slot) s = .next (s.run fun m => m.rowIndexLockRetry slot) := rfl
theorem exec_fanoutBell (s : State) :
    exec (.fanoutBell) s = .next (s.run fun m => m.rowFanoutBell) := rfl
theorem exec_fanoutCounter (s : State) :
    exec (.fanoutCounter) s = .next (s.run fun m => m.rowFanoutCounter) := rfl
theorem exec_fanoutResponseBoundExpiry (s : State) :
    exec (.fanoutResponseBoundExpiry) s = .next (s.run fun m => m.rowFanoutResponseBoundExpiry) := rfl
theorem exec_elementReadDone (die ch : Nat) (s : State) :
    exec (.elementReadDone die ch) s = .next (s.run fun m => m.rowElementReadDone die ch) := rfl
theorem exec_sliceEnd (die ch steps : Nat) (s : State) :
    exec (.sliceEnd die ch steps) s = .next (s.run fun m => m.rowSliceEnd die ch steps) := rfl
theorem exec_channelAccessFailed (die ch : Nat) (s : State) :
    exec (.channelAccessFailed die ch) s = .next (s.run fun m => m.rowChannelAccessFailed die ch) := rfl
theorem exec_haltBoundExpiry (die ch : Nat) (s : State) :
    exec (.haltBoundExpiry die ch) s = .next (s.run fun m => m.rowHaltBoundExpiry die ch) := rfl
theorem exec_channelStart (sender : Src) (s : State) :
    exec (.channelStart sender) s = .next (s.run fun m => m.rowChannelStart sender) := rfl
theorem exec_channelStop (sender : Src) (s : State) :
    exec (.channelStop sender) s = .next (s.run fun m => m.rowChannelStop sender) := rfl
theorem exec_channelClear (sender : Src) (s : State) :
    exec (.channelClear sender) s = .next (s.run fun m => m.rowChannelClear sender) := rfl
theorem exec_channelResume (sender : Src) (s : State) :
    exec (.channelResume sender) s = .next (s.run fun m => m.rowChannelResume sender) := rfl
theorem exec_channelAbort (sender : Src) (s : State) :
    exec (.channelAbort sender) s = .next (s.run fun m => m.rowChannelAbort sender) := rfl
theorem exec_digestPeriodExpiry (p : Nat) (s : State) :
    exec (.digestPeriodExpiry p) s = .next (s.run fun m => m.rowDigestPeriod p) := rfl
theorem exec_digestMissingExpiry (p : Nat) (s : State) :
    exec (.digestMissingExpiry p) s = .next (s.run fun m => m.rowDigestMissing p) := rfl
theorem exec_clearQuarantine (sender : Src) (p : Nat) (s : State) :
    exec (.clearQuarantine sender p) s = .next (s.run fun m => m.rowClearQuarantine sender p) := rfl
theorem exec_beacon (p : Nat) (f : RFrame) (s : State) :
    exec (.beacon p f) s = .next (s.run fun m => m.rowBeacon p f) := rfl
theorem exec_beaconIntervalExpiry (s : State) :
    exec (.beaconIntervalExpiry) s = .next (s.run fun m => m.rowBeaconInterval) := rfl
theorem exec_floodFault (p : Nat) (f : RFrame) (s : State) :
    exec (.floodFault p f) s = .next (s.run fun m => m.rowFloodFault p f) := rfl
theorem exec_floodCollAbort (p : Nat) (f : RFrame) (s : State) :
    exec (.floodCollAbort p f) s = .next (s.run fun m => m.rowFloodCollAbort p f) := rfl
theorem exec_floodWarn (p : Nat) (f : RFrame) (s : State) :
    exec (.floodWarn p f) s = .next (s.run fun m => m.rowFloodWarn p f) := rfl
theorem exec_floodRecordExpiry (origin number : Nat) (s : State) :
    exec (.floodRecordExpiry origin number) s = .next (s.run fun m => m.rowFloodRecordExpiry origin number) := rfl
theorem exec_ptpMessage (domain : Nat) (announce : Option (Option Int)) (err : Option Int) (s : State) :
    exec (.ptpMessage domain announce err) s = .next (s.run fun m => m.rowPtpMessage domain announce err) := rfl
theorem exec_timebaseReferenceLoss (s : State) :
    exec (.timebaseReferenceLoss) s = .next (s.run fun m => m.rowReferenceLoss) := rfl
theorem exec_holdoverExitExpiry (s : State) :
    exec (.holdoverExitExpiry) s = .next (s.run fun m => m.rowHoldoverExit) := rfl
theorem exec_resynchronise (sender : Src) (s : State) :
    exec (.resynchronise sender) s = .next (s.run fun m => m.rowResynchronise sender) := rfl
theorem exec_groupSettleExpiry (g : Nat) (s : State) :
    exec (.groupSettleExpiry g) s = .next (s.run fun m => m.rowGroupSettle g) := rfl
theorem exec_progressBoundExpiry (g : Nat) (s : State) :
    exec (.progressBoundExpiry g) s = .next (s.run fun m => m.rowProgressBound g) := rfl
theorem exec_groupEpochWrite (sender : Src) (v : Nat) (s : State) :
    exec (.groupEpochWrite sender v) s = .next (s.run fun m => m.rowGroupEpochWrite sender v) := rfl
theorem exec_marginEvaluation (rails : List (Nat × Int × Nat)) (slacks : List (Nat × Int)) (s : State) :
    exec (.marginEvaluation rails slacks) s = .next (s.run fun m => m.rowMarginEvaluation rails slacks) := rfl
theorem exec_cairnRequestRead (q : Requester) (r : Request) (s : State) :
    exec (.cairnRequestRead q r) s = .next (s.run fun m => m.rowCairnRequestRead q r) := rfl
theorem exec_cairnRequestWrite (q : Requester) (r : Request) (s : State) :
    exec (.cairnRequestWrite q r) s = .next (s.run fun m => m.rowCairnRequestWrite q r) := rfl
theorem exec_cairnRequestSegRead (q : Requester) (r : Request) (s : State) :
    exec (.cairnRequestSegRead q r) s = .next (s.run fun m => m.rowCairnRequestSegRead q r) := rfl
theorem exec_cairnRequestSegWrite (q : Requester) (r : Request) (s : State) :
    exec (.cairnRequestSegWrite q r) s = .next (s.run fun m => m.rowCairnRequestSegWrite q r) := rfl
theorem exec_stagedWrite (q : Requester) (r : Request) (s : State) :
    exec (.stagedWrite q r) s = .next (s.run fun m => m.rowStagedWrite q r) := rfl
theorem exec_commit (sender : Src) (failAt : Option Nat) (s : State) :
    exec (.commit sender failAt) s = .next (s.run fun m => m.rowCommit sender failAt) := rfl
theorem exec_discard (sender : Src) (s : State) :
    exec (.discard sender) s = .next (s.run fun m => m.rowDiscard sender) := rfl
theorem exec_cairnSpdmMessage (address : Nat) (msg : SpdmMsg) (s : State) :
    exec (.cairnSpdmMessage address msg) s = .next (s.run fun m => m.rowCairnSpdmMessage address msg) := rfl
theorem exec_cairnSecuredMessage (session : Nat) (p : PlainFrame) (s : State) :
    exec (.cairnSecuredMessage session p) s = .next (s.run fun m => m.rowCairnSecuredMessage session p) := rfl
theorem exec_cairnRelay (address txn node : Nat) (bs : List Byte) (f : SealedFrame) (s : State) :
    exec (.cairnRelay address txn node bs f) s = .next (s.run fun m => m.rowCairnRelay address txn node bs f) := rfl
theorem exec_cairnFrameDiscard (t : Transport) (txn : Nat) (s : State) :
    exec (.cairnFrameDiscard t txn) s = .next (s.run fun m => m.rowCairnFrameDiscard t txn) := rfl
theorem exec_noticeAck (session sequence : Nat) (s : State) :
    exec (.noticeAck session sequence) s = .next (s.run fun m => m.rowNoticeAck session sequence) := rfl
theorem exec_noticeAckInBand (sender : Src) (sequence : Nat) (s : State) :
    exec (.noticeAckInBand sender sequence) s = .next (s.run fun m => m.rowNoticeAckInBand sender sequence) := rfl
theorem exec_noticeRetransmitExpiry (slot sequence : Nat) (s : State) :
    exec (.noticeRetransmitExpiry slot sequence) s = .next (s.run fun m => m.rowNoticeRetransmitExpiry slot sequence) := rfl
theorem exec_subscribe (sender : Src) (bs : List Byte) (s : State) :
    exec (.subscribe sender bs) s = .next (s.run fun m => m.rowSubscribe sender bs) := rfl
theorem exec_unsubscribe (sender : Src) (slot : Nat) (s : State) :
    exec (.unsubscribe sender slot) s = .next (s.run fun m => m.rowUnsubscribe sender slot) := rfl
theorem exec_segmentLapseExpiry (q : Requester) (write : Bool) (s : State) :
    exec (.segmentLapseExpiry q write) s = .next (s.run fun m => m.rowSegmentLapseExpiry q write) := rfl
theorem exec_enumPulse (k : Nat) (s : State) :
    exec (.enumPulse k) s = .next (s.run fun m => m.rowEnumPulse k) := rfl
theorem exec_enumPulseTimeout (s : State) :
    exec (.enumPulseTimeout) s = .next (s.run fun m => m.rowEnumPulseTimeout) := rfl
theorem exec_enumPulsePeriod (s : State) :
    exec (.enumPulsePeriod) s = .next (s.run fun m => m.rowEnumPulsePeriod) := rfl
theorem exec_nodeIdSetInBand (sender : Src) (v : Nat) (s : State) :
    exec (.nodeIdSetInBand sender v) s = .next (s.run fun m => m.rowNodeIdSetInBand sender v) := rfl
theorem exec_dadComplete (s : State) :
    exec (.dadComplete) s = .next (s.run fun m => m.rowDadComplete) := rfl
theorem exec_dadConflict (s : State) :
    exec (.dadConflict) s = .next (s.run fun m => m.rowDadConflict) := rfl
theorem exec_dateWrite (sender : Src) (v : Nat) (s : State) :
    exec (.dateWrite sender v) s = .next (s.run fun m => m.rowDateWrite sender v) := rfl
theorem exec_timeOfDayWrite (sender : Src) (v : Nat) (s : State) :
    exec (.timeOfDayWrite sender v) s = .next (s.run fun m => m.rowTimeOfDayWrite sender v) := rfl
theorem exec_dateAndTimeWrite (sender : Src) (bs : List Byte) (s : State) :
    exec (.dateAndTimeWrite sender bs) s = .next (s.run fun m => m.rowDateAndTimeWrite sender bs) := rfl
theorem exec_calendarSourceWrite (sender : Src) (v : Nat) (s : State) :
    exec (.calendarSourceWrite sender v) s = .next (s.run fun m => m.rowCalendarSourceWrite sender v) := rfl
theorem exec_referenceAbsent (pos : Nat) (s : State) :
    exec (.referenceAbsent pos) s = .next (s.onAux fun m => m.rowReferenceAbsent pos) := rfl
theorem exec_referenceQualified (pos : Nat) (s : State) :
    exec (.referenceQualified pos) s = .next (s.powered fun m => m.rowReferenceQualified pos) := rfl
theorem exec_referenceCompare (countA countB : Nat) (s : State) :
    exec (.referenceCompare countA countB) s = .next (s.run fun m => m.rowReferenceCompare countA countB) := rfl
theorem exec_preferredReferenceWrite (sender : Src) (v : Nat) (s : State) :
    exec (.preferredReferenceWrite sender v) s = .next (s.run fun m => m.rowPreferredReferenceWrite sender v) := rfl
theorem exec_cclkDwellEnd (s : State) :
    exec (.cclkDwellEnd) s = .next (s.run fun m => m.rowCclkDwellEnd) := rfl
theorem exec_pllLocked (s : State) :
    exec (.pllLocked) s = .next (s.powered fun m => m.rowPllLocked) := rfl
theorem exec_divisorCeilingWrite (sender : Src) (v : Nat) (s : State) :
    exec (.divisorCeilingWrite sender v) s = .next (s.run fun m => m.rowDivisorCeilingWrite sender v) := rfl
theorem exec_spreadPeriodEnd (s : State) :
    exec (.spreadPeriodEnd) s = .next (s.run fun m => m.rowSpreadPeriodEnd) := rfl
theorem exec_frequencyCountStart (sender : Src) (s : State) :
    exec (.frequencyCountStart sender) s = .next (s.run fun m => m.rowFrequencyCountStart sender) := rfl
theorem exec_frequencyGateEnd (count : Nat) (s : State) :
    exec (.frequencyGateEnd count) s = .next (s.run fun m => m.rowFrequencyGateEnd count) := rfl
theorem exec_frequencyCountTimeout (s : State) :
    exec (.frequencyCountTimeout) s = .next (s.run fun m => m.rowFrequencyCountTimeout) := rfl
theorem exec_resetInLAssert (ns : Nat) (s : State) :
    exec (.resetInLAssert ns) s = .next (s.pinEvent fun m => m.rowResetInAssert ns) := rfl
theorem exec_resetInLRelease (segid refqual : Nat) (s : State) :
    exec (.resetInLRelease segid refqual) s = .next (s.pinEvent fun m => m.rowResetInRelease segid refqual) := rfl
theorem exec_strapCheckDone (up down : Nat) (s : State) :
    exec (.strapCheckDone up down) s = .next (s.pinEvent fun m => m.rowStrapCheckDone up down) := rfl
theorem exec_warmResetRequest (sender : Src) (s : State) :
    exec (.warmResetRequest sender) s = .next (s.run fun m => m.rowWarmResetRequest sender) := rfl
theorem exec_coldResetRequest (sender : Src) (s : State) :
    exec (.coldResetRequest sender) s = .next (s.run fun m => m.rowColdResetRequest sender) := rfl
theorem exec_shutdownRequest (sender : Src) (s : State) :
    exec (.shutdownRequest sender) s = .next (s.run fun m => m.rowShutdownRequest sender) := rfl
theorem exec_warmResetEntryDone (s : State) :
    exec (.warmResetEntryDone) s = .next (s.run fun m => m.rowWarmResetEntryDone) := rfl
theorem exec_warmResetExitDone (s : State) :
    exec (.warmResetExitDone) s = .next (s.run fun m => m.rowWarmResetExitDone) := rfl
theorem exec_engineReset (sender : Src) (s : State) :
    exec (.engineReset sender) s = .next (s.run fun m => m.rowEngineReset sender) := rfl
theorem exec_engineResetDone (die eng : Nat) (s : State) :
    exec (.engineResetDone die eng) s = .next (s.run fun m => m.rowEngineResetDone die eng) := rfl
theorem exec_suppliesInRange (s : State) :
    exec (.suppliesInRange) s = .next (s.pinEvent fun m => m.rowSuppliesInRange) := rfl
theorem exec_powerUpStageDone (s : State) :
    exec (.powerUpStageDone) s = .next (s.run fun m => m.rowPowerUpStageDone) := rfl
theorem exec_vinUndervoltage (s : State) :
    exec (.vinUndervoltage) s = .next (s.pinEvent fun m => m.rowVinUndervoltage) := rfl
theorem exec_vinReturnExpiry (s : State) :
    exec (.vinReturnExpiry) s = .next (s.pinEvent fun m => m.rowVinReturn) := rfl
theorem exec_vauxUndervoltage (s : State) :
    exec (.vauxUndervoltage) s = .next (s.pinEvent fun m => m.rowVauxUndervoltage) := rfl
theorem exec_domainPowerDownRequest (sender : Src) (s : State) :
    exec (.domainPowerDownRequest sender) s = .next (s.run fun m => m.rowDomainPowerDownRequest sender) := rfl
theorem exec_domainPowerUpRequest (sender : Src) (s : State) :
    exec (.domainPowerUpRequest sender) s = .next (s.run fun m => m.rowDomainPowerUpRequest sender) := rfl
theorem exec_domainTransfersDrained (die dom : Nat) (s : State) :
    exec (.domainTransfersDrained die dom) s = .next (s.run fun m => m.rowDomainTransfersDrained die dom) := rfl
theorem exec_domainDownBoundExpiry (die dom : Nat) (s : State) :
    exec (.domainDownBoundExpiry die dom) s = .next (s.run fun m => m.rowDomainDownBoundExpiry die dom) := rfl
theorem exec_domainUpDone (die dom : Nat) (s : State) :
    exec (.domainUpDone die dom) s = .next (s.run fun m => m.rowDomainUpDone die dom) := rfl
theorem exec_powerEvaluation (watts mA vin vaux vauxMa : Nat) (s : State) :
    exec (.powerEvaluation watts mA vin vaux vauxMa) s = .next (s.run fun m => m.rowPowerEvaluation watts mA vin vaux vauxMa) := rfl
theorem exec_currentCut (s : State) :
    exec (.currentCut) s = .next (s.run fun m => m.rowCurrentCut) := rfl
theorem exec_currentCutEnd (s : State) :
    exec (.currentCutEnd) s = .next (s.run fun m => m.rowCurrentCutEnd) := rfl
theorem exec_thermalSample (stack : Bool) (n : Nat) (readings : List Int) (s : State) :
    exec (.thermalSample stack n readings) s = .next (s.run fun m => m.rowThermalSample stack n readings) := rfl
theorem exec_bootChoose (recordOk : Bool) (s : State) :
    exec (.bootChoose recordOk) s = .next (s.run fun m => m.rowBootChoose recordOk) := rfl
theorem exec_bootRetryExpiry (recordOk : Bool) (s : State) :
    exec (.bootRetryExpiry recordOk) s = .next (s.run fun m => m.rowBootRetryExpiry recordOk) := rfl
theorem exec_imageUpload (q : Requester) (r : Request) (s : State) :
    exec (.imageUpload q r) s = .next (s.run fun m => m.rowImageUpload q r) := rfl
theorem exec_activateLive (sender : Src) (s : State) :
    exec (.activateLive sender) s = .next (s.run fun m => m.rowActivateLive sender) := rfl
theorem exec_activateAtColdReset (sender : Src) (s : State) :
    exec (.activateAtColdReset sender) s = .next (s.run fun m => m.rowActivateAtColdReset sender) := rfl
theorem exec_handoverDone (s : State) :
    exec (.handoverDone) s = .next (s.run fun m => m.rowHandoverDone) := rfl
theorem exec_handoverTimeout (s : State) :
    exec (.handoverTimeout) s = .next (s.run fun m => m.rowHandoverTimeout) := rfl
theorem exec_claimWindowExpiry (s : State) :
    exec (.claimWindowExpiry) s = .next (s.run fun m => m.rowClaimWindowExpiry) := rfl
theorem exec_confidentialEnter (sender : Src) (s : State) :
    exec (.confidentialEnter sender) s = .next (s.run fun m => m.rowConfidentialEnter sender) := rfl
theorem exec_confidentialExit (sender : Src) (s : State) :
    exec (.confidentialExit sender) s = .next (s.run fun m => m.rowConfidentialExit sender) := rfl
theorem exec_confidentialEntryBoundExpiry (s : State) :
    exec (.confidentialEntryBoundExpiry) s = .next (s.run fun m => m.rowConfidentialEntryBoundExpiry) := rfl
theorem exec_confidentialEntryDone (key : List Byte) (s : State) :
    exec (.confidentialEntryDone key) s = .next (s.run fun m => m.rowConfidentialEntryDone key) := rfl
theorem exec_confidentialExitDone (s : State) :
    exec (.confidentialExitDone) s = .next (s.run fun m => m.rowConfidentialExitDone) := rfl
theorem exec_pathLossExitExpiry (s : State) :
    exec (.pathLossExitExpiry) s = .next (s.run fun m => m.rowPathLossExitExpiry) := rfl
theorem exec_weightBind (sender : Src) (s : State) :
    exec (.weightBind sender) s = .next (s.run fun m => m.rowWeightBind sender) := rfl
theorem exec_weightUnbind (sender : Src) (s : State) :
    exec (.weightUnbind sender) s = .next (s.run fun m => m.rowWeightUnbind sender) := rfl
theorem exec_bindingDecision (slot : Nat) (s : State) :
    exec (.bindingDecision slot) s = .next (s.run fun m => m.rowBindingDecision slot) := rfl
theorem exec_auditFlashWriteDone (ok : Bool) (s : State) :
    exec (.auditFlashWriteDone ok) s = .next (s.run fun m => m.rowAuditFlashWriteDone ok) := rfl
theorem exec_snapshot (sender : Src) (s : State) :
    exec (.snapshot sender) s = .next (s.run fun m => m.rowSnapshot sender) := rfl
theorem exec_clearCounters (sender : Src) (s : State) :
    exec (.clearCounters sender) s = .next (s.run fun m => m.rowClearCounters sender) := rfl
theorem exec_spanArm (sender : Src) (s : State) :
    exec (.spanArm sender) s = .next (s.run fun m => m.rowSpanArm sender) := rfl
theorem exec_spanDisarm (sender : Src) (s : State) :
    exec (.spanDisarm sender) s = .next (s.run fun m => m.rowSpanDisarm sender) := rfl
theorem exec_softwareStart (sender : Src) (s : State) :
    exec (.softwareStart sender) s = .next (s.run fun m => m.rowSoftwareStart sender) := rfl
theorem exec_softwareStop (sender : Src) (s : State) :
    exec (.softwareStop sender) s = .next (s.run fun m => m.rowSoftwareStop sender) := rfl
theorem exec_spanSettleExpiry (s : State) :
    exec (.spanSettleExpiry) s = .next (s.run fun m => m.rowSpanSettleExpiry) := rfl
theorem exec_clearSpan (sender : Src) (s : State) :
    exec (.clearSpan sender) s = .next (s.run fun m => m.rowClearSpan sender) := rfl
theorem exec_eyeMeasurementDone (p height width : Nat) (s : State) :
    exec (.eyeMeasurementDone p height width) s = .next (s.run fun m => m.rowEyeMeasurementDone p height width) := rfl
theorem exec_moduleInserted (pos : Nat) (s : State) :
    exec (.moduleInserted pos) s = .next (s.atPort fun m => m.rowModuleInserted pos) := rfl
theorem exec_moduleRemoved (pos : Nat) (s : State) :
    exec (.moduleRemoved pos) s = .next (s.atPort fun m => m.rowModuleRemoved pos) := rfl
theorem exec_moduleReady (pos app rxWarn rxAlarm txWarn txAlarm : Nat) (s : State) :
    exec (.moduleReady pos app rxWarn rxAlarm txWarn txAlarm) s = .next (s.run fun m => m.rowModuleReady pos app rxWarn rxAlarm txWarn txAlarm) := rfl
theorem exec_moduleInitTimeout (pos : Nat) (s : State) :
    exec (.moduleInitTimeout pos) s = .next (s.run fun m => m.rowModuleInitTimeout pos) := rfl
theorem exec_moduleFaultRetryExpiry (pos : Nat) (s : State) :
    exec (.moduleFaultRetryExpiry pos) s = .next (s.run fun m => m.rowModuleFaultRetryExpiry pos) := rfl
theorem exec_modulePoll (pos : Nat) (got : Option (List (Nat × Nat) × Bool)) (s : State) :
    exec (.modulePoll pos got) s = .next (s.run fun m => m.rowModulePoll pos got) := rfl
theorem exec_moduleMapRead (sender : Src) (got : Option (List Byte)) (s : State) :
    exec (.moduleMapRead sender got) s = .next (s.run fun m => m.rowModuleMapRead sender got) := rfl
theorem exec_moduleMapWrite (sender : Src) (bs : List Byte) (ok : Bool) (s : State) :
    exec (.moduleMapWrite sender bs ok) s = .next (s.run fun m => m.rowModuleMapWrite sender bs ok) := rfl
theorem exec_traceStart (sender : Src) (s : State) :
    exec (.traceStart sender) s = .next (s.run fun m => m.rowTraceStart sender) := rfl
theorem exec_traceStop (sender : Src) (s : State) :
    exec (.traceStop sender) s = .next (s.run fun m => m.rowTraceStop sender) := rfl
theorem exec_tracePostTriggerDone (s : State) :
    exec (.tracePostTriggerDone) s = .next (s.run fun m => m.rowTracePostTriggerDone) := rfl
theorem exec_tapInstructionUpdate (code : Nat) (s : State) :
    exec (.tapInstructionUpdate code) s = .next (s.onAux fun m => m.rowTapInstructionUpdate code) := rfl
theorem exec_debugScratchRead (sender : Src) (s : State) :
    exec (.debugScratchRead sender) s = .next (s.run fun m => m.rowDebugScratchRead sender) := rfl
theorem exec_debugScratchWrite (sender : Src) (bs : List Byte) (s : State) :
    exec (.debugScratchWrite sender bs) s = .next (s.run fun m => m.rowDebugScratchWrite sender bs) := rfl
theorem exec_debugScratchGrantTimeout (s : State) :
    exec (.debugScratchGrantTimeout) s = .next (s.run fun m => m.rowDebugScratchGrantTimeout) := rfl
theorem exec_sidebandLineCheck (line st : Nat) (s : State) :
    exec (.sidebandLineCheck line st) s = .next (s.onAux fun m => m.rowSidebandLineCheck line st) := rfl
theorem exec_referencePresent (pos : Nat) (s : State) :
    exec (.referencePresent pos) s = .next (s.onAux fun m => m.rowReferencePresent pos) := rfl
theorem exec_colLinkError (link : Nat) (s : State) :
    exec (.colLinkError link) s = .next (s.run fun m => m.rowColLinkError link) := rfl
theorem exec_colLinkRetrainDone (link : Nat) (s : State) :
    exec (.colLinkRetrainDone link) s = .next (s.run fun m => m.rowColLinkRetrainDone link) := rfl
theorem exec_perstLRelease (port : Nat) (s : State) :
    exec (.perstLRelease port) s = .next (s.atPort fun m => m.rowPerstRelease port) := rfl
theorem exec_ideKeyManagement (link ld : Nat) (io mem : Bool) (s : State) :
    exec (.ideKeyManagement link ld io mem) s = .next (s.run fun m => m.rowIdeKeyManagement link ld io mem) := rfl
theorem exec_plcaStatusChange (ok : Bool) (s : State) :
    exec (.plcaStatusChange ok) s = .next (s.run fun m => m.rowPlcaStatusChange ok) := rfl
theorem exec_icmpv6Message (kind target : Nat) (s : State) :
    exec (.icmpv6Message kind target) s = .next (s.run fun m => m.rowIcmpv6Message kind target) := rfl

end Sys2Proof.Machine
end

