-- ==== Sys2Proof/Laws/Memory.lean ====
section
/-! SUPPORT. The store's bytes: a byte reads as it was last written, every other byte as before, and every operation keeps the
canonical form. -/

namespace Sys2Proof.Machine

theorem Memory.wfFrom_mono {lo hi : Nat} (h : lo ≤ hi) (mem : List Host.Cell) (w : Memory.wfFrom hi mem = true) :
    Memory.wfFrom lo mem = true := by
  cases mem with
  | nil => rfl
  | cons c t =>
    obtain ⟨a, b⟩ := c
    simp only [Memory.wfFrom, Bool.and_eq_true, decide_eq_true_eq] at w ⊢
    exact ⟨⟨by omega, w.1.2⟩, w.2⟩

theorem Memory.read_below {lo : Nat} (mem : List Host.Cell) (w : Memory.wfFrom lo mem = true) {x : Nat} (h : x < lo) :
    Memory.read mem x = 0 := by
  cases mem with
  | nil => rfl
  | cons c t =>
    obtain ⟨a, b⟩ := c
    simp only [Memory.wfFrom, Bool.and_eq_true, decide_eq_true_eq] at w
    simp only [Memory.read]
    rw [if_neg (by omega), if_pos (by omega)]

theorem Memory.write_wfFrom (mem : List Host.Cell) (lo x : Nat) (v : Byte) (h : lo ≤ x) (w : Memory.wfFrom lo mem = true) :
    Memory.wfFrom lo (Memory.write mem x v) = true := by
  induction mem generalizing lo with
  | nil =>
    simp only [Memory.write]
    split
    · rfl
    · rename_i hv; simp only [Memory.wfFrom, Bool.and_eq_true, decide_eq_true_eq]; exact ⟨⟨h, by simpa using hv⟩, trivial⟩
  | cons c t ih =>
    obtain ⟨a, b⟩ := c
    simp only [Memory.wfFrom, Bool.and_eq_true, decide_eq_true_eq] at w
    simp only [Memory.write]
    split
    · split
      · simp only [Memory.wfFrom, Bool.and_eq_true, decide_eq_true_eq]; exact w
      · rename_i h1 hv
        have hb : (b != 0) = true := w.1.2
        simp only [Memory.wfFrom, Bool.and_eq_true, decide_eq_true_eq]
        exact ⟨⟨h, by simpa using hv⟩, ⟨by omega, hb⟩, w.2⟩
    · split
      · split
        · exact Memory.wfFrom_mono (by omega) _ w.2
        · rename_i h1 h2 hv
          subst h2
          simp only [Memory.wfFrom, Bool.and_eq_true, decide_eq_true_eq]
          exact ⟨⟨h, by simpa using hv⟩, w.2⟩
      · simp only [Memory.wfFrom, Bool.and_eq_true, decide_eq_true_eq]
        exact ⟨w.1, ih (a + 1) (by omega) w.2⟩

/-- A write keeps the canonical form. -/
theorem Memory.write_wf (mem : List Host.Cell) (x : Nat) (v : Byte) (w : Memory.wf mem = true) :
    Memory.wf (Memory.write mem x v) = true := Memory.write_wfFrom mem 0 x v (Nat.zero_le _) w

/-- Writing bytes keeps the canonical form. -/
theorem Memory.writeAll_wf (bs : List Byte) (mem : List Host.Cell) (a : Nat) (w : Memory.wf mem = true) :
    Memory.wf (Memory.writeAll mem a bs) = true := by
  induction bs generalizing mem a with
  | nil => exact w
  | cons b t ih => exact ih _ _ (Memory.write_wf mem a b w)

theorem Memory.filter_wfFrom (p : Host.Cell → Bool) (mem : List Host.Cell) (lo : Nat) (w : Memory.wfFrom lo mem = true) :
    Memory.wfFrom lo (mem.filter p) = true := by
  induction mem generalizing lo with
  | nil => rfl
  | cons c t ih =>
    obtain ⟨a, b⟩ := c
    simp only [Memory.wfFrom, Bool.and_eq_true, decide_eq_true_eq] at w
    simp only [List.filter]
    split
    · simp only [Memory.wfFrom, Bool.and_eq_true, decide_eq_true_eq]
      exact ⟨w.1, ih _ w.2⟩
    · exact Memory.wfFrom_mono (by omega) _ (ih _ w.2)

/-- Clearing a range keeps the canonical form. -/
theorem Memory.clear_wf (mem : List Host.Cell) (lo hi : Nat) (w : Memory.wf mem = true) : Memory.wf (Memory.clear mem lo hi) = true :=
  Memory.filter_wfFrom _ mem 0 w

theorem Memory.read_write_from (mem : List Host.Cell) (lo x y : Nat) (v : Byte) (w : Memory.wfFrom lo mem = true) :
    Memory.read (Memory.write mem x v) y = if y = x then v else Memory.read mem y := by
  induction mem generalizing lo with
  | nil =>
    simp only [Memory.write]
    split
    · rename_i hv; subst hv; split <;> rfl
    · simp only [Memory.read]
      by_cases h : y = x
      · simp [h]
      · simp [h]
  | cons c t ih =>
    obtain ⟨a, b⟩ := c
    simp only [Memory.wfFrom, Bool.and_eq_true, decide_eq_true_eq] at w
    simp only [Memory.write]
    split
    · rename_i hxa
      split
      · rename_i hv
        subst hv
        by_cases h : y = x
        · subst h; simp only [Memory.read, if_true]; rw [if_neg (by omega), if_pos hxa]
        · simp [h]
      · by_cases h : y = x
        · subst h; simp [Memory.read]
        · rw [if_neg h]
          simp only [Memory.read, if_neg h]
          by_cases hy : y < x
          · rw [if_pos hy, if_neg (by omega), if_pos (by omega)]
          · rw [if_neg hy]
    · split
      · rename_i h1 h2
        subst h2
        split
        · rename_i hv
          subst hv
          by_cases h : y = x
          · subst h; rw [if_pos rfl]; exact Memory.read_below t w.2 (Nat.lt_succ_self _)
          · rw [if_neg h]
            simp only [Memory.read, if_neg h]
            split
            · exact Memory.read_below t w.2 (by omega)
            · rfl
        · by_cases h : y = x
          · subst h; simp [Memory.read]
          · simp [Memory.read, h]
      · rename_i h1 h2
        simp only [Memory.read]
        by_cases h : y = a
        · subst h; rw [if_pos rfl, if_neg (by omega)]; simp
        · simp only [if_neg h]
          by_cases hy : y < a
          · rw [if_pos hy, if_neg (by omega), if_pos hy]
          · rw [if_neg hy, if_neg hy, ih (a + 1) w.2]

/-- A byte reads as it was last written; every other byte as before. -/
theorem Memory.read_write (mem : List Host.Cell) (x y : Nat) (v : Byte) (w : Memory.wf mem = true) :
    Memory.read (Memory.write mem x v) y = if y = x then v else Memory.read mem y := Memory.read_write_from mem 0 x y v w

end Sys2Proof.Machine
end

