-- ==== Sys2Proof/Laws/Run.lean ====
section
/-! SUPPORT. What `run`, `powered`, `onAux` and `pinEvent` do: the whole of it, so that no proof unfolds them. -/

namespace Sys2Proof.Machine

theorem State.run_clocked {s : State} (h : s.m.clocked = true) (f : Mach → Mach) : s.run f = s.after f := by
  simp [State.run, h]

theorem State.run_unclocked {s : State} (h : s.m.clocked = false) (f : Mach → Mach) : s.run f = s := by
  simp [State.run, h]

theorem State.powered_on {s : State} (h : s.m.powered = true) (f : Mach → Mach) : s.powered f = s.after f := by
  simp [State.powered, h]

theorem State.powered_off {s : State} (h : s.m.powered = false) (f : Mach → Mach) : s.powered f = s := by
  simp [State.powered, h]

theorem State.onAux_on {s : State} (h : s.m.elec.vauxOk = true) (f : Mach → Mach) : s.onAux f = s.after f := by
  simp [State.onAux, h]

theorem State.onAux_off {s : State} (h : s.m.elec.vauxOk = false) (f : Mach → Mach) : s.onAux f = s := by
  simp [State.onAux, h]

/-- Two operations that agree on the machine of a state change it alike. -/
theorem State.after_congr {s : State} {f g : Mach → Mach} (h : f s.m = g s.m) : s.after f = s.after g := by
  simp [State.after, Mach.inside, h]

/-- A clocked command whose operation is g on the machine at hand. -/
theorem State.run_eq {s : State} {f g : Mach → Mach} (hc : s.m.clocked = true) (h : f s.m = g s.m) : s.run f = s.after g := by
  rw [State.run_clocked hc, State.after_congr h]

/-- An operation that leaves the pins and the variant alone is what it changes the machine to. -/
theorem Mach.inside_eq {m : Mach} {f : Mach → Mach} (he : (f m).elec = m.elec) (hd : (f m).dies = m.dies) : m.inside f = f m := by
  simp [Mach.inside, ← he, ← hd]

/-- Two operations that agree on the machine of a state, at a port's or a module's pin, change it alike. -/
theorem State.atPort_congr {s : State} {f g : Mach → Mach} (h : f s.m = g s.m) : s.atPort f = s.atPort g := by
  simp [State.atPort, h]

theorem step_front (c : Instr) (s : State) : step { s with pending := c :: s.pending } = exec c s := rfl

/-! ## What keeps a trip -/

theorem Mach.trace_clk (m : Mach) (src die : Nat) (fields : List Byte) : (m.trace src die fields).clk = m.clk := by
  simp only [Mach.trace]
  split <;> rfl

theorem Mach.event_clk (m : Mach) (code param : Nat) : (m.event code param).clk = m.clk := by
  simp only [Mach.event, Mach.traceTrigger]
  split <;> rfl

/-- A notice leaves the clocks' own state alone. -/
theorem Mach.notice_clk (m : Mach) (number : Nat) (body : List Byte) : (m.notice number body).clk = m.clk := by
  simp only [Mach.notice]
  rw [Mach.event_clk, Mach.trace_clk]
  rfl

theorem Mach.rowReferencePresent_tripped (m : Mach) (i : Nat) : (m.rowReferencePresent i).clk.tripped = m.clk.tripped := by
  simp only [Mach.rowReferencePresent]
  split
  · rfl
  · split <;> rfl

theorem Mach.rowReferenceAbsent_tripped (m : Mach) (i : Nat) (h : m.clk.tripped = true) :
    (m.rowReferenceAbsent i).clk.tripped = true := by
  have nc : (m.setRef i 0).clocked = false := by simp [Mach.clocked, show (m.setRef i 0).clk.tripped = true from h]
  simp only [Mach.rowReferenceAbsent]
  split
  · exact h
  · split
    · split
      · split <;> exact h
      · split <;> exact h
    · rw [nc]; exact h

theorem Mach.rowTapInstructionUpdate_clk (m : Mach) (code : Nat) : (m.rowTapInstructionUpdate code).clk = m.clk := by
  simp only [Mach.rowTapInstructionUpdate]
  repeat (first | rfl | split)

theorem Mach.rowSidebandLineCheck_clk (m : Mach) (line st : Nat) : (m.rowSidebandLineCheck line st).clk = m.clk := by
  simp only [Mach.rowSidebandLineCheck]
  split
  · rfl
  · split
    · simp only [Mach.fresh]
      rw [Mach.notice_clk]
      split <;> rfl
    · split <;> rfl

/-- What a command does to the state, by what must run for it: every command but those of the supplies, RESET_IN_L and the
straps. One of the ALWAYS domain does not end a trip. -/
theorem exec_shape (c : Instr) (s : State) (h : pinCommand c = false) :
    (∃ f, exec c s = .next (s.run f)) ∨ (∃ f, exec c s = .next (s.powered f)) ∨
      (∃ f, exec c s = .next (s.onAux f) ∧ ∀ m : Mach, m.clk.tripped = true → (f m).clk.tripped = true) ∨
      (portPinCommand c = true ∧ ∃ f, exec c s = .next (s.atPort f)) := by
  cases c <;> first
    | exact .inl ⟨_, rfl⟩
    | exact .inr (.inl ⟨_, rfl⟩)
    | exact .inr (.inr (.inl ⟨_, rfl, fun m t => (m.rowReferencePresent_tripped _).trans t⟩))
    | exact .inr (.inr (.inl ⟨_, rfl, fun m t => m.rowReferenceAbsent_tripped _ t⟩))
    | exact .inr (.inr (.inl ⟨_, rfl, fun m t => (congrArg Clocks.tripped (m.rowTapInstructionUpdate_clk _)).trans t⟩))
    | exact .inr (.inr (.inl ⟨_, rfl, fun m t => (congrArg Clocks.tripped (m.rowSidebandLineCheck_clk _ _)).trans t⟩))
    | exact .inr (.inr (.inr ⟨rfl, _, rfl⟩))
    | cases h

end Sys2Proof.Machine
end

