-- ==== Sys2Proof/Laws/State.lean ====
section
/-! SUPPORT. One lemma for each field and each named update: what an update of one field leaves as it was. -/

namespace Sys2Proof.Machine

/-! ## The state -/

@[simp] theorem State.with_m (s : State) (m : Mach) : ({ s with m := m } : State).m = m := rfl
@[simp] theorem State.with_pending (s : State) (m : Mach) : ({ s with m := m } : State).pending = s.pending := rfl
@[simp] theorem State.after_m (s : State) (f : Mach → Mach) : (s.after f).m = s.m.inside f := rfl
@[simp] theorem State.after_pending (s : State) (f : Mach → Mach) : (s.after f).pending = s.pending := rfl
@[simp] theorem Mach.inside_elec (m : Mach) (f : Mach → Mach) : (m.inside f).elec = m.elec := rfl
@[simp] theorem Mach.inside_dies (m : Mach) (f : Mach → Mach) : (m.inside f).dies = m.dies := rfl
@[simp] theorem Mach.inside_cairn (m : Mach) (f : Mach → Mach) : (m.inside f).cairn = (f m).cairn := rfl
@[simp] theorem Mach.inside_tele (m : Mach) (f : Mach → Mach) : (m.inside f).tele = (f m).tele := rfl
@[simp] theorem Mach.inside_time (m : Mach) (f : Mach → Mach) : (m.inside f).time = (f m).time := rfl
@[simp] theorem Mach.inside_col (m : Mach) (f : Mach → Mach) : (m.inside f).col = (f m).col := rfl
@[simp] theorem Mach.inside_fences (m : Mach) (f : Mach → Mach) : (m.inside f).fences = (f m).fences := rfl
@[simp] theorem Mach.inside_store (m : Mach) (f : Mach → Mach) : (m.inside f).store = (f m).store := rfl
@[simp] theorem Mach.inside_sched (m : Mach) (f : Mach → Mach) : (m.inside f).sched = (f m).sched := rfl
@[simp] theorem Mach.inside_eng (m : Mach) (f : Mach → Mach) : (m.inside f).eng = (f m).eng := rfl
@[simp] theorem Mach.inside_xl (m : Mach) (f : Mach → Mach) : (m.inside f).xl = (f m).xl := rfl
@[simp] theorem Mach.inside_host (m : Mach) (f : Mach → Mach) : (m.inside f).host = (f m).host := rfl
@[simp] theorem Mach.inside_ports (m : Mach) (f : Mach → Mach) : (m.inside f).ports = (f m).ports := rfl
@[simp] theorem Mach.inside_fab (m : Mach) (f : Mach → Mach) : (m.inside f).fab = (f m).fab := rfl
@[simp] theorem Mach.inside_hall (m : Mach) (f : Mach → Mach) : (m.inside f).hall = (f m).hall := rfl
@[simp] theorem Mach.inside_sec (m : Mach) (f : Mach → Mach) : (m.inside f).sec = (f m).sec := rfl
@[simp] theorem Mach.inside_clk (m : Mach) (f : Mach → Mach) : (m.inside f).clk = (f m).clk := rfl
@[simp] theorem Mach.inside_out (m : Mach) (f : Mach → Mach) : (m.inside f).out = (f m).out := rfl
@[simp] theorem Mach.inside_freeCtr (m : Mach) (f : Mach → Mach) : (m.inside f).freeCtr = (f m).freeCtr := rfl

/-! ## setReq -/

@[simp] theorem Mach.setReq_dies (m : Mach) (q : Requester) (s : ReqState) : (m.setReq q s).dies = m.dies := rfl
@[simp] theorem Mach.setReq_tele (m : Mach) (q : Requester) (s : ReqState) : (m.setReq q s).tele = m.tele := rfl
@[simp] theorem Mach.setReq_elec (m : Mach) (q : Requester) (s : ReqState) : (m.setReq q s).elec = m.elec := rfl
@[simp] theorem Mach.setReq_time (m : Mach) (q : Requester) (s : ReqState) : (m.setReq q s).time = m.time := rfl
@[simp] theorem Mach.setReq_col (m : Mach) (q : Requester) (s : ReqState) : (m.setReq q s).col = m.col := rfl
@[simp] theorem Mach.setReq_fences (m : Mach) (q : Requester) (s : ReqState) : (m.setReq q s).fences = m.fences := rfl
@[simp] theorem Mach.setReq_store (m : Mach) (q : Requester) (s : ReqState) : (m.setReq q s).store = m.store := rfl
@[simp] theorem Mach.setReq_sched (m : Mach) (q : Requester) (s : ReqState) : (m.setReq q s).sched = m.sched := rfl
@[simp] theorem Mach.setReq_eng (m : Mach) (q : Requester) (s : ReqState) : (m.setReq q s).eng = m.eng := rfl
@[simp] theorem Mach.setReq_xl (m : Mach) (q : Requester) (s : ReqState) : (m.setReq q s).xl = m.xl := rfl
@[simp] theorem Mach.setReq_host (m : Mach) (q : Requester) (s : ReqState) : (m.setReq q s).host = m.host := rfl
@[simp] theorem Mach.setReq_ports (m : Mach) (q : Requester) (s : ReqState) : (m.setReq q s).ports = m.ports := rfl
@[simp] theorem Mach.setReq_fab (m : Mach) (q : Requester) (s : ReqState) : (m.setReq q s).fab = m.fab := rfl
@[simp] theorem Mach.setReq_hall (m : Mach) (q : Requester) (s : ReqState) : (m.setReq q s).hall = m.hall := rfl
@[simp] theorem Mach.setReq_sec (m : Mach) (q : Requester) (s : ReqState) : (m.setReq q s).sec = m.sec := rfl
@[simp] theorem Mach.setReq_clk (m : Mach) (q : Requester) (s : ReqState) : (m.setReq q s).clk = m.clk := rfl
@[simp] theorem Mach.setReq_out (m : Mach) (q : Requester) (s : ReqState) : (m.setReq q s).out = m.out := rfl
@[simp] theorem Mach.setReq_freeCtr (m : Mach) (q : Requester) (s : ReqState) : (m.setReq q s).freeCtr = m.freeCtr := rfl

/-! ## setLd -/

@[simp] theorem Mach.setLd_dies (m : Mach) (link ld : Nat) (l : Ld) : (m.setLd link ld l).dies = m.dies := rfl
@[simp] theorem Mach.setLd_cairn (m : Mach) (link ld : Nat) (l : Ld) : (m.setLd link ld l).cairn = m.cairn := rfl
@[simp] theorem Mach.setLd_tele (m : Mach) (link ld : Nat) (l : Ld) : (m.setLd link ld l).tele = m.tele := rfl
@[simp] theorem Mach.setLd_elec (m : Mach) (link ld : Nat) (l : Ld) : (m.setLd link ld l).elec = m.elec := rfl
@[simp] theorem Mach.setLd_time (m : Mach) (link ld : Nat) (l : Ld) : (m.setLd link ld l).time = m.time := rfl
@[simp] theorem Mach.setLd_col (m : Mach) (link ld : Nat) (l : Ld) : (m.setLd link ld l).col = m.col := rfl
@[simp] theorem Mach.setLd_fences (m : Mach) (link ld : Nat) (l : Ld) : (m.setLd link ld l).fences = m.fences := rfl
@[simp] theorem Mach.setLd_store (m : Mach) (link ld : Nat) (l : Ld) : (m.setLd link ld l).store = m.store := rfl
@[simp] theorem Mach.setLd_sched (m : Mach) (link ld : Nat) (l : Ld) : (m.setLd link ld l).sched = m.sched := rfl
@[simp] theorem Mach.setLd_eng (m : Mach) (link ld : Nat) (l : Ld) : (m.setLd link ld l).eng = m.eng := rfl
@[simp] theorem Mach.setLd_xl (m : Mach) (link ld : Nat) (l : Ld) : (m.setLd link ld l).xl = m.xl := rfl
@[simp] theorem Mach.setLd_ports (m : Mach) (link ld : Nat) (l : Ld) : (m.setLd link ld l).ports = m.ports := rfl
@[simp] theorem Mach.setLd_fab (m : Mach) (link ld : Nat) (l : Ld) : (m.setLd link ld l).fab = m.fab := rfl
@[simp] theorem Mach.setLd_hall (m : Mach) (link ld : Nat) (l : Ld) : (m.setLd link ld l).hall = m.hall := rfl
@[simp] theorem Mach.setLd_sec (m : Mach) (link ld : Nat) (l : Ld) : (m.setLd link ld l).sec = m.sec := rfl
@[simp] theorem Mach.setLd_clk (m : Mach) (link ld : Nat) (l : Ld) : (m.setLd link ld l).clk = m.clk := rfl
@[simp] theorem Mach.setLd_out (m : Mach) (link ld : Nat) (l : Ld) : (m.setLd link ld l).out = m.out := rfl
@[simp] theorem Mach.setLd_freeCtr (m : Mach) (link ld : Nat) (l : Ld) : (m.setLd link ld l).freeCtr = m.freeCtr := rfl

/-! ## setEnum -/

@[simp] theorem Mach.setEnum_dies (m : Mach) (e : Enumeration) : (m.setEnum e).dies = m.dies := rfl
@[simp] theorem Mach.setEnum_tele (m : Mach) (e : Enumeration) : (m.setEnum e).tele = m.tele := rfl
@[simp] theorem Mach.setEnum_elec (m : Mach) (e : Enumeration) : (m.setEnum e).elec = m.elec := rfl
@[simp] theorem Mach.setEnum_time (m : Mach) (e : Enumeration) : (m.setEnum e).time = m.time := rfl
@[simp] theorem Mach.setEnum_col (m : Mach) (e : Enumeration) : (m.setEnum e).col = m.col := rfl
@[simp] theorem Mach.setEnum_fences (m : Mach) (e : Enumeration) : (m.setEnum e).fences = m.fences := rfl
@[simp] theorem Mach.setEnum_store (m : Mach) (e : Enumeration) : (m.setEnum e).store = m.store := rfl
@[simp] theorem Mach.setEnum_sched (m : Mach) (e : Enumeration) : (m.setEnum e).sched = m.sched := rfl
@[simp] theorem Mach.setEnum_eng (m : Mach) (e : Enumeration) : (m.setEnum e).eng = m.eng := rfl
@[simp] theorem Mach.setEnum_xl (m : Mach) (e : Enumeration) : (m.setEnum e).xl = m.xl := rfl
@[simp] theorem Mach.setEnum_host (m : Mach) (e : Enumeration) : (m.setEnum e).host = m.host := rfl
@[simp] theorem Mach.setEnum_ports (m : Mach) (e : Enumeration) : (m.setEnum e).ports = m.ports := rfl
@[simp] theorem Mach.setEnum_fab (m : Mach) (e : Enumeration) : (m.setEnum e).fab = m.fab := rfl
@[simp] theorem Mach.setEnum_hall (m : Mach) (e : Enumeration) : (m.setEnum e).hall = m.hall := rfl
@[simp] theorem Mach.setEnum_sec (m : Mach) (e : Enumeration) : (m.setEnum e).sec = m.sec := rfl
@[simp] theorem Mach.setEnum_clk (m : Mach) (e : Enumeration) : (m.setEnum e).clk = m.clk := rfl
@[simp] theorem Mach.setEnum_out (m : Mach) (e : Enumeration) : (m.setEnum e).out = m.out := rfl
@[simp] theorem Mach.setEnum_freeCtr (m : Mach) (e : Enumeration) : (m.setEnum e).freeCtr = m.freeCtr := rfl

/-! ## setCirque -/

@[simp] theorem Mach.setCirque_dies (m : Mach) (slot : Nat) (r : CirqueRun) : (m.setCirque slot r).dies = m.dies := rfl
@[simp] theorem Mach.setCirque_cairn (m : Mach) (slot : Nat) (r : CirqueRun) : (m.setCirque slot r).cairn = m.cairn := rfl
@[simp] theorem Mach.setCirque_tele (m : Mach) (slot : Nat) (r : CirqueRun) : (m.setCirque slot r).tele = m.tele := rfl
@[simp] theorem Mach.setCirque_elec (m : Mach) (slot : Nat) (r : CirqueRun) : (m.setCirque slot r).elec = m.elec := rfl
@[simp] theorem Mach.setCirque_time (m : Mach) (slot : Nat) (r : CirqueRun) : (m.setCirque slot r).time = m.time := rfl
@[simp] theorem Mach.setCirque_col (m : Mach) (slot : Nat) (r : CirqueRun) : (m.setCirque slot r).col = m.col := rfl
@[simp] theorem Mach.setCirque_fences (m : Mach) (slot : Nat) (r : CirqueRun) : (m.setCirque slot r).fences = m.fences := rfl
@[simp] theorem Mach.setCirque_store (m : Mach) (slot : Nat) (r : CirqueRun) : (m.setCirque slot r).store = m.store := rfl
@[simp] theorem Mach.setCirque_sched (m : Mach) (slot : Nat) (r : CirqueRun) : (m.setCirque slot r).sched = m.sched := rfl
@[simp] theorem Mach.setCirque_xl (m : Mach) (slot : Nat) (r : CirqueRun) : (m.setCirque slot r).xl = m.xl := rfl
@[simp] theorem Mach.setCirque_host (m : Mach) (slot : Nat) (r : CirqueRun) : (m.setCirque slot r).host = m.host := rfl
@[simp] theorem Mach.setCirque_ports (m : Mach) (slot : Nat) (r : CirqueRun) : (m.setCirque slot r).ports = m.ports := rfl
@[simp] theorem Mach.setCirque_fab (m : Mach) (slot : Nat) (r : CirqueRun) : (m.setCirque slot r).fab = m.fab := rfl
@[simp] theorem Mach.setCirque_hall (m : Mach) (slot : Nat) (r : CirqueRun) : (m.setCirque slot r).hall = m.hall := rfl
@[simp] theorem Mach.setCirque_sec (m : Mach) (slot : Nat) (r : CirqueRun) : (m.setCirque slot r).sec = m.sec := rfl
@[simp] theorem Mach.setCirque_clk (m : Mach) (slot : Nat) (r : CirqueRun) : (m.setCirque slot r).clk = m.clk := rfl
@[simp] theorem Mach.setCirque_out (m : Mach) (slot : Nat) (r : CirqueRun) : (m.setCirque slot r).out = m.out := rfl
@[simp] theorem Mach.setCirque_freeCtr (m : Mach) (slot : Nat) (r : CirqueRun) : (m.setCirque slot r).freeCtr = m.freeCtr := rfl

/-! ## setFan -/

@[simp] theorem Mach.setFan_dies (m : Mach) (f : Option Fanout) : (m.setFan f).dies = m.dies := rfl
@[simp] theorem Mach.setFan_cairn (m : Mach) (f : Option Fanout) : (m.setFan f).cairn = m.cairn := rfl
@[simp] theorem Mach.setFan_tele (m : Mach) (f : Option Fanout) : (m.setFan f).tele = m.tele := rfl
@[simp] theorem Mach.setFan_elec (m : Mach) (f : Option Fanout) : (m.setFan f).elec = m.elec := rfl
@[simp] theorem Mach.setFan_time (m : Mach) (f : Option Fanout) : (m.setFan f).time = m.time := rfl
@[simp] theorem Mach.setFan_col (m : Mach) (f : Option Fanout) : (m.setFan f).col = m.col := rfl
@[simp] theorem Mach.setFan_fences (m : Mach) (f : Option Fanout) : (m.setFan f).fences = m.fences := rfl
@[simp] theorem Mach.setFan_store (m : Mach) (f : Option Fanout) : (m.setFan f).store = m.store := rfl
@[simp] theorem Mach.setFan_sched (m : Mach) (f : Option Fanout) : (m.setFan f).sched = m.sched := rfl
@[simp] theorem Mach.setFan_xl (m : Mach) (f : Option Fanout) : (m.setFan f).xl = m.xl := rfl
@[simp] theorem Mach.setFan_host (m : Mach) (f : Option Fanout) : (m.setFan f).host = m.host := rfl
@[simp] theorem Mach.setFan_ports (m : Mach) (f : Option Fanout) : (m.setFan f).ports = m.ports := rfl
@[simp] theorem Mach.setFan_fab (m : Mach) (f : Option Fanout) : (m.setFan f).fab = m.fab := rfl
@[simp] theorem Mach.setFan_hall (m : Mach) (f : Option Fanout) : (m.setFan f).hall = m.hall := rfl
@[simp] theorem Mach.setFan_sec (m : Mach) (f : Option Fanout) : (m.setFan f).sec = m.sec := rfl
@[simp] theorem Mach.setFan_clk (m : Mach) (f : Option Fanout) : (m.setFan f).clk = m.clk := rfl
@[simp] theorem Mach.setFan_out (m : Mach) (f : Option Fanout) : (m.setFan f).out = m.out := rfl
@[simp] theorem Mach.setFan_freeCtr (m : Mach) (f : Option Fanout) : (m.setFan f).freeCtr = m.freeCtr := rfl

/-! ## setServices -/

@[simp] theorem Mach.setServices_dies (m : Mach) (l : List FanService) : (m.setServices l).dies = m.dies := rfl
@[simp] theorem Mach.setServices_cairn (m : Mach) (l : List FanService) : (m.setServices l).cairn = m.cairn := rfl
@[simp] theorem Mach.setServices_tele (m : Mach) (l : List FanService) : (m.setServices l).tele = m.tele := rfl
@[simp] theorem Mach.setServices_elec (m : Mach) (l : List FanService) : (m.setServices l).elec = m.elec := rfl
@[simp] theorem Mach.setServices_time (m : Mach) (l : List FanService) : (m.setServices l).time = m.time := rfl
@[simp] theorem Mach.setServices_col (m : Mach) (l : List FanService) : (m.setServices l).col = m.col := rfl
@[simp] theorem Mach.setServices_fences (m : Mach) (l : List FanService) : (m.setServices l).fences = m.fences := rfl
@[simp] theorem Mach.setServices_store (m : Mach) (l : List FanService) : (m.setServices l).store = m.store := rfl
@[simp] theorem Mach.setServices_sched (m : Mach) (l : List FanService) : (m.setServices l).sched = m.sched := rfl
@[simp] theorem Mach.setServices_xl (m : Mach) (l : List FanService) : (m.setServices l).xl = m.xl := rfl
@[simp] theorem Mach.setServices_host (m : Mach) (l : List FanService) : (m.setServices l).host = m.host := rfl
@[simp] theorem Mach.setServices_ports (m : Mach) (l : List FanService) : (m.setServices l).ports = m.ports := rfl
@[simp] theorem Mach.setServices_fab (m : Mach) (l : List FanService) : (m.setServices l).fab = m.fab := rfl
@[simp] theorem Mach.setServices_hall (m : Mach) (l : List FanService) : (m.setServices l).hall = m.hall := rfl
@[simp] theorem Mach.setServices_sec (m : Mach) (l : List FanService) : (m.setServices l).sec = m.sec := rfl
@[simp] theorem Mach.setServices_clk (m : Mach) (l : List FanService) : (m.setServices l).clk = m.clk := rfl
@[simp] theorem Mach.setServices_out (m : Mach) (l : List FanService) : (m.setServices l).out = m.out := rfl
@[simp] theorem Mach.setServices_freeCtr (m : Mach) (l : List FanService) : (m.setServices l).freeCtr = m.freeCtr := rfl

/-! ## colTake -/

@[simp] theorem Mach.colTake_dies (m : Mach) (x : ColMsg) : (m.colTake x).dies = m.dies := rfl
@[simp] theorem Mach.colTake_cairn (m : Mach) (x : ColMsg) : (m.colTake x).cairn = m.cairn := rfl
@[simp] theorem Mach.colTake_tele (m : Mach) (x : ColMsg) : (m.colTake x).tele = m.tele := rfl
@[simp] theorem Mach.colTake_elec (m : Mach) (x : ColMsg) : (m.colTake x).elec = m.elec := rfl
@[simp] theorem Mach.colTake_time (m : Mach) (x : ColMsg) : (m.colTake x).time = m.time := rfl
@[simp] theorem Mach.colTake_fences (m : Mach) (x : ColMsg) : (m.colTake x).fences = m.fences := rfl
@[simp] theorem Mach.colTake_store (m : Mach) (x : ColMsg) : (m.colTake x).store = m.store := rfl
@[simp] theorem Mach.colTake_sched (m : Mach) (x : ColMsg) : (m.colTake x).sched = m.sched := rfl
@[simp] theorem Mach.colTake_eng (m : Mach) (x : ColMsg) : (m.colTake x).eng = m.eng := rfl
@[simp] theorem Mach.colTake_xl (m : Mach) (x : ColMsg) : (m.colTake x).xl = m.xl := rfl
@[simp] theorem Mach.colTake_host (m : Mach) (x : ColMsg) : (m.colTake x).host = m.host := rfl
@[simp] theorem Mach.colTake_ports (m : Mach) (x : ColMsg) : (m.colTake x).ports = m.ports := rfl
@[simp] theorem Mach.colTake_fab (m : Mach) (x : ColMsg) : (m.colTake x).fab = m.fab := rfl
@[simp] theorem Mach.colTake_hall (m : Mach) (x : ColMsg) : (m.colTake x).hall = m.hall := rfl
@[simp] theorem Mach.colTake_sec (m : Mach) (x : ColMsg) : (m.colTake x).sec = m.sec := rfl
@[simp] theorem Mach.colTake_clk (m : Mach) (x : ColMsg) : (m.colTake x).clk = m.clk := rfl
@[simp] theorem Mach.colTake_out (m : Mach) (x : ColMsg) : (m.colTake x).out = m.out := rfl
@[simp] theorem Mach.colTake_freeCtr (m : Mach) (x : ColMsg) : (m.colTake x).freeCtr = m.freeCtr := rfl

/-! ## setCache -/

@[simp] theorem Mach.setCache_dies (m : Mach) (die : Nat) (c : List (Nat × ColLine)) : (m.setCache die c).dies = m.dies := rfl
@[simp] theorem Mach.setCache_cairn (m : Mach) (die : Nat) (c : List (Nat × ColLine)) : (m.setCache die c).cairn = m.cairn := rfl
@[simp] theorem Mach.setCache_tele (m : Mach) (die : Nat) (c : List (Nat × ColLine)) : (m.setCache die c).tele = m.tele := rfl
@[simp] theorem Mach.setCache_elec (m : Mach) (die : Nat) (c : List (Nat × ColLine)) : (m.setCache die c).elec = m.elec := rfl
@[simp] theorem Mach.setCache_time (m : Mach) (die : Nat) (c : List (Nat × ColLine)) : (m.setCache die c).time = m.time := rfl
@[simp] theorem Mach.setCache_fences (m : Mach) (die : Nat) (c : List (Nat × ColLine)) : (m.setCache die c).fences = m.fences := rfl
@[simp] theorem Mach.setCache_store (m : Mach) (die : Nat) (c : List (Nat × ColLine)) : (m.setCache die c).store = m.store := rfl
@[simp] theorem Mach.setCache_sched (m : Mach) (die : Nat) (c : List (Nat × ColLine)) : (m.setCache die c).sched = m.sched := rfl
@[simp] theorem Mach.setCache_eng (m : Mach) (die : Nat) (c : List (Nat × ColLine)) : (m.setCache die c).eng = m.eng := rfl
@[simp] theorem Mach.setCache_xl (m : Mach) (die : Nat) (c : List (Nat × ColLine)) : (m.setCache die c).xl = m.xl := rfl
@[simp] theorem Mach.setCache_host (m : Mach) (die : Nat) (c : List (Nat × ColLine)) : (m.setCache die c).host = m.host := rfl
@[simp] theorem Mach.setCache_ports (m : Mach) (die : Nat) (c : List (Nat × ColLine)) : (m.setCache die c).ports = m.ports := rfl
@[simp] theorem Mach.setCache_fab (m : Mach) (die : Nat) (c : List (Nat × ColLine)) : (m.setCache die c).fab = m.fab := rfl
@[simp] theorem Mach.setCache_hall (m : Mach) (die : Nat) (c : List (Nat × ColLine)) : (m.setCache die c).hall = m.hall := rfl
@[simp] theorem Mach.setCache_sec (m : Mach) (die : Nat) (c : List (Nat × ColLine)) : (m.setCache die c).sec = m.sec := rfl
@[simp] theorem Mach.setCache_clk (m : Mach) (die : Nat) (c : List (Nat × ColLine)) : (m.setCache die c).clk = m.clk := rfl
@[simp] theorem Mach.setCache_out (m : Mach) (die : Nat) (c : List (Nat × ColLine)) : (m.setCache die c).out = m.out := rfl
@[simp] theorem Mach.setCache_freeCtr (m : Mach) (die : Nat) (c : List (Nat × ColLine)) : (m.setCache die c).freeCtr = m.freeCtr := rfl

/-! ## openTxn -/

@[simp] theorem Mach.openTxn_dies (m : Mach) (line : Nat) (t : ColTxn) : (m.openTxn line t).dies = m.dies := rfl
@[simp] theorem Mach.openTxn_cairn (m : Mach) (line : Nat) (t : ColTxn) : (m.openTxn line t).cairn = m.cairn := rfl
@[simp] theorem Mach.openTxn_tele (m : Mach) (line : Nat) (t : ColTxn) : (m.openTxn line t).tele = m.tele := rfl
@[simp] theorem Mach.openTxn_elec (m : Mach) (line : Nat) (t : ColTxn) : (m.openTxn line t).elec = m.elec := rfl
@[simp] theorem Mach.openTxn_time (m : Mach) (line : Nat) (t : ColTxn) : (m.openTxn line t).time = m.time := rfl
@[simp] theorem Mach.openTxn_fences (m : Mach) (line : Nat) (t : ColTxn) : (m.openTxn line t).fences = m.fences := rfl
@[simp] theorem Mach.openTxn_store (m : Mach) (line : Nat) (t : ColTxn) : (m.openTxn line t).store = m.store := rfl
@[simp] theorem Mach.openTxn_sched (m : Mach) (line : Nat) (t : ColTxn) : (m.openTxn line t).sched = m.sched := rfl
@[simp] theorem Mach.openTxn_eng (m : Mach) (line : Nat) (t : ColTxn) : (m.openTxn line t).eng = m.eng := rfl
@[simp] theorem Mach.openTxn_xl (m : Mach) (line : Nat) (t : ColTxn) : (m.openTxn line t).xl = m.xl := rfl
@[simp] theorem Mach.openTxn_host (m : Mach) (line : Nat) (t : ColTxn) : (m.openTxn line t).host = m.host := rfl
@[simp] theorem Mach.openTxn_ports (m : Mach) (line : Nat) (t : ColTxn) : (m.openTxn line t).ports = m.ports := rfl
@[simp] theorem Mach.openTxn_fab (m : Mach) (line : Nat) (t : ColTxn) : (m.openTxn line t).fab = m.fab := rfl
@[simp] theorem Mach.openTxn_hall (m : Mach) (line : Nat) (t : ColTxn) : (m.openTxn line t).hall = m.hall := rfl
@[simp] theorem Mach.openTxn_sec (m : Mach) (line : Nat) (t : ColTxn) : (m.openTxn line t).sec = m.sec := rfl
@[simp] theorem Mach.openTxn_clk (m : Mach) (line : Nat) (t : ColTxn) : (m.openTxn line t).clk = m.clk := rfl
@[simp] theorem Mach.openTxn_out (m : Mach) (line : Nat) (t : ColTxn) : (m.openTxn line t).out = m.out := rfl
@[simp] theorem Mach.openTxn_freeCtr (m : Mach) (line : Nat) (t : ColTxn) : (m.openTxn line t).freeCtr = m.freeCtr := rfl

/-! ## setColl -/

@[simp] theorem Mach.setColl_dies (m : Mach) (c : Coll) : (m.setColl c).dies = m.dies := rfl
@[simp] theorem Mach.setColl_cairn (m : Mach) (c : Coll) : (m.setColl c).cairn = m.cairn := rfl
@[simp] theorem Mach.setColl_tele (m : Mach) (c : Coll) : (m.setColl c).tele = m.tele := rfl
@[simp] theorem Mach.setColl_elec (m : Mach) (c : Coll) : (m.setColl c).elec = m.elec := rfl
@[simp] theorem Mach.setColl_time (m : Mach) (c : Coll) : (m.setColl c).time = m.time := rfl
@[simp] theorem Mach.setColl_col (m : Mach) (c : Coll) : (m.setColl c).col = m.col := rfl
@[simp] theorem Mach.setColl_fences (m : Mach) (c : Coll) : (m.setColl c).fences = m.fences := rfl
@[simp] theorem Mach.setColl_store (m : Mach) (c : Coll) : (m.setColl c).store = m.store := rfl
@[simp] theorem Mach.setColl_sched (m : Mach) (c : Coll) : (m.setColl c).sched = m.sched := rfl
@[simp] theorem Mach.setColl_eng (m : Mach) (c : Coll) : (m.setColl c).eng = m.eng := rfl
@[simp] theorem Mach.setColl_xl (m : Mach) (c : Coll) : (m.setColl c).xl = m.xl := rfl
@[simp] theorem Mach.setColl_host (m : Mach) (c : Coll) : (m.setColl c).host = m.host := rfl
@[simp] theorem Mach.setColl_ports (m : Mach) (c : Coll) : (m.setColl c).ports = m.ports := rfl
@[simp] theorem Mach.setColl_fab (m : Mach) (c : Coll) : (m.setColl c).fab = m.fab := rfl
@[simp] theorem Mach.setColl_sec (m : Mach) (c : Coll) : (m.setColl c).sec = m.sec := rfl
@[simp] theorem Mach.setColl_clk (m : Mach) (c : Coll) : (m.setColl c).clk = m.clk := rfl
@[simp] theorem Mach.setColl_out (m : Mach) (c : Coll) : (m.setColl c).out = m.out := rfl
@[simp] theorem Mach.setColl_freeCtr (m : Mach) (c : Coll) : (m.setColl c).freeCtr = m.freeCtr := rfl

/-! ## setCrag -/

@[simp] theorem Mach.setCrag_dies (m : Mach) (k : Nat) (c : Crag) : (m.setCrag k c).dies = m.dies := rfl
@[simp] theorem Mach.setCrag_cairn (m : Mach) (k : Nat) (c : Crag) : (m.setCrag k c).cairn = m.cairn := rfl
@[simp] theorem Mach.setCrag_tele (m : Mach) (k : Nat) (c : Crag) : (m.setCrag k c).tele = m.tele := rfl
@[simp] theorem Mach.setCrag_elec (m : Mach) (k : Nat) (c : Crag) : (m.setCrag k c).elec = m.elec := rfl
@[simp] theorem Mach.setCrag_time (m : Mach) (k : Nat) (c : Crag) : (m.setCrag k c).time = m.time := rfl
@[simp] theorem Mach.setCrag_col (m : Mach) (k : Nat) (c : Crag) : (m.setCrag k c).col = m.col := rfl
@[simp] theorem Mach.setCrag_fences (m : Mach) (k : Nat) (c : Crag) : (m.setCrag k c).fences = m.fences := rfl
@[simp] theorem Mach.setCrag_store (m : Mach) (k : Nat) (c : Crag) : (m.setCrag k c).store = m.store := rfl
@[simp] theorem Mach.setCrag_sched (m : Mach) (k : Nat) (c : Crag) : (m.setCrag k c).sched = m.sched := rfl
@[simp] theorem Mach.setCrag_xl (m : Mach) (k : Nat) (c : Crag) : (m.setCrag k c).xl = m.xl := rfl
@[simp] theorem Mach.setCrag_host (m : Mach) (k : Nat) (c : Crag) : (m.setCrag k c).host = m.host := rfl
@[simp] theorem Mach.setCrag_ports (m : Mach) (k : Nat) (c : Crag) : (m.setCrag k c).ports = m.ports := rfl
@[simp] theorem Mach.setCrag_fab (m : Mach) (k : Nat) (c : Crag) : (m.setCrag k c).fab = m.fab := rfl
@[simp] theorem Mach.setCrag_hall (m : Mach) (k : Nat) (c : Crag) : (m.setCrag k c).hall = m.hall := rfl
@[simp] theorem Mach.setCrag_sec (m : Mach) (k : Nat) (c : Crag) : (m.setCrag k c).sec = m.sec := rfl
@[simp] theorem Mach.setCrag_clk (m : Mach) (k : Nat) (c : Crag) : (m.setCrag k c).clk = m.clk := rfl
@[simp] theorem Mach.setCrag_out (m : Mach) (k : Nat) (c : Crag) : (m.setCrag k c).out = m.out := rfl
@[simp] theorem Mach.setCrag_freeCtr (m : Mach) (k : Nat) (c : Crag) : (m.setCrag k c).freeCtr = m.freeCtr := rfl

/-! ## endFetch -/

@[simp] theorem Mach.endFetch_dies (m : Mach) (slot addr : Nat) (gfa : Bool) (e : FetchEnd) : (m.endFetch slot addr gfa e).dies = m.dies := rfl
@[simp] theorem Mach.endFetch_cairn (m : Mach) (slot addr : Nat) (gfa : Bool) (e : FetchEnd) : (m.endFetch slot addr gfa e).cairn = m.cairn := rfl
@[simp] theorem Mach.endFetch_tele (m : Mach) (slot addr : Nat) (gfa : Bool) (e : FetchEnd) : (m.endFetch slot addr gfa e).tele = m.tele := rfl
@[simp] theorem Mach.endFetch_elec (m : Mach) (slot addr : Nat) (gfa : Bool) (e : FetchEnd) : (m.endFetch slot addr gfa e).elec = m.elec := rfl
@[simp] theorem Mach.endFetch_time (m : Mach) (slot addr : Nat) (gfa : Bool) (e : FetchEnd) : (m.endFetch slot addr gfa e).time = m.time := rfl
@[simp] theorem Mach.endFetch_col (m : Mach) (slot addr : Nat) (gfa : Bool) (e : FetchEnd) : (m.endFetch slot addr gfa e).col = m.col := rfl
@[simp] theorem Mach.endFetch_fences (m : Mach) (slot addr : Nat) (gfa : Bool) (e : FetchEnd) : (m.endFetch slot addr gfa e).fences = m.fences := rfl
@[simp] theorem Mach.endFetch_store (m : Mach) (slot addr : Nat) (gfa : Bool) (e : FetchEnd) : (m.endFetch slot addr gfa e).store = m.store := rfl
@[simp] theorem Mach.endFetch_sched (m : Mach) (slot addr : Nat) (gfa : Bool) (e : FetchEnd) : (m.endFetch slot addr gfa e).sched = m.sched := rfl
@[simp] theorem Mach.endFetch_eng (m : Mach) (slot addr : Nat) (gfa : Bool) (e : FetchEnd) : (m.endFetch slot addr gfa e).eng = m.eng := rfl
@[simp] theorem Mach.endFetch_host (m : Mach) (slot addr : Nat) (gfa : Bool) (e : FetchEnd) : (m.endFetch slot addr gfa e).host = m.host := rfl
@[simp] theorem Mach.endFetch_ports (m : Mach) (slot addr : Nat) (gfa : Bool) (e : FetchEnd) : (m.endFetch slot addr gfa e).ports = m.ports := rfl
@[simp] theorem Mach.endFetch_fab (m : Mach) (slot addr : Nat) (gfa : Bool) (e : FetchEnd) : (m.endFetch slot addr gfa e).fab = m.fab := rfl
@[simp] theorem Mach.endFetch_hall (m : Mach) (slot addr : Nat) (gfa : Bool) (e : FetchEnd) : (m.endFetch slot addr gfa e).hall = m.hall := rfl
@[simp] theorem Mach.endFetch_sec (m : Mach) (slot addr : Nat) (gfa : Bool) (e : FetchEnd) : (m.endFetch slot addr gfa e).sec = m.sec := rfl
@[simp] theorem Mach.endFetch_clk (m : Mach) (slot addr : Nat) (gfa : Bool) (e : FetchEnd) : (m.endFetch slot addr gfa e).clk = m.clk := rfl
@[simp] theorem Mach.endFetch_out (m : Mach) (slot addr : Nat) (gfa : Bool) (e : FetchEnd) : (m.endFetch slot addr gfa e).out = m.out := rfl
@[simp] theorem Mach.endFetch_freeCtr (m : Mach) (slot addr : Nat) (gfa : Bool) (e : FetchEnd) : (m.endFetch slot addr gfa e).freeCtr = m.freeCtr := rfl

/-! ## setSource -/

@[simp] theorem Mach.setSource_dies (m : Mach) (n : Nat) (s : SourceState) : (m.setSource n s).dies = m.dies := rfl
@[simp] theorem Mach.setSource_cairn (m : Mach) (n : Nat) (s : SourceState) : (m.setSource n s).cairn = m.cairn := rfl
@[simp] theorem Mach.setSource_tele (m : Mach) (n : Nat) (s : SourceState) : (m.setSource n s).tele = m.tele := rfl
@[simp] theorem Mach.setSource_elec (m : Mach) (n : Nat) (s : SourceState) : (m.setSource n s).elec = m.elec := rfl
@[simp] theorem Mach.setSource_time (m : Mach) (n : Nat) (s : SourceState) : (m.setSource n s).time = m.time := rfl
@[simp] theorem Mach.setSource_col (m : Mach) (n : Nat) (s : SourceState) : (m.setSource n s).col = m.col := rfl
@[simp] theorem Mach.setSource_fences (m : Mach) (n : Nat) (s : SourceState) : (m.setSource n s).fences = m.fences := rfl
@[simp] theorem Mach.setSource_store (m : Mach) (n : Nat) (s : SourceState) : (m.setSource n s).store = m.store := rfl
@[simp] theorem Mach.setSource_sched (m : Mach) (n : Nat) (s : SourceState) : (m.setSource n s).sched = m.sched := rfl
@[simp] theorem Mach.setSource_eng (m : Mach) (n : Nat) (s : SourceState) : (m.setSource n s).eng = m.eng := rfl
@[simp] theorem Mach.setSource_xl (m : Mach) (n : Nat) (s : SourceState) : (m.setSource n s).xl = m.xl := rfl
@[simp] theorem Mach.setSource_host (m : Mach) (n : Nat) (s : SourceState) : (m.setSource n s).host = m.host := rfl
@[simp] theorem Mach.setSource_ports (m : Mach) (n : Nat) (s : SourceState) : (m.setSource n s).ports = m.ports := rfl
@[simp] theorem Mach.setSource_hall (m : Mach) (n : Nat) (s : SourceState) : (m.setSource n s).hall = m.hall := rfl
@[simp] theorem Mach.setSource_sec (m : Mach) (n : Nat) (s : SourceState) : (m.setSource n s).sec = m.sec := rfl
@[simp] theorem Mach.setSource_clk (m : Mach) (n : Nat) (s : SourceState) : (m.setSource n s).clk = m.clk := rfl
@[simp] theorem Mach.setSource_out (m : Mach) (n : Nat) (s : SourceState) : (m.setSource n s).out = m.out := rfl
@[simp] theorem Mach.setSource_freeCtr (m : Mach) (n : Nat) (s : SourceState) : (m.setSource n s).freeCtr = m.freeCtr := rfl

/-! ## setFence -/

@[simp] theorem Mach.setFence_dies (m : Mach) (d : Nat) (r : FenceRun) : (m.setFence d r).dies = m.dies := rfl
@[simp] theorem Mach.setFence_cairn (m : Mach) (d : Nat) (r : FenceRun) : (m.setFence d r).cairn = m.cairn := rfl
@[simp] theorem Mach.setFence_tele (m : Mach) (d : Nat) (r : FenceRun) : (m.setFence d r).tele = m.tele := rfl
@[simp] theorem Mach.setFence_elec (m : Mach) (d : Nat) (r : FenceRun) : (m.setFence d r).elec = m.elec := rfl
@[simp] theorem Mach.setFence_time (m : Mach) (d : Nat) (r : FenceRun) : (m.setFence d r).time = m.time := rfl
@[simp] theorem Mach.setFence_col (m : Mach) (d : Nat) (r : FenceRun) : (m.setFence d r).col = m.col := rfl
@[simp] theorem Mach.setFence_store (m : Mach) (d : Nat) (r : FenceRun) : (m.setFence d r).store = m.store := rfl
@[simp] theorem Mach.setFence_sched (m : Mach) (d : Nat) (r : FenceRun) : (m.setFence d r).sched = m.sched := rfl
@[simp] theorem Mach.setFence_eng (m : Mach) (d : Nat) (r : FenceRun) : (m.setFence d r).eng = m.eng := rfl
@[simp] theorem Mach.setFence_xl (m : Mach) (d : Nat) (r : FenceRun) : (m.setFence d r).xl = m.xl := rfl
@[simp] theorem Mach.setFence_host (m : Mach) (d : Nat) (r : FenceRun) : (m.setFence d r).host = m.host := rfl
@[simp] theorem Mach.setFence_ports (m : Mach) (d : Nat) (r : FenceRun) : (m.setFence d r).ports = m.ports := rfl
@[simp] theorem Mach.setFence_fab (m : Mach) (d : Nat) (r : FenceRun) : (m.setFence d r).fab = m.fab := rfl
@[simp] theorem Mach.setFence_hall (m : Mach) (d : Nat) (r : FenceRun) : (m.setFence d r).hall = m.hall := rfl
@[simp] theorem Mach.setFence_sec (m : Mach) (d : Nat) (r : FenceRun) : (m.setFence d r).sec = m.sec := rfl
@[simp] theorem Mach.setFence_clk (m : Mach) (d : Nat) (r : FenceRun) : (m.setFence d r).clk = m.clk := rfl
@[simp] theorem Mach.setFence_out (m : Mach) (d : Nat) (r : FenceRun) : (m.setFence d r).out = m.out := rfl
@[simp] theorem Mach.setFence_freeCtr (m : Mach) (d : Nat) (r : FenceRun) : (m.setFence d r).freeCtr = m.freeCtr := rfl

/-! ## setPortHall -/

@[simp] theorem Mach.setPortHall_dies (m : Mach) (p : Nat) (v : PortHall) : (m.setPortHall p v).dies = m.dies := rfl
@[simp] theorem Mach.setPortHall_cairn (m : Mach) (p : Nat) (v : PortHall) : (m.setPortHall p v).cairn = m.cairn := rfl
@[simp] theorem Mach.setPortHall_tele (m : Mach) (p : Nat) (v : PortHall) : (m.setPortHall p v).tele = m.tele := rfl
@[simp] theorem Mach.setPortHall_elec (m : Mach) (p : Nat) (v : PortHall) : (m.setPortHall p v).elec = m.elec := rfl
@[simp] theorem Mach.setPortHall_time (m : Mach) (p : Nat) (v : PortHall) : (m.setPortHall p v).time = m.time := rfl
@[simp] theorem Mach.setPortHall_col (m : Mach) (p : Nat) (v : PortHall) : (m.setPortHall p v).col = m.col := rfl
@[simp] theorem Mach.setPortHall_fences (m : Mach) (p : Nat) (v : PortHall) : (m.setPortHall p v).fences = m.fences := rfl
@[simp] theorem Mach.setPortHall_store (m : Mach) (p : Nat) (v : PortHall) : (m.setPortHall p v).store = m.store := rfl
@[simp] theorem Mach.setPortHall_sched (m : Mach) (p : Nat) (v : PortHall) : (m.setPortHall p v).sched = m.sched := rfl
@[simp] theorem Mach.setPortHall_eng (m : Mach) (p : Nat) (v : PortHall) : (m.setPortHall p v).eng = m.eng := rfl
@[simp] theorem Mach.setPortHall_xl (m : Mach) (p : Nat) (v : PortHall) : (m.setPortHall p v).xl = m.xl := rfl
@[simp] theorem Mach.setPortHall_host (m : Mach) (p : Nat) (v : PortHall) : (m.setPortHall p v).host = m.host := rfl
@[simp] theorem Mach.setPortHall_ports (m : Mach) (p : Nat) (v : PortHall) : (m.setPortHall p v).ports = m.ports := rfl
@[simp] theorem Mach.setPortHall_fab (m : Mach) (p : Nat) (v : PortHall) : (m.setPortHall p v).fab = m.fab := rfl
@[simp] theorem Mach.setPortHall_sec (m : Mach) (p : Nat) (v : PortHall) : (m.setPortHall p v).sec = m.sec := rfl
@[simp] theorem Mach.setPortHall_clk (m : Mach) (p : Nat) (v : PortHall) : (m.setPortHall p v).clk = m.clk := rfl
@[simp] theorem Mach.setPortHall_out (m : Mach) (p : Nat) (v : PortHall) : (m.setPortHall p v).out = m.out := rfl
@[simp] theorem Mach.setPortHall_freeCtr (m : Mach) (p : Nat) (v : PortHall) : (m.setPortHall p v).freeCtr = m.freeCtr := rfl

/-! ## setHostFilter -/

@[simp] theorem Mach.setHostFilter_dies (m : Mach) (die : Nat) (f : List HostLine) : (m.setHostFilter die f).dies = m.dies := rfl
@[simp] theorem Mach.setHostFilter_cairn (m : Mach) (die : Nat) (f : List HostLine) : (m.setHostFilter die f).cairn = m.cairn := rfl
@[simp] theorem Mach.setHostFilter_tele (m : Mach) (die : Nat) (f : List HostLine) : (m.setHostFilter die f).tele = m.tele := rfl
@[simp] theorem Mach.setHostFilter_elec (m : Mach) (die : Nat) (f : List HostLine) : (m.setHostFilter die f).elec = m.elec := rfl
@[simp] theorem Mach.setHostFilter_time (m : Mach) (die : Nat) (f : List HostLine) : (m.setHostFilter die f).time = m.time := rfl
@[simp] theorem Mach.setHostFilter_col (m : Mach) (die : Nat) (f : List HostLine) : (m.setHostFilter die f).col = m.col := rfl
@[simp] theorem Mach.setHostFilter_fences (m : Mach) (die : Nat) (f : List HostLine) : (m.setHostFilter die f).fences = m.fences := rfl
@[simp] theorem Mach.setHostFilter_store (m : Mach) (die : Nat) (f : List HostLine) : (m.setHostFilter die f).store = m.store := rfl
@[simp] theorem Mach.setHostFilter_sched (m : Mach) (die : Nat) (f : List HostLine) : (m.setHostFilter die f).sched = m.sched := rfl
@[simp] theorem Mach.setHostFilter_eng (m : Mach) (die : Nat) (f : List HostLine) : (m.setHostFilter die f).eng = m.eng := rfl
@[simp] theorem Mach.setHostFilter_xl (m : Mach) (die : Nat) (f : List HostLine) : (m.setHostFilter die f).xl = m.xl := rfl
@[simp] theorem Mach.setHostFilter_ports (m : Mach) (die : Nat) (f : List HostLine) : (m.setHostFilter die f).ports = m.ports := rfl
@[simp] theorem Mach.setHostFilter_fab (m : Mach) (die : Nat) (f : List HostLine) : (m.setHostFilter die f).fab = m.fab := rfl
@[simp] theorem Mach.setHostFilter_hall (m : Mach) (die : Nat) (f : List HostLine) : (m.setHostFilter die f).hall = m.hall := rfl
@[simp] theorem Mach.setHostFilter_sec (m : Mach) (die : Nat) (f : List HostLine) : (m.setHostFilter die f).sec = m.sec := rfl
@[simp] theorem Mach.setHostFilter_clk (m : Mach) (die : Nat) (f : List HostLine) : (m.setHostFilter die f).clk = m.clk := rfl
@[simp] theorem Mach.setHostFilter_out (m : Mach) (die : Nat) (f : List HostLine) : (m.setHostFilter die f).out = m.out := rfl
@[simp] theorem Mach.setHostFilter_freeCtr (m : Mach) (die : Nat) (f : List HostLine) : (m.setHostFilter die f).freeCtr = m.freeCtr := rfl

/-! ## hostWait -/

@[simp] theorem Mach.hostWait_dies (m : Mach) (r : HostReq) : (m.hostWait r).dies = m.dies := rfl
@[simp] theorem Mach.hostWait_cairn (m : Mach) (r : HostReq) : (m.hostWait r).cairn = m.cairn := rfl
@[simp] theorem Mach.hostWait_tele (m : Mach) (r : HostReq) : (m.hostWait r).tele = m.tele := rfl
@[simp] theorem Mach.hostWait_elec (m : Mach) (r : HostReq) : (m.hostWait r).elec = m.elec := rfl
@[simp] theorem Mach.hostWait_time (m : Mach) (r : HostReq) : (m.hostWait r).time = m.time := rfl
@[simp] theorem Mach.hostWait_col (m : Mach) (r : HostReq) : (m.hostWait r).col = m.col := rfl
@[simp] theorem Mach.hostWait_fences (m : Mach) (r : HostReq) : (m.hostWait r).fences = m.fences := rfl
@[simp] theorem Mach.hostWait_store (m : Mach) (r : HostReq) : (m.hostWait r).store = m.store := rfl
@[simp] theorem Mach.hostWait_sched (m : Mach) (r : HostReq) : (m.hostWait r).sched = m.sched := rfl
@[simp] theorem Mach.hostWait_eng (m : Mach) (r : HostReq) : (m.hostWait r).eng = m.eng := rfl
@[simp] theorem Mach.hostWait_xl (m : Mach) (r : HostReq) : (m.hostWait r).xl = m.xl := rfl
@[simp] theorem Mach.hostWait_ports (m : Mach) (r : HostReq) : (m.hostWait r).ports = m.ports := rfl
@[simp] theorem Mach.hostWait_fab (m : Mach) (r : HostReq) : (m.hostWait r).fab = m.fab := rfl
@[simp] theorem Mach.hostWait_hall (m : Mach) (r : HostReq) : (m.hostWait r).hall = m.hall := rfl
@[simp] theorem Mach.hostWait_sec (m : Mach) (r : HostReq) : (m.hostWait r).sec = m.sec := rfl
@[simp] theorem Mach.hostWait_clk (m : Mach) (r : HostReq) : (m.hostWait r).clk = m.clk := rfl
@[simp] theorem Mach.hostWait_out (m : Mach) (r : HostReq) : (m.hostWait r).out = m.out := rfl
@[simp] theorem Mach.hostWait_freeCtr (m : Mach) (r : HostReq) : (m.hostWait r).freeCtr = m.freeCtr := rfl

/-! ## gather -/

@[simp] theorem Mach.gather_dies (m : Mach) (die g : Nat) : (m.gather die g).dies = m.dies := rfl
@[simp] theorem Mach.gather_cairn (m : Mach) (die g : Nat) : (m.gather die g).cairn = m.cairn := rfl
@[simp] theorem Mach.gather_tele (m : Mach) (die g : Nat) : (m.gather die g).tele = m.tele := rfl
@[simp] theorem Mach.gather_elec (m : Mach) (die g : Nat) : (m.gather die g).elec = m.elec := rfl
@[simp] theorem Mach.gather_time (m : Mach) (die g : Nat) : (m.gather die g).time = m.time := rfl
@[simp] theorem Mach.gather_col (m : Mach) (die g : Nat) : (m.gather die g).col = m.col := rfl
@[simp] theorem Mach.gather_fences (m : Mach) (die g : Nat) : (m.gather die g).fences = m.fences := rfl
@[simp] theorem Mach.gather_sched (m : Mach) (die g : Nat) : (m.gather die g).sched = m.sched := rfl
@[simp] theorem Mach.gather_eng (m : Mach) (die g : Nat) : (m.gather die g).eng = m.eng := rfl
@[simp] theorem Mach.gather_xl (m : Mach) (die g : Nat) : (m.gather die g).xl = m.xl := rfl
@[simp] theorem Mach.gather_host (m : Mach) (die g : Nat) : (m.gather die g).host = m.host := rfl
@[simp] theorem Mach.gather_ports (m : Mach) (die g : Nat) : (m.gather die g).ports = m.ports := rfl
@[simp] theorem Mach.gather_fab (m : Mach) (die g : Nat) : (m.gather die g).fab = m.fab := rfl
@[simp] theorem Mach.gather_hall (m : Mach) (die g : Nat) : (m.gather die g).hall = m.hall := rfl
@[simp] theorem Mach.gather_sec (m : Mach) (die g : Nat) : (m.gather die g).sec = m.sec := rfl
@[simp] theorem Mach.gather_clk (m : Mach) (die g : Nat) : (m.gather die g).clk = m.clk := rfl
@[simp] theorem Mach.gather_out (m : Mach) (die g : Nat) : (m.gather die g).out = m.out := rfl
@[simp] theorem Mach.gather_freeCtr (m : Mach) (die g : Nat) : (m.gather die g).freeCtr = m.freeCtr := rfl

/-! ## dropLines -/

@[simp] theorem Mach.dropLines_dies (m : Mach) (p : Nat → Bool) : (m.dropLines p).dies = m.dies := rfl
@[simp] theorem Mach.dropLines_cairn (m : Mach) (p : Nat → Bool) : (m.dropLines p).cairn = m.cairn := rfl
@[simp] theorem Mach.dropLines_tele (m : Mach) (p : Nat → Bool) : (m.dropLines p).tele = m.tele := rfl
@[simp] theorem Mach.dropLines_elec (m : Mach) (p : Nat → Bool) : (m.dropLines p).elec = m.elec := rfl
@[simp] theorem Mach.dropLines_time (m : Mach) (p : Nat → Bool) : (m.dropLines p).time = m.time := rfl
@[simp] theorem Mach.dropLines_fences (m : Mach) (p : Nat → Bool) : (m.dropLines p).fences = m.fences := rfl
@[simp] theorem Mach.dropLines_store (m : Mach) (p : Nat → Bool) : (m.dropLines p).store = m.store := rfl
@[simp] theorem Mach.dropLines_sched (m : Mach) (p : Nat → Bool) : (m.dropLines p).sched = m.sched := rfl
@[simp] theorem Mach.dropLines_eng (m : Mach) (p : Nat → Bool) : (m.dropLines p).eng = m.eng := rfl
@[simp] theorem Mach.dropLines_xl (m : Mach) (p : Nat → Bool) : (m.dropLines p).xl = m.xl := rfl
@[simp] theorem Mach.dropLines_host (m : Mach) (p : Nat → Bool) : (m.dropLines p).host = m.host := rfl
@[simp] theorem Mach.dropLines_ports (m : Mach) (p : Nat → Bool) : (m.dropLines p).ports = m.ports := rfl
@[simp] theorem Mach.dropLines_fab (m : Mach) (p : Nat → Bool) : (m.dropLines p).fab = m.fab := rfl
@[simp] theorem Mach.dropLines_hall (m : Mach) (p : Nat → Bool) : (m.dropLines p).hall = m.hall := rfl
@[simp] theorem Mach.dropLines_sec (m : Mach) (p : Nat → Bool) : (m.dropLines p).sec = m.sec := rfl
@[simp] theorem Mach.dropLines_clk (m : Mach) (p : Nat → Bool) : (m.dropLines p).clk = m.clk := rfl
@[simp] theorem Mach.dropLines_out (m : Mach) (p : Nat → Bool) : (m.dropLines p).out = m.out := rfl
@[simp] theorem Mach.dropLines_freeCtr (m : Mach) (p : Nat → Bool) : (m.dropLines p).freeCtr = m.freeCtr := rfl

/-! ## refreshNet -/

@[simp] theorem Mach.refreshNet_dies (m : Mach) (line : Nat) (v : LineVal) : (m.refreshNet line v).dies = m.dies := rfl
@[simp] theorem Mach.refreshNet_cairn (m : Mach) (line : Nat) (v : LineVal) : (m.refreshNet line v).cairn = m.cairn := rfl
@[simp] theorem Mach.refreshNet_tele (m : Mach) (line : Nat) (v : LineVal) : (m.refreshNet line v).tele = m.tele := rfl
@[simp] theorem Mach.refreshNet_elec (m : Mach) (line : Nat) (v : LineVal) : (m.refreshNet line v).elec = m.elec := rfl
@[simp] theorem Mach.refreshNet_time (m : Mach) (line : Nat) (v : LineVal) : (m.refreshNet line v).time = m.time := rfl
@[simp] theorem Mach.refreshNet_fences (m : Mach) (line : Nat) (v : LineVal) : (m.refreshNet line v).fences = m.fences := rfl
@[simp] theorem Mach.refreshNet_store (m : Mach) (line : Nat) (v : LineVal) : (m.refreshNet line v).store = m.store := rfl
@[simp] theorem Mach.refreshNet_sched (m : Mach) (line : Nat) (v : LineVal) : (m.refreshNet line v).sched = m.sched := rfl
@[simp] theorem Mach.refreshNet_eng (m : Mach) (line : Nat) (v : LineVal) : (m.refreshNet line v).eng = m.eng := rfl
@[simp] theorem Mach.refreshNet_xl (m : Mach) (line : Nat) (v : LineVal) : (m.refreshNet line v).xl = m.xl := rfl
@[simp] theorem Mach.refreshNet_host (m : Mach) (line : Nat) (v : LineVal) : (m.refreshNet line v).host = m.host := rfl
@[simp] theorem Mach.refreshNet_ports (m : Mach) (line : Nat) (v : LineVal) : (m.refreshNet line v).ports = m.ports := rfl
@[simp] theorem Mach.refreshNet_fab (m : Mach) (line : Nat) (v : LineVal) : (m.refreshNet line v).fab = m.fab := rfl
@[simp] theorem Mach.refreshNet_hall (m : Mach) (line : Nat) (v : LineVal) : (m.refreshNet line v).hall = m.hall := rfl
@[simp] theorem Mach.refreshNet_sec (m : Mach) (line : Nat) (v : LineVal) : (m.refreshNet line v).sec = m.sec := rfl
@[simp] theorem Mach.refreshNet_clk (m : Mach) (line : Nat) (v : LineVal) : (m.refreshNet line v).clk = m.clk := rfl
@[simp] theorem Mach.refreshNet_out (m : Mach) (line : Nat) (v : LineVal) : (m.refreshNet line v).out = m.out := rfl
@[simp] theorem Mach.refreshNet_freeCtr (m : Mach) (line : Nat) (v : LineVal) : (m.refreshNet line v).freeCtr = m.freeCtr := rfl

/-! ## setReg -/

@[simp] theorem Mach.setReg_dies (m : Mach) (idx sub row v : Nat) : (m.setReg idx sub row v).dies = m.dies := rfl
@[simp] theorem Mach.setReg_tele (m : Mach) (idx sub row v : Nat) : (m.setReg idx sub row v).tele = m.tele := rfl
@[simp] theorem Mach.setReg_elec (m : Mach) (idx sub row v : Nat) : (m.setReg idx sub row v).elec = m.elec := rfl
@[simp] theorem Mach.setReg_time (m : Mach) (idx sub row v : Nat) : (m.setReg idx sub row v).time = m.time := rfl
@[simp] theorem Mach.setReg_col (m : Mach) (idx sub row v : Nat) : (m.setReg idx sub row v).col = m.col := rfl
@[simp] theorem Mach.setReg_fences (m : Mach) (idx sub row v : Nat) : (m.setReg idx sub row v).fences = m.fences := rfl
@[simp] theorem Mach.setReg_store (m : Mach) (idx sub row v : Nat) : (m.setReg idx sub row v).store = m.store := rfl
@[simp] theorem Mach.setReg_sched (m : Mach) (idx sub row v : Nat) : (m.setReg idx sub row v).sched = m.sched := rfl
@[simp] theorem Mach.setReg_eng (m : Mach) (idx sub row v : Nat) : (m.setReg idx sub row v).eng = m.eng := rfl
@[simp] theorem Mach.setReg_xl (m : Mach) (idx sub row v : Nat) : (m.setReg idx sub row v).xl = m.xl := rfl
@[simp] theorem Mach.setReg_host (m : Mach) (idx sub row v : Nat) : (m.setReg idx sub row v).host = m.host := rfl
@[simp] theorem Mach.setReg_ports (m : Mach) (idx sub row v : Nat) : (m.setReg idx sub row v).ports = m.ports := rfl
@[simp] theorem Mach.setReg_fab (m : Mach) (idx sub row v : Nat) : (m.setReg idx sub row v).fab = m.fab := rfl
@[simp] theorem Mach.setReg_hall (m : Mach) (idx sub row v : Nat) : (m.setReg idx sub row v).hall = m.hall := rfl
@[simp] theorem Mach.setReg_sec (m : Mach) (idx sub row v : Nat) : (m.setReg idx sub row v).sec = m.sec := rfl
@[simp] theorem Mach.setReg_clk (m : Mach) (idx sub row v : Nat) : (m.setReg idx sub row v).clk = m.clk := rfl
@[simp] theorem Mach.setReg_out (m : Mach) (idx sub row v : Nat) : (m.setReg idx sub row v).out = m.out := rfl
@[simp] theorem Mach.setReg_freeCtr (m : Mach) (idx sub row v : Nat) : (m.setReg idx sub row v).freeCtr = m.freeCtr := rfl

/-! ## setOct -/

@[simp] theorem Mach.setOct_dies (m : Mach) (idx sub row : Nat) (v : List Byte) : (m.setOct idx sub row v).dies = m.dies := rfl
@[simp] theorem Mach.setOct_tele (m : Mach) (idx sub row : Nat) (v : List Byte) : (m.setOct idx sub row v).tele = m.tele := rfl
@[simp] theorem Mach.setOct_elec (m : Mach) (idx sub row : Nat) (v : List Byte) : (m.setOct idx sub row v).elec = m.elec := rfl
@[simp] theorem Mach.setOct_time (m : Mach) (idx sub row : Nat) (v : List Byte) : (m.setOct idx sub row v).time = m.time := rfl
@[simp] theorem Mach.setOct_col (m : Mach) (idx sub row : Nat) (v : List Byte) : (m.setOct idx sub row v).col = m.col := rfl
@[simp] theorem Mach.setOct_fences (m : Mach) (idx sub row : Nat) (v : List Byte) : (m.setOct idx sub row v).fences = m.fences := rfl
@[simp] theorem Mach.setOct_store (m : Mach) (idx sub row : Nat) (v : List Byte) : (m.setOct idx sub row v).store = m.store := rfl
@[simp] theorem Mach.setOct_sched (m : Mach) (idx sub row : Nat) (v : List Byte) : (m.setOct idx sub row v).sched = m.sched := rfl
@[simp] theorem Mach.setOct_eng (m : Mach) (idx sub row : Nat) (v : List Byte) : (m.setOct idx sub row v).eng = m.eng := rfl
@[simp] theorem Mach.setOct_xl (m : Mach) (idx sub row : Nat) (v : List Byte) : (m.setOct idx sub row v).xl = m.xl := rfl
@[simp] theorem Mach.setOct_host (m : Mach) (idx sub row : Nat) (v : List Byte) : (m.setOct idx sub row v).host = m.host := rfl
@[simp] theorem Mach.setOct_ports (m : Mach) (idx sub row : Nat) (v : List Byte) : (m.setOct idx sub row v).ports = m.ports := rfl
@[simp] theorem Mach.setOct_fab (m : Mach) (idx sub row : Nat) (v : List Byte) : (m.setOct idx sub row v).fab = m.fab := rfl
@[simp] theorem Mach.setOct_hall (m : Mach) (idx sub row : Nat) (v : List Byte) : (m.setOct idx sub row v).hall = m.hall := rfl
@[simp] theorem Mach.setOct_sec (m : Mach) (idx sub row : Nat) (v : List Byte) : (m.setOct idx sub row v).sec = m.sec := rfl
@[simp] theorem Mach.setOct_clk (m : Mach) (idx sub row : Nat) (v : List Byte) : (m.setOct idx sub row v).clk = m.clk := rfl
@[simp] theorem Mach.setOct_out (m : Mach) (idx sub row : Nat) (v : List Byte) : (m.setOct idx sub row v).out = m.out := rfl
@[simp] theorem Mach.setOct_freeCtr (m : Mach) (idx sub row : Nat) (v : List Byte) : (m.setOct idx sub row v).freeCtr = m.freeCtr := rfl

/-! ## emit -/

@[simp] theorem Mach.emit_dies (m : Mach) (o : Out) : (m.emit o).dies = m.dies := rfl
@[simp] theorem Mach.emit_cairn (m : Mach) (o : Out) : (m.emit o).cairn = m.cairn := rfl
@[simp] theorem Mach.emit_tele (m : Mach) (o : Out) : (m.emit o).tele = m.tele := rfl
@[simp] theorem Mach.emit_elec (m : Mach) (o : Out) : (m.emit o).elec = m.elec := rfl
@[simp] theorem Mach.emit_time (m : Mach) (o : Out) : (m.emit o).time = m.time := rfl
@[simp] theorem Mach.emit_col (m : Mach) (o : Out) : (m.emit o).col = m.col := rfl
@[simp] theorem Mach.emit_fences (m : Mach) (o : Out) : (m.emit o).fences = m.fences := rfl
@[simp] theorem Mach.emit_store (m : Mach) (o : Out) : (m.emit o).store = m.store := rfl
@[simp] theorem Mach.emit_sched (m : Mach) (o : Out) : (m.emit o).sched = m.sched := rfl
@[simp] theorem Mach.emit_eng (m : Mach) (o : Out) : (m.emit o).eng = m.eng := rfl
@[simp] theorem Mach.emit_xl (m : Mach) (o : Out) : (m.emit o).xl = m.xl := rfl
@[simp] theorem Mach.emit_host (m : Mach) (o : Out) : (m.emit o).host = m.host := rfl
@[simp] theorem Mach.emit_ports (m : Mach) (o : Out) : (m.emit o).ports = m.ports := rfl
@[simp] theorem Mach.emit_fab (m : Mach) (o : Out) : (m.emit o).fab = m.fab := rfl
@[simp] theorem Mach.emit_hall (m : Mach) (o : Out) : (m.emit o).hall = m.hall := rfl
@[simp] theorem Mach.emit_sec (m : Mach) (o : Out) : (m.emit o).sec = m.sec := rfl
@[simp] theorem Mach.emit_clk (m : Mach) (o : Out) : (m.emit o).clk = m.clk := rfl
@[simp] theorem Mach.emit_freeCtr (m : Mach) (o : Out) : (m.emit o).freeCtr = m.freeCtr := rfl

/-! ## setBytes -/

@[simp] theorem Mach.setBytes_dies (m : Mach) (dpa : Nat) (bs : List Byte) : (m.setBytes dpa bs).dies = m.dies := rfl
@[simp] theorem Mach.setBytes_cairn (m : Mach) (dpa : Nat) (bs : List Byte) : (m.setBytes dpa bs).cairn = m.cairn := rfl
@[simp] theorem Mach.setBytes_tele (m : Mach) (dpa : Nat) (bs : List Byte) : (m.setBytes dpa bs).tele = m.tele := rfl
@[simp] theorem Mach.setBytes_elec (m : Mach) (dpa : Nat) (bs : List Byte) : (m.setBytes dpa bs).elec = m.elec := rfl
@[simp] theorem Mach.setBytes_time (m : Mach) (dpa : Nat) (bs : List Byte) : (m.setBytes dpa bs).time = m.time := rfl
@[simp] theorem Mach.setBytes_col (m : Mach) (dpa : Nat) (bs : List Byte) : (m.setBytes dpa bs).col = m.col := rfl
@[simp] theorem Mach.setBytes_fences (m : Mach) (dpa : Nat) (bs : List Byte) : (m.setBytes dpa bs).fences = m.fences := rfl
@[simp] theorem Mach.setBytes_sched (m : Mach) (dpa : Nat) (bs : List Byte) : (m.setBytes dpa bs).sched = m.sched := rfl
@[simp] theorem Mach.setBytes_eng (m : Mach) (dpa : Nat) (bs : List Byte) : (m.setBytes dpa bs).eng = m.eng := rfl
@[simp] theorem Mach.setBytes_xl (m : Mach) (dpa : Nat) (bs : List Byte) : (m.setBytes dpa bs).xl = m.xl := rfl
@[simp] theorem Mach.setBytes_host (m : Mach) (dpa : Nat) (bs : List Byte) : (m.setBytes dpa bs).host = m.host := rfl
@[simp] theorem Mach.setBytes_ports (m : Mach) (dpa : Nat) (bs : List Byte) : (m.setBytes dpa bs).ports = m.ports := rfl
@[simp] theorem Mach.setBytes_fab (m : Mach) (dpa : Nat) (bs : List Byte) : (m.setBytes dpa bs).fab = m.fab := rfl
@[simp] theorem Mach.setBytes_hall (m : Mach) (dpa : Nat) (bs : List Byte) : (m.setBytes dpa bs).hall = m.hall := rfl
@[simp] theorem Mach.setBytes_sec (m : Mach) (dpa : Nat) (bs : List Byte) : (m.setBytes dpa bs).sec = m.sec := rfl
@[simp] theorem Mach.setBytes_clk (m : Mach) (dpa : Nat) (bs : List Byte) : (m.setBytes dpa bs).clk = m.clk := rfl
@[simp] theorem Mach.setBytes_out (m : Mach) (dpa : Nat) (bs : List Byte) : (m.setBytes dpa bs).out = m.out := rfl
@[simp] theorem Mach.setBytes_freeCtr (m : Mach) (dpa : Nat) (bs : List Byte) : (m.setBytes dpa bs).freeCtr = m.freeCtr := rfl

/-! ## setGran -/

@[simp] theorem Mach.setGran_dies (m : Mach) (g : Nat) (e : Granule) : (m.setGran g e).dies = m.dies := rfl
@[simp] theorem Mach.setGran_cairn (m : Mach) (g : Nat) (e : Granule) : (m.setGran g e).cairn = m.cairn := rfl
@[simp] theorem Mach.setGran_tele (m : Mach) (g : Nat) (e : Granule) : (m.setGran g e).tele = m.tele := rfl
@[simp] theorem Mach.setGran_elec (m : Mach) (g : Nat) (e : Granule) : (m.setGran g e).elec = m.elec := rfl
@[simp] theorem Mach.setGran_time (m : Mach) (g : Nat) (e : Granule) : (m.setGran g e).time = m.time := rfl
@[simp] theorem Mach.setGran_col (m : Mach) (g : Nat) (e : Granule) : (m.setGran g e).col = m.col := rfl
@[simp] theorem Mach.setGran_fences (m : Mach) (g : Nat) (e : Granule) : (m.setGran g e).fences = m.fences := rfl
@[simp] theorem Mach.setGran_sched (m : Mach) (g : Nat) (e : Granule) : (m.setGran g e).sched = m.sched := rfl
@[simp] theorem Mach.setGran_eng (m : Mach) (g : Nat) (e : Granule) : (m.setGran g e).eng = m.eng := rfl
@[simp] theorem Mach.setGran_xl (m : Mach) (g : Nat) (e : Granule) : (m.setGran g e).xl = m.xl := rfl
@[simp] theorem Mach.setGran_host (m : Mach) (g : Nat) (e : Granule) : (m.setGran g e).host = m.host := rfl
@[simp] theorem Mach.setGran_ports (m : Mach) (g : Nat) (e : Granule) : (m.setGran g e).ports = m.ports := rfl
@[simp] theorem Mach.setGran_fab (m : Mach) (g : Nat) (e : Granule) : (m.setGran g e).fab = m.fab := rfl
@[simp] theorem Mach.setGran_hall (m : Mach) (g : Nat) (e : Granule) : (m.setGran g e).hall = m.hall := rfl
@[simp] theorem Mach.setGran_sec (m : Mach) (g : Nat) (e : Granule) : (m.setGran g e).sec = m.sec := rfl
@[simp] theorem Mach.setGran_clk (m : Mach) (g : Nat) (e : Granule) : (m.setGran g e).clk = m.clk := rfl
@[simp] theorem Mach.setGran_out (m : Mach) (g : Nat) (e : Granule) : (m.setGran g e).out = m.out := rfl
@[simp] theorem Mach.setGran_freeCtr (m : Mach) (g : Nat) (e : Granule) : (m.setGran g e).freeCtr = m.freeCtr := rfl

/-! ## poisonLine -/

@[simp] theorem Mach.poisonLine_dies (m : Mach) (line : Nat) : (m.poisonLine line).dies = m.dies := rfl
@[simp] theorem Mach.poisonLine_cairn (m : Mach) (line : Nat) : (m.poisonLine line).cairn = m.cairn := rfl
@[simp] theorem Mach.poisonLine_tele (m : Mach) (line : Nat) : (m.poisonLine line).tele = m.tele := rfl
@[simp] theorem Mach.poisonLine_elec (m : Mach) (line : Nat) : (m.poisonLine line).elec = m.elec := rfl
@[simp] theorem Mach.poisonLine_time (m : Mach) (line : Nat) : (m.poisonLine line).time = m.time := rfl
@[simp] theorem Mach.poisonLine_col (m : Mach) (line : Nat) : (m.poisonLine line).col = m.col := rfl
@[simp] theorem Mach.poisonLine_fences (m : Mach) (line : Nat) : (m.poisonLine line).fences = m.fences := rfl
@[simp] theorem Mach.poisonLine_sched (m : Mach) (line : Nat) : (m.poisonLine line).sched = m.sched := rfl
@[simp] theorem Mach.poisonLine_eng (m : Mach) (line : Nat) : (m.poisonLine line).eng = m.eng := rfl
@[simp] theorem Mach.poisonLine_xl (m : Mach) (line : Nat) : (m.poisonLine line).xl = m.xl := rfl
@[simp] theorem Mach.poisonLine_host (m : Mach) (line : Nat) : (m.poisonLine line).host = m.host := rfl
@[simp] theorem Mach.poisonLine_ports (m : Mach) (line : Nat) : (m.poisonLine line).ports = m.ports := rfl
@[simp] theorem Mach.poisonLine_fab (m : Mach) (line : Nat) : (m.poisonLine line).fab = m.fab := rfl
@[simp] theorem Mach.poisonLine_hall (m : Mach) (line : Nat) : (m.poisonLine line).hall = m.hall := rfl
@[simp] theorem Mach.poisonLine_sec (m : Mach) (line : Nat) : (m.poisonLine line).sec = m.sec := rfl
@[simp] theorem Mach.poisonLine_clk (m : Mach) (line : Nat) : (m.poisonLine line).clk = m.clk := rfl
@[simp] theorem Mach.poisonLine_out (m : Mach) (line : Nat) : (m.poisonLine line).out = m.out := rfl
@[simp] theorem Mach.poisonLine_freeCtr (m : Mach) (line : Nat) : (m.poisonLine line).freeCtr = m.freeCtr := rfl

/-! ## unpoison -/

@[simp] theorem Mach.unpoison_dies (m : Mach) (line : Nat) : (m.unpoison line).dies = m.dies := rfl
@[simp] theorem Mach.unpoison_cairn (m : Mach) (line : Nat) : (m.unpoison line).cairn = m.cairn := rfl
@[simp] theorem Mach.unpoison_tele (m : Mach) (line : Nat) : (m.unpoison line).tele = m.tele := rfl
@[simp] theorem Mach.unpoison_elec (m : Mach) (line : Nat) : (m.unpoison line).elec = m.elec := rfl
@[simp] theorem Mach.unpoison_time (m : Mach) (line : Nat) : (m.unpoison line).time = m.time := rfl
@[simp] theorem Mach.unpoison_col (m : Mach) (line : Nat) : (m.unpoison line).col = m.col := rfl
@[simp] theorem Mach.unpoison_fences (m : Mach) (line : Nat) : (m.unpoison line).fences = m.fences := rfl
@[simp] theorem Mach.unpoison_sched (m : Mach) (line : Nat) : (m.unpoison line).sched = m.sched := rfl
@[simp] theorem Mach.unpoison_eng (m : Mach) (line : Nat) : (m.unpoison line).eng = m.eng := rfl
@[simp] theorem Mach.unpoison_xl (m : Mach) (line : Nat) : (m.unpoison line).xl = m.xl := rfl
@[simp] theorem Mach.unpoison_host (m : Mach) (line : Nat) : (m.unpoison line).host = m.host := rfl
@[simp] theorem Mach.unpoison_ports (m : Mach) (line : Nat) : (m.unpoison line).ports = m.ports := rfl
@[simp] theorem Mach.unpoison_fab (m : Mach) (line : Nat) : (m.unpoison line).fab = m.fab := rfl
@[simp] theorem Mach.unpoison_hall (m : Mach) (line : Nat) : (m.unpoison line).hall = m.hall := rfl
@[simp] theorem Mach.unpoison_sec (m : Mach) (line : Nat) : (m.unpoison line).sec = m.sec := rfl
@[simp] theorem Mach.unpoison_clk (m : Mach) (line : Nat) : (m.unpoison line).clk = m.clk := rfl
@[simp] theorem Mach.unpoison_out (m : Mach) (line : Nat) : (m.unpoison line).out = m.out := rfl
@[simp] theorem Mach.unpoison_freeCtr (m : Mach) (line : Nat) : (m.unpoison line).freeCtr = m.freeCtr := rfl

/-! ## spanEvent -/

@[simp] theorem Mach.spanEvent_dies (m : Mach) (code param : Nat) : (m.spanEvent code param).dies = m.dies := rfl
@[simp] theorem Mach.spanEvent_cairn (m : Mach) (code param : Nat) : (m.spanEvent code param).cairn = m.cairn := rfl
@[simp] theorem Mach.spanEvent_elec (m : Mach) (code param : Nat) : (m.spanEvent code param).elec = m.elec := rfl
@[simp] theorem Mach.spanEvent_time (m : Mach) (code param : Nat) : (m.spanEvent code param).time = m.time := rfl
@[simp] theorem Mach.spanEvent_col (m : Mach) (code param : Nat) : (m.spanEvent code param).col = m.col := rfl
@[simp] theorem Mach.spanEvent_fences (m : Mach) (code param : Nat) : (m.spanEvent code param).fences = m.fences := rfl
@[simp] theorem Mach.spanEvent_store (m : Mach) (code param : Nat) : (m.spanEvent code param).store = m.store := rfl
@[simp] theorem Mach.spanEvent_sched (m : Mach) (code param : Nat) : (m.spanEvent code param).sched = m.sched := rfl
@[simp] theorem Mach.spanEvent_eng (m : Mach) (code param : Nat) : (m.spanEvent code param).eng = m.eng := rfl
@[simp] theorem Mach.spanEvent_xl (m : Mach) (code param : Nat) : (m.spanEvent code param).xl = m.xl := rfl
@[simp] theorem Mach.spanEvent_host (m : Mach) (code param : Nat) : (m.spanEvent code param).host = m.host := rfl
@[simp] theorem Mach.spanEvent_ports (m : Mach) (code param : Nat) : (m.spanEvent code param).ports = m.ports := rfl
@[simp] theorem Mach.spanEvent_fab (m : Mach) (code param : Nat) : (m.spanEvent code param).fab = m.fab := rfl
@[simp] theorem Mach.spanEvent_hall (m : Mach) (code param : Nat) : (m.spanEvent code param).hall = m.hall := rfl
@[simp] theorem Mach.spanEvent_sec (m : Mach) (code param : Nat) : (m.spanEvent code param).sec = m.sec := rfl
@[simp] theorem Mach.spanEvent_clk (m : Mach) (code param : Nat) : (m.spanEvent code param).clk = m.clk := rfl
@[simp] theorem Mach.spanEvent_out (m : Mach) (code param : Nat) : (m.spanEvent code param).out = m.out := rfl
@[simp] theorem Mach.spanEvent_freeCtr (m : Mach) (code param : Nat) : (m.spanEvent code param).freeCtr = m.freeCtr := rfl

/-! ## arrive -/

@[simp] theorem Mach.arrive_dies (m : Mach) (port : Nat) (f : RFrame) : (m.arrive port f).dies = m.dies := rfl
@[simp] theorem Mach.arrive_cairn (m : Mach) (port : Nat) (f : RFrame) : (m.arrive port f).cairn = m.cairn := rfl
@[simp] theorem Mach.arrive_tele (m : Mach) (port : Nat) (f : RFrame) : (m.arrive port f).tele = m.tele := rfl
@[simp] theorem Mach.arrive_elec (m : Mach) (port : Nat) (f : RFrame) : (m.arrive port f).elec = m.elec := rfl
@[simp] theorem Mach.arrive_time (m : Mach) (port : Nat) (f : RFrame) : (m.arrive port f).time = m.time := rfl
@[simp] theorem Mach.arrive_col (m : Mach) (port : Nat) (f : RFrame) : (m.arrive port f).col = m.col := rfl
@[simp] theorem Mach.arrive_fences (m : Mach) (port : Nat) (f : RFrame) : (m.arrive port f).fences = m.fences := rfl
@[simp] theorem Mach.arrive_store (m : Mach) (port : Nat) (f : RFrame) : (m.arrive port f).store = m.store := rfl
@[simp] theorem Mach.arrive_sched (m : Mach) (port : Nat) (f : RFrame) : (m.arrive port f).sched = m.sched := rfl
@[simp] theorem Mach.arrive_eng (m : Mach) (port : Nat) (f : RFrame) : (m.arrive port f).eng = m.eng := rfl
@[simp] theorem Mach.arrive_xl (m : Mach) (port : Nat) (f : RFrame) : (m.arrive port f).xl = m.xl := rfl
@[simp] theorem Mach.arrive_host (m : Mach) (port : Nat) (f : RFrame) : (m.arrive port f).host = m.host := rfl
@[simp] theorem Mach.arrive_ports (m : Mach) (port : Nat) (f : RFrame) : (m.arrive port f).ports = m.ports := rfl
@[simp] theorem Mach.arrive_hall (m : Mach) (port : Nat) (f : RFrame) : (m.arrive port f).hall = m.hall := rfl
@[simp] theorem Mach.arrive_sec (m : Mach) (port : Nat) (f : RFrame) : (m.arrive port f).sec = m.sec := rfl
@[simp] theorem Mach.arrive_clk (m : Mach) (port : Nat) (f : RFrame) : (m.arrive port f).clk = m.clk := rfl
@[simp] theorem Mach.arrive_out (m : Mach) (port : Nat) (f : RFrame) : (m.arrive port f).out = m.out := rfl
@[simp] theorem Mach.arrive_freeCtr (m : Mach) (port : Nat) (f : RFrame) : (m.arrive port f).freeCtr = m.freeCtr := rfl

/-! ## restartEyes -/

@[simp] theorem Mach.restartEyes_dies (m : Mach) (p : Nat) : (m.restartEyes p).dies = m.dies := rfl
@[simp] theorem Mach.restartEyes_cairn (m : Mach) (p : Nat) : (m.restartEyes p).cairn = m.cairn := rfl
@[simp] theorem Mach.restartEyes_elec (m : Mach) (p : Nat) : (m.restartEyes p).elec = m.elec := rfl
@[simp] theorem Mach.restartEyes_time (m : Mach) (p : Nat) : (m.restartEyes p).time = m.time := rfl
@[simp] theorem Mach.restartEyes_col (m : Mach) (p : Nat) : (m.restartEyes p).col = m.col := rfl
@[simp] theorem Mach.restartEyes_fences (m : Mach) (p : Nat) : (m.restartEyes p).fences = m.fences := rfl
@[simp] theorem Mach.restartEyes_store (m : Mach) (p : Nat) : (m.restartEyes p).store = m.store := rfl
@[simp] theorem Mach.restartEyes_sched (m : Mach) (p : Nat) : (m.restartEyes p).sched = m.sched := rfl
@[simp] theorem Mach.restartEyes_eng (m : Mach) (p : Nat) : (m.restartEyes p).eng = m.eng := rfl
@[simp] theorem Mach.restartEyes_xl (m : Mach) (p : Nat) : (m.restartEyes p).xl = m.xl := rfl
@[simp] theorem Mach.restartEyes_host (m : Mach) (p : Nat) : (m.restartEyes p).host = m.host := rfl
@[simp] theorem Mach.restartEyes_ports (m : Mach) (p : Nat) : (m.restartEyes p).ports = m.ports := rfl
@[simp] theorem Mach.restartEyes_fab (m : Mach) (p : Nat) : (m.restartEyes p).fab = m.fab := rfl
@[simp] theorem Mach.restartEyes_hall (m : Mach) (p : Nat) : (m.restartEyes p).hall = m.hall := rfl
@[simp] theorem Mach.restartEyes_sec (m : Mach) (p : Nat) : (m.restartEyes p).sec = m.sec := rfl
@[simp] theorem Mach.restartEyes_clk (m : Mach) (p : Nat) : (m.restartEyes p).clk = m.clk := rfl
@[simp] theorem Mach.restartEyes_out (m : Mach) (p : Nat) : (m.restartEyes p).out = m.out := rfl
@[simp] theorem Mach.restartEyes_freeCtr (m : Mach) (p : Nat) : (m.restartEyes p).freeCtr = m.freeCtr := rfl

/-! ## setQueue -/

@[simp] theorem Mach.setQueue_dies (m : Mach) (q : Nat) (v : Queue) : (m.setQueue q v).dies = m.dies := rfl
@[simp] theorem Mach.setQueue_cairn (m : Mach) (q : Nat) (v : Queue) : (m.setQueue q v).cairn = m.cairn := rfl
@[simp] theorem Mach.setQueue_tele (m : Mach) (q : Nat) (v : Queue) : (m.setQueue q v).tele = m.tele := rfl
@[simp] theorem Mach.setQueue_elec (m : Mach) (q : Nat) (v : Queue) : (m.setQueue q v).elec = m.elec := rfl
@[simp] theorem Mach.setQueue_time (m : Mach) (q : Nat) (v : Queue) : (m.setQueue q v).time = m.time := rfl
@[simp] theorem Mach.setQueue_col (m : Mach) (q : Nat) (v : Queue) : (m.setQueue q v).col = m.col := rfl
@[simp] theorem Mach.setQueue_fences (m : Mach) (q : Nat) (v : Queue) : (m.setQueue q v).fences = m.fences := rfl
@[simp] theorem Mach.setQueue_store (m : Mach) (q : Nat) (v : Queue) : (m.setQueue q v).store = m.store := rfl
@[simp] theorem Mach.setQueue_eng (m : Mach) (q : Nat) (v : Queue) : (m.setQueue q v).eng = m.eng := rfl
@[simp] theorem Mach.setQueue_xl (m : Mach) (q : Nat) (v : Queue) : (m.setQueue q v).xl = m.xl := rfl
@[simp] theorem Mach.setQueue_host (m : Mach) (q : Nat) (v : Queue) : (m.setQueue q v).host = m.host := rfl
@[simp] theorem Mach.setQueue_ports (m : Mach) (q : Nat) (v : Queue) : (m.setQueue q v).ports = m.ports := rfl
@[simp] theorem Mach.setQueue_fab (m : Mach) (q : Nat) (v : Queue) : (m.setQueue q v).fab = m.fab := rfl
@[simp] theorem Mach.setQueue_hall (m : Mach) (q : Nat) (v : Queue) : (m.setQueue q v).hall = m.hall := rfl
@[simp] theorem Mach.setQueue_sec (m : Mach) (q : Nat) (v : Queue) : (m.setQueue q v).sec = m.sec := rfl
@[simp] theorem Mach.setQueue_clk (m : Mach) (q : Nat) (v : Queue) : (m.setQueue q v).clk = m.clk := rfl
@[simp] theorem Mach.setQueue_out (m : Mach) (q : Nat) (v : Queue) : (m.setQueue q v).out = m.out := rfl
@[simp] theorem Mach.setQueue_freeCtr (m : Mach) (q : Nat) (v : Queue) : (m.setQueue q v).freeCtr = m.freeCtr := rfl

/-! ## setCmd -/

@[simp] theorem Mach.setCmd_dies (m : Mach) (k : Nat) (c : Cmd) : (m.setCmd k c).dies = m.dies := rfl
@[simp] theorem Mach.setCmd_cairn (m : Mach) (k : Nat) (c : Cmd) : (m.setCmd k c).cairn = m.cairn := rfl
@[simp] theorem Mach.setCmd_tele (m : Mach) (k : Nat) (c : Cmd) : (m.setCmd k c).tele = m.tele := rfl
@[simp] theorem Mach.setCmd_elec (m : Mach) (k : Nat) (c : Cmd) : (m.setCmd k c).elec = m.elec := rfl
@[simp] theorem Mach.setCmd_time (m : Mach) (k : Nat) (c : Cmd) : (m.setCmd k c).time = m.time := rfl
@[simp] theorem Mach.setCmd_col (m : Mach) (k : Nat) (c : Cmd) : (m.setCmd k c).col = m.col := rfl
@[simp] theorem Mach.setCmd_fences (m : Mach) (k : Nat) (c : Cmd) : (m.setCmd k c).fences = m.fences := rfl
@[simp] theorem Mach.setCmd_store (m : Mach) (k : Nat) (c : Cmd) : (m.setCmd k c).store = m.store := rfl
@[simp] theorem Mach.setCmd_eng (m : Mach) (k : Nat) (c : Cmd) : (m.setCmd k c).eng = m.eng := rfl
@[simp] theorem Mach.setCmd_xl (m : Mach) (k : Nat) (c : Cmd) : (m.setCmd k c).xl = m.xl := rfl
@[simp] theorem Mach.setCmd_host (m : Mach) (k : Nat) (c : Cmd) : (m.setCmd k c).host = m.host := rfl
@[simp] theorem Mach.setCmd_ports (m : Mach) (k : Nat) (c : Cmd) : (m.setCmd k c).ports = m.ports := rfl
@[simp] theorem Mach.setCmd_fab (m : Mach) (k : Nat) (c : Cmd) : (m.setCmd k c).fab = m.fab := rfl
@[simp] theorem Mach.setCmd_hall (m : Mach) (k : Nat) (c : Cmd) : (m.setCmd k c).hall = m.hall := rfl
@[simp] theorem Mach.setCmd_sec (m : Mach) (k : Nat) (c : Cmd) : (m.setCmd k c).sec = m.sec := rfl
@[simp] theorem Mach.setCmd_clk (m : Mach) (k : Nat) (c : Cmd) : (m.setCmd k c).clk = m.clk := rfl
@[simp] theorem Mach.setCmd_out (m : Mach) (k : Nat) (c : Cmd) : (m.setCmd k c).out = m.out := rfl
@[simp] theorem Mach.setCmd_freeCtr (m : Mach) (k : Nat) (c : Cmd) : (m.setCmd k c).freeCtr = m.freeCtr := rfl

/-! ## setBank -/

@[simp] theorem Mach.setBank_dies (m : Mach) (k : Nat) (b : Bank) : (m.setBank k b).dies = m.dies := rfl
@[simp] theorem Mach.setBank_cairn (m : Mach) (k : Nat) (b : Bank) : (m.setBank k b).cairn = m.cairn := rfl
@[simp] theorem Mach.setBank_tele (m : Mach) (k : Nat) (b : Bank) : (m.setBank k b).tele = m.tele := rfl
@[simp] theorem Mach.setBank_elec (m : Mach) (k : Nat) (b : Bank) : (m.setBank k b).elec = m.elec := rfl
@[simp] theorem Mach.setBank_time (m : Mach) (k : Nat) (b : Bank) : (m.setBank k b).time = m.time := rfl
@[simp] theorem Mach.setBank_col (m : Mach) (k : Nat) (b : Bank) : (m.setBank k b).col = m.col := rfl
@[simp] theorem Mach.setBank_fences (m : Mach) (k : Nat) (b : Bank) : (m.setBank k b).fences = m.fences := rfl
@[simp] theorem Mach.setBank_store (m : Mach) (k : Nat) (b : Bank) : (m.setBank k b).store = m.store := rfl
@[simp] theorem Mach.setBank_eng (m : Mach) (k : Nat) (b : Bank) : (m.setBank k b).eng = m.eng := rfl
@[simp] theorem Mach.setBank_xl (m : Mach) (k : Nat) (b : Bank) : (m.setBank k b).xl = m.xl := rfl
@[simp] theorem Mach.setBank_host (m : Mach) (k : Nat) (b : Bank) : (m.setBank k b).host = m.host := rfl
@[simp] theorem Mach.setBank_ports (m : Mach) (k : Nat) (b : Bank) : (m.setBank k b).ports = m.ports := rfl
@[simp] theorem Mach.setBank_fab (m : Mach) (k : Nat) (b : Bank) : (m.setBank k b).fab = m.fab := rfl
@[simp] theorem Mach.setBank_hall (m : Mach) (k : Nat) (b : Bank) : (m.setBank k b).hall = m.hall := rfl
@[simp] theorem Mach.setBank_sec (m : Mach) (k : Nat) (b : Bank) : (m.setBank k b).sec = m.sec := rfl
@[simp] theorem Mach.setBank_clk (m : Mach) (k : Nat) (b : Bank) : (m.setBank k b).clk = m.clk := rfl
@[simp] theorem Mach.setBank_out (m : Mach) (k : Nat) (b : Bank) : (m.setBank k b).out = m.out := rfl
@[simp] theorem Mach.setBank_freeCtr (m : Mach) (k : Nat) (b : Bank) : (m.setBank k b).freeCtr = m.freeCtr := rfl

/-! ## dropRegs -/

@[simp] theorem Mach.dropRegs_dies (m : Mach) (p : Nat → Nat → Bool) : (m.dropRegs p).dies = m.dies := rfl
@[simp] theorem Mach.dropRegs_tele (m : Mach) (p : Nat → Nat → Bool) : (m.dropRegs p).tele = m.tele := rfl
@[simp] theorem Mach.dropRegs_elec (m : Mach) (p : Nat → Nat → Bool) : (m.dropRegs p).elec = m.elec := rfl
@[simp] theorem Mach.dropRegs_time (m : Mach) (p : Nat → Nat → Bool) : (m.dropRegs p).time = m.time := rfl
@[simp] theorem Mach.dropRegs_col (m : Mach) (p : Nat → Nat → Bool) : (m.dropRegs p).col = m.col := rfl
@[simp] theorem Mach.dropRegs_fences (m : Mach) (p : Nat → Nat → Bool) : (m.dropRegs p).fences = m.fences := rfl
@[simp] theorem Mach.dropRegs_store (m : Mach) (p : Nat → Nat → Bool) : (m.dropRegs p).store = m.store := rfl
@[simp] theorem Mach.dropRegs_sched (m : Mach) (p : Nat → Nat → Bool) : (m.dropRegs p).sched = m.sched := rfl
@[simp] theorem Mach.dropRegs_eng (m : Mach) (p : Nat → Nat → Bool) : (m.dropRegs p).eng = m.eng := rfl
@[simp] theorem Mach.dropRegs_xl (m : Mach) (p : Nat → Nat → Bool) : (m.dropRegs p).xl = m.xl := rfl
@[simp] theorem Mach.dropRegs_host (m : Mach) (p : Nat → Nat → Bool) : (m.dropRegs p).host = m.host := rfl
@[simp] theorem Mach.dropRegs_ports (m : Mach) (p : Nat → Nat → Bool) : (m.dropRegs p).ports = m.ports := rfl
@[simp] theorem Mach.dropRegs_fab (m : Mach) (p : Nat → Nat → Bool) : (m.dropRegs p).fab = m.fab := rfl
@[simp] theorem Mach.dropRegs_hall (m : Mach) (p : Nat → Nat → Bool) : (m.dropRegs p).hall = m.hall := rfl
@[simp] theorem Mach.dropRegs_sec (m : Mach) (p : Nat → Nat → Bool) : (m.dropRegs p).sec = m.sec := rfl
@[simp] theorem Mach.dropRegs_clk (m : Mach) (p : Nat → Nat → Bool) : (m.dropRegs p).clk = m.clk := rfl
@[simp] theorem Mach.dropRegs_out (m : Mach) (p : Nat → Nat → Bool) : (m.dropRegs p).out = m.out := rfl
@[simp] theorem Mach.dropRegs_freeCtr (m : Mach) (p : Nat → Nat → Bool) : (m.dropRegs p).freeCtr = m.freeCtr := rfl

/-! ## setFlash -/

@[simp] theorem Mach.setFlash_dies (m : Mach) (f : Flash) : (m.setFlash f).dies = m.dies := rfl
@[simp] theorem Mach.setFlash_cairn (m : Mach) (f : Flash) : (m.setFlash f).cairn = m.cairn := rfl
@[simp] theorem Mach.setFlash_tele (m : Mach) (f : Flash) : (m.setFlash f).tele = m.tele := rfl
@[simp] theorem Mach.setFlash_elec (m : Mach) (f : Flash) : (m.setFlash f).elec = m.elec := rfl
@[simp] theorem Mach.setFlash_time (m : Mach) (f : Flash) : (m.setFlash f).time = m.time := rfl
@[simp] theorem Mach.setFlash_col (m : Mach) (f : Flash) : (m.setFlash f).col = m.col := rfl
@[simp] theorem Mach.setFlash_fences (m : Mach) (f : Flash) : (m.setFlash f).fences = m.fences := rfl
@[simp] theorem Mach.setFlash_store (m : Mach) (f : Flash) : (m.setFlash f).store = m.store := rfl
@[simp] theorem Mach.setFlash_sched (m : Mach) (f : Flash) : (m.setFlash f).sched = m.sched := rfl
@[simp] theorem Mach.setFlash_eng (m : Mach) (f : Flash) : (m.setFlash f).eng = m.eng := rfl
@[simp] theorem Mach.setFlash_xl (m : Mach) (f : Flash) : (m.setFlash f).xl = m.xl := rfl
@[simp] theorem Mach.setFlash_host (m : Mach) (f : Flash) : (m.setFlash f).host = m.host := rfl
@[simp] theorem Mach.setFlash_ports (m : Mach) (f : Flash) : (m.setFlash f).ports = m.ports := rfl
@[simp] theorem Mach.setFlash_fab (m : Mach) (f : Flash) : (m.setFlash f).fab = m.fab := rfl
@[simp] theorem Mach.setFlash_hall (m : Mach) (f : Flash) : (m.setFlash f).hall = m.hall := rfl
@[simp] theorem Mach.setFlash_clk (m : Mach) (f : Flash) : (m.setFlash f).clk = m.clk := rfl
@[simp] theorem Mach.setFlash_out (m : Mach) (f : Flash) : (m.setFlash f).out = m.out := rfl
@[simp] theorem Mach.setFlash_freeCtr (m : Mach) (f : Flash) : (m.setFlash f).freeCtr = m.freeCtr := rfl

/-! ## endSession -/

@[simp] theorem Mach.endSession_dies (m : Mach) (n : Nat) : (m.endSession n).dies = m.dies := rfl
@[simp] theorem Mach.endSession_tele (m : Mach) (n : Nat) : (m.endSession n).tele = m.tele := rfl
@[simp] theorem Mach.endSession_elec (m : Mach) (n : Nat) : (m.endSession n).elec = m.elec := rfl
@[simp] theorem Mach.endSession_time (m : Mach) (n : Nat) : (m.endSession n).time = m.time := rfl
@[simp] theorem Mach.endSession_col (m : Mach) (n : Nat) : (m.endSession n).col = m.col := rfl
@[simp] theorem Mach.endSession_fences (m : Mach) (n : Nat) : (m.endSession n).fences = m.fences := rfl
@[simp] theorem Mach.endSession_store (m : Mach) (n : Nat) : (m.endSession n).store = m.store := rfl
@[simp] theorem Mach.endSession_sched (m : Mach) (n : Nat) : (m.endSession n).sched = m.sched := rfl
@[simp] theorem Mach.endSession_eng (m : Mach) (n : Nat) : (m.endSession n).eng = m.eng := rfl
@[simp] theorem Mach.endSession_xl (m : Mach) (n : Nat) : (m.endSession n).xl = m.xl := rfl
@[simp] theorem Mach.endSession_host (m : Mach) (n : Nat) : (m.endSession n).host = m.host := rfl
@[simp] theorem Mach.endSession_ports (m : Mach) (n : Nat) : (m.endSession n).ports = m.ports := rfl
@[simp] theorem Mach.endSession_fab (m : Mach) (n : Nat) : (m.endSession n).fab = m.fab := rfl
@[simp] theorem Mach.endSession_hall (m : Mach) (n : Nat) : (m.endSession n).hall = m.hall := rfl
@[simp] theorem Mach.endSession_sec (m : Mach) (n : Nat) : (m.endSession n).sec = m.sec := rfl
@[simp] theorem Mach.endSession_clk (m : Mach) (n : Nat) : (m.endSession n).clk = m.clk := rfl
@[simp] theorem Mach.endSession_out (m : Mach) (n : Nat) : (m.endSession n).out = m.out := rfl
@[simp] theorem Mach.endSession_freeCtr (m : Mach) (n : Nat) : (m.endSession n).freeCtr = m.freeCtr := rfl

/-! ## setTalus -/

@[simp] theorem Mach.setTalus_dies (m : Mach) (slot : Nat) (r : TalusRun) : (m.setTalus slot r).dies = m.dies := rfl
@[simp] theorem Mach.setTalus_cairn (m : Mach) (slot : Nat) (r : TalusRun) : (m.setTalus slot r).cairn = m.cairn := rfl
@[simp] theorem Mach.setTalus_tele (m : Mach) (slot : Nat) (r : TalusRun) : (m.setTalus slot r).tele = m.tele := rfl
@[simp] theorem Mach.setTalus_elec (m : Mach) (slot : Nat) (r : TalusRun) : (m.setTalus slot r).elec = m.elec := rfl
@[simp] theorem Mach.setTalus_time (m : Mach) (slot : Nat) (r : TalusRun) : (m.setTalus slot r).time = m.time := rfl
@[simp] theorem Mach.setTalus_col (m : Mach) (slot : Nat) (r : TalusRun) : (m.setTalus slot r).col = m.col := rfl
@[simp] theorem Mach.setTalus_fences (m : Mach) (slot : Nat) (r : TalusRun) : (m.setTalus slot r).fences = m.fences := rfl
@[simp] theorem Mach.setTalus_store (m : Mach) (slot : Nat) (r : TalusRun) : (m.setTalus slot r).store = m.store := rfl
@[simp] theorem Mach.setTalus_sched (m : Mach) (slot : Nat) (r : TalusRun) : (m.setTalus slot r).sched = m.sched := rfl
@[simp] theorem Mach.setTalus_xl (m : Mach) (slot : Nat) (r : TalusRun) : (m.setTalus slot r).xl = m.xl := rfl
@[simp] theorem Mach.setTalus_host (m : Mach) (slot : Nat) (r : TalusRun) : (m.setTalus slot r).host = m.host := rfl
@[simp] theorem Mach.setTalus_ports (m : Mach) (slot : Nat) (r : TalusRun) : (m.setTalus slot r).ports = m.ports := rfl
@[simp] theorem Mach.setTalus_fab (m : Mach) (slot : Nat) (r : TalusRun) : (m.setTalus slot r).fab = m.fab := rfl
@[simp] theorem Mach.setTalus_hall (m : Mach) (slot : Nat) (r : TalusRun) : (m.setTalus slot r).hall = m.hall := rfl
@[simp] theorem Mach.setTalus_sec (m : Mach) (slot : Nat) (r : TalusRun) : (m.setTalus slot r).sec = m.sec := rfl
@[simp] theorem Mach.setTalus_clk (m : Mach) (slot : Nat) (r : TalusRun) : (m.setTalus slot r).clk = m.clk := rfl
@[simp] theorem Mach.setTalus_out (m : Mach) (slot : Nat) (r : TalusRun) : (m.setTalus slot r).out = m.out := rfl
@[simp] theorem Mach.setTalus_freeCtr (m : Mach) (slot : Nat) (r : TalusRun) : (m.setTalus slot r).freeCtr = m.freeCtr := rfl

/-! ## setSets -/

@[simp] theorem Mach.setSets_dies (m : Mach) (ss : List PrefetchSet) : (m.setSets ss).dies = m.dies := rfl
@[simp] theorem Mach.setSets_cairn (m : Mach) (ss : List PrefetchSet) : (m.setSets ss).cairn = m.cairn := rfl
@[simp] theorem Mach.setSets_tele (m : Mach) (ss : List PrefetchSet) : (m.setSets ss).tele = m.tele := rfl
@[simp] theorem Mach.setSets_elec (m : Mach) (ss : List PrefetchSet) : (m.setSets ss).elec = m.elec := rfl
@[simp] theorem Mach.setSets_time (m : Mach) (ss : List PrefetchSet) : (m.setSets ss).time = m.time := rfl
@[simp] theorem Mach.setSets_col (m : Mach) (ss : List PrefetchSet) : (m.setSets ss).col = m.col := rfl
@[simp] theorem Mach.setSets_fences (m : Mach) (ss : List PrefetchSet) : (m.setSets ss).fences = m.fences := rfl
@[simp] theorem Mach.setSets_store (m : Mach) (ss : List PrefetchSet) : (m.setSets ss).store = m.store := rfl
@[simp] theorem Mach.setSets_sched (m : Mach) (ss : List PrefetchSet) : (m.setSets ss).sched = m.sched := rfl
@[simp] theorem Mach.setSets_xl (m : Mach) (ss : List PrefetchSet) : (m.setSets ss).xl = m.xl := rfl
@[simp] theorem Mach.setSets_host (m : Mach) (ss : List PrefetchSet) : (m.setSets ss).host = m.host := rfl
@[simp] theorem Mach.setSets_ports (m : Mach) (ss : List PrefetchSet) : (m.setSets ss).ports = m.ports := rfl
@[simp] theorem Mach.setSets_fab (m : Mach) (ss : List PrefetchSet) : (m.setSets ss).fab = m.fab := rfl
@[simp] theorem Mach.setSets_hall (m : Mach) (ss : List PrefetchSet) : (m.setSets ss).hall = m.hall := rfl
@[simp] theorem Mach.setSets_sec (m : Mach) (ss : List PrefetchSet) : (m.setSets ss).sec = m.sec := rfl
@[simp] theorem Mach.setSets_clk (m : Mach) (ss : List PrefetchSet) : (m.setSets ss).clk = m.clk := rfl
@[simp] theorem Mach.setSets_out (m : Mach) (ss : List PrefetchSet) : (m.setSets ss).out = m.out := rfl
@[simp] theorem Mach.setSets_freeCtr (m : Mach) (ss : List PrefetchSet) : (m.setSets ss).freeCtr = m.freeCtr := rfl

/-! ## invalProgress -/

@[simp] theorem Mach.invalProgress_dies (m : Mach) (slot : Nat) : (m.invalProgress slot).dies = m.dies := rfl
@[simp] theorem Mach.invalProgress_cairn (m : Mach) (slot : Nat) : (m.invalProgress slot).cairn = m.cairn := rfl
@[simp] theorem Mach.invalProgress_tele (m : Mach) (slot : Nat) : (m.invalProgress slot).tele = m.tele := rfl
@[simp] theorem Mach.invalProgress_elec (m : Mach) (slot : Nat) : (m.invalProgress slot).elec = m.elec := rfl
@[simp] theorem Mach.invalProgress_time (m : Mach) (slot : Nat) : (m.invalProgress slot).time = m.time := rfl
@[simp] theorem Mach.invalProgress_col (m : Mach) (slot : Nat) : (m.invalProgress slot).col = m.col := rfl
@[simp] theorem Mach.invalProgress_fences (m : Mach) (slot : Nat) : (m.invalProgress slot).fences = m.fences := rfl
@[simp] theorem Mach.invalProgress_store (m : Mach) (slot : Nat) : (m.invalProgress slot).store = m.store := rfl
@[simp] theorem Mach.invalProgress_sched (m : Mach) (slot : Nat) : (m.invalProgress slot).sched = m.sched := rfl
@[simp] theorem Mach.invalProgress_eng (m : Mach) (slot : Nat) : (m.invalProgress slot).eng = m.eng := rfl
@[simp] theorem Mach.invalProgress_host (m : Mach) (slot : Nat) : (m.invalProgress slot).host = m.host := rfl
@[simp] theorem Mach.invalProgress_ports (m : Mach) (slot : Nat) : (m.invalProgress slot).ports = m.ports := rfl
@[simp] theorem Mach.invalProgress_fab (m : Mach) (slot : Nat) : (m.invalProgress slot).fab = m.fab := rfl
@[simp] theorem Mach.invalProgress_hall (m : Mach) (slot : Nat) : (m.invalProgress slot).hall = m.hall := rfl
@[simp] theorem Mach.invalProgress_sec (m : Mach) (slot : Nat) : (m.invalProgress slot).sec = m.sec := rfl
@[simp] theorem Mach.invalProgress_clk (m : Mach) (slot : Nat) : (m.invalProgress slot).clk = m.clk := rfl
@[simp] theorem Mach.invalProgress_out (m : Mach) (slot : Nat) : (m.invalProgress slot).out = m.out := rfl
@[simp] theorem Mach.invalProgress_freeCtr (m : Mach) (slot : Nat) : (m.invalProgress slot).freeCtr = m.freeCtr := rfl

/-! ## setWalk -/

@[simp] theorem Mach.setWalk_dies (m : Mach) (w : Walk) (w' : Option Walk) : (m.setWalk w w').dies = m.dies := rfl
@[simp] theorem Mach.setWalk_cairn (m : Mach) (w : Walk) (w' : Option Walk) : (m.setWalk w w').cairn = m.cairn := rfl
@[simp] theorem Mach.setWalk_tele (m : Mach) (w : Walk) (w' : Option Walk) : (m.setWalk w w').tele = m.tele := rfl
@[simp] theorem Mach.setWalk_elec (m : Mach) (w : Walk) (w' : Option Walk) : (m.setWalk w w').elec = m.elec := rfl
@[simp] theorem Mach.setWalk_time (m : Mach) (w : Walk) (w' : Option Walk) : (m.setWalk w w').time = m.time := rfl
@[simp] theorem Mach.setWalk_col (m : Mach) (w : Walk) (w' : Option Walk) : (m.setWalk w w').col = m.col := rfl
@[simp] theorem Mach.setWalk_fences (m : Mach) (w : Walk) (w' : Option Walk) : (m.setWalk w w').fences = m.fences := rfl
@[simp] theorem Mach.setWalk_store (m : Mach) (w : Walk) (w' : Option Walk) : (m.setWalk w w').store = m.store := rfl
@[simp] theorem Mach.setWalk_sched (m : Mach) (w : Walk) (w' : Option Walk) : (m.setWalk w w').sched = m.sched := rfl
@[simp] theorem Mach.setWalk_eng (m : Mach) (w : Walk) (w' : Option Walk) : (m.setWalk w w').eng = m.eng := rfl
@[simp] theorem Mach.setWalk_host (m : Mach) (w : Walk) (w' : Option Walk) : (m.setWalk w w').host = m.host := rfl
@[simp] theorem Mach.setWalk_ports (m : Mach) (w : Walk) (w' : Option Walk) : (m.setWalk w w').ports = m.ports := rfl
@[simp] theorem Mach.setWalk_fab (m : Mach) (w : Walk) (w' : Option Walk) : (m.setWalk w w').fab = m.fab := rfl
@[simp] theorem Mach.setWalk_hall (m : Mach) (w : Walk) (w' : Option Walk) : (m.setWalk w w').hall = m.hall := rfl
@[simp] theorem Mach.setWalk_sec (m : Mach) (w : Walk) (w' : Option Walk) : (m.setWalk w w').sec = m.sec := rfl
@[simp] theorem Mach.setWalk_clk (m : Mach) (w : Walk) (w' : Option Walk) : (m.setWalk w w').clk = m.clk := rfl
@[simp] theorem Mach.setWalk_out (m : Mach) (w : Walk) (w' : Option Walk) : (m.setWalk w w').out = m.out := rfl
@[simp] theorem Mach.setWalk_freeCtr (m : Mach) (w : Walk) (w' : Option Walk) : (m.setWalk w w').freeCtr = m.freeCtr := rfl

end Sys2Proof.Machine
end

