-- ==== Sys2Proof/Laws/Reset.lean ====
section
/-! SUPPORT. What a cold reset and the stopping of the clocks keep: the pins, the variant, what has been sent. -/

namespace Sys2Proof.Machine

/-- A fold whose every step keeps a part of the machine keeps it. -/
theorem foldl_keep {α β : Type} {f : Mach → α → Mach} {p : Mach → β} (h : ∀ m a, p (f m a) = p m) (l : List α) (m : Mach) :
    p (l.foldl f m) = p m := by
  induction l generalizing m with
  | nil => rfl
  | cons a l ih => rw [List.foldl_cons, ih, h]

/-- The registers that follow the variant are all that `variantRegs` writes. -/
theorem Mach.variantRegs_keep {β : Type} (p : Mach → β) (h : ∀ m i s r v, p (Mach.setReg m i s r v) = p m) (m : Mach) :
    p m.variantRegs = p m := by
  simp only [Mach.variantRegs, h]
  rw [foldl_keep (p := p) (fun m a => by simp only [h])]
  simp only [h]
  rw [foldl_keep (p := p) (fun m a => by simp only [h]),
    foldl_keep (p := p) (fun m a => foldl_keep (p := p) (fun m a => by simp only [h]) _ _),
    foldl_keep (p := p) (fun m a => by simp only [h]), foldl_keep (p := p) (fun m a => by simp only [h]),
    foldl_keep (p := p) (fun m a => by simp only [h]), foldl_keep (p := p) (fun m a => by simp only [h]),
    foldl_keep (p := p) (fun m a => by simp only [h])]

@[simp] theorem Mach.showStraps_elec (m : Mach) : m.showStraps.elec = m.elec := rfl
@[simp] theorem Mach.showStraps_dies (m : Mach) : m.showStraps.dies = m.dies := rfl
@[simp] theorem Mach.showStraps_clk (m : Mach) : m.showStraps.clk = m.clk := rfl

@[simp] theorem Mach.coldStart_elec (d : Nat) (i mm md e s st c o fc) : (Mach.coldStart d i mm md e s st c o fc).elec = e := by
  rw [Mach.coldStart, Mach.setReg_elec, Mach.showStraps_elec, Mach.variantRegs_keep Mach.elec (fun _ _ _ _ _ => rfl)]

@[simp] theorem Mach.coldStart_dies (d : Nat) (i mm md e s st c o fc) : (Mach.coldStart d i mm md e s st c o fc).dies = d := by
  rw [Mach.coldStart, Mach.setReg_dies, Mach.showStraps_dies, Mach.variantRegs_keep Mach.dies (fun _ _ _ _ _ => rfl)]

@[simp] theorem Mach.audit_elec (m : Mach) (c : Nat) (d : List Byte) : (m.audit c d).elec = m.elec := rfl
@[simp] theorem Mach.audit_dies (m : Mach) (c : Nat) (d : List Byte) : (m.audit c d).dies = m.dies := rfl
@[simp] theorem Mach.transferOwnership_elec (m : Mach) : m.transferOwnership.elec = m.elec := rfl
@[simp] theorem Mach.transferOwnership_dies (m : Mach) : m.transferOwnership.dies = m.dies := rfl

@[simp] theorem Mach.coldFresh_elec (m : Mach) (cause : Nat) : (m.coldFresh cause).elec = m.elec := by
  rw [Mach.coldFresh, Mach.coldStart_elec]

@[simp] theorem Mach.keepFlash_elec (n m : Mach) : (n.keepFlash m).elec = n.elec := rfl

@[simp] theorem Mach.showBoots_elec (m : Mach) (b : Option BootRecord) : (m.showBoots b).elec = m.elec := by
  cases b <;> rfl

/-- A cold reset keeps the pins. -/
@[simp] theorem Mach.coldReset_elec (m : Mach) (cause : Nat) : (m.coldReset cause).elec = m.elec := by
  simp only [Mach.coldReset]
  split
  · rw [Mach.audit_elec, Mach.transferOwnership_elec, Mach.showBoots_elec, Mach.keepFlash_elec, Mach.coldFresh_elec]
  · rw [Mach.showBoots_elec, Mach.keepFlash_elec, Mach.coldFresh_elec]

@[simp] theorem Mach.coldFresh_dies (m : Mach) (cause : Nat) : (m.coldFresh cause).dies = m.dies := by
  rw [Mach.coldFresh, Mach.coldStart_dies]

@[simp] theorem Mach.keepFlash_dies (n m : Mach) : (n.keepFlash m).dies = n.dies := rfl

@[simp] theorem Mach.showBoots_dies (m : Mach) (b : Option BootRecord) : (m.showBoots b).dies = m.dies := by
  cases b <;> rfl

/-- A cold reset keeps the variant. -/
@[simp] theorem Mach.coldReset_dies (m : Mach) (cause : Nat) : (m.coldReset cause).dies = m.dies := by
  simp only [Mach.coldReset]
  split
  · rw [Mach.audit_dies, Mach.transferOwnership_dies, Mach.showBoots_dies, Mach.keepFlash_dies, Mach.coldFresh_dies]
  · rw [Mach.showBoots_dies, Mach.keepFlash_dies, Mach.coldFresh_dies]

/-- Stopping the clocks changes domains' states and the timebase's running, nothing else. -/
theorem Mach.stopClocks_keep {β : Type} (p : Mach → β) (hr : ∀ m i s r v, p (Mach.setReg m i s r v) = p m)
    (ht : ∀ m : Mach, p { m with time := { m.time with running := false } } = p m) (m : Mach) : p m.stopClocks = p m := by
  simp only [Mach.stopClocks]
  rw [foldl_keep (p := p) (fun m d => foldl_keep (p := p) (fun m k => ?_) _ _), ht]
  split
  · rfl
  · exact hr ..

@[simp] theorem Mach.stopClocks_elec (m : Mach) : m.stopClocks.elec = m.elec := m.stopClocks_keep Mach.elec (fun _ _ _ _ _ => rfl) fun _ => rfl
@[simp] theorem Mach.stopClocks_dies (m : Mach) : m.stopClocks.dies = m.dies := m.stopClocks_keep Mach.dies (fun _ _ _ _ _ => rfl) fun _ => rfl
@[simp] theorem Mach.stopClocks_clk (m : Mach) : m.stopClocks.clk = m.clk := m.stopClocks_keep Mach.clk (fun _ _ _ _ _ => rfl) fun _ => rfl

/-! ## The commands of the supplies, RESET_IN_L and the straps: what each leaves of the pins, the variant and a trip -/

theorem Mach.rowResetInAssert_pins (m : Mach) (ns : Nat) :
    ((m.rowResetInAssert ns).elec = m.elec ∨ (m.rowResetInAssert ns).elec = { m.elec with resetLow := true }) ∧
      (m.rowResetInAssert ns).dies = m.dies ∧ (m.clk.tripped = true → (m.rowResetInAssert ns).clk = m.clk) := by
  by_cases h : ns < 100
  · simp [Mach.rowResetInAssert, h]
  · cases ht : m.clk.tripped
    · by_cases h' : 1000 ≤ ns
      · simp [Mach.rowResetInAssert, h, h', ht]
      · by_cases hr : Config.freeValue m.freeCtr % 2 = 1 <;> simp [Mach.rowResetInAssert, Mach.fresh, h, h', ht, hr]
    · by_cases h' : 1000 ≤ ns
      · simp [Mach.rowResetInAssert, h, h', ht]
      · by_cases hr : Config.freeValue m.freeCtr % 2 = 1 <;> simp [Mach.rowResetInAssert, Mach.fresh, h, h', ht, hr]

theorem Mach.rowResetInRelease_pins (m : Mach) (a b : Nat) :
    ((m.rowResetInRelease a b).elec = m.elec ∨ (m.rowResetInRelease a b).elec = { m.elec with resetLow := false } ∨
      (m.rowResetInRelease a b).elec = { m.elec with resetLow := false, segid := a % 16, refqual := b % 8, strapCheck := true }) ∧
      (m.rowResetInRelease a b).dies = m.dies ∧ (m.rowResetInRelease a b).clk.tripped = m.clk.tripped := by
  cases hr : m.elec.resetLow <;> cases ht : m.clk.tripped <;> cases hs : m.elec.suppliesOk <;>
    simp [Mach.rowResetInRelease, Mach.setClk, hr, ht, hs]

theorem Mach.rowStrapCheckDone_pins (m : Mach) (a b : Nat) :
    ((m.rowStrapCheckDone a b).elec = { m.elec with strapCheck := false }) ∧ (m.rowStrapCheckDone a b).dies = m.dies ∧
      (m.rowStrapCheckDone a b).clk = m.clk := by
  cases h : m.elec.strapCheck <;> simp [Mach.rowStrapCheckDone, h]
  simp [← h]

theorem Mach.rowSuppliesInRange_pins (m : Mach) :
    (m.rowSuppliesInRange.elec = m.elec ∨
      m.rowSuppliesInRange.elec = { m.elec with suppliesOk := true, vauxOk := true, vinLow := false }) ∧
      m.rowSuppliesInRange.dies = m.dies ∧ m.rowSuppliesInRange.clk.tripped = m.clk.tripped := by
  cases h : m.elec.suppliesOk
  · by_cases k : m.clk.stage = 0 <;> simp [Mach.rowSuppliesInRange, Mach.setClk, h, k]
  · simp [Mach.rowSuppliesInRange, h]

theorem Mach.rowVinUndervoltage_pins (m : Mach) :
    (m.rowVinUndervoltage.elec = m.elec ∨ m.elec.suppliesOk = true ∧ m.rowVinUndervoltage.elec = { m.elec with vinLow := true }) ∧
      m.rowVinUndervoltage.dies = m.dies ∧ m.rowVinUndervoltage.clk = m.clk := by
  cases h : m.elec.suppliesOk <;> cases k : m.elec.vinLow <;> simp [Mach.rowVinUndervoltage, h, k]

theorem Mach.rowVinReturn_pins (m : Mach) :
    (m.rowVinReturn.elec = m.elec ∨ m.rowVinReturn.elec = { m.elec with vinLow := false }) ∧
      m.rowVinReturn.dies = m.dies ∧ (m.clk.tripped = true → m.rowVinReturn.clk = m.clk) := by
  cases h : m.elec.vinLow <;> cases k : m.clk.tripped <;> simp [Mach.rowVinReturn, h, k]

theorem Mach.rowVauxUndervoltage_pins (m : Mach) :
    (m.rowVauxUndervoltage.elec = m.elec ∨
      m.rowVauxUndervoltage.elec = { m.elec with vauxOk := false, suppliesOk := false, vinLow := false, resetLow := true }) ∧
      m.rowVauxUndervoltage.dies = m.dies := by
  cases h : m.elec.vauxOk <;> simp [Mach.rowVauxUndervoltage, h]

/-- The commands of `pinCommand`. -/
theorem pinCommand_cases (c : Instr) (h : pinCommand c = true) :
    (∃ x, c = .resetInLAssert x) ∨ (∃ a b, c = .resetInLRelease a b) ∨ (∃ a b, c = .strapCheckDone a b) ∨ c = .suppliesInRange ∨
      c = .vinUndervoltage ∨ c = .vinReturnExpiry ∨ c = .vauxUndervoltage := by
  cases c <;> first | (cases h; done) | simp

end Sys2Proof.Machine
end

