-- ==== Sys2Proof/Laws/Tables.lean ====
section
/-! SUPPORT. Tables and the dictionary's registers: what reading gives after a write. -/

namespace Sys2Proof.Machine

theorem tget_tput_same {α : Type} (t : Tbl α) (k : Nat) (v : α) : tget (tput t k v) k = some v := by
  induction t with
  | nil => simp [tput, tget]
  | cons p t ih =>
    obtain ⟨j, w⟩ := p
    simp only [tput]
    split
    · simp [tget]
    · split
      · simp [tget]
      · rename_i h1 h2
        simp [tget, h1, h2, ih]

theorem tget_tput_other {α : Type} (t : Tbl α) (k j : Nat) (v : α) (h : j ≠ k) : tget (tput t k v) j = tget t j := by
  induction t with
  | nil => simp [tput, tget, h.symm]
  | cons p t ih =>
    obtain ⟨i, w⟩ := p
    simp only [tput]
    split
    · rename_i h1
      simp only [tget, if_neg (Ne.symm h)]
      split
      · rename_i h2
        rw [if_neg (by omega), if_pos (by omega)]
      · rfl
    · split
      · rename_i h1 h2
        subst h2
        simp [tget, Ne.symm h]
      · simp only [tget, ih]

theorem regKey_inj {i s r i' s' r' : Nat} (hs : s < 256) (hs' : s' < 256) (hr : r < 2 ^ 32) (hr' : r' < 2 ^ 32)
    (h : regKey i s r = regKey i' s' r') : i = i' ∧ s = s' ∧ r = r' := by
  simp only [regKey] at h
  omega

@[simp] theorem Mach.reg_setReg_same (m : Mach) (idx sub row v : Nat) : (m.setReg idx sub row v).reg idx sub row = v := by
  simp [Mach.reg, Mach.setReg, tget_tput_same]

theorem Mach.reg_setReg_other (m : Mach) (idx sub row v i' s' r' : Nat)
    (h : regKey (dictIndex i') s' r' ≠ regKey (dictIndex idx) sub row) :
    (m.setReg idx sub row v).reg i' s' r' = m.reg i' s' r' := by
  simp [Mach.reg, Mach.setReg, tget_tput_other _ _ _ _ h]

/-- A register of another entry, subindex or row keeps its value. -/
theorem Mach.reg_setReg_ne (m : Mach) (idx sub row v i' s' r' : Nat) (hs : sub < 256) (hs' : s' < 256) (hr : row < 2 ^ 32)
    (hr' : r' < 2 ^ 32) (h : ¬(dictIndex i' = dictIndex idx ∧ s' = sub ∧ r' = row)) :
    (m.setReg idx sub row v).reg i' s' r' = m.reg i' s' r' :=
  Mach.reg_setReg_other m idx sub row v i' s' r' fun e => h (regKey_inj hs' hs hr' hr e)

@[simp] theorem Mach.reg_emit (m : Mach) (o : Out) (i s r : Nat) : (m.emit o).reg i s r = m.reg i s r := rfl
@[simp] theorem Mach.reg_setOct (m : Mach) (idx sub row : Nat) (v : List Byte) (i s r : Nat) :
    (m.setOct idx sub row v).reg i s r = m.reg i s r := rfl
@[simp] theorem Mach.reg_spanEvent (m : Mach) (code param i s r : Nat) : (m.spanEvent code param).reg i s r = m.reg i s r := rfl
@[simp] theorem Mach.reg_setBytes (m : Mach) (dpa : Nat) (bs : List Byte) (i s r : Nat) :
    (m.setBytes dpa bs).reg i s r = m.reg i s r := rfl
@[simp] theorem Mach.reg_setGran (m : Mach) (g : Nat) (e : Granule) (i s r : Nat) : (m.setGran g e).reg i s r = m.reg i s r := rfl

@[simp] theorem Mach.oct_setOct_same (m : Mach) (idx sub row : Nat) (v : List Byte) : (m.setOct idx sub row v).oct idx sub row = v := by
  simp [Mach.oct, Mach.setOct, tget_tput_same]

end Sys2Proof.Machine
end

