-- ==== Sys2Proof/Laws/Shared.lean ====
section
/-! SUPPORT. What the operations that many commands share do: a dictionary write of a row of its own, the counting of a request,
counters, events, notices. Each lemma says once what an operation can do. -/

namespace Sys2Proof.Machine

/-! ## Dictionary writes -/

/-- A write that is admitted and whose rule succeeds: its effect, then the answer with abort 0. -/
theorem dictWrite_ok {m : Mach} {w : Src} {idx sub : Nat} {act : Mach → Except Nat Mach} {m' : Mach}
    (h : m.admits w idx sub = true) (ha : act m.heard = .ok m') : m.dictWrite w idx sub act = m'.answerWrite w idx sub 0 := by
  simp only [Mach.admits, Bool.and_eq_true, Option.isNone_iff_eq_none] at h
  simp only [Mach.heard] at h ha
  simp only [Mach.dictWrite, h.1.1, h.1.2, h.2, ha]
  rfl

/-- A write that is admitted and whose rule refuses it: nothing but the answer with the rule's abort. -/
theorem dictWrite_error {m : Mach} {w : Src} {idx sub : Nat} {act : Mach → Except Nat Mach} {a : Nat}
    (h : m.admits w idx sub = true) (ha : act m.heard = .error a) : m.dictWrite w idx sub act = m.heard.answerWrite w idx sub a := by
  simp only [Mach.admits, Bool.and_eq_true, Option.isNone_iff_eq_none] at h
  simp only [Mach.heard] at h ha ⊢
  simp only [Mach.dictWrite, h.1.1, h.1.2, h.2, ha]
  rfl

/-- A request that reaches the dictionary and is no repetition is served. -/
theorem once_new {m : Mach} {q : Requester} {txn : Nat} {f : Mach → Mach} (h : m.fresh? q txn = true) :
    m.once q txn f = f m.heard := by
  simp only [Mach.fresh?, Bool.and_eq_true, Option.isNone_iff_eq_none] at h
  simp only [Mach.heard] at h ⊢
  simp only [Mach.once, h.1, h.2]
  rfl

@[simp] theorem Mach.heard_reg_ne (m : Mach) (i s r : Nat) (h : regKey (dictIndex i) s r ≠ regKey (dictIndex 0x7110) 1 0) :
    m.heard.reg i s r = m.reg i s r := by
  simp only [Mach.heard, Mach.bump, Mach.bumpBy]
  exact Mach.reg_setReg_other m _ _ _ _ i s r h

/-! ## Tile instructions -/

/-- An instruction that issues does what its row says of the crag, the instruction and the machine. -/
theorem issue_ok {m : Mach} {op die n : Nat} {i : TileInstr} {act : Mach → Nat → Crag → TileInstr → Mach}
    (h : m.issues op die n i = true) : m.issue op die n act = act m (cragKey die n) (m.crag (cragKey die n)) i := by
  simp only [Mach.issues, Bool.and_eq_true, beq_iff_eq, Bool.not_eq_true', decide_eq_true_eq] at h
  obtain ⟨⟨⟨⟨⟨⟨h1, h2⟩, h3⟩, h4⟩, h5⟩, h6⟩, h7⟩ := h
  have hm : (tileMasks i.op).isNone = false := by
    cases e : tileMasks i.op <;> simp_all [tileBad]
  have h8 : ¬ (tileAsync op = true ∧ 32 ≤ (m.crag (cragKey die n)).asyncs.length) := by
    simpa using h7
  subst h5
  simp only [Mach.issue, h1, Nat.not_le.mpr h2, h3, h4, hm, h6]
  simp [h8]

/-! ## Counters, events, traces -/

@[simp] theorem Mach.bump_setReg (m : Mach) (idx sub : Nat) :
    (m.bump idx sub).reg idx sub 0 = (m.reg idx sub 0 + 1) % 2 ^ 64 := by
  simp [Mach.bump, Mach.bumpBy]

theorem Mach.bumpBy_reg_ne (m : Mach) (idx sub row n i s r : Nat) (h : regKey (dictIndex i) s r ≠ regKey (dictIndex idx) sub row) :
    (m.bumpBy idx sub row n).reg i s r = m.reg i s r := Mach.reg_setReg_other m _ _ _ _ i s r h

/-- The trace's own registers (0x9000) apart, a trace record changes no register. -/
theorem Mach.trace_reg_ne (m : Mach) (src die : Nat) (fields : List Byte) (i s r : Nat) (h : dictIndex i ≠ 0x9000) (hs : s < 256)
    (hr : r < 2 ^ 32) : (m.trace src die fields).reg i s r = m.reg i s r := by
  have k (sub : Nat) (hsub : sub < 256) : regKey (dictIndex i) s r ≠ regKey (dictIndex 0x9000) sub 0 := fun e =>
    h (regKey_inj hs hsub hr (by decide) e).1
  simp only [Mach.trace]
  split
  · rw [Mach.bump, Mach.bumpBy_reg_ne _ _ _ _ _ _ _ _ (k 9 (by decide)), Mach.reg_setReg_other _ _ _ _ _ _ _ _ (k 11 (by decide))]
    rfl
  · rfl

theorem Mach.event_reg_ne (m : Mach) (code param i s r : Nat) (h : dictIndex i ≠ 0x9000) (hs : s < 256) (hr : r < 2 ^ 32) :
    (m.event code param).reg i s r = m.reg i s r := by
  have k (sub : Nat) (hsub : sub < 256) : regKey (dictIndex i) s r ≠ regKey (dictIndex 0x9000) sub 0 := fun e =>
    h (regKey_inj hs hsub hr (by decide) e).1
  simp only [Mach.event, Mach.traceTrigger]
  split
  · change ((((m.spanEvent code param).setReg 0x9000 8 0 2).setReg 0x9000 0x0C 0 _).reg i s r) = _
    rw [Mach.reg_setReg_other _ _ _ _ _ _ _ _ (k 12 (by decide)), Mach.reg_setReg_other _ _ _ _ _ _ _ _ (k 8 (by decide))]
    rfl
  · rfl

/-- A notice changes the registers of the notice entries, its loss counter and the trace's; every other register is kept. -/
theorem Mach.notice_reg_ne (m : Mach) (number : Nat) (body : List Byte) (i s r : Nat) (h8 : dictIndex i ≠ 0x8000)
    (h9 : dictIndex i ≠ 0x9000) (h7 : dictIndex i ≠ 0x7110) (hs : s < 256) (hr : r < 2 ^ 32) (hn : number < 2 ^ 32) :
    (m.notice number body).reg i s r = m.reg i s r := by
  have k8 (sub : Nat) (hsub : sub < 256) : regKey (dictIndex i) s r ≠ regKey (dictIndex 0x8000) sub (number - 0x8000) := fun e =>
    h8 (regKey_inj hs hsub hr (by omega) e).1
  have k7 : regKey (dictIndex i) s r ≠ regKey (dictIndex 0x7110) 8 0 := fun e => h7 (regKey_inj hs (by decide) hr (by decide) e).1
  simp only [Mach.notice]
  rw [Mach.event_reg_ne _ _ _ _ _ _ h9 hs hr, Mach.trace_reg_ne _ _ _ _ _ _ _ h9 hs hr,
    Mach.reg_setReg_other _ _ _ _ _ _ _ _ (k8 3 (by decide)), Mach.bumpBy_reg_ne _ _ _ _ _ _ _ _ (k8 2 (by decide)),
    Mach.reg_setOct, Mach.bumpBy_reg_ne _ _ _ _ _ _ _ _ k7]
  rfl

end Sys2Proof.Machine
end

