-- ==== Sys2Proof/WellFormed.lean ====
section
/-! DEFINITION. Which commands the hardware's interfaces can carry: every operand within the range of what it names. The
meanings are total all the same: a command that names something absent changes nothing. -/

namespace Sys2Proof

/-- A die or a Ridgeline port of it: eight at most (01_organisation.md R10, 05_ridgeline_links.md R126). -/
def okDie (n : Nat) : Bool := decide (n < 8)
/-- A Ridgeline port, one of each die. -/
def okPort (n : Nat) : Bool := decide (n < 8)
/-- A host link: two of each of eight ports. -/
def okLink (n : Nat) : Bool := decide (n < 16)
/-- A logical device of a link. -/
def okLd (n : Nat) : Bool := decide (n < 16)
/-- A Col link (Table 01-1). -/
def okColLink (n : Nat) : Bool := decide (n < 10)
/-- A 64 B line of the 52-bit device space. -/
def okLine (n : Nat) : Bool := decide (n < 2 ^ 46)
/-- A 64 KiB granule of the 52-bit device space. -/
def okGranule (n : Nat) : Bool := decide (n < 2 ^ 36)
/-- A slot of the scheduler's table of commands in flight. -/
def okSlot (n : Nat) : Bool := decide (n < 2 ^ 16)
/-- A byte operand. -/
def okU8 (n : Nat) : Bool := decide (n < 2 ^ 8)
/-- A 16-bit operand. -/
def okU16 (n : Nat) : Bool := decide (n < 2 ^ 16)
/-- A 64-bit operand. -/
def okU64 (n : Nat) : Bool := decide (n < 2 ^ 64)
/-- A crag array of a die. -/
def okCrag (n : Nat) : Bool := decide (n < 40)
/-- A scratchpad bank. -/
def okBank (n : Nat) : Bool := decide (n < 16)
/-- A Couloir channel of a die. -/
def okChannel (n : Nat) : Bool := decide (n < 64)
/-- A node identity: 9 bits. -/
def okNode (n : Nat) : Bool := decide (n < 512)
/-- A command queue. -/
def okQueue (n : Nat) : Bool := decide (n < 4096)
/-- An address space table. -/
def okAst (n : Nat) : Bool := decide (n < 4096)
/-- A power domain (Table 15-9). -/
def okDomain (n : Nat) : Bool := decide (n < 8)
/-- A group of devices (R370). -/
def okGroup (n : Nat) : Bool := decide (n < 1024)
/-- A reference input: A or B. -/
def okReference (n : Nat) : Bool := decide (n < 2)
/-- A certificate slot (Table 16-4). -/
def okCertSlot (n : Nat) : Bool := decide (n < 8)
/-- A DIMM channel. -/
def okChannelDimm (n : Nat) : Bool := decide (n < 16)
/-- A store domain: a stack's frames or a DIMM's. -/
def okStoreDomain (n : Nat) : Bool := decide (n < 64)
/-- A lane of a port. -/
def okLane (n : Nat) : Bool := decide (n < 32)
/-- A module position: four to a port. -/
def okModule (n : Nat) : Bool := decide (n < 32)
/-- The IPv6 address of a Cairn requester (14_cairn.md R387). -/
def okAddress (n : Nat) : Bool := decide (n < 2 ^ 128)
/-- A sensor's index: a die or a stack. -/
def okSensor (stack : Bool) (n : Nat) : Bool := decide (n < if stack then 16 else 8)
/-- A line that is read back and its state (R501). -/
def okSideband (line st : Nat) : Bool := decide (line < 35) && decide (st < 3)
/-- Temperatures of up to eight sensors, each a signed 32-bit number of 0.1 °C. -/
def okReadings (l : List Int) : Bool := decide (l.length ≤ 8) && l.all fun t => decide (-2147483648 ≤ t ∧ t < 2147483648)
/-- The bytes of a flit slot (05_ridgeline_links.md Table 05-2). -/
def okFlit (bs : List Byte) : Bool := decide (bs.length ≤ 64)
/-- The bytes of a write to one line. -/
def okLineBytes (bs : List Byte) : Bool := decide (0 < bs.length ∧ bs.length ≤ 64)
/-- A bounce key: AES-256 (R458). -/
def okKey (bs : List Byte) : Bool := decide (bs.length = 32)
/-- Six U16 credit limits (Table 05-4). -/
def okLimits (l : List Nat) : Bool := decide (l.length = 6) && l.all okU16
/-- A requester: one of eight sessions, a link and LD, or a bare request. -/
def okRequester : Requester → Bool
  | .session n => decide (n < 8)
  | .inBand link ld => okLink link && okLd ld
  | .bare => true
/-- The sender of a dictionary write and its transaction. -/
def okSrc (s : Src) : Bool := okRequester s.q && okU16 s.txn
/-- A request body's fields within their widths (Table 14-7). -/
def okRequest (r : Request) : Bool :=
  okU16 r.txn && okU8 r.op && okU8 r.flags && okU16 r.index && okU8 r.sub && okU8 r.ty && okU16 r.len &&
    decide (r.off < 2 ^ 32) && decide (r.data.length ≤ 996)
/-- An SPDM channel. -/
def okChan : SpdmChan → Bool
  | .host link ld => okLink link && okLd ld
  | .cairn a => okAddress a
  | .ridgeline n => okNode n
/-- A host access of 32 bits. -/
def okHostAcc : HostAcc → Bool
  | .cfgRead _ => true
  | .cfgWrite _ v => decide (v < 2 ^ 32)
  | .barRead _ off => okU64 off
  | .barWrite _ off v => okU64 off && decide (v < 2 ^ 32)
  | .cdat => true
/-- A write that reaches its granule's map owner: within one line. -/
def okStoreWrite (w : Machine.StoreWrite) : Bool :=
  okDie w.die && decide (0 < w.bytes.length ∧ w.dpa % 64 + w.bytes.length ≤ 64) && decide (w.dpa < 2 ^ 52)
/-- A frame's header fields within their widths (Table 05-3), its payload within 64 data flits. -/
def okFrame (f : RFrame) : Bool :=
  okNode f.dst && okNode f.src && decide (f.cls < 8) && decide (f.vc < 2) && decide (f.colour < 4) && okU8 f.epoch &&
    okU8 f.opcode && decide (f.len < 128) && decide (f.hops < 64) && okU16 f.sequence && okU16 f.tag &&
    decide (f.window < 4096) && decide (f.offset < 2 ^ 38) && okU64 f.key && decide (f.ext.length ≤ 32) &&
    decide (f.payload.length ≤ 4096)

/-- Whether every operand of a command is in its range. -/
def Instr.wellFormed : Instr → Bool
  | .colRdShared home req line => okDie home && okDie req && okLine line
  | .colRdOwn home req line => okDie home && okDie req && okLine line
  | .colUpgrade home req line => okDie home && okDie req && okLine line
  | .colEvict home src line => okDie home && okDie src && okLine line
  | .colWb home src line => okDie home && okDie src && okLine line
  | .colSnpShare home die line => okDie home && okDie die && okLine line
  | .colSnpInv home die line => okDie home && okDie die && okLine line
  | .colSnpFwd home die line => okDie home && okDie die && okLine line
  | .colSnpRsp home src line => okDie home && okDie src && okLine line
  | .colAck src die line => okDie src && okDie die && okLine line
  | .colData src die line => okDie src && okDie die && okLine line
  | .colRetrainLimitExpiry link => okColLink link
  | .clearDownLink sender v => okSrc sender && okU64 v
  | .dieWatchdogExpiry d => okDie d
  | .dieUncorrectableError d => okDie d
  | .coreSupplyLoss d => okDie d
  | .fenceOrderly sender d => okSrc sender && okDie d
  | .fenceEvacuationDone d => okDie d
  | .fenceEvacuationBoundExpiry d => okDie d
  | .fenceDrainDone d => okDie d
  | .commandDrainBoundExpiry d => okDie d
  | .fenceWritebackDone d => okDie d
  | .fenceSurvivorWritebackDone d => okDie d
  | .dieRejoin sender d => okSrc sender && okDie d
  | .dieRejoinDone d _ _ => okDie d
  | .homeRemapWritebackDone => true
  | .hdmDecoderCommit link ld k _ _ _ g _ => okLink link && okLd ld && okU16 k && okU16 g
  | .astEnable sender => okSrc sender
  | .astDisable sender => okSrc sender
  | .astOwnerWrite sender v => okSrc sender && okU64 v
  | .walkStepDone die ast dva => okDie die && okAst ast && okU64 dva
  | .prefetchWalkStart die ast dva => okDie die && okAst ast && okU64 dva
  | .hostCxlioCompletion slot hpa _ => okSlot slot && okU64 hpa
  | .hostCompletionTimeout slot hpa => okSlot slot && okU64 hpa
  | .atsInvalidationRequest link ld _ _ n => okLink link && okLd ld && okU64 n
  | .invalidateAst sender ast => okSrc sender && okAst ast
  | .invalidateAll sender => okSrc sender
  | .invalidationAck _ => true
  | .invalidationBoundExpiry _ => true
  | .migrate slot => okSlot slot
  | .migrateCopyDone slot => okSlot slot
  | .advise slot => okSlot slot
  | .mediaReadDone line _ => okLine line
  | .mediaWrite w => okStoreWrite w
  | .allocationBoundExpiry g => okGranule g
  | .frameZeroed _ => true
  | .watermarkRecordRead sender k => okSrc sender && okU16 k
  | .accessFlushTick die => okDie die
  | .ageSweepVisit => true
  | .evictionStart die => okDie die
  | .compressionStart d => okStoreDomain d
  | .movementCopyDone g => okGranule g
  | .movementFinalPassDone g => okGranule g
  | .movementFailed g => okGranule g
  | .dimmAccessBoundExpiry line => okLine line
  | .dimmRereadDone line _ => okLine line
  | .channelFail c => okChannelDimm c
  | .hrtScrubDone => true
  | .leaseAcquire sender holder => okSrc sender && okU16 holder
  | .leaseRenew sender k => okSrc sender && okU16 k
  | .leaseRenewHolder sender holder => okSrc sender && okU16 holder
  | .leaseRelease sender k => okSrc sender && okU16 k
  | .leaseExpiry k => okU16 k
  | .graceEnd k => okU16 k
  | .extentScrubDone k => okU16 k
  | .stackRetire sender k => okSrc sender && okU16 k
  | .stackEvacuationDone k => okU16 k
  | .channelRemove sender c => okSrc sender && okChannelDimm c
  | .channelAdd sender c => okSrc sender && okChannelDimm c
  | .channelTrained c _ _ => okChannelDimm c
  | .reshapeSweepDone => true
  | .hostCxlMemRead link ld hpa _ tag => okLink link && okLd ld && okU64 hpa && okU16 tag
  | .hostCxlMemWrite link ld hpa bs tag => okLink link && okLd ld && okU64 hpa && okLineBytes bs && okU16 tag
  | .hostWriteback link ld hpa bs _ tag => okLink link && okLd ld && okU64 hpa && okLineBytes bs && okU16 tag
  | .birsp link line => okLink link && okLine line
  | .biBoundExpiry link line => okLink link && okLine line
  | .hostSnoop link => okLink link
  | .doorbellWrite link ld _ _ value => okLink link && okLd ld && okU64 value
  | .hostLinkTrained link _ _ => okLink link
  | .spdmKeyExchange chan => okChan chan
  | .spdmFinish chan session _ _ _ _ => okChan chan && okU16 session
  | .authenticationBoundExpiry link ld => okLink link && okLd ld
  | .spdmEndSession chan session => okChan chan && okU16 session
  | .spdmHeartbeatTimeout chan session => okChan chan && okU16 session
  | .spdmHeartbeat chan session => okChan chan && okU16 session
  | .spdmGetMeasurements chan => okChan chan
  | .spdmSetCertificate chan session slot _ => okChan chan && okU16 session && okCertSlot slot
  | .spdmOtherRequest chan => okChan chan
  | .hostLinkDown link => okLink link
  | .perstLAssert port => okPort port
  | .hotReset link => okLink link
  | .functionLevelReset link ld => okLink link && okLd ld
  | .ideIntegrityFailure link ld => okLink link && okLd ld
  | .unbindIdentity sender ident => okSrc sender && okU8 ident
  | .pathTeardownSweepDone link ld => okLink link && okLd ld
  | .hostConfigAccess link ld a => okLink link && okLd ld && okHostAcc a
  | .mirrorGo link ld => okLink link && okLd ld
  | .mirrorBufferWrite link ld _ _ => okLink link && okLd ld
  | .mirrorResponseBoundExpiry link ld => okLink link && okLd ld
  | .headerFlit p bs => okPort p && okFlit bs
  | .dataFlit p bs => okPort p && okFlit bs
  | .stompFlit p => okPort p
  | .idleFlit p => okPort p
  | .slotInError p _ _ => okPort p
  | .ackFlit p ackfn limits => okPort p && okU16 ackfn && okLimits limits
  | .retryFlit p efn num => okPort p && okU16 efn && okU16 num
  | .replayStartFlit p first num => okPort p && okU16 first && okU16 num
  | .helloFlit p node port _ _ => okPort p && okNode node && okPort port
  | .digestFlit p bs => okPort p && okFlit bs
  | .ackIntervalExpiry p => okPort p
  | .keepaliveExpiry p => okPort p
  | .resendIntervalExpiry p => okPort p
  | .fastRetrainDone p => okPort p
  | .recoveryBoundExpiry p => okPort p
  | .frameTransmitStart p => okPort p
  | .laneSignalDetected p => okPort p
  | .detectTimeout p => okPort p
  | .equaliseDone p => okPort p
  | .equaliseTimeout p => okPort p
  | .alignDone p _ _ _ _ => okPort p
  | .helloTimeout p => okPort p
  | .digestStateTimeout p => okPort p
  | .laneLockLoss p lane => okPort p && okLane lane
  | .autoRestoreExpiry p => okPort p
  | .portEnable sender => okSrc sender
  | .portDisable sender => okSrc sender
  | .portFastRetrainRequest sender => okSrc sender
  | .portFullRetrainRequest sender => okSrc sender
  | .portDrainDone p => okPort p
  | .portDrainBoundExpiry p => okPort p
  | .portRelease sender => okSrc sender
  | .generateRoutes sender => okSrc sender
  | .frameRead port f => okPort port && okFrame f
  | .frameWrite port f => okPort port && okFrame f
  | .frameWritePosted port f => okPort port && okFrame f
  | .frameAtomic port f => okPort port && okFrame f
  | .frameFence port f => okPort port && okFrame f
  | .framePublish port f => okPort port && okFrame f
  | .framePublishFwd port f => okPort port && okFrame f
  | .framePoisonMark port f => okPort port && okFrame f
  | .frameColl port f => okPort port && okFrame f
  | .frameResp port f => okPort port && okFrame f
  | .frameSeqAck port f => okPort port && okFrame f
  | .frameMirrorCopy port f => okPort port && okFrame f
  | .frameMgmtReq port f _ => okPort port && okFrame f
  | .frameMgmtRsp port f => okPort port && okFrame f
  | .frameUnknownOpcode port f => okPort port && okFrame f
  | .gapBoundExpiry src _ => okNode src
  | .seqAckIntervalExpiry => true
  | .bulkRetransmitExpiry dst sequence => okNode dst && okU16 sequence
  | .responseBoundExpiry tag => okU16 tag
  | .retireBoundExpiry => true
  | .regionKeyBump sender region => okSrc sender && okU16 region
  | .epochWrite sender v => okSrc sender && okU64 v
  | .relocateWindow sender w => okSrc sender && okU16 w
  | .relocationCopyDone => true
  | .relocationFinalPassDone => true
  | .relocationHoldBoundExpiry => true
  | .clearDeadNode sender node => okSrc sender && okNode node
  | .jobTeardown sender job => okSrc sender && okU16 job
  | .queueEnable sender => okSrc sender
  | .queueDisable sender => okSrc sender
  | .queueStop sender q => okSrc sender && okQueue q
  | .queueRestart sender q => okSrc sender && okQueue q
  | .ringDoorbellRegister sender v => okSrc sender && okU64 v
  | .descriptorFetchDone q => okQueue q
  | .commandAdmit die => okDie die
  | .cqHeadReadDone q => okQueue q
  | .cqHeadPollExpiry q => okQueue q
  | .commandEnd slot => okSlot slot
  | .coalescingExpiry q => okQueue q
  | .eventCountWrite sender v => okSrc sender && okU64 v
  | .copy slot => okSlot slot
  | .transform slot => okSlot slot
  | .gather slot => okSlot slot
  | .scatter slot => okSlot slot
  | .pool slot => okSlot slot
  | .search slot => okSlot slot
  | .insert slot => okSlot slot
  | .delete slot => okSlot slot
  | .merge slot => okSlot slot
  | .kernel slot => okSlot slot
  | .optim slot => okSlot slot
  | .atomic slot => okSlot slot
  | .publish slot => okSlot slot
  | .collective slot => okSlot slot
  | .fenceQueue slot => okSlot slot
  | .fenceAcquire slot => okSlot slot
  | .fenceOwner slot => okSlot slot
  | .fenceOwnerTimeout slot => okSlot slot
  | .signal slot => okSlot slot
  | .waitEvent slot => okSlot slot
  | .waitMemory slot => okSlot slot
  | .waitPollExpiry slot => okSlot slot
  | .waitTimeout slot => okSlot slot
  | .hostFlushReadDone slot path _ => okSlot slot && okU16 path
  | .passBackoffExpiry die crag bank input => okDie die && okCrag crag && okBank bank && okU16 input
  | .starvationReport die crag bank input => okDie die && okCrag crag && okBank bank && okU16 input
  | .bankWatchdogBite die crag bank => okDie die && okCrag crag && okBank bank
  | .bankResetDone die crag bank => okDie die && okCrag crag && okBank bank
  | .cragGrant slot => okSlot slot
  | .programLoadDone slot => okSlot slot
  | .nop die n => okDie die && okCrag n
  | .endProgram die n => okDie die && okCrag n
  | .trap die n => okDie die && okCrag n
  | .br die n => okDie die && okCrag n
  | .loop die n => okDie die && okCrag n
  | .wait die n => okDie die && okCrag n
  | .smov die n => okDie die && okCrag n
  | .smovh die n => okDie die && okCrag n
  | .sadd die n => okDie die && okCrag n
  | .ssub die n => okDie die && okCrag n
  | .smul die n => okDie die && okCrag n
  | .sand die n => okDie die && okCrag n
  | .sor die n => okDie die && okCrag n
  | .sshl die n => okDie die && okCrag n
  | .sshr die n => okDie die && okCrag n
  | .sld die n => okDie die && okCrag n
  | .sst die n => okDie die && okCrag n
  | .tload die n => okDie die && okCrag n
  | .tloadx die n => okDie die && okCrag n
  | .tstore die n => okDie die && okCrag n
  | .tcopy die n => okDie die && okCrag n
  | .tfill die n => okDie die && okCrag n
  | .wload die n => okDie die && okCrag n
  | .mma die n => okDie die && okCrag n
  | .accz die n => okDie die && okCrag n
  | .accrd die n => okDie die && okCrag n
  | .accwr die n => okDie die && okCrag n
  | .vld die n => okDie die && okCrag n
  | .vst die n => okDie die && okCrag n
  | .vsplat die n => okDie die && okCrag n
  | .vadd die n => okDie die && okCrag n
  | .vsub die n => okDie die && okCrag n
  | .vmul die n => okDie die && okCrag n
  | .vfma die n => okDie die && okCrag n
  | .vmin die n => okDie die && okCrag n
  | .vmax die n => okDie die && okCrag n
  | .vdiv die n => okDie die && okCrag n
  | .vsqrt die n => okDie die && okCrag n
  | .vexp die n => okDie die && okCrag n
  | .vcvt die n => okDie die && okCrag n
  | .vred die n => okDie die && okCrag n
  | .vsgn die n => okDie die && okCrag n
  | .asyncComplete die n _ => okDie die && okCrag n
  | .commandTimeBoundExpiry slot => okSlot slot
  | .optimChunkReadsDone slot _ => okSlot slot
  | .rowReadDone slot pos => okSlot slot && okU16 pos
  | .prefetchReadDone q _ => okQueue q
  | .clearSlotCounters sender => okSrc sender
  | .indexLockRetry slot => okSlot slot
  | .fanoutBell => true
  | .fanoutCounter => true
  | .fanoutResponseBoundExpiry => true
  | .elementReadDone die ch => okDie die && okChannel ch
  | .sliceEnd die ch _ => okDie die && okChannel ch
  | .channelAccessFailed die ch => okDie die && okChannel ch
  | .haltBoundExpiry die ch => okDie die && okChannel ch
  | .channelStart sender => okSrc sender
  | .channelStop sender => okSrc sender
  | .channelClear sender => okSrc sender
  | .channelResume sender => okSrc sender
  | .channelAbort sender => okSrc sender
  | .digestPeriodExpiry p => okPort p
  | .digestMissingExpiry p => okPort p
  | .clearQuarantine sender p => okSrc sender && okPort p
  | .beacon p f => okPort p && okFrame f
  | .beaconIntervalExpiry => true
  | .floodFault p f => okPort p && okFrame f
  | .floodCollAbort p f => okPort p && okFrame f
  | .floodWarn p f => okPort p && okFrame f
  | .floodRecordExpiry origin number => okNode origin && okU16 number
  | .ptpMessage domain _ _ => okU8 domain
  | .timebaseReferenceLoss => true
  | .holdoverExitExpiry => true
  | .resynchronise sender => okSrc sender
  | .groupSettleExpiry g => okGroup g
  | .progressBoundExpiry g => okGroup g
  | .groupEpochWrite sender v => okSrc sender && okU64 v
  | .marginEvaluation _ _ => true
  | .cairnRequestRead q r => okRequester q && okRequest r
  | .cairnRequestWrite q r => okRequester q && okRequest r
  | .cairnRequestSegRead q r => okRequester q && okRequest r
  | .cairnRequestSegWrite q r => okRequester q && okRequest r
  | .stagedWrite q r => okRequester q && okRequest r
  | .commit sender _ => okSrc sender
  | .discard sender => okSrc sender
  | .cairnSpdmMessage address _ => okAddress address
  | .cairnSecuredMessage session _ => okU16 session
  | .cairnRelay address txn node _ _ => okAddress address && okU16 txn && okNode node
  | .cairnFrameDiscard _ txn => okU16 txn
  | .noticeAck session sequence => okU16 session && okU16 sequence
  | .noticeAckInBand sender sequence => okSrc sender && okU16 sequence
  | .noticeRetransmitExpiry slot sequence => okU16 slot && okU16 sequence
  | .subscribe sender _ => okSrc sender
  | .unsubscribe sender slot => okSrc sender && okU16 slot
  | .segmentLapseExpiry q _ => okRequester q
  | .enumPulse k => okU16 k
  | .enumPulseTimeout => true
  | .enumPulsePeriod => true
  | .nodeIdSetInBand sender v => okSrc sender && okU64 v
  | .dadComplete => true
  | .dadConflict => true
  | .dateWrite sender v => okSrc sender && okU64 v
  | .timeOfDayWrite sender v => okSrc sender && okU64 v
  | .dateAndTimeWrite sender _ => okSrc sender
  | .calendarSourceWrite sender v => okSrc sender && okU64 v
  | .referenceAbsent pos => okReference pos
  | .referenceQualified pos => okReference pos
  | .referenceCompare _ _ => true
  | .preferredReferenceWrite sender v => okSrc sender && okU64 v
  | .cclkDwellEnd => true
  | .pllLocked => true
  | .divisorCeilingWrite sender v => okSrc sender && okU64 v
  | .spreadPeriodEnd => true
  | .frequencyCountStart sender => okSrc sender
  | .frequencyGateEnd count => okU64 count
  | .frequencyCountTimeout => true
  | .resetInLAssert _ => true
  | .resetInLRelease _ _ => true
  | .strapCheckDone _ _ => true
  | .warmResetRequest sender => okSrc sender
  | .coldResetRequest sender => okSrc sender
  | .shutdownRequest sender => okSrc sender
  | .warmResetEntryDone => true
  | .warmResetExitDone => true
  | .engineReset sender => okSrc sender
  | .engineResetDone die eng => okDie die && okU8 eng
  | .suppliesInRange => true
  | .powerUpStageDone => true
  | .vinUndervoltage => true
  | .vinReturnExpiry => true
  | .vauxUndervoltage => true
  | .domainPowerDownRequest sender => okSrc sender
  | .domainPowerUpRequest sender => okSrc sender
  | .domainTransfersDrained die dom => okDie die && okDomain dom
  | .domainDownBoundExpiry die dom => okDie die && okDomain dom
  | .domainUpDone die dom => okDie die && okDomain dom
  | .powerEvaluation _ _ _ _ _ => true
  | .currentCut => true
  | .currentCutEnd => true
  | .thermalSample stack n readings => okSensor stack n && okReadings readings
  | .bootChoose _ => true
  | .bootRetryExpiry _ => true
  | .imageUpload q r => okRequester q && okRequest r
  | .activateLive sender => okSrc sender
  | .activateAtColdReset sender => okSrc sender
  | .handoverDone => true
  | .handoverTimeout => true
  | .claimWindowExpiry => true
  | .confidentialEnter sender => okSrc sender
  | .confidentialExit sender => okSrc sender
  | .confidentialEntryBoundExpiry => true
  | .confidentialEntryDone key => okKey key
  | .confidentialExitDone => true
  | .pathLossExitExpiry => true
  | .weightBind sender => okSrc sender
  | .weightUnbind sender => okSrc sender
  | .bindingDecision slot => okU16 slot
  | .auditFlashWriteDone _ => true
  | .snapshot sender => okSrc sender
  | .clearCounters sender => okSrc sender
  | .spanArm sender => okSrc sender
  | .spanDisarm sender => okSrc sender
  | .softwareStart sender => okSrc sender
  | .softwareStop sender => okSrc sender
  | .spanSettleExpiry => true
  | .clearSpan sender => okSrc sender
  | .eyeMeasurementDone p _ _ => okPort p
  | .moduleInserted pos => okModule pos
  | .moduleRemoved pos => okModule pos
  | .moduleReady pos _ _ _ _ _ => okModule pos
  | .moduleInitTimeout pos => okModule pos
  | .moduleFaultRetryExpiry pos => okModule pos
  | .modulePoll pos _ => okModule pos
  | .moduleMapRead sender _ => okSrc sender
  | .moduleMapWrite sender _ _ => okSrc sender
  | .traceStart sender => okSrc sender
  | .traceStop sender => okSrc sender
  | .tracePostTriggerDone => true
  | .tapInstructionUpdate code => okU8 code
  | .debugScratchRead sender => okSrc sender
  | .debugScratchWrite sender _ => okSrc sender
  | .debugScratchGrantTimeout => true
  | .sidebandLineCheck line st => okSideband line st
  | .referencePresent pos => okReference pos
  | .colLinkError link => okColLink link
  | .colLinkRetrainDone link => okColLink link
  | .perstLRelease port => okPort port
  | .ideKeyManagement link ld _ _ => okLink link && okLd ld
  | .plcaStatusChange _ => true
  | .icmpv6Message _ _ => true

end Sys2Proof
end

