-- ==== Sys2Proof/Tests/Slice0.lean ====
section
/-! SUPPORT. The model's own tests: what the commands' checks refuse, worked examples of the manual, and for each statement with
hypotheses, states and operands that meet them. -/

set_option Elab.async false
set_option linter.unusedVariables false

namespace Sys2Proof.Tests
open Sys2Proof Sys2Proof.Machine

/-! ## A machine that runs -/

/-- The registers of that machine that differ from their defaults, in the order of their keys: a node ID held, the device ready,
dies ACTIVE, domains on, a device address space of 1 TiB, stacks in service, Col links up. -/
def onRegs : Tbl Nat :=
  [(regKey 0x1100 6 0, 1), (regKey 0x2200 3 0, 1)] ++
  ((List.range 8).map fun d => (regKey 0x2210 (1 + d) 0, 1)) ++
  ((List.range 8).flatMap fun d => [0, 1, 2, 3, 4, 5, 6].map fun k => (regKey 0x2220 3 (domainRow d k), 1)) ++
  [(regKey 0x3000 1 0, 2 ^ 40)] ++
  ((List.range 16).map fun k => (regKey 0x3025 (1 + k) 0, 1)) ++
  ((List.range 10).map fun l => (regKey 0x7011 (1 + l) 0, 1))

/-- A factory KZ8-8 that is powered, clocked and ready. -/
def onM : Mach :=
  { dies := 8, cairn := { Cairn.reset with regs := onRegs }, tele := Telemetry.reset []
    elec := ⟨false, 0, 2, false, true, true, false⟩, time := ⟨1000, true, true⟩, col := Col.reset, fences := []
    store := Store.reset [] [], sched := Sched.reset, eng := Engines.reset, xl := Xlate.reset, host := HostSide.reset
    ports := [], fab := Fabric.reset, hall := Hall.reset, sec := Security.factory
    clk := { Clocks.reset with stage := 11, booted := true }, out := [], freeCtr := 0 }

/-- That machine with no command waiting. -/
def on : State := ⟨onM, []⟩

/-- A machine changed from `onM`. -/
def at' (f : Mach → Mach) : State := ⟨f onM, []⟩

/-- A Ridgeline session in slot 0 with every role. -/
def session (m : Mach) : Mach := m.setReq (.session 0) (ReqState.fresh 0 15 0 true 0)

/-- A write of that session. -/
def sess : Src := ⟨.session 0, 7, false⟩

/-- A descriptor from its fields: offset, bytes, value. -/
def desc (l : List (Nat × Nat × Nat)) : List Byte := l.foldl (fun d f => patch d f.1 (leBytes f.2.1 f.2.2)) (zeros 64)

/-- A command of queue 0 in flight with a descriptor. -/
def cmd (d : List Byte) : Cmd :=
  { queue := 0, sqIndex := 0, desc := d, order := 0, fail := none, detail := 0, result := 0, done := false, started := false
    hostWrites := [], flushOut := [], fabricDests := [], fencesSent := false, fabricOut := 0, waitsFor := [], progress := 0 }

/-- A bound LD. -/
def bound : Ld := { Ld.reset with bind := .bound }

/-- AST 1 enabled: its root at 2 MiB, owned by everyone. -/
def ast1 : Ast := ⟨0x200000, 0xFF, 0, 0, 0⟩

/-- A machine with AST 1. -/
def withAst (m : Mach) : Mach := { m with xl := { m.xl with asts := [(1, ast1)] } }

/-- A MIGRATE TO_LOCAL of one 64 KiB page of AST 1 from DVA 0 to DPA 0x300000. -/
def migC : Cmd := cmd (desc [(0, 1, 0x40), (16, 2, 1), (32, 8, 65536), (40, 8, 0x300000)])

/-- Its machine: four levels of tables, the page's leaf names a host page, a Couloir channel runs for it. -/
def migM : State := at' fun m =>
  let m := { withAst m with sched := { m.sched with slots := [(0, migC)] } }
  let m := (((m.setBytes 0x200000 (leBytes 8 0x210001)).setBytes 0x210000 (leBytes 8 0x220001)).setBytes 0x220000
    (leBytes 8 0x230001)).setBytes 0x230000 (leBytes 8 0x10000000B)
  m.setReg 0x5401 3 0 0xFF

/-- A migration whose copy is about to be made, of a range without leaves. -/
def migG : Migration :=
  { slot := 0, ast := 1, toHost := false, port := 0, dva := 0, len := 0, dest := 0x300000, leaves := [], held := [] }

/-- Its machine. -/
def migN : State := at' fun m =>
  let m := { withAst m with sched := { m.sched with slots := [(0, migC)] } }
  let m := m.askChan 0 0xFF
  { m with xl := { m.xl with migrations := [migG] } }

/-- An ADVISE of one page of AST 1, whose leaf does not exist. -/
def advC : Cmd := cmd (desc [(0, 1, 0x41), (16, 2, 1), (18, 1, 4), (32, 8, 65536)])

/-- Its machine. -/
def advM : State := at' fun m => ({ withAst m with sched := { m.sched with slots := [(1023, advC)] } } : Mach).setReg 0x5401 3 0 0xFF

/-- A movement to stacked frame 9 in its final pass. -/
def mvW : Movement :=
  { kind := .promote, dst := .stack 9, dirty := [], promotePending := false, evacPending := false, finalPass := true, forced := false }

/-- A host on link 0: CXL up, LD 0 bound with identity 0, a decoder over its grant of 1 GiB. -/
def hostW (m : Mach) : Mach :=
  (((((m.setReg 0x3401 1 0 4).setReg 0x3410 2 0 0).setReg 0x3410 4 0 (2 ^ 30)).setReg 0x3410 5 0 1)).setLd 0 0
    { bound with decoders := [⟨0, 2 ^ 30, 0, 8, 0, true⟩] }

/-- That host holds line 5 in E. -/
def heldW (m : Mach) : Mach := (hostW m).setHostFilter 0 [⟨5, 0, .E, [0]⟩]

/-- A Cairn port that is up. -/
def upW (m : Mach) : Mach := { m with cairn := { m.cairn with enum := { m.cairn.enum with dadDone := true } } }

/-- A Cairn port whose exchange in slot 0 is to be finished; trust-store slot 0 holds the root of an empty chain. -/
def finM : State := at' fun _ =>
  (({ upW onM with cairn := { (upW onM).cairn with handshakes := [(0, .cairn 3)] }, sec := { onM.sec with claimable := false } } :
    Mach).setReg 0x6000 3 0 1).setOct 0x6000 2 0 (Config.sha384 [])

/-- A port in a state of 0x4011.01. -/
def portW (p st : Nat) (m : Mach) : Mach := m.setReg 0x4011 1 p st

/-- A frame of class 2 from node 9 to this one, of one data flit. -/
def fr : RFrame :=
  { dst := 0, src := 9, cls := 2, vc := 0, colour := 0, epoch := 0, opcode := 1, len := 1, hops := 0, detour := false
    rerouted := false, mg := false, sequence := 0, tag := 0, window := 0, offset := 0, key := 0, ext := zeros 32, payload := [] }

/-- Window 0 over the first MiB, region 0 with `flags`, every permission. -/
def winW (flags : Nat) (m : Mach) : Mach :=
  ((((m.setReg 0x4410 6 0 1).setReg 0x4410 3 0 (2 ^ 20)).setReg 0x4410 5 0 7).setReg 0x4410 4 0 0).setReg 0x4400 6 0 flags

/-- A request of an opcode over n bytes in k flits. -/
def rq (op k n : Nat) : RFrame := { fr with opcode := op, len := k, ext := extWords (word4 0 n 0 false false) 0 0 0, payload := zeros (64 * k) }

/-- A machine with a command on scoreboard slot 0, of queue 0, which the Steward owns. -/
def withCmd (c : Cmd) (m : Mach) : Mach := ({ m with sched := { m.sched with slots := [(0, c)] } } : Mach).setReg 0x5401 3 0 0xFF

/-- Queue 0 running, its rings of 16 entries and its pointer block in the first three granules, in the stack; its first descriptor
is a SIGNAL and is posted. -/
def qW (m : Mach) : Mach :=
  let m := (((m.setReg 0x5401 2 0 1).setReg 0x5401 3 0 0xFF).setReg 0x5401 7 0 4).setReg 0x5401 9 0 4
  let m := (m.setReg 0x5401 8 0 65536).setReg 0x5401 0x0A 0 131072
  let m := [0, 1, 2].foldl (fun m g => m.setGran g { Granule.reset with loc := .stack, frame := g }) m
  (m.setBytes 0 (desc [(0, 1, 0x51)])).setQueue 0 { Queue.fresh with tail := 1 }

/-- A bank that input 6 of slot 0 holds, with input 2 parked, and one resetting. -/
def bankW (b : Bank) (m : Mach) : Mach := m.setBank (bankKey 7 39 15) b

/-- A WAIT of kind MEMORY on the word at DVA 0 of AST 1, for 0. -/
def memC : Cmd := cmd (desc [(0, 1, 0x52), (16, 2, 1), (18, 1, 1)])

/-- Its machine: the page's leaf is LOCAL at DPA 0x300000, cached by the engine. -/
def memM : State := at' fun m =>
  let m := withAst (withCmd memC m)
  let m := { m with xl := { m.xl with micro := [(engOther, [⟨1, 0, 65536, 0x300073⟩])] } }
  m.setGran 48 { Granule.reset with loc := .stack }

/-- A command of queue 0 by an AST whose first page is LOCAL in the stack at DPA 0x300000, cached by an engine. -/
def localW (eng : Nat) (c : Cmd) (m : Mach) : Mach :=
  let m := withAst (withCmd c m)
  let m := { m with xl := { m.xl with micro := [(eng, [⟨1, 0, 65536, 0x300073⟩])] } }
  m.setGran 48 { Granule.reset with loc := .stack }

/-- An ATOMIC ADD u32 of 1 at DVA 0 with NORESULT. -/
def atomC : Cmd := cmd (desc [(0, 1, 0x42), (16, 2, 1), (18, 1, 0x10), (19, 1, 1), (40, 8, 1)])

/-- A COLLECTIVE of group 0: ALL_REDUCE ADD of 64 FP32 from DVA 0 to DVA 4096. -/
def collC (n : Nat) : Cmd := cmd (desc [(0, 1, 0x60), (16, 2, 1), (32, 8, 4096), (40, 8, n)])

/-- Group 0, a LIST of the given nodes as a mask, READY. -/
def groupW (mask : Nat) (m : Mach) : Mach :=
  (((m.setReg 0x4510 7 0 1).setReg 0x4510 2 0 1).setReg 0x4510 0x0A 0 1).setOct 0x4510 5 0 (leBytes 64 mask)

/-- A COPY of 64 bytes from DVA 0 to DVA 4096. -/
def copyC : Cmd := cmd (desc [(0, 1, 1), (16, 2, 1), (18, 1, 0xFF), (32, 8, 4096), (40, 8, 64)])

/-- Channel 0 with a command of slot 0, in a state of 0x5301.03. -/
def chanW (st : Nat) (c : Cmd) (m : Mach) : Mach :=
  ((localW engCouloir c m).setChan 0 ⟨0, none, 0, 0, 0, 0, 0, 0, some 0, 0⟩).setReg 0x5301 3 0 st

/-- The run of that channel. -/
def run0 : ChanRun := ⟨0, none, 0, 0, 0, 0, 0, 0, some 0, 0⟩

/-- An ALL_REDUCE of group 0 that runs. -/
def collRun0 : Coll :=
  { slot := 0, group := 0, epoch := 0, kind := 0, op := 0, dtype := 0, tag := 0, stages := [], stage := 0, step := 0, got := 0
    vec := [], inbox := [], passOn := [], ended := false }

/-- A PUBLISH of 64 bytes from DVA 0 to DVA 65536. -/
def pubC : Cmd := cmd (desc [(0, 1, 0x43), (16, 2, 1), (32, 8, 65536), (40, 8, 64)])

/-- Its machine: the destination's leaf is a GFA of node 5, window 0, a member of replica set 0. -/
def pubM : State := at' fun m =>
  let m := localW engOther pubC m
  let m := { m with xl := { m.xl with micro := [(engOther, [⟨1, 0, 65536, 0x300073⟩, ⟨1, 65536, 65536, 5 * 2 ^ 50 + 0x77⟩])] } }
  m.setReg 0x4440 2 0 (2 ^ 31 + 5 * 65536)

/-- A TRANSFORM without crag on channel 0, of one element. -/
def trC : Cmd := cmd (desc [(0, 1, 2), (16, 2, 1), (20, 1, 0xFF), (32, 4, 1)])

/-- An element: one 8-bit element from DVA 0x100 to DVA 0x200. -/
def trE : List Byte := desc [(0, 8, 0x100), (8, 8, 0x200), (24, 2, 8), (26, 2, 8)]


/-- A tile instruction in 16 bytes: opcode, S, token, words A, B and C; it waits for no token. -/
def tileI (op s tok a b c : Nat) : List Byte := leBytes 4 a ++ leBytes 4 b ++ leBytes 4 c ++ leBytes 4 (op * 2 ^ 24 + s * 2 ^ 23 + tok * 2 ^ 19)

/-- Crag 0 of die 0 runs a program for a KERNEL on slot 0, queue 0. -/
def tileW (p : List Byte) (m : Mach) : Mach :=
  let m := (withCmd (cmd (desc [(0, 1, 0x30), (18, 1, 1)])) m).setCrag 0 { Crag.reset with slot := some 0, phase := .running, prog := p }
  { m with eng := { m.eng with crag := { m.eng.crag with granted := [(0, ⟨0, 0, 0, 1⟩)] } } }

/-- A crag that runs and belongs to no command. -/
def tileFree (p : List Byte) (m : Mach) : Mach := m.setCrag 0 { Crag.reset with phase := .running, prog := p }

/-- Crag 0 with an instruction in flight; AST 1's first page is LOCAL. -/
def asyncW (o : AsyncOp) (m : Mach) : Mach :=
  let m := localW 0 (cmd (desc [(0, 1, 0x30), (16, 2, 1), (18, 1, 1)])) m
  m.setCrag 0 { Crag.reset with slot := some 0, phase := .running, prog := zeros 16, pc := 1, asyncs := [o] }

/-- A KERNEL of one instruction from DVA 0 of AST 1 on two crags. -/
def kernC : Cmd := cmd (desc [(0, 1, 0x30), (16, 2, 1), (18, 1, 2), (20, 1, 0xFF), (32, 4, 16), (40, 8, 0x2000)])

/-- An SGD OPTIM of one FP32 element: parameter at DVA 0, gradient at 0x1000, moment at 0x2000, hyperparameters at 0x3000. -/
def optC : Cmd := cmd (desc [(0, 1, 0x31), (16, 2, 1), (20, 1, 1), (32, 8, 0x1000), (40, 8, 0x2000), (48, 8, 0x3000), (56, 8, 1)])

/-- Its hyperparameters: all zero, step 1. -/
def optH : List Byte := desc [(24, 8, 1)]

/-- Its machine once its crag is granted and its first chunk is in flight. -/
def optM : State := at' fun m =>
  let m := localW 0 optC m
  { m with eng := { m.eng with crag := { m.eng.crag with granted := [(0, ⟨0, 0, 0, 1⟩)], optims := [(0, ⟨optH, [0], 0⟩)] } } }

/-- A GATHER of one 32-bit index: table at DVA 0, list at 0x100, destination 0x2000. -/
def gathC : Cmd := cmd (desc [(0, 1, 0x10), (16, 2, 1), (20, 4, 1), (32, 8, 0x100), (40, 8, 0x2000), (48, 4, 16)])
/-- A POOL of one bag and a SCATTER of one index over the same table. -/
def poolC : Cmd := cmd (desc [(0, 1, 0x12), (16, 2, 1), (20, 4, 1), (32, 8, 0x100), (40, 8, 0x200), (56, 8, 0x2000)])
def scatC : Cmd := cmd (desc [(0, 1, 0x11), (16, 2, 1), (20, 4, 1), (32, 8, 0x100), (40, 8, 0x2000), (48, 4, 16)])
/-- A table of one FP32 row of four elements, at DVA 0x1000. -/
def tabD : List Byte := desc [(0, 1, 1), (1, 1, 7), (4, 2, 4), (6, 1, 1), (8, 8, 1), (16, 4, 16), (24, 8, 0x300)]
/-- The run of a command that waits for its one row. -/
def gathR : TalusRun := { TalusRun.fresh with table := tabD, begun := true, todo := [⟨0, 0, 0x1000, 0⟩], hi := 1, acc := [0, 0, 0, 0], waiting := some ⟨0, 0, 0x1000, 0⟩ }
/-- A machine with that command and its run. -/
def talusW (c : Cmd) (m : Mach) : Mach := (localW engTalus c m).setTalus 0 gathR
/-- A prefetch set of queue 0 with two rows to come. -/
def preS : PrefetchSet := ⟨0, 1, 0, [], [⟨0, 3, 0x1000, 0⟩, ⟨1, 4, 0x1010, 0⟩], 16, 2, none, false⟩

/-- A DELETE of one ID from the index at DVA 0 of AST 1. -/
def delC : Cmd := cmd (desc [(0, 1, 0x22), (16, 2, 1), (40, 8, 0x2000), (48, 4, 1)])

/-- A SEARCH of one query for one result in the index at DVA 0. -/
def searC : Cmd := cmd (desc [(0, 1, 0x20), (16, 2, 1), (19, 1, 1), (22, 2, 1), (32, 8, 0x4000), (40, 8, 0x5000), (48, 2, 1), (50, 2, 1)])
/-- Its machine: an index of one empty list of FP32 vectors of 32 elements; the SEARCH has its place and its crag. -/
def searchM : State := at' fun m =>
  let m := ((localW engCirque searC m).setBytes 0x300000
    (desc [(0, 1, 1), (2, 1, 7), (4, 2, 32), (8, 4, 1), (16, 8, 0x1000), (32, 8, 0x2000), (40, 4, 1)])).setBytes 0x300040
    (desc [(0, 8, 0x3000)])
  let m := m.setCirque 0 CirqueRun.fresh
  { m with eng := { m.eng with crag := { m.eng.crag with granted := [(0, ⟨0, 0, 0, 1⟩)] } } }
/-- A fan-out of that search with one member, node 5, whose status line has come into the window at DPA 0x300000. -/
def fanF : Fanout := ⟨0, 1, [(0, 5, 0)], 0x2000, 4096, [], [], 0⟩
/-- Its machine. -/
def fanW (m : Mach) : Mach :=
  ((((localW engCirque searC m).setReg 0x5220 4 0 0).setReg 0x4410 2 0 0x300000).setReg 0x4410 3 0 (2 ^ 20)).setFan (some fanF) |>.setBytes
    0x301000 (desc [(0, 8, 1)])

/-- The host of `hostW` with every role and a mirror. -/
def inBandW (m : Mach) : Mach := ((hostW m).setReg 0x3430 4 0 7).setReg 0x3450 1 0 1

/-- A subscriber of a session at address 0 with notice 9 sent some times, and its machine. -/
def subX (sends discards : Nat) : Subscriber :=
  { inBand := false, owner := 0, addr := 0, port := 0, ring := 0, filter := 0, queue := [⟨9, 0x8041, [], 0, sends, 0⟩], next := 10
    lost := 0, lostReported := 0, discards := discards }
def subW (sends discards : Nat) (m : Mach) : Mach :=
  let m := session m
  { m with cairn := { m.cairn with subs := [(3, subX sends discards)] } }

/-- A machine whose tenant, identity 0 on link 0, may enter confidential mode: a grant, a bounce region, an active stream. -/
def confW (m : Mach) : Mach :=
  let m := ((hostW m).setReg 0x6001 2 0 1).setReg 0x3430 5 0 1
  let m := ((m.setReg 0x6020 1 0 0).setReg 0x6020 2 0 0).setReg 0x6020 3 0 (2 ^ 21)
  m.setLd 0 0 { bound with decoders := [⟨0, 2 ^ 30, 0, 8, 0, true⟩], ideMem := true }

/-- A session that has selected one byte at byte 0 of the lower page of the READY module at position 0. -/
def mapW (m : Mach) : Mach := ((session m).setReg 0x7150 2 0 2).setSel (.session 0) 0x7150 0x0A 1

/-- A session that has selected the first 64 bytes of crag 0's scratchpad. -/
def scrW (m : Mach) : Mach := (session m).setSel (.session 0) 0x9010 4 64

/-! ## Worked examples of the manual -/

/-- 01_organisation.md R17: DPA 0x0123_4567_8000 is homed on die 4 of a KZ8-8, on die 0 of a KZ8-4 and of a KZ8-2. -/
theorem test_home : homeIndex 0x012345678000 3 = 4 ∧ homeIndex 0x012345678000 2 = 0 ∧ homeIndex 0x012345678000 1 = 0 := by
  decide +kernel

/-- 03_store_tiers.md R71: with 16 DIMMs, sub-block 5 of global frame 1,000 is on D5 at address 0x3E_8000. -/
theorem test_dimmPlace :
    Mach.dimmPlace { onM with store := { onM.store with members := [(0, List.range 16)] } } 0 1000 5 = (5, 0x3E8000) := by
  decide +kernel

/-- 14_cairn.md R408: TIMEBASE 1,468,350,749,600,000,000 at UTC offset 37 is Tuesday 2028-02-29, 12:00:00. -/
theorem test_calendar :
    let m := { onM with time := ⟨1468350749600000000, true, true⟩ }.setReg 0x1300 4 0 37
    m.dateNow = dateCode 2028 2 29 ∧ m.todNow = todCode 12 0 0 0 ∧ m.weekday = 2 := by decide +kernel

/-- 15_clocks_power.md R423: a gate of 10,000,000 counting 10,000,370 reads 100,003,700 Hz. -/
theorem test_frequency :
    ((((onM.setReg 0x2010 2 0 1).setReg 0x2010 3 0 10000000).setReg 0x2010 5 0 1).rowFrequencyGateEnd 10000370).reg 0x2010 7 0 =
      100003700 := by decide +kernel

/-- 17_telemetry.md R480: raw power readings 10,000 and 5,012 are 0 and −3.00 dBm. -/
theorem test_dbm : dbm 10000 = 0 ∧ dbm 5012 = -300 := by decide +kernel

/-- 11_couloir.md R321: one step of a COPY of 64 bytes moves them. -/
theorem test_copy :
    ((((at' (chanW 1 copyC)).m.setBytes 0x300000 [1, 2, 3]).rowSliceEnd 0 0 1).bytes 0x301000 4) = [1, 2, 3, 0] := by
  decide +kernel

/-! ## What WellFormed refuses: for each of its checks a command that fails it alone, and that command as it passes -/

theorem test_wellFormed_1 : ([
    .colRdShared 0 0 0, .perstLAssert 0, .hdmDecoderCommit 0 0 0 0 0 0 0 0, .colRetrainLimitExpiry 0, .allocationBoundExpiry 0,
    .hostCompletionTimeout 0 0, .unbindIdentity sess 0, .clearDownLink sess 0, .passBackoffExpiry 0 0 0 0,
    .elementReadDone 0 0, .helloFlit 0 0 0 0 0, .queueStop sess 0, .walkStepDone 0 0 0, .domainTransfersDrained 0 0,
    .groupSettleExpiry 0, .referenceAbsent 0, .spdmSetCertificate (.cairn 0) 0 0 [], .channelFail 0, .compressionStart 0,
    .laneLockLoss 0 0, .moduleInserted 0, .thermalSample false 0 [], .headerFlit 0 [], .hostCxlMemWrite 0 0 0 (zeros 64) 0] : List Instr).all (fun i => i.wellFormed) = true := by
  decide +kernel

theorem test_wellFormed_2 : ([
    .confidentialEntryDone (zeros 32), .ackFlit 0 0 (List.replicate 6 0), .segmentLapseExpiry (.session 0) false,
    .spdmKeyExchange (.cairn 0), .hostConfigAccess 0 0 .cdat, .frameRead 0 fr, .cairnSpdmMessage 0 .other,
    .sidebandLineCheck 34 2, .thermalSample true 15 [], .mediaWrite ⟨0, 62, zeros 2, .none⟩,
    .cairnRequestRead (.session 0) ⟨0, 0, 0, 0, 0, 0, 0, 0, []⟩] : List Instr).all (fun i => i.wellFormed) = true := by
  decide +kernel

theorem test_illFormed_1 : ([
    .colRdShared 8 0 0, .perstLAssert 8, .hdmDecoderCommit 16 0 0 0 0 0 0 0, .hdmDecoderCommit 0 16 0 0 0 0 0 0,
    .colRetrainLimitExpiry 10, .colRdShared 0 0 (2 ^ 46), .allocationBoundExpiry (2 ^ 36), .hostCompletionTimeout 65536 0,
    .unbindIdentity sess 256, .hdmDecoderCommit 0 0 65536 0 0 0 0 0, .clearDownLink sess (2 ^ 64), .passBackoffExpiry 0 40 0 0,
    .passBackoffExpiry 0 0 16 0, .elementReadDone 0 64, .helloFlit 0 512 0 0 0, .queueStop sess 4096, .walkStepDone 0 4096 0,
    .domainTransfersDrained 0 8, .groupSettleExpiry 1024, .referenceAbsent 2, .spdmSetCertificate (.cairn 0) 0 8 [],
    .channelFail 16, .compressionStart 64, .laneLockLoss 0 32] : List Instr).all (fun i => !i.wellFormed) = true := by
  decide +kernel

theorem test_illFormed_2 : ([
    .moduleInserted 32, .thermalSample false 0 (List.replicate 9 0), .headerFlit 0 (zeros 65),
    .hostCxlMemWrite 0 0 0 (zeros 65) 0, .confidentialEntryDone (zeros 31), .ackFlit 0 0 (List.replicate 5 0),
    .segmentLapseExpiry (.session 8) false, .clearDownLink ⟨.session 8, 0, false⟩ 0, .spdmKeyExchange (.ridgeline 512),
    .hostConfigAccess 0 0 (.barRead 0 (2 ^ 64)), .frameRead 0 { fr with dst := 512 }, .cairnSpdmMessage (2 ^ 128) .other,
    .sidebandLineCheck 35 0, .thermalSample true 16 [], .mediaWrite ⟨0, 63, zeros 2, .none⟩,
    .cairnRequestRead (.session 0) ⟨65536, 0, 0, 0, 0, 0, 0, 0, []⟩] : List Instr).all (fun i => !i.wellFormed) = true := by
  decide +kernel


/-! ## States and operands that meet the hypotheses of the statements -/

theorem witness_ColRequests_1 :
    ∃ (s : State) (home req line : Nat) (x : ColMsg),
    (s.m.clocked = true) ∧ (s.m.dieActive home = true) ∧ (s.m.dieActive req = true) ∧ (s.m.colFind .rdShared req home line = some x) ∧ ((s.m.colTake x).lineFree home req line = true) ∧ ((s.m.colTake x).holders home line = (.S, [])) := by
  exact ⟨at' fun m => { m with col := { m.col with net := [⟨.rdShared, 1, 0, 5, 1, 0, .inv, .poison, .S⟩] } }, 0, 1, 5, ⟨.rdShared, 1, 0, 5, 1, 0, .inv, .poison, .S⟩, by decide +kernel⟩

theorem witness_ColRequests_2 :
    ∃ (s : State) (home req line : Nat) (x : ColMsg),
    (s.m.clocked = true) ∧ (s.m.dieActive home = true) ∧ (s.m.dieActive req = true) ∧ (s.m.colFind .rdOwn req home line = some x) ∧ ((s.m.colTake x).lineFree home req line = true) ∧ ((s.m.colTake x).holders home line = (.S, [])) := by
  exact ⟨at' fun m => { m with col := { m.col with net := [⟨.rdOwn, 1, 0, 5, 1, 0, .inv, .poison, .S⟩] } }, 0, 1, 5, ⟨.rdOwn, 1, 0, 5, 1, 0, .inv, .poison, .S⟩, by decide +kernel⟩

theorem witness_ColRequests_3 :
    ∃ (s : State) (home req line : Nat) (x : ColMsg),
    (s.m.clocked = true) ∧ (s.m.dieActive home = true) ∧ (s.m.dieActive req = true) ∧ (s.m.colFind .upgrade req home line = some x) ∧ ((s.m.colTake x).lineFree home req line = true) ∧ ((s.m.colTake x).holders home line = (.S, [req])) := by
  exact ⟨at' fun m => { m with col := { m.col with net := [⟨.upgrade, 1, 0, 5, 1, 0, .inv, .poison, .S⟩], filters := [(0, [(5, ⟨.S, [1]⟩)])] } }, 0, 1, 5, ⟨.upgrade, 1, 0, 5, 1, 0, .inv, .poison, .S⟩, by decide +kernel⟩

theorem witness_ColRequests_4 :
    ∃ (s : State) (home src line : Nat) (x : ColMsg),
    (s.m.clocked = true) ∧ (s.m.colFind .evict src home line = some x) := by
  exact ⟨at' fun m => { m with col := { m.col with net := [⟨.evict, 1, 0, 5, 1, 0, .inv, .poison, .S⟩], filters := [(0, [(5, ⟨.S, [1]⟩)])] } }, 0, 1, 5, ⟨.evict, 1, 0, 5, 1, 0, .inv, .poison, .S⟩, by decide +kernel⟩

theorem witness_ColRequests_5 :
    ∃ (s : State) (home src line : Nat) (x : ColMsg),
    (s.m.clocked = true) ∧ (s.m.colFind .wb src home line = some x) ∧ (tget (((s.m.colTake x).writeBackLine src line x.val).clearPresence home line src).col.txns line = none) := by
  exact ⟨at' fun m => { m with col := { m.col with net := [⟨.wb, 1, 0, 5, 1, 0, .inv, .poison, .M⟩], filters := [(0, [(5, ⟨.E, [1]⟩)])] } }, 0, 1, 5, ⟨.wb, 1, 0, 5, 1, 0, .inv, .poison, .M⟩, by decide +kernel⟩

theorem witness_ColAnswers_1 :
    ∃ (s : State) (home die line : Nat) (x : ColMsg),
    (s.m.clocked = true) ∧ (s.m.colFind .snpShare home die line = some x) ∧ (((s.m.colTake x).settleLine die line).hostOwns die line = false) := by
  exact ⟨at' fun m => { m with col := { m.col with net := [⟨.snpShare, 0, 1, 5, 2, 0, .inv, .poison, .S⟩] } }, 0, 1, 5, ⟨.snpShare, 0, 1, 5, 2, 0, .inv, .poison, .S⟩, by decide +kernel⟩

theorem witness_ColAnswers_2 :
    ∃ (s : State) (home die line : Nat) (x : ColMsg),
    (s.m.clocked = true) ∧ (s.m.colFind .snpInv home die line = some x) ∧ (((s.m.colTake x).settleLine die line).hostLines die line = []) := by
  exact ⟨at' fun m => { m with col := { m.col with net := [⟨.snpInv, 0, 1, 5, 2, 0, .inv, .poison, .S⟩] } }, 0, 1, 5, ⟨.snpInv, 0, 1, 5, 2, 0, .inv, .poison, .S⟩, by decide +kernel⟩

theorem witness_ColAnswers_3 :
    ∃ (s : State) (home die line : Nat) (x : ColMsg) (l : ColLine),
    (s.m.clocked = true) ∧ (s.m.colFind .snpFwd home die line = some x) ∧ (s.m.cached die line = some l) := by
  exact ⟨at' fun m => { m with col := { m.col with net := [⟨.snpFwd, 0, 1, 5, 2, 0, .inv, .poison, .S⟩], caches := [(1, [(5, ⟨.S, .poison⟩)])] } }, 0, 1, 5, ⟨.snpFwd, 0, 1, 5, 2, 0, .inv, .poison, .S⟩, ⟨.S, .poison⟩, by decide +kernel⟩

theorem witness_ColAnswers_4 :
    ∃ (s : State) (home src line : Nat) (x : ColMsg) (t : ColTxn),
    (s.m.clocked = true) ∧ (s.m.colFind .snpRsp src home line = some x) ∧ (x.ans = .inv) ∧ (tget s.m.col.txns line = some t) ∧ (remove t.waiting src ≠ []) := by
  exact ⟨at' fun m => { m with col := { m.col with net := [⟨.snpRsp, 1, 0, 5, 2, 0, .inv, .poison, .S⟩], txns := [(5, { ColTxn.fresh .own 2 0 with waiting := [1, 3] })] } }, 0, 1, 5, ⟨.snpRsp, 1, 0, 5, 2, 0, .inv, .poison, .S⟩, { ColTxn.fresh .own 2 0 with waiting := [1, 3] }, by decide +kernel⟩

theorem witness_ColAnswers_5 :
    ∃ (s : State) (src die line : Nat) (x : ColMsg) (l : ColLine) (t : ColTxn),
    (s.m.clocked = true) ∧ (s.m.colFind .ack src die line = some x) ∧ (s.m.cached die line = some l) ∧ (tget s.m.col.txns line = some t) := by
  exact ⟨at' fun m => { m with col := { m.col with net := [⟨.ack, 0, 1, 5, 1, 0, .inv, .poison, .E⟩], caches := [(1, [(5, ⟨.S, .poison⟩)])], txns := [(5, ColTxn.fresh .upgrade 1 0)] } }, 0, 1, 5, ⟨.ack, 0, 1, 5, 1, 0, .inv, .poison, .E⟩, ⟨.S, .poison⟩, ColTxn.fresh .upgrade 1 0, by decide +kernel⟩

theorem witness_ColAnswers_6 :
    ∃ (s : State) (src die line : Nat) (x : ColMsg) (t : ColTxn) (bs : List Byte),
    (s.m.clocked = true) ∧ (s.m.colFind .data src die line = some x) ∧ (tget s.m.col.txns line = some t) ∧ (x.val = .data bs) ∧ (t.kind ≠ .recall) ∧ (die = t.req) ∧ ((die = t.home && x.st == .M) = false) ∧ (die ≠ s.m.homeOf (line * 64)) ∧ ((s.m.cached die line).any (·.st == .M) = false) := by
  exact ⟨at' fun m => { m with col := { m.col with net := [⟨.data, 0, 1, 5, 1, 0, .inv, .data [7], .E⟩], txns := [(5, ColTxn.fresh .own 1 0)] } }, 0, 1, 5, ⟨.data, 0, 1, 5, 1, 0, .inv, .data [7], .E⟩, ColTxn.fresh .own 1 0, [7], by decide +kernel⟩

theorem witness_ColLinks_1 :
    ∃ (s : State) (link : Nat),
    (s.m.clocked = true) ∧ (link < 10) ∧ (s.m.reg 0x7011 (1 + link) 0 = 1) := by
  exact ⟨on, 9, by decide +kernel⟩

theorem witness_ColLinks_2 :
    ∃ (s : State) (link a b : Nat),
    (s.m.clocked = true) ∧ (s.m.reg 0x7011 (1 + link) 0 = 2) ∧ ((link, a, b) ∈ s.m.colLinks) ∧ (s.m.dieActive a = true) ∧ (s.m.dieActive b = true) := by
  exact ⟨at' fun m => m.setReg 0x7011 10 0 2, 9, 5, 7, by decide +kernel⟩

theorem witness_ColLinks_3 :
    ∃ (s : State) (link : Nat) (l : Nat × Nat × Nat),
    (s.m.clocked = true) ∧ (link < 10) ∧ (s.m.reg 0x7011 (1 + link) 0 = 2) ∧ ((((s.m.setReg 0x7011 (1 + link) 0 3).notice 0x8011 [byteOf link, 2, 3]).bump 0x7010 5).colLinks.find? (fun l => l.1 == link) = some l) ∧ ((((s.m.setReg 0x7011 (1 + link) 0 3).notice 0x8011 [byteOf link, 2, 3]).bump 0x7010 5).reg 0x3380 1 0 = 1) := by
  exact ⟨at' fun m => m.setReg 0x7011 1 0 2, 0, (0, 0, 1), by decide +kernel⟩

theorem witness_ColLinks_4 :
    ∃ (s : State) (w : Src) (v : Nat),
    (s.m.clocked = true) ∧ (s.m.admits w 0x3380 3 = true) ∧ (v < 1024) := by
  exact ⟨at' fun m => session (m.setReg 0x7011 10 0 3), sess, 512, by decide +kernel⟩

theorem witness_AbruptFences_1 :
    ∃ (s : State) (d : Nat),
    (s.m.clocked = true) ∧ (d < s.m.dies) ∧ (s.m.dieState d = 1) ∧ (s.m.fence? d = none) ∧ (s.m.fenceAllowed d = true) := by
  exact ⟨on, 7, by decide +kernel⟩

theorem witness_AbruptFences_2 :
    ∃ (s : State) (d : Nat),
    (s.m.clocked = true) ∧ (d < s.m.dies) ∧ (s.m.dieState d = 1) ∧ (s.m.fence? d = none) ∧ (s.m.fenceAllowed d = true) := by
  exact ⟨on, 0, by decide +kernel⟩

theorem witness_AbruptFences_3 :
    ∃ (s : State) (d : Nat),
    (s.m.clocked = true) ∧ (d < s.m.dies) ∧ (s.m.dieState d = 1) ∧ (s.m.fence? d = none) ∧ (s.m.fenceAllowed d = true) := by
  exact ⟨on, 7, by decide +kernel⟩

theorem witness_OrderlyFences_1 :
    ∃ (s : State) (w : Src) (d : Nat),
    (s.m.clocked = true) ∧ (s.m.reg 0x2211 2 0 = 0) ∧ (s.m.admits w 0x2211 1 = true) ∧ (d < s.m.dies) ∧ (s.m.heard.dieState d = 1) ∧ (s.m.heard.fenceAllowed d = true) := by
  exact ⟨at' session, sess, 7, by decide +kernel⟩

theorem witness_OrderlyFences_2 :
    ∃ (s : State) (d : Nat),
    (s.m.clocked = true) ∧ (s.m.fence? d = some ⟨.evacuating⟩) ∧ (s.m.evacuated d = true) := by
  exact ⟨at' fun m => ((m.setFence 7 ⟨.evacuating⟩).setReg 0x3025 15 0 3).setReg 0x3025 16 0 3, 7, by decide +kernel⟩

theorem witness_OrderlyFences_3 :
    ∃ (s : State) (d : Nat),
    (s.m.clocked = true) ∧ (s.m.fence? d = some ⟨.draining⟩) ∧ ((s.m.sched.slots.all fun p => slotDie p.1 != d) = true) := by
  exact ⟨at' fun m => m.setFence 7 ⟨.draining⟩, 7, by decide +kernel⟩

theorem witness_OrderlyFences_4 :
    ∃ (s : State) (d : Nat),
    (s.m.clocked = true) ∧ (s.m.fence? d = some ⟨.draining⟩) ∧ ((s.m.xl.migrations.filter fun g => slotDie g.slot == d) = []) := by
  exact ⟨at' fun m => m.setFence 7 ⟨.draining⟩, 7, by decide +kernel⟩

theorem witness_OrderlyFences_5 :
    ∃ (s : State) (d : Nat),
    (s.m.clocked = true) ∧ (s.m.fence? d = some ⟨.writeback⟩) ∧ (s.m.recallHosts (fun die _ => die == d) = none) := by
  exact ⟨at' fun m => m.setFence 7 ⟨.writeback⟩, 7, by decide +kernel⟩

theorem witness_OrderlyFences_6 :
    ∃ (s : State) (d : Nat),
    (s.m.clocked = true) ∧ (s.m.fence? d = some ⟨.survivors⟩) ∧ (s.m.recallHosts (fun _ h => s.m.homeOf (h.line * 64) == d) = none) := by
  exact ⟨at' fun m => m.setFence 7 ⟨.survivors⟩, 7, by decide +kernel⟩

theorem witness_FenceAbandoned_1 :
    ∃ (s : State) (d : Nat),
    (s.m.clocked = true) ∧ (s.m.fence? d = some ⟨.evacuating⟩) ∧ (s.m.store.moves = []) ∧ ((s.m.fenceGivenUp d).store.reshape = none) := by
  exact ⟨at' fun m => m.setFence 7 ⟨.evacuating⟩, 7, by decide +kernel⟩

theorem witness_FenceAbandoned_2 :
    ∃ (s : State) (w : Src) (d : Nat),
    (s.m.clocked = true) ∧ (s.m.reg 0x2211 2 0 = 1) ∧ (s.m.admits w 0x2211 1 = true) ∧ (d < s.m.dies) ∧ (s.m.heard.dieState d = 3) := by
  exact ⟨at' fun m => session ((m.setReg 0x2211 2 0 1).setReg 0x2210 8 0 3), sess, 7, by decide +kernel⟩

theorem witness_Decoders_1 :
    ∃ (s : State) (link ld k base size dpa g ways : Nat) (l : Ld),
    (s.m.clocked = true) ∧ (s.m.ld? link ld = some l) ∧ (s.m.linkState link = 4) ∧ (k < 4) ∧ ([1, 2, 4, 8].contains ways = true) ∧ (8 ≤ g) ∧ (g ≤ 14) ∧ (l.bind = .bound) ∧ (s.m.inGrant l.ident dpa (size / 2 ^ Nat.log2 ways) = true) := by
  exact ⟨at' fun m => ({ m with host := { m.host with lds := [(0, { bound with ident := 255 })] } } : Mach).setReg 0x3401 1 0 4, 0, 0, 3, 0, 2 ^ 28, 0, 14, 1, { bound with ident := 255 }, by decide +kernel⟩

theorem witness_Decoders_2 :
    ∃ (s : State) (w : Src) (a : Nat) (t : Ast),
    (s.m.clocked = true) ∧ (s.m.admits w 0x3610 7 = true) ∧ (a = s.m.heard.sel w.q 0x3610 1) ∧ (t = ⟨s.m.heard.reg 0x3610 2 a, s.m.heard.reg 0x3610 3 a, s.m.heard.reg 0x3610 4 a, s.m.heard.reg 0x3610 5 a, s.m.heard.reg 0x3610 6 a⟩) ∧ (s.m.heard.ast? a = none) ∧ (t.kind = 0) ∧ (s.m.heard.inGrant t.owner t.root 4096 = true) ∧ (s.m.heard.inGrant t.owner t.keys 128 = true) := by
  exact ⟨at' fun m => session ((m.setReg 0x3610 3 0 0xFF).setReg 0x3610 2 0 0x200000), sess, 0, ⟨0x200000, 0xFF, 0, 0, 0⟩, by decide +kernel⟩

theorem witness_Decoders_3 :
    ∃ (s : State) (w : Src) (a : Nat),
    (s.m.clocked = true) ∧ (s.m.admits w 0x3610 7 = true) ∧ (a = s.m.heard.sel w.q 0x3610 1) ∧ (s.m.heard.astInFlight a = 0) := by
  exact ⟨at' session, sess, 0, by decide +kernel⟩

theorem witness_Decoders_4 :
    ∃ (s : State) (w : Src) (v a : Nat),
    (s.m.clocked = true) ∧ (s.m.admits w 0x3610 3 = true) ∧ (a = s.m.heard.sel w.q 0x3610 1) ∧ (s.m.heard.identOf w.q = none) ∧ (v < 64) ∧ (s.m.heard.ast? a = none) := by
  exact ⟨at' session, sess, 63, 0, by decide +kernel⟩

theorem witness_Decoders_5 :
    ∃ (s : State) (d : Nat) (t0 t1 : Bool),
    (s.m.clocked = true) ∧ (d < s.m.dies) ∧ (s.m.dieState d = 4) := by
  exact ⟨at' fun m => m.setReg 0x2210 8 0 4, 7, false, false, by decide +kernel⟩

theorem witness_Decoders_6 :
    ∃ (s : State) (c : PendingCommit),
    (s.m.clocked = true) ∧ (s.m.cairn.commit = some c) ∧ (c.remap = true) ∧ (s.m.recallHosts (fun _ h => s.m.homeOf (h.line * 64) != (s.m.putAll c.stage).homeOf (h.line * 64)) = none) := by
  exact ⟨at' fun m => { m with cairn := { m.cairn with commit := some ⟨sess, [], true, []⟩ } }, ⟨sess, [], true, []⟩, by decide +kernel⟩

theorem witness_Decoders_7 :
    ∃ (s : State) (c : PendingCommit),
    (s.m.clocked = true) ∧ (s.m.cairn.commit = some c) ∧ (c.scrub ≠ []) ∧ (s.m.recallHosts (fun _ h => c.scrub.any fun r => overlap (h.line * 64, 64) r) = none) := by
  exact ⟨at' fun m => { m with cairn := { m.cairn with commit := some ⟨sess, [], false, [(0, 65536)]⟩ } }, ⟨sess, [], false, [(0, 65536)]⟩, by decide +kernel⟩

theorem witness_WalksAndReads_1 :
    ∃ (s : State) (die ast dva : Nat) (a : Ast),
    (s.m.clocked = true) ∧ (s.m.ast? ast = some a) ∧ (s.m.dieActive die = true) ∧ ((s.m.xl.walks.filter fun w => w.die == die).length < 24) ∧ (dva < 2 ^ 48) ∧ (a.root ≠ 0) ∧ (s.m.cachedLeaf die engOther ast dva = none) ∧ (a.kind = 0) := by
  exact ⟨at' withAst, 0, 1, 2 ^ 48 - 1, ast1, by decide +kernel⟩

theorem witness_WalksAndReads_2 :
    ∃ (s : State) (die ast dva e : Nat) (a : Ast) (w : Walk) (m' : Mach),
    (s.m.clocked = true) ∧ (s.m.xl.walks.find? (fun w => w.die == die && w.ast == ast && w.dva == dva) = some w) ∧ (s.m.ast? ast = some a) ∧ (m' = (s.m.readEntry die a.owner (w.table + 8 * levelIndex w.level dva)).2) ∧ ((s.m.readEntry die a.owner (w.table + 8 * levelIndex w.level dva)).1 = .entry e) ∧ (entryCause w.level e = 0) ∧ (bit e 1 = false) ∧ (2 ≤ w.level) := by
  exact ⟨(at' fun m => ({ withAst m with xl := { (withAst m).xl with walks := [⟨0, 1, 0, 4, 0x200000, none⟩] } } : Mach).setBytes 0x200000 (leBytes 8 0x210001)), 0, 1, 0, 0x210001, ast1, ⟨0, 1, 0, 4, 0x200000, none⟩, ((at' fun m => ({ withAst m with xl := { (withAst m).xl with walks := [⟨0, 1, 0, 4, 0x200000, none⟩] } } : Mach).setBytes 0x200000 (leBytes 8 0x210001)).m.readEntry 0 0xFF 0x200000).2, by decide +kernel⟩

theorem witness_WalksAndReads_3 :
    ∃ (s : State) (slot hpa : Nat) (bs : List Byte),
    (s.m.clocked = true) := by
  exact ⟨on, 1023, 0, [], by decide +kernel⟩

theorem witness_WalksAndReads_4 :
    ∃ (s : State) (slot hpa : Nat),
    (s.m.clocked = true) := by
  exact ⟨on, 1023, 0, by decide +kernel⟩

theorem witness_Invalidations_1 :
    ∃ (s : State) (link ld lo n : Nat) (pasid : Option Nat),
    (s.m.clocked = true) ∧ (s.m.xl.asts = []) := by
  exact ⟨on, 15, 15, 0, 0, none, by decide +kernel⟩

theorem witness_Invalidations_2 :
    ∃ (s : State) (w : Src) (ast : Nat),
    (s.m.clocked = true) ∧ (s.m.admits w 0x3630 1 = true) ∧ (s.m.heard.identOf w.q = none) ∧ (ast < 4096) := by
  exact ⟨at' session, sess, 4095, by decide +kernel⟩

theorem witness_Invalidations_3 :
    ∃ (s : State) (w : Src),
    (s.m.clocked = true) ∧ (s.m.admits w 0x3630 2 = true) ∧ (s.m.heard.identOf w.q = none) := by
  exact ⟨at' session, sess, by decide +kernel⟩

theorem witness_Invalidations_4 :
    ∃ (s : State) (ast : Option Nat) (i : Inval),
    (s.m.clocked = true) ∧ (s.m.xl.invals.find? (fun i => i.ast == ast) = some i) ∧ (i.slots = []) := by
  exact ⟨at' fun m => { m with xl := { m.xl with invals := [⟨some 4095, .silent, [], 0⟩] } }, some 4095, ⟨some 4095, .silent, [], 0⟩, by decide +kernel⟩

theorem witness_Invalidations_5 :
    ∃ (s : State) (ast : Option Nat) (i : Inval),
    (s.m.clocked = true) ∧ (s.m.xl.invals.find? (fun i => i.ast == ast) = some i) := by
  exact ⟨at' fun m => { m with xl := { m.xl with invals := [⟨none, .silent, [3], 0⟩] } }, none, ⟨none, .silent, [3], 0⟩, by decide +kernel⟩

theorem witness_Invalidations_6 :
    ∃ (s : State) (slot : Nat) (c : Cmd) (a : Ast) (ls : List (Nat × MigLeaf)) (m' : Mach),
    (s.m.clocked = true) ∧ (s.m.cmd? slot = some c) ∧ (descOp c.desc = 0x40) ∧ (c.done = false) ∧ (s.m.xl.migrations = []) ∧ (s.m.ast? (fld c.desc 16 2) = some a) ∧ (s.m.astOk c.queue (fld c.desc 16 2) = true) ∧ (a.kind = 0) ∧ (fld c.desc 18 1 = 0) ∧ (fld c.desc 19 1 = 0) ∧ (fld c.desc 20 4 = 0) ∧ (rangeOk c.desc = true) ∧ (fld c.desc 40 8 % 65536 = 0) ∧ (fld c.desc 40 8 + fld c.desc 32 8 ≤ s.m.reg 0x3000 1 0) ∧ (allZero (slice c.desc 48 16) = true) ∧ ((s.m.askChan slot 0xFF).chanRunning slot = true) ∧ (m' = (Mach.migLeaves (fld c.desc 32 8 / 65536 + 1) (s.m.askChan slot 0xFF) (slot / 1024) a.owner a.root (fld c.desc 24 8) (fld c.desc 24 8 + fld c.desc 32 8) []).2) ∧ ((Mach.migLeaves (fld c.desc 32 8 / 65536 + 1) (s.m.askChan slot 0xFF) (slot / 1024) a.owner a.root (fld c.desc 24 8) (fld c.desc 24 8 + fld c.desc 32 8) []).1 = .ok ls) ∧ (migBad false (fld c.desc 24 8) (fld c.desc 24 8 + fld c.desc 32 8) (fld c.desc 40 8) ls = false) ∧ (m'.inGrant a.owner (fld c.desc 40 8) (fld c.desc 32 8) = true) := by
  exact ⟨migM, 0, migC, ast1, [(0, ⟨0x230000, 0x10000000B, 16⟩)], (Mach.migLeaves 2 (migM.m.askChan 0 0xFF) 0 0xFF 0x200000 0 65536 []).2, by decide +kernel⟩

theorem witness_Invalidations_7 :
    ∃ (s : State) (slot : Nat) (c : Cmd) (g : Migration) (bs : List Byte) (m' m'' : Mach),
    (s.m.clocked = true) ∧ (s.m.xl.migrations.find? (·.slot == slot) = some g) ∧ (s.m.cmd? slot = some c) ∧ (c.fail = none) ∧ (s.m.chanRunning slot = true) ∧ (m' = (Mach.migRead (g.len / 4096 + 1) s.m g g.dva g.len [] (.ok [])).2) ∧ ((Mach.migRead (g.len / 4096 + 1) s.m g g.dva g.len [] (.ok [])).1 = .ok bs) ∧ (g.toHost = false) ∧ (m'.recall g.dest g.len true = none) ∧ (m'' = (m'.storeDpa (slot / 1024) g.dest bs (.cmd slot)).2) ∧ ((m'.storeDpa (slot / 1024) g.dest bs (.cmd slot)).1 = 0) ∧ (g.leaves = []) := by
  exact ⟨migN, 0, tgetD migN.m.sched.slots 0 migC, migG, [], (Mach.migRead 1 migN.m migG 0 0 [] (.ok [])).2, ((Mach.migRead 1 migN.m migG 0 0 [] (.ok [])).2.storeDpa 0 0x300000 [] (.cmd 0)).2, by decide +kernel⟩

theorem witness_Invalidations_8 :
    ∃ (s : State) (slot : Nat) (c : Cmd) (a : Ast) (m' : Mach),
    (s.m.clocked = true) ∧ (s.m.cmd? slot = some c) ∧ (descOp c.desc = 0x41) ∧ (c.done = false) ∧ (s.m.ast? (fld c.desc 16 2) = some a) ∧ (s.m.astOk c.queue (fld c.desc 16 2) = true) ∧ (fld c.desc 18 1 ≤ 4) ∧ (allZero (slice c.desc 19 5) = true) ∧ (rangeOk c.desc = true) ∧ (allZero (slice c.desc 40 24) = true) ∧ (m' = (Mach.adviseFrom (fld c.desc 32 8 / 65536 + 1) s.m (slot / 1024) (fld c.desc 16 2) a (fld c.desc 24 8) (fld c.desc 24 8 + fld c.desc 32 8) (fld c.desc 18 1)).2.2) ∧ ((Mach.adviseFrom (fld c.desc 32 8 / 65536 + 1) s.m (slot / 1024) (fld c.desc 16 2) a (fld c.desc 24 8) (fld c.desc 24 8 + fld c.desc 32 8) (fld c.desc 18 1)).1 = none) ∧ ((Mach.adviseFrom (fld c.desc 32 8 / 65536 + 1) s.m (slot / 1024) (fld c.desc 16 2) a (fld c.desc 24 8) (fld c.desc 24 8 + fld c.desc 32 8) (fld c.desc 18 1)).2.1 = false) := by
  exact ⟨advM, 1023, advC, ast1, (Mach.adviseFrom 2 advM.m 0 1 ast1 0 65536 4).2.2, by decide +kernel⟩

theorem witness_StoreAccesses_1 :
    ∃ (s : State) (line : Nat) (r : MediaResult),
    (s.m.clocked = true) ∧ (s.m.col.reads.any (·.line == line) = true) := by
  exact ⟨at' fun m => { m with col := { m.col with reads := [⟨5, 0, 1, .E⟩] } }, 5, .ok, by decide +kernel⟩

theorem witness_StoreAccesses_2 :
    ∃ (s : State) (w : StoreWrite),
    (s.m.clocked = true) ∧ (w.bytes ≠ []) ∧ (w.dpa % 64 + w.bytes.length ≤ 64) ∧ (w.dpa < s.m.reg 0x3000 1 0) ∧ ((s.m.mediaWrite w).2 = .done) := by
  exact ⟨at' fun m => m.setGran 0 { Granule.reset with loc := .stack }, ⟨0, 60, [1, 2, 3, 4], .none⟩, by decide +kernel⟩

theorem witness_StoreAccesses_3 :
    ∃ (s : State) (g : Nat),
    (s.m.clocked = true) ∧ (s.m.store.heldWrites = []) := by
  exact ⟨at' fun m => { m with store := { m.store with allocWaits := [⟨0, 65536, [1], .none⟩] } }, 1, by decide +kernel⟩

theorem witness_StoreAccesses_4 :
    ∃ (s : State) (f : Frame),
    (s.m.clocked = true) ∧ (f ∈ s.m.store.unzeroed) := by
  exact ⟨at' fun m => { m with store := { m.store with unzeroed := [.stack 3] } }, .stack 3, by decide +kernel⟩

theorem witness_StoreAccesses_5 :
    ∃ (s : State) (w : Src) (k : Nat),
    (s.m.clocked = true) ∧ (s.m.fresh? w.q w.txn = true) ∧ (k < 4) ∧ (s.m.heard.roles w.q ≠ 0) ∧ (w.q.isInBand = false) := by
  exact ⟨at' session, sess, 3, by decide +kernel⟩

theorem witness_StoreAccesses_6 :
    ∃ (s : State) (die : Nat),
    (s.m.clocked = true) := by
  exact ⟨on, 7, by decide +kernel⟩

theorem witness_StoreAccesses_7 :
    ∃ (s : State),
    (s.m.clocked = true) ∧ (({ s.m with store := { s.m.store with sweep := (if s.m.store.sweep + 1 < s.m.reg 0x3000 1 0 / 65536 then s.m.store.sweep + 1 else 0) } } : Mach).age s.m.store.sweep ≠ 255) := by
  exact ⟨at' fun m => m.setGran 0 { Granule.reset with loc := .stack, sat := false }, by decide +kernel⟩

theorem witness_Movements_1 :
    ∃ (s : State) (die : Nat),
    (s.m.clocked = true) ∧ (perMille s.m.stackFreeAll s.m.stackUsable < s.m.reg 0x3010 2 0) := by
  exact ⟨at' fun m => (List.range 16).foldl (fun m k => m.setReg 0x3025 (1 + k) 0 3) m, 7, by decide +kernel⟩

theorem witness_Movements_2 :
    ∃ (s : State) (d : Nat),
    (s.m.clocked = true) ∧ (s.m.reg 0x3010 5 0 ≠ 0) ∧ (perMille (s.m.dimmFree d) (s.m.domainFrames d) < s.m.reg 0x3010 5 0) := by
  exact ⟨at' fun m => m.setReg 0x3010 5 0 1, 8, by decide +kernel⟩

theorem witness_Movements_3 :
    ∃ (s : State) (g : Nat),
    (s.m.clocked = true) := by
  exact ⟨on, 0, by decide +kernel⟩

theorem witness_Movements_4 :
    ∃ (s : State) (g f : Nat) (mv : Movement),
    (s.m.clocked = true) ∧ (tget s.m.store.moves g = some mv) ∧ (mv.finalPass = true) ∧ (mv.dst = .stack f) ∧ (mv.promotePending = false) ∧ (mv.evacPending = false) := by
  exact ⟨at' fun m => { m with store := { m.store with moves := [(4, mvW)] } }, 4, 9, mvW, by decide +kernel⟩

theorem witness_Movements_5 :
    ∃ (s : State) (g : Nat) (mv : Movement),
    (s.m.clocked = true) ∧ (tget s.m.store.moves g = some mv) := by
  exact ⟨at' fun m => { m with store := { m.store with moves := [(4, mvW)] } }, 4, mvW, by decide +kernel⟩

theorem witness_Movements_6 :
    ∃ (s : State) (w : Src) (k : Nat),
    (s.m.clocked = true) ∧ (s.m.admits w 0x3026 1 = true) ∧ (k < 2 * s.m.dies) ∧ (s.m.heard.stackState k = 1) ∧ (s.m.heard.dieActive (k / 2) = true) ∧ (s.m.heard.activeStacks ≠ [k]) ∧ (s.m.heard.retireFits k = true) := by
  exact ⟨at' session, sess, 15, by decide +kernel⟩

theorem witness_Movements_7 :
    ∃ (s : State) (k : Nat),
    (s.m.clocked = true) ∧ (s.m.stackState k = 2) ∧ (s.m.onStack k = []) ∧ (s.m.store.moves = []) := by
  exact ⟨at' fun m => m.setReg 0x3025 16 0 2, 15, by decide +kernel⟩

theorem witness_LowerTier_1 :
    ∃ (s : State) (line : Nat),
    (s.m.clocked = true) ∧ ((s.m.gran (granuleOfLine line)).loc = .dimm) := by
  exact ⟨at' fun m => m.setGran 0 { Granule.reset with loc := .dimm }, 1023, by decide +kernel⟩

theorem witness_LowerTier_2 :
    ∃ (s : State) (line : Nat),
    (s.m.clocked = true) ∧ (line ∈ s.m.store.rereads) := by
  exact ⟨at' fun m => { m with store := { m.store with rereads := [5] } }, 5, by decide +kernel⟩

theorem witness_LowerTier_3 :
    ∃ (s : State) (c : Nat),
    (s.m.clocked = true) ∧ (s.m.chanState c = 1) := by
  exact ⟨at' fun m => m.setReg 0x3021 16 0 1, 15, by decide +kernel⟩

theorem witness_LowerTier_4 :
    ∃ (s : State) (w : Src) (c : Nat),
    (s.m.clocked = true) ∧ (s.m.admits w 0x3022 1 = true) ∧ (c < 2 * s.m.dies) ∧ (s.m.heard.reg 0x3022 2 0 = 0) ∧ (s.m.store.reshape = none) ∧ (s.m.heard.chanState c = 1) ∧ (s.m.heard.removalTail c = []) := by
  exact ⟨at' fun m => session (m.setReg 0x3021 16 0 1), sess, 15, by decide +kernel⟩

theorem witness_LowerTier_5 :
    ∃ (s : State) (w : Src) (c : Nat),
    (s.m.clocked = true) ∧ (s.m.admits w 0x3022 1 = true) ∧ (c < 2 * s.m.dies) ∧ (s.m.heard.reg 0x3022 2 0 = 1) ∧ (s.m.store.reshape = none) ∧ (s.m.heard.chanState c = 0) := by
  exact ⟨at' fun m => session (m.setReg 0x3022 2 0 1), sess, 15, by decide +kernel⟩

theorem witness_LowerTier_6 :
    ∃ (s : State) (c gib : Nat) (r : Reshape),
    (s.m.clocked = true) ∧ (s.m.store.reshape = some r) ∧ (r.adding = true) ∧ (r.sweeping = false) ∧ (r.channel = c) ∧ (r.src = none) ∧ (s.m.globalGiB ≤ gib) := by
  exact ⟨at' fun m => { m with store := { m.store with reshape := some ⟨15, true, false, none⟩ } }, 15, 512, ⟨15, true, false, none⟩, by decide +kernel⟩

theorem witness_LowerTier_7 :
    ∃ (s : State) (r : Reshape),
    (s.m.clocked = true) ∧ (s.m.store.reshape = some r) ∧ (r.adding = false) ∧ (r.sweeping = true) ∧ (s.m.removalTail r.channel = []) ∧ (s.m.chanState r.channel = 4) := by
  exact ⟨at' fun m => ({ m with store := { m.store with reshape := some ⟨15, false, true, none⟩ } } : Mach).setReg 0x3021 16 0 4, ⟨15, false, true, none⟩, by decide +kernel⟩

theorem witness_Leases_1 :
    ∃ (s : State) (w : Src) (holder k : Nat),
    (s.m.clocked = true) ∧ (s.m.admits w 0x3421 1 = true) ∧ (s.m.heard.mayHold w.q holder = true) ∧ (holder < 64) ∧ (firstFrom s.m.heard.extents 0 (fun k => (s.m.heard.lease k).state == 0) = some k) := by
  exact ⟨at' fun m => session (m.setReg 0x3420 2 0 (2 ^ 30)), sess, 63, 0, by decide +kernel⟩

theorem witness_Leases_2 :
    ∃ (s : State) (w : Src) (k : Nat),
    (s.m.clocked = true) ∧ (s.m.admits w 0x3421 3 = true) ∧ (s.m.heard.leaseRefusal w.q k = none) ∧ ((s.m.heard.lease k).state = 1) := by
  exact ⟨at' fun m => session (({ m with store := { m.store with leases := [(0, ⟨1, 63, 5⟩)] } } : Mach).setReg 0x3420 2 0 (2 ^ 30)), sess, 0, by decide +kernel⟩

theorem witness_Leases_3 :
    ∃ (s : State) (w : Src) (holder : Nat),
    (s.m.clocked = true) ∧ (s.m.admits w 0x3421 4 = true) ∧ (s.m.heard.mayHold w.q holder = true) ∧ (holder < 64) := by
  exact ⟨at' fun m => session (({ m with store := { m.store with leases := [(0, ⟨1, 63, 5⟩)] } } : Mach).setReg 0x3420 2 0 (2 ^ 30)), sess, 63, by decide +kernel⟩

theorem witness_Leases_4 :
    ∃ (s : State) (w : Src) (k : Nat),
    (s.m.clocked = true) ∧ (s.m.admits w 0x3421 5 = true) ∧ (s.m.heard.leaseRefusal w.q k = none) := by
  exact ⟨at' fun m => session (({ m with store := { m.store with leases := [(0, ⟨1, 63, 5⟩)] } } : Mach).setReg 0x3420 2 0 (2 ^ 30)), sess, 0, by decide +kernel⟩

theorem witness_Leases_5 :
    ∃ (s : State) (k : Nat),
    (s.m.clocked = true) ∧ ((s.m.lease k).state = 1) := by
  exact ⟨at' fun m => { m with store := { m.store with leases := [(0, ⟨1, 63, 5⟩)] } }, 0, by decide +kernel⟩

theorem witness_Leases_6 :
    ∃ (s : State) (k : Nat),
    (s.m.clocked = true) ∧ ((s.m.lease k).state = 2) ∧ (tkeys (s.m.setLease k { s.m.lease k with state := 3 }).store.moves = []) := by
  exact ⟨at' fun m => { m with store := { m.store with leases := [(0, ⟨2, 63, 5⟩)] } }, 0, by decide +kernel⟩

theorem witness_Leases_7 :
    ∃ (s : State) (k : Nat),
    (s.m.clocked = true) ∧ ((s.m.lease k).state = 3) ∧ (s.m.recallHosts (fun _ h => h.line * 64 / 2 ^ 30 == s.m.extentBase k / 2 ^ 30) = none) := by
  exact ⟨at' fun m => { m with store := { m.store with leases := [(0, ⟨3, 63, 5⟩)] } }, 0, by decide +kernel⟩

theorem witness_HostMemory_1 :
    ∃ (s : State) (link ld hpa tag dpa : Nat) (ask : HostAsk),
    (s.m.clocked = true) ∧ (s.m.linkState link = 4) ∧ ((s.m.mirrorHost link 1).hostDpa link ld hpa 64 = some dpa) := by
  exact ⟨at' hostW, 0, 0, 320, 1, 320, .shared, by decide +kernel⟩

theorem witness_HostMemory_2 :
    ∃ (s : State) (link ld hpa tag : Nat) (ask : HostAsk),
    (s.m.clocked = true) ∧ (s.m.linkState link = 4) ∧ ((s.m.mirrorHost link 1).hostDpa link ld hpa 64 = none) := by
  exact ⟨at' hostW, 0, 0, 2 ^ 30, 1, .shared, by decide +kernel⟩

theorem witness_HostMemory_3 :
    ∃ (s : State) (link ld hpa tag dpa : Nat) (bs : List Byte),
    (s.m.clocked = true) ∧ (s.m.linkState link = 4) ∧ ((s.m.mirrorHost link 1).hostDpa link ld hpa bs.length = some dpa) := by
  exact ⟨at' hostW, 0, 0, 324, 1, 324, [1, 2], by decide +kernel⟩

theorem witness_HostMemory_4 :
    ∃ (s : State) (link ld hpa tag dpa : Nat) (bs : List Byte),
    (s.m.clocked = true) ∧ (s.m.linkState link = 4) ∧ ((s.m.mirrorHost link 1).heldDpa link ld hpa = some dpa) ∧ (((s.m.mirrorHost link 1).markReloc (lineOf dpa)).biOpen (link / 2) (lineOf dpa) = false) ∧ (((s.m.mirrorHost link 1).markReloc (lineOf dpa)).homeOf (lineOf dpa * 64) ≠ link / 2) := by
  exact ⟨at' fun m => (hostW m).setHostFilter 0 [⟨64, 0, .E, [0]⟩], 0, 0, 4096, 1, 4096, zeros 64, by decide +kernel⟩

theorem witness_HostMemory_5 :
    ∃ (s : State) (link line : Nat) (b : BiSnp),
    (s.m.clocked = true) ∧ (s.m.host.bis.find? (fun b => b.link == link && b.line == line) = some b) ∧ (b.inv = true) := by
  exact ⟨at' fun m => let m := heldW m; { m with host := { m.host with bis := [⟨0, 0, 5, true, .access⟩] } }, 0, 5, ⟨0, 0, 5, true, .access⟩, by decide +kernel⟩

theorem witness_HostMemory_6 :
    ∃ (s : State) (link line : Nat) (b : BiSnp),
    (s.m.clocked = true) ∧ (s.m.host.bis.find? (fun b => b.link == link && b.line == line) = some b) ∧ ((((s.m.hostLines b.die line).filter fun h => h.link == link).flatMap (·.lds)) = []) := by
  exact ⟨at' fun m => { m with host := { m.host with bis := [⟨0, 0, 5, true, .access⟩] } }, 0, 5, ⟨0, 0, 5, true, .access⟩, by decide +kernel⟩

theorem witness_HostMemory_7 :
    ∃ (s : State) (link : Nat),
    (s.m.clocked = true) ∧ (s.m.linkState link = 4) := by
  exact ⟨at' hostW, 0, by decide +kernel⟩

theorem witness_HostMemory_8 :
    ∃ (s : State) (link ld q value : Nat) (l : Ld),
    (s.m.clocked = true) ∧ (value < 65536) ∧ (q < 512 * s.m.dies) ∧ (s.m.dieActive (queueDie q) = true) ∧ (s.m.ld? link ld = some l) ∧ (l.bind = .bound) ∧ (s.m.qOwner q = l.ident) ∧ (s.m.ideRequired (link / 2) = false) := by
  exact ⟨at' fun m => (hostW m).setReg 0x5401 3 4095 0, 0, 0, 4095, 65535, { bound with decoders := [⟨0, 2 ^ 30, 0, 8, 0, true⟩] }, by decide +kernel⟩

theorem witness_HostPaths_1 :
    ∃ (s : State) (link rate lanes : Nat),
    (s.m.clocked = true) ∧ (s.m.linkExists link = true) ∧ (s.m.linkState link = 2) ∧ (rate ≤ s.m.reg 0x3400 4 (link / 2)) ∧ (lanes = 4 ∨ lanes = 8 ∨ (lanes = 16 ∧ s.m.reg 0x3400 2 (link / 2) = 0)) := by
  exact ⟨at' fun m => (m.setReg 0x3401 15 0 2).setReg 0x3400 5 7 1, 14, 6, 16, by decide +kernel⟩

theorem witness_HostPaths_2 :
    ∃ (s : State) (port : Nat),
    (s.m.linkExists (2 * port) = true) ∧ (s.m.linkState (2 * port) = 1) ∧ (s.m.linkState (2 * port + 1) = 0) := by
  exact ⟨at' fun m => (m.setReg 0x3401 15 0 1).setReg 0x3400 5 7 1, 7, by decide +kernel⟩

theorem witness_HostPaths_3 :
    ∃ (s : State) (link : Nat),
    (s.m.clocked = true) ∧ (2 ≤ s.m.linkState link) ∧ (s.m.linkState link ≤ 4) := by
  exact ⟨at' hostW, 0, by decide +kernel⟩

theorem witness_HostPaths_4 :
    ∃ (s : State) (port : Nat),
    (s.m.linkState (2 * port) = 4) ∧ ((s.m.linkLost (2 * port) 1 1).linkState (2 * port + 1) = 0) := by
  exact ⟨at' hostW, 0, by decide +kernel⟩

theorem witness_HostPaths_5 :
    ∃ (s : State) (link : Nat),
    (s.m.clocked = true) ∧ (s.m.linkState link = 3 ∨ s.m.linkState link = 4) := by
  exact ⟨at' hostW, 0, by decide +kernel⟩

theorem witness_HostPaths_6 :
    ∃ (s : State) (link ld : Nat) (l : Ld),
    (s.m.clocked = true) ∧ (((s.m.losePath link ld 3).endBinding link ld).ld? link ld = some l) := by
  exact ⟨at' fun m => m.setLd 15 15 Ld.reset, 15, 15, Ld.reset, by decide +kernel⟩

theorem witness_HostPaths_7 :
    ∃ (s : State) (link ld : Nat),
    (s.m.clocked = true) := by
  exact ⟨on, 0, 0, by decide +kernel⟩

theorem witness_HostPaths_8 :
    ∃ (s : State) (w : Src) (ident : Nat),
    (s.m.clocked = true) ∧ (s.m.admits w 0x3432 1 = true) ∧ (ident < 64) := by
  exact ⟨at' session, sess, 63, by decide +kernel⟩

theorem witness_HostPaths_9 :
    ∃ (s : State) (link ld : Nat) (l : Ld),
    (s.m.clocked = true) ∧ (s.m.ld? link ld = some l) ∧ (l.bind = .teardown) ∧ (((s.m.hostFilter (link / 2)).filter fun h => h.link == link && h.lds.contains ld) = []) := by
  exact ⟨at' fun m => m.setLd 15 15 { Ld.reset with bind := .teardown }, 15, 15, { Ld.reset with bind := .teardown }, by decide +kernel⟩

theorem witness_HostPaths_10 :
    ∃ (s : State) (link ld : Nat) (l : Ld),
    (s.m.clocked = true) ∧ (s.m.ld? link ld = some l) ∧ (l.bind = .authenticating) := by
  exact ⟨at' fun m => m.setLd 15 15 { Ld.reset with bind := .authenticating }, 15, 15, { Ld.reset with bind := .authenticating }, by decide +kernel⟩

theorem witness_HostPaths_11 :
    ∃ (s : State) (link ld : Nat) (io mem : Bool) (l : Ld),
    (s.m.clocked = true) ∧ (s.m.ld? link ld = some l) ∧ (l.bind = .bound) := by
  exact ⟨at' fun m => m.setLd 15 15 bound, 15, 15, true, false, bound, by decide +kernel⟩

theorem witness_HostRegisters_1 :
    ∃ (s : State) (link ld : Nat) (a : HostAcc) (l : Ld),
    (s.m.clocked = true) ∧ (s.m.ld? link ld = some l) ∧ (s.m.linkState link = 3 ∨ s.m.linkState link = 4) ∧ (11 ≤ s.m.clk.stage) := by
  exact ⟨at' fun m => (m.setReg 0x3401 16 0 3).setLd 15 15 bound, 15, 15, .cdat, bound, by decide +kernel⟩

theorem witness_HostRegisters_2 :
    ∃ (s : State) (link ld off : Nat) (bs : List Byte) (l : Ld),
    (s.m.clocked = true) ∧ (s.m.ld? link ld = some l) ∧ (l.mirror.busy = false) ∧ (off + bs.length ≤ 4096) := by
  exact ⟨at' fun m => m.setLd 15 15 bound, 15, 15, 4095, [1], bound, by decide +kernel⟩

theorem witness_HostRegisters_3 :
    ∃ (s : State) (link ld : Nat) (bs : List Byte) (l : Ld),
    (s.m.clocked = true) ∧ (s.m.ld? link ld = some l) ∧ (l.mirror.busy = false) := by
  exact ⟨at' fun m => m.setLd 15 15 bound, 15, 15, [32, 0], bound, by decide +kernel⟩

theorem witness_HostRegisters_4 :
    ∃ (s : State) (link ld : Nat) (l : Ld),
    (s.m.clocked = true) ∧ (s.m.ld? link ld = some l) ∧ (l.bind = .bound) ∧ (l.mirror.busy = false) ∧ (16 ≤ l.mirror.reqLen) ∧ (l.mirror.reqLen ≤ 1024) ∧ (fld (slice l.mirror.req 0 l.mirror.reqLen) 0 1 = 1) ∧ (fld (slice l.mirror.req 0 l.mirror.reqLen) 1 1 = 1) ∧ (fld (slice l.mirror.req 0 l.mirror.reqLen) 2 2 = l.mirror.reqLen) ∧ (allZero (slice (slice l.mirror.req 0 l.mirror.reqLen) 8 8) = true) := by
  exact ⟨at' fun m => m.setLd 0 0 { bound with mirror := { Mirror.reset with req := [1, 1, 32, 0, 9] ++ zeros 27, reqLen := 32 } }, 0, 0, { bound with mirror := { Mirror.reset with req := [1, 1, 32, 0, 9] ++ zeros 27, reqLen := 32 } }, by decide +kernel⟩

theorem witness_HostRegisters_5 :
    ∃ (s : State) (link ld : Nat) (l : Ld),
    (s.m.clocked = true) ∧ (s.m.ld? link ld = some l) ∧ (l.mirror.busy = true) := by
  exact ⟨at' fun m => m.setLd 0 0 { bound with mirror := { Mirror.reset with req := [1, 1, 32, 0, 9] ++ zeros 27, reqLen := 32, busy := true } }, 0, 0, { bound with mirror := { Mirror.reset with req := [1, 1, 32, 0, 9] ++ zeros 27, reqLen := 32, busy := true } }, by decide +kernel⟩

theorem witness_Sessions_1 :
    ∃ (s : State) (a n : Nat),
    (s.m.clocked = true) ∧ (s.m.cairnUp = true) ∧ ((s.m.bump 0x7110 1).freeSession = some n) := by
  exact ⟨at' upW, 3, 0, by decide +kernel⟩

theorem witness_Sessions_2 :
    ∃ (s : State) (link ld : Nat) (l : Ld),
    (s.m.clocked = true) ∧ (s.m.ld? link ld = some l) ∧ (l.bind = .unbound) := by
  exact ⟨at' fun m => m.setLd 15 15 { Ld.reset with bind := .unbound }, 15, 15, { Ld.reset with bind := .unbound }, by decide +kernel⟩

theorem witness_Sessions_3 :
    ∃ (s : State) (a n : Nat) (leaf root : List Byte) (signed inDate : Bool),
    (s.m.clocked = true) ∧ (s.m.cairnUp = true) ∧ (tget s.m.cairn.handshakes n = some (.cairn a)) ∧ (s.m.sec.claimable = true) ∧ (s.m.reg 0x6002 2 0 = 0) := by
  exact ⟨at' fun m => let m := (upW m).setReg 0x6002 2 0 0; { m with cairn := { m.cairn with handshakes := [(0, .cairn 3)] }, sec := { m.sec with claimable := true } }, 3, 0, [1], [], false, false, by decide +kernel⟩

theorem witness_Sessions_4 :
    ∃ (s : State) (a n : Nat) (leaf root : List Byte) (signed inDate : Bool),
    (s.m.clocked = true) ∧ (s.m.cairnUp = true) ∧ (tget s.m.cairn.handshakes n = some (.cairn a)) ∧ (s.m.sec.claimable = false) ∧ ((s.m.bump 0x7110 1).chainOk root signed inDate = true) := by
  refine ⟨finM, 3, 0, [1], [], true, true, by decide +kernel, by decide +kernel, by decide +kernel, by decide +kernel, ?_⟩
  simp only [Mach.chainOk, Mach.trusts, Bool.true_and, Bool.true_or, Bool.and_true]
  refine List.any_eq_true.mpr ⟨0, by decide, ?_⟩
  rw [Bool.and_eq_true]
  exact ⟨by decide +kernel, beq_iff_eq.mpr rfl⟩

theorem witness_Sessions_5 :
    ∃ (s : State) (a n : Nat) (leaf root : List Byte) (signed inDate : Bool),
    (s.m.clocked = true) ∧ (s.m.cairnUp = true) ∧ (tget s.m.cairn.handshakes n = some (.cairn a)) ∧ (s.m.sec.claimable = false) ∧ ((s.m.bump 0x7110 1).chainOk root signed inDate = false) := by
  exact ⟨at' fun m => let m := upW m; { m with cairn := { m.cairn with handshakes := [(0, .cairn 3)] }, sec := { m.sec with claimable := false } }, 3, 0, [1], [], false, true, by decide +kernel⟩

theorem witness_Sessions_6 :
    ∃ (s : State) (a n : Nat),
    (s.m.clocked = true) ∧ (s.m.cairnUp = true) ∧ ((s.m.bump 0x7110 1).sessionOf (.cairn a) n = true) := by
  exact ⟨at' fun m => (upW m).setReq (.session 7) (ReqState.fresh 0 15 3 false 0), 3, 7, by decide +kernel⟩

theorem witness_Sessions_7 :
    ∃ (s : State) (link ld n : Nat) (l : Ld),
    (s.m.clocked = true) ∧ (s.m.ld? link ld = some l) ∧ (l.bind = .bound) := by
  exact ⟨at' fun m => m.setLd 15 15 bound, 15, 15, 0, bound, by decide +kernel⟩

theorem witness_Sessions_8 :
    ∃ (s : State) (a n : Nat),
    (s.m.clocked = true) ∧ (s.m.sessionOf (.cairn a) n = true) := by
  exact ⟨at' fun m => m.setReq (.session 7) (ReqState.fresh 0 15 3 false 0), 3, 7, by decide +kernel⟩

theorem witness_Sessions_9 :
    ∃ (s : State) (a : Nat),
    (s.m.clocked = true) ∧ (s.m.cairnUp = true) := by
  exact ⟨at' upW, 3, by decide +kernel⟩

theorem witness_Sessions_10 :
    ∃ (s : State) (a n : Nat) (chain : List Byte),
    (s.m.clocked = true) ∧ (s.m.cairnUp = true) ∧ ((s.m.bump 0x7110 1).sessionOf (.cairn a) n = true) ∧ (hasRole ((s.m.bump 0x7110 1).roles (.session n)) .custodian = true) := by
  exact ⟨at' fun m => (upW m).setReq (.session 7) (ReqState.fresh 0 15 3 false 0), 3, 7, [1], by decide +kernel⟩

theorem witness_Sessions_11 :
    ∃ (s : State) (a : Nat),
    (s.m.clocked = true) ∧ (s.m.cairnUp = true) := by
  exact ⟨at' upW, 3, by decide +kernel⟩

theorem witness_PortReception_1 :
    ∃ (s : State) (p : Nat) (bs : List Byte),
    (s.m.clocked = true) ∧ (s.m.pState p = 7) ∧ ((s.m.port p).awaiting = false) ∧ (((s.m.acceptFlit p).port p).rx = none) ∧ (((s.m.acceptFlit p).port p).suspended = none) := by
  exact ⟨at' (portW 7 7), 7, fr.header, by decide +kernel⟩

theorem witness_PortReception_2 :
    ∃ (s : State) (p : Nat) (bs : List Byte) (r : RxFrame),
    (s.m.clocked = true) ∧ (s.m.pState p = 7) ∧ ((s.m.port p).awaiting = false) ∧ (((s.m.acceptFlit p).port p).rx = some r) ∧ (r.got + 1 = r.frame.len) := by
  exact ⟨at' fun m => (portW 7 7 m).setPort 7 { Port.fresh with rx := some ⟨fr, 0, false, .here⟩ }, 7, [], ⟨fr, 0, false, .here⟩, by decide +kernel⟩

theorem witness_PortReception_3 :
    ∃ (s : State) (p : Nat) (bs : List Byte) (r : RxFrame),
    (s.m.clocked = true) ∧ (s.m.pState p = 7) ∧ ((s.m.port p).awaiting = false) ∧ (((s.m.acceptFlit p).port p).rx = some r) ∧ (r.got + 1 < r.frame.len) := by
  exact ⟨at' fun m => (portW 7 7 m).setPort 7 { Port.fresh with rx := some ⟨{ fr with len := 2 }, 0, false, .here⟩ }, 7, [], ⟨{ fr with len := 2 }, 0, false, .here⟩, by decide +kernel⟩

theorem witness_PortReception_4 :
    ∃ (s : State) (p : Nat) (r : RxFrame),
    (s.m.clocked = true) ∧ (s.m.pState p = 7) ∧ ((s.m.port p).awaiting = false) ∧ (((s.m.acceptFlit p).port p).rx = some r) ∧ (r.got + 1 = r.frame.len) := by
  exact ⟨at' fun m => (portW 7 7 m).setPort 7 { Port.fresh with rx := some ⟨fr, 0, false, .here⟩ }, 7, ⟨fr, 0, false, .here⟩, by decide +kernel⟩

theorem witness_PortReception_5 :
    ∃ (s : State) (p c u : Nat),
    (s.m.clocked = true) ∧ (p < s.m.dies) ∧ (((s.m.bumpBy 0x7050 7 p c).bumpBy 0x7050 8 p u).pState p = 7) ∧ (((((s.m.bumpBy 0x7050 7 p c).bumpBy 0x7050 8 p u).bumpPort p 3).port p).awaiting = false) := by
  exact ⟨at' (portW 7 7), 7, 3, 1, by decide +kernel⟩

theorem witness_PortReception_6 :
    ∃ (s : State) (p : Nat),
    (s.m.clocked = true) ∧ (s.m.pState p = 7) ∧ ((s.m.port p).awaiting = true) ∧ ((s.m.port p).retries < s.m.reg 0x4020 1 0) ∧ (0 < (s.m.port p).retries) := by
  exact ⟨at' fun m => (portW 7 7 m).setPort 7 { Port.fresh with awaiting := true, retries := 1 }, 7, by decide +kernel⟩

theorem witness_PortReception_7 :
    ∃ (s : State) (p : Nat),
    (s.m.clocked = true) ∧ (s.m.pState p = 7) ∧ ((s.m.port p).awaiting = true) := by
  exact ⟨at' fun m => (portW 7 7 m).setPort 7 { Port.fresh with awaiting := true, retries := 1 }, 7, by decide +kernel⟩

theorem witness_PortTransmission_1 :
    ∃ (s : State) (p ackfn : Nat) (limits : List Nat),
    (s.m.clocked = true) ∧ (s.m.pState p = 7) ∧ ((s.m.port p).unacked = []) ∧ ((ackfn + 1 + 65536 - (s.m.port p).ackedTo) % 65536 ≤ ((s.m.port p).nextNum + 65536 - (s.m.port p).ackedTo) % 65536) := by
  exact ⟨at' (portW 7 7), 7, 65535, [1, 2, 3, 4, 5, 6], by decide +kernel⟩

theorem witness_PortTransmission_2 :
    ∃ (s : State) (p efn num : Nat),
    (s.m.clocked = true) ∧ (s.m.pState p = 7) ∧ ((s.m.port p).lastAnswered ≠ some num) ∧ ((efn + 65536 - (s.m.port p).ackedTo) % 65536 < ((s.m.port p).nextNum + 65536 - (s.m.port p).ackedTo) % 65536) := by
  exact ⟨at' fun m => (portW 7 7 m).setPort 7 { Port.fresh with nextNum := 3 }, 7, 2, 255, by decide +kernel⟩

theorem witness_PortTransmission_3 :
    ∃ (s : State) (p : Nat),
    (s.m.clocked = true) ∧ (s.m.pState p = 7) := by
  exact ⟨at' (portW 7 7), 7, by decide +kernel⟩

theorem witness_PortTransmission_4 :
    ∃ (s : State) (p : Nat),
    (s.m.clocked = true) ∧ (s.m.pState p = 7) := by
  exact ⟨at' (portW 7 7), 7, by decide +kernel⟩

theorem witness_PortTransmission_5 :
    ∃ (s : State) (p : Nat),
    (s.m.clocked = true) ∧ (s.m.pState p = 10) := by
  exact ⟨at' fun m => (portW 7 10 m).setPort 7 { Port.fresh with left := 7 }, 7, by decide +kernel⟩

theorem witness_PortTransmission_6 :
    ∃ (s : State) (p : Nat),
    (s.m.clocked = true) ∧ (s.m.pState p = 10) := by
  exact ⟨at' (portW 7 10), 7, by decide +kernel⟩

theorem witness_PortTransmission_7 :
    ∃ (s : State) (p lane : Nat),
    (s.m.clocked = true) ∧ (lane < 32) ∧ (bit (s.m.reg 0x4011 3 p) lane = true) := by
  exact ⟨at' fun m => m.setReg 0x4011 3 7 (2 ^ 32 - 1), 7, 31, by decide +kernel⟩

theorem witness_PortTransmission_8 :
    ∃ (s : State) (p : Nat) (q : QFrame) (m1 : Mach) (f : RFrame),
    (s.m.clocked = true) ∧ (s.m.nextFrame p = some q) ∧ (m1 = (s.m.stampBeacon p { q.frame with hops := q.frame.hops + 1 }).2) ∧ (f = (s.m.stampBeacon p { q.frame with hops := q.frame.hops + 1 }).1) := by
  exact ⟨at' fun m => (portW 7 7 m).setPort 7 { Port.fresh with limit := [9, 9, 9, 9, 9, 9], queue := [⟨fr, 8, false, 0⟩] }, 7, ⟨fr, 8, false, 0⟩, _, _, by decide +kernel, by decide +kernel, rfl, rfl⟩

theorem witness_PortTraining_1 :
    ∃ (s : State) (p : Nat),
    (s.m.clocked = true) ∧ (s.m.pState p = 2) ∧ (s.m.reg 0x4011 8 p ≠ 12) := by
  exact ⟨at' (portW 7 2), 7, by decide +kernel⟩

theorem witness_PortTraining_2 :
    ∃ (s : State) (p : Nat),
    (s.m.clocked = true) ∧ (s.m.pState p = 2) ∧ (s.m.reg 0x4011 8 p ≠ 12) ∧ ((s.m.port p).signalNoticed = false) := by
  exact ⟨at' (portW 7 2), 7, by decide +kernel⟩

theorem witness_PortTraining_3 :
    ∃ (s : State) (p : Nat),
    (s.m.clocked = true) ∧ (s.m.pState p = 3) := by
  exact ⟨at' (portW 7 3), 7, by decide +kernel⟩

theorem witness_PortTraining_4 :
    ∃ (s : State) (p : Nat),
    (s.m.clocked = true) ∧ (s.m.pState p = 3) := by
  exact ⟨at' (portW 7 3), 7, by decide +kernel⟩

theorem witness_PortTraining_5 :
    ∃ (s : State) (p inverted good : Nat) (reversed : Bool),
    (s.m.clocked = true) ∧ (s.m.pState p = 4) := by
  exact ⟨at' (portW 7 4), 7, 1, 2 ^ 32 - 1, true, by decide +kernel⟩

theorem witness_PortTraining_6 :
    ∃ (s : State) (p node port widths lanes : Nat),
    (s.m.clocked = true) ∧ (s.m.pState p = 5) ∧ (agreeWidth (Nat.land widths (s.m.reg 0x4010 3 p)) (Nat.land lanes (s.m.reg 0x4011 3 p)) = 0) := by
  exact ⟨at' (portW 7 5), 7, 3, 6, 0, 2 ^ 32 - 1, by decide +kernel⟩

theorem witness_PortTraining_7 :
    ∃ (s : State) (p node port widths lanes w : Nat) (m2 : Mach),
    (s.m.clocked = true) ∧ (s.m.pState p = 5) ∧ (agreeWidth (Nat.land widths (s.m.reg 0x4010 3 p)) (Nat.land lanes (s.m.reg 0x4011 3 p)) = w) ∧ (w ≠ 0) ∧ (m2 = ((((s.m.setReg 0x4011 6 p node).setReg 0x4011 7 p port).setReg 0x4011 3 p (Nat.land lanes (s.m.reg 0x4011 3 p))).setWidth p w)) ∧ ((m2.setPort p { Port.fresh with numbered := true, fromLost := (m2.port p).fromLost, queue := (m2.port p).queue }).edgePort p = false) ∧ ((m2.setPort p { Port.fresh with numbered := true, fromLost := (m2.port p).fromLost, queue := (m2.port p).queue }).reg 0x4010 7 p = 0) ∧ (m2.port p = s.m.port p) := by
  exact ⟨at' fun m => ((portW 7 5 m).setReg 0x4011 3 7 (2 ^ 32 - 1)).setReg 0x4010 7 7 0, 7, 3, 6, 7, 2 ^ 32 - 1, 32, _, by decide +kernel, by decide +kernel, by decide +kernel, by decide +kernel, rfl, by decide +kernel, by decide +kernel, by decide +kernel⟩

theorem witness_PortTraining_8 :
    ∃ (s : State) (p : Nat),
    (s.m.clocked = true) ∧ (s.m.pState p = 5) := by
  exact ⟨at' (portW 7 5), 7, by decide +kernel⟩

theorem witness_PortTraining_9 :
    ∃ (s : State) (p : Nat),
    (s.m.clocked = true) ∧ (s.m.pState p = 6) := by
  exact ⟨at' (portW 7 6), 7, by decide +kernel⟩

theorem witness_PortTraining_10 :
    ∃ (s : State) (p : Nat) (bs : List Byte),
    (s.m.clocked = true) := by
  exact ⟨at' (portW 7 6), 7, zeros 62, by decide +kernel⟩

theorem witness_PortTraining_11 :
    ∃ (s : State) (p : Nat),
    (s.m.clocked = true) ∧ (s.m.pState p = 11) ∧ (s.m.reg 0x4010 6 p = 1) ∧ (s.m.dieActive p = true) ∧ ((s.m.portHall p).drainAct = false) := by
  exact ⟨at' fun m => (portW 7 11 m).setReg 0x4010 6 7 1, 7, by decide +kernel⟩

theorem witness_PortCommands_1 :
    ∃ (s : State) (w : Src) (p : Nat) (m2 : Mach),
    (s.m.clocked = true) ∧ (s.m.admits w 0x4010 2 = true) ∧ (s.m.heard.rowOf w.q 0x4010 2 = p) ∧ (m2 = (s.m.heard.setReg 0x4010 2 p 1).setPortHall p { (s.m.heard.setReg 0x4010 2 p 1).portHall p with drainAct := false }) ∧ (m2.pState p = 1) ∧ (m2.dieActive p = true) ∧ (m2.offPort p = false) := by
  exact ⟨at' fun m => session ((portW 0 1 m).setReg 0x4000 2 0 4), sess, 0, _, by decide +kernel, by decide +kernel, by decide +kernel, rfl, by decide +kernel, by decide +kernel, by decide +kernel⟩

theorem witness_PortCommands_2 :
    ∃ (s : State) (w : Src) (p : Nat),
    (s.m.clocked = true) ∧ (s.m.admits w 0x4010 2 = true) ∧ (s.m.heard.rowOf w.q 0x4010 2 = p) ∧ (((s.m.heard.setReg 0x4010 2 p 0).setCause p 9).pState p = 7) := by
  exact ⟨at' fun m => session (portW 0 7 m), sess, 0, by decide +kernel⟩

theorem witness_PortCommands_3 :
    ∃ (s : State) (w : Src) (p : Nat),
    (s.m.clocked = true) ∧ (s.m.admits w 0x4010 4 = true) ∧ (s.m.heard.rowOf w.q 0x4010 4 = p) ∧ (s.m.heard.pState p = 7) := by
  exact ⟨at' fun m => session (portW 0 7 m), sess, 0, by decide +kernel⟩

theorem witness_PortCommands_4 :
    ∃ (s : State) (w : Src) (p : Nat),
    (s.m.clocked = true) ∧ (s.m.admits w 0x4010 4 = true) ∧ (s.m.heard.rowOf w.q 0x4010 4 = p) ∧ (s.m.heard.pState p = 7) := by
  exact ⟨at' fun m => session (portW 0 7 m), sess, 0, by decide +kernel⟩

theorem witness_PortCommands_5 :
    ∃ (s : State) (p t : Nat),
    (s.m.clocked = true) ∧ ((s.m.port p).drainTo = some t) ∧ ((s.m.port p).unacked = []) := by
  exact ⟨at' fun m => (portW 7 7 m).setPort 7 { Port.fresh with drainTo := some 1 }, 7, 1, by decide +kernel⟩

theorem witness_PortCommands_6 :
    ∃ (s : State) (p t : Nat),
    (s.m.clocked = true) ∧ ((s.m.port p).drainTo = some t) ∧ ((s.m.port p).suspended = none) ∧ ((s.m.port p).rx = none) := by
  exact ⟨at' fun m => (portW 7 7 m).setPort 7 { Port.fresh with drainTo := some 1, unacked := [⟨0, ⟨fr, 8, false, 0⟩, 0⟩] }, 7, 1, by decide +kernel⟩

theorem witness_PortCommands_7 :
    ∃ (s : State) (w : Src) (p : Nat),
    (s.m.clocked = true) ∧ (s.m.admits w 0x4010 5 = true) ∧ (s.m.heard.rowOf w.q 0x4010 5 = p) ∧ (s.m.heard.pState p = 9) := by
  exact ⟨at' fun m => session (portW 0 9 m), sess, 0, by decide +kernel⟩

theorem witness_PortCommands_8 :
    ∃ (s : State) (w : Src),
    (s.m.clocked = true) ∧ (s.m.admits w 0x4100 5 = true) := by
  exact ⟨at' session, sess, by decide +kernel⟩

theorem witness_FabricStreams_1 :
    ∃ (s : State) (port : Nat) (f : RFrame) (m2 : Mach),
    (s.m.clocked = true) ∧ (f.opcode = opWrite) ∧ (RFrameFormOk f = true) ∧ (((s.m.takeArrived port f).targetCheck f).1 = 0) ∧ (m2 = ((s.m.takeArrived port f).targetCheck f).2) ∧ (m2.forwarded f = none) ∧ ((f.sequence + 65536 - (m2.stream (streamKey f.src f.cls)).n) % 65536 < 1024) ∧ (tget (m2.stream (streamKey f.src f.cls)).held f.sequence = none) := by
  exact ⟨at' (winW 1), 7, { rq opWrite 1 64 with sequence := 1023 }, _, by decide +kernel, by decide +kernel, by decide +kernel, by decide +kernel, rfl, by decide +kernel, by decide +kernel, by decide +kernel⟩

theorem witness_FabricStreams_2 :
    ∃ (s : State) (port : Nat) (f : RFrame) (m2 : Mach),
    (s.m.clocked = true) ∧ (f.opcode = opWritePosted) ∧ (RFrameFormOk f = true) ∧ (((s.m.takeArrived port f).targetCheck f).1 = 0) ∧ (m2 = ((s.m.takeArrived port f).targetCheck f).2) ∧ (m2.forwarded f = none) ∧ ((f.sequence + 65536 - (m2.stream (streamKey f.src f.cls)).n) % 65536 < 1024) ∧ (tget (m2.stream (streamKey f.src f.cls)).held f.sequence = none) := by
  exact ⟨at' (winW 1), 7, { rq opWritePosted 1 64 with sequence := 1023 }, _, by decide +kernel, by decide +kernel, by decide +kernel, by decide +kernel, rfl, by decide +kernel, by decide +kernel, by decide +kernel⟩

theorem witness_FabricStreams_3 :
    ∃ (s : State) (port : Nat) (f : RFrame) (m2 : Mach),
    (s.m.clocked = true) ∧ (f.opcode = opAtomic) ∧ (RFrameFormOk f = true) ∧ (((s.m.takeArrived port f).targetCheck f).1 = 0) ∧ (m2 = ((s.m.takeArrived port f).targetCheck f).2) ∧ (m2.forwarded f = none) ∧ ((f.sequence + 65536 - (m2.stream (streamKey f.src f.cls)).n) % 65536 < 1024) ∧ (tget (m2.stream (streamKey f.src f.cls)).held f.sequence = none) := by
  exact ⟨at' (winW 1), 7, { rq opAtomic 1 0 with sequence := 1023 }, _, by decide +kernel, by decide +kernel, by decide +kernel, by decide +kernel, rfl, by decide +kernel, by decide +kernel, by decide +kernel⟩

theorem witness_FabricStreams_4 :
    ∃ (s : State) (port : Nat) (f : RFrame) (m2 : Mach),
    (s.m.clocked = true) ∧ (f.opcode = opFence) ∧ (RFrameFormOk f = true) ∧ (((s.m.takeArrived port f).targetCheck f).1 = 0) ∧ (m2 = ((s.m.takeArrived port f).targetCheck f).2) ∧ (m2.forwarded f = none) ∧ ((f.sequence + 65536 - (m2.stream (streamKey f.src f.cls)).n) % 65536 < 1024) ∧ (tget (m2.stream (streamKey f.src f.cls)).held f.sequence = none) := by
  exact ⟨at' (winW 1), 7, { rq opFence 0 0 with sequence := 1023 }, _, by decide +kernel, by decide +kernel, by decide +kernel, by decide +kernel, rfl, by decide +kernel, by decide +kernel, by decide +kernel⟩

theorem witness_FabricStreams_5 :
    ∃ (s : State) (port : Nat) (f : RFrame) (m2 : Mach),
    (s.m.clocked = true) ∧ (f.opcode = opPublish) ∧ (RFrameFormOk f = true) ∧ (((s.m.takeArrived port f).targetCheck f).1 = 0) ∧ (m2 = ((s.m.takeArrived port f).targetCheck f).2) ∧ (m2.forwarded f = none) ∧ ((f.sequence + 65536 - (m2.stream (streamKey f.src f.cls)).n) % 65536 < 1024) ∧ (tget (m2.stream (streamKey f.src f.cls)).held f.sequence = none) := by
  exact ⟨at' (winW 3), 7, { rq opPublish 1 64 with sequence := 1023 }, _, by decide +kernel, by decide +kernel, by decide +kernel, by decide +kernel, rfl, by decide +kernel, by decide +kernel, by decide +kernel⟩

theorem witness_FabricStreams_6 :
    ∃ (s : State) (port : Nat) (f : RFrame) (m2 : Mach),
    (s.m.clocked = true) ∧ (f.opcode = opPublishFwd) ∧ (RFrameFormOk f = true) ∧ (((s.m.takeArrived port f).targetCheck f).1 = 0) ∧ (m2 = ((s.m.takeArrived port f).targetCheck f).2) ∧ (m2.forwarded f = none) ∧ ((f.sequence + 65536 - (m2.stream (streamKey f.src f.cls)).n) % 65536 < 1024) ∧ (tget (m2.stream (streamKey f.src f.cls)).held f.sequence = none) := by
  exact ⟨at' (winW 3), 7, { rq opPublishFwd 1 64 with sequence := 1023 }, _, by decide +kernel, by decide +kernel, by decide +kernel, by decide +kernel, rfl, by decide +kernel, by decide +kernel, by decide +kernel⟩

theorem witness_FabricStreams_7 :
    ∃ (s : State) (port : Nat) (f : RFrame) (m2 : Mach) (src : Nat),
    (s.m.clocked = true) ∧ (f.opcode = opPoisonMark) ∧ (RFrameFormOk f = true) ∧ (((s.m.takeArrived port f).targetCheck f).1 = 0) ∧ (m2 = ((s.m.takeArrived port f).targetCheck f).2) ∧ (bits (f.word 5) 8 0 = src) ∧ (bit (f.word 5) 32 = false) := by
  exact ⟨at' (winW 1), 7, { rq opPoisonMark 0 0 with ext := extWords 0 (5 + 65536) 0 0 }, _, 5, by decide +kernel, by decide +kernel, by decide +kernel, by decide +kernel, rfl, by decide +kernel, by decide +kernel⟩

theorem witness_FabricFrames_1 :
    ∃ (s : State) (port : Nat) (f : RFrame) (m1 m2 : Mach) (bs : List Byte),
    (s.m.clocked = true) ∧ (f.opcode = opRead) ∧ (RFrameFormOk f = true) ∧ ((s.m.targetCheck f).1 = 0) ∧ (m1 = (s.m.targetCheck f).2) ∧ (m1.forwarded f = none) ∧ (f.nbytes = 64) ∧ (m1.targetDpa f % 64 = 0) ∧ (m1.recall (m1.targetDpa f) 64 false = none) ∧ (m2 = (m1.takeArrived port f).accessed (if port < (m1.takeArrived port f).dies then port else (m1.takeArrived port f).homeOf (m1.targetDpa f)) (granuleOfLine (lineOf (m1.targetDpa f)))) ∧ (m2.coherentLine (lineOf (m1.targetDpa f)) = .data bs) := by
  exact ⟨at' fun m => (winW 1 m).setGran 0 { Granule.reset with loc := .stack }, 7, { rq opRead 0 64 with payload := [] }, _, _, zeros 64, by decide +kernel, by decide +kernel, by decide +kernel, by decide +kernel, rfl, by decide +kernel, by decide +kernel, by decide +kernel, by decide +kernel, rfl, by decide +kernel⟩

theorem witness_FabricFrames_2 :
    ∃ (s : State) (port : Nat) (f : RFrame) (r : OutReq),
    (s.m.clocked = true) ∧ (f.opcode = opResp) ∧ (RFrameFormOk f = true) ∧ (tget (s.m.takeArrived port f).fab.reqs f.tag = some r) ∧ (f.status ≠ stRedirect) ∧ (f.status ≠ stTargetDead) := by
  exact ⟨at' fun m => { m with fab := { m.fab with reqs := [(7, ⟨rq opRead 0 64, .relocate, 0, 0⟩)] } }, 8, { rq opResp 1 0 with cls := 1, tag := 7 }, ⟨rq opRead 0 64, .relocate, 0, 0⟩, by decide +kernel⟩

theorem witness_FabricFrames_3 :
    ∃ (s : State) (port : Nat) (f : RFrame),
    (s.m.clocked = true) ∧ (f.opcode = opResp) ∧ (RFrameFormOk f = true) ∧ (tget (s.m.takeArrived port f).fab.reqs f.tag = none) ∧ (f.status ≠ stRedirect) := by
  exact ⟨on, 8, { rq opResp 1 0 with cls := 1, tag := 7 }, by decide +kernel⟩

theorem witness_FabricFrames_4 :
    ∃ (s : State) (port : Nat) (f : RFrame),
    (s.m.clocked = true) ∧ (f.opcode = opSeqAck) ∧ (RFrameFormOk f = true) ∧ (bit (f.word 5) 16 = true) := by
  exact ⟨on, 8, { rq opSeqAck 0 0 with cls := 1, ext := extWords 0 (5 + 65536) 0 0 }, by decide +kernel⟩

theorem witness_FabricFrames_5 :
    ∃ (s : State) (port : Nat) (f : RFrame),
    (s.m.clocked = true) ∧ (f.opcode = opMirrorCopy) ∧ (RFrameFormOk f = true) := by
  exact ⟨on, 7, { rq opMirrorCopy 1 0 with cls := 4 }, by decide +kernel⟩

theorem witness_FabricFrames_6 :
    ∃ (s : State) (port : Nat) (f : RFrame),
    (s.m.clocked = true) := by
  exact ⟨on, 7, { rq 0xDF 0 0 with cls := 0 }, by decide +kernel⟩

theorem witness_FabricBounds_1 :
    ∃ (s : State) (src : Nat) (bulk : Bool),
    (s.m.clocked = true) ∧ ((s.m.stream (src * 2 + b2n bulk)).held ≠ []) ∧ (tget (s.m.stream (src * 2 + b2n bulk)).held (s.m.stream (src * 2 + b2n bulk)).n = none) := by
  exact ⟨at' fun m => m.setStream 1023 ⟨5, [(6, ⟨fr, 0, 0, 0⟩)], [], 0⟩, 511, true, by decide +kernel⟩

theorem witness_FabricBounds_2 :
    ∃ (s : State),
    (s.m.clocked = true) := by
  exact ⟨at' fun m => m.setStream 1023 ⟨5, [], [], 3⟩, by decide +kernel⟩

theorem witness_FabricBounds_3 :
    ∃ (s : State) (dst sequence : Nat) (r : Retained),
    (s.m.clocked = true) ∧ (s.m.fab.retained.find? (fun r => r.frame.dst == dst && r.frame.cls == 3 && r.frame.sequence == sequence) = some r) ∧ (r.resends < s.m.reg 0x4200 3 0) := by
  exact ⟨at' fun m => { m with fab := { m.fab with retained := [⟨{ fr with cls := 3 }, 0, 0⟩] } }, 0, 0, ⟨{ fr with cls := 3 }, 0, 0⟩, by decide +kernel⟩

theorem witness_FabricBounds_4 :
    ∃ (s : State) (tag : Nat) (r : OutReq),
    (s.m.clocked = true) ∧ (tget s.m.fab.reqs tag = some r) ∧ (r.frame.opcode ≠ opColl) := by
  exact ⟨at' fun m => { m with fab := { m.fab with reqs := [(7, ⟨rq opRead 0 64, .relocate, 0, 0⟩)] } }, 7, ⟨rq opRead 0 64, .relocate, 0, 0⟩, by decide +kernel⟩

theorem witness_FabricBounds_5 :
    ∃ (s : State) (tags : List Nat) (posted : List Retained),
    (s.m.clocked = true) ∧ (s.m.reg 0x4480 4 0 = 1) ∧ (((s.m.fab.reqs.filter fun p => p.2.frame.epoch == (s.m.epoch + 255) % 256 && p.2.frame.opcode != opColl).map Prod.fst) = tags) ∧ (((s.m.fab.retained ++ s.m.fab.unsent).filter fun r => r.frame.opcode == opWritePosted && r.frame.epoch == (s.m.epoch + 255) % 256) = posted) := by
  exact ⟨at' fun m => m.setReg 0x4480 4 0 1, [], [], by decide +kernel⟩

theorem witness_FabricBounds_6 :
    ∃ (s : State) (w : Src) (region : Nat),
    (s.m.clocked = true) ∧ (s.m.admits w 0x4400 8 = true) ∧ (region < 65536) := by
  exact ⟨at' session, sess, 65535, by decide +kernel⟩

theorem witness_FabricBounds_7 :
    ∃ (s : State) (w : Src) (v : Nat),
    (s.m.clocked = true) ∧ (s.m.admits w 0x4480 1 = true) ∧ (v = (s.m.heard.epoch + 1) % 256) ∧ (s.m.heard.reg 0x4480 4 0 ≠ 1) := by
  exact ⟨at' fun m => session (m.setReg 0x4480 1 0 255), sess, 0, by decide +kernel⟩

theorem witness_FabricBounds_8 :
    ∃ (s : State) (w : Src) (node : Nat),
    (s.m.clocked = true) ∧ (s.m.admits w 0x4520 3 = true) ∧ (node < 512) := by
  exact ⟨at' session, sess, 511, by decide +kernel⟩

theorem witness_FabricBounds_9 :
    ∃ (s : State) (w : Src) (job : Nat),
    (s.m.clocked = true) ∧ (s.m.admits w 0x4521 1 = true) ∧ (job < 4096) := by
  exact ⟨at' session, sess, 4095, by decide +kernel⟩

theorem witness_Relocations_1 :
    ∃ (s : State) (w : Src) (k : Nat),
    (s.m.clocked = true) ∧ (s.m.admits w 0x4481 1 = true) ∧ (k < 4096) ∧ (s.m.heard.reg 0x4410 6 k ≠ 0) ∧ (s.m.fab.reloc = none) ∧ (s.m.heard.reg 0x4411 1 k = 0) ∧ (s.m.heard.reg 0x4481 2 0 ≠ s.m.heard.node) := by
  exact ⟨at' fun m => session ((m.setReg 0x4410 6 4095 1).setReg 0x4481 2 0 5), sess, 4095, by decide +kernel⟩

theorem witness_Relocations_2 :
    ∃ (s : State) (r : Relocation),
    (s.m.clocked = true) ∧ (s.m.fab.reloc = some r) ∧ (s.m.reg 0x4481 7 0 ≠ 3) ∧ (r.failed = 0) ∧ (r.outstanding = 0) ∧ (r.todo = []) ∧ (s.m.reg 0x4410 3 r.window ≤ r.next) ∧ (r.dirty.length ≤ 262144) := by
  exact ⟨at' fun m => { m with fab := { m.fab with reloc := some ⟨0, 0, [], [], 8, 0, 0⟩ } }, ⟨0, 0, [], [], 8, 0, 0⟩, by decide +kernel⟩

theorem witness_Relocations_3 :
    ∃ (s : State) (r : Relocation),
    (s.m.clocked = true) ∧ (s.m.fab.reloc = some r) ∧ (s.m.reg 0x4481 7 0 ≠ 3) ∧ (r.failed = 0) ∧ (r.outstanding = 0) ∧ (r.todo = []) ∧ (s.m.reg 0x4410 3 r.window ≤ r.next) ∧ (262144 < r.dirty.length) := by
  refine ⟨at' fun m => { m with fab := { m.fab with reloc := some ⟨0, 0, [], List.replicate 262145 0, 7, 0, 0⟩ } },
    ⟨0, 0, [], List.replicate 262145 0, 7, 0, 0⟩, rfl, rfl, ?_, rfl, rfl, rfl, ?_, ?_⟩
  · decide +kernel
  · decide +kernel
  · exact Nat.lt_of_lt_of_eq (by decide) List.length_replicate.symm

theorem witness_Relocations_4 :
    ∃ (s : State) (r : Relocation),
    (s.m.clocked = true) ∧ (s.m.fab.reloc = some r) ∧ (s.m.reg 0x4481 7 0 = 3) ∧ (r.failed = 0) ∧ (r.outstanding = 0) ∧ (r.todo = []) := by
  exact ⟨at' fun m => ({ m with fab := { m.fab with reloc := some ⟨0, 0, [], [], 8, 0, 0⟩ } } : Mach).setReg 0x4481 7 0 3, ⟨0, 0, [], [], 8, 0, 0⟩, by decide +kernel⟩

theorem witness_Relocations_5 :
    ∃ (s : State),
    (s.m.clocked = true) ∧ (s.m.reg 0x4481 7 0 = 3) := by
  exact ⟨at' fun m => m.setReg 0x4481 7 0 3, by decide +kernel⟩

theorem witness_QueueControl_1 :
    ∃ (s : State) (w : Src) (q : Nat),
    (s.m.clocked = true) ∧ (s.m.admits w 0x5401 0x0F = true) ∧ (s.m.rowOf w.q 0x5401 0x0F = q) ∧ (s.m.heard.rowOf w.q 0x5401 0x0F = q) ∧ (s.m.recall (s.m.reg 0x5401 0x0A q) 24 true = none) ∧ (s.m.heard.qState q = 0) ∧ (s.m.heard.ringsOk q = true) := by
  exact ⟨at' fun m => session ((qW m).setReg 0x5401 2 0 0), sess, 0, by decide +kernel⟩

theorem witness_QueueControl_2 :
    ∃ (s : State) (w : Src) (q : Nat),
    (s.m.clocked = true) ∧ (s.m.admits w 0x5401 0x0F = true) ∧ (s.m.heard.rowOf w.q 0x5401 0x0F = q) ∧ (s.m.heard.qState q = 1) ∧ (s.m.heard.inFlight q = []) := by
  exact ⟨at' fun m => session (qW m), sess, 0, by decide +kernel⟩

theorem witness_QueueControl_3 :
    ∃ (s : State) (w : Src) (q : Nat),
    (s.m.clocked = true) ∧ (s.m.admits w 0x5402 2 = true) ∧ (s.m.heard.ownQueue w q = true) ∧ (q < 512 * s.m.dies) ∧ (s.m.heard.qState q = 1) := by
  exact ⟨at' fun m => session (m.setReg 0x5401 2 4095 1), sess, 4095, by decide +kernel⟩

theorem witness_QueueControl_4 :
    ∃ (s : State) (w : Src) (q : Nat),
    (s.m.clocked = true) ∧ (s.m.admits w 0x5402 1 = true) ∧ (s.m.heard.ownQueue w q = true) ∧ (q < 512 * s.m.dies) ∧ (s.m.heard.qState q = 3) ∧ (s.m.heard.ringsGranted q = true) := by
  exact ⟨at' fun m => session ((qW m).setReg 0x5401 2 0 3), sess, 0, by decide +kernel⟩

theorem witness_QueueControl_5 :
    ∃ (s : State) (w : Src) (v : Nat),
    (s.m.clocked = true) ∧ (s.m.admits w 0x5402 3 = true) ∧ (v < 2 ^ 28) ∧ (bits v 27 16 < 512 * s.m.dies) ∧ (s.m.heard.dieState (queueDie (bits v 27 16)) = 1) := by
  exact ⟨at' fun m => session (qW m), sess, 2, by decide +kernel⟩

theorem witness_QueueControl_6 :
    ∃ (s : State) (q : Nat) (d : List Byte) (m2 : Mach),
    (s.m.clocked = true) ∧ ((s.m.queue q).heads = []) ∧ (s.m.qState q = 1) ∧ (s.m.dieTakes (queueDie q) = true) ∧ ((s.m.queue q).sqHead ≠ (s.m.queue q).tail) ∧ (s.m.recall (s.m.reg 0x5401 6 q + 64 * (s.m.queue q).sqHead) 64 false = none) ∧ (s.m.recall (s.m.reg 0x5401 0x0A q) 4 true = none) ∧ ((s.m.loadDpa (queueDie q) (s.m.reg 0x5401 6 q + 64 * (s.m.queue q).sqHead) 64).1 = .ok d) ∧ (m2 = (s.m.loadDpa (queueDie q) (s.m.reg 0x5401 6 q + 64 * (s.m.queue q).sqHead) 64).2) := by
  exact ⟨at' qW, 0, desc [(0, 1, 0x51)], _, by decide +kernel, by decide +kernel, by decide +kernel, by decide +kernel, by decide +kernel, by decide +kernel, by decide +kernel, by decide +kernel, rfl⟩

theorem witness_QueueControl_7 :
    ∃ (s : State) (q : Nat) (bs : List Byte) (m2 : Mach),
    (s.m.clocked = true) ∧ (s.m.qState q = 1) ∧ (s.m.recall (s.m.reg 0x5401 0x0A q + 8) 4 false = none) ∧ ((s.m.loadDpa (queueDie q) (s.m.reg 0x5401 0x0A q + 8) 4).1 = .ok bs) ∧ (m2 = (s.m.loadDpa (queueDie q) (s.m.reg 0x5401 0x0A q + 8) 4).2) ∧ (leNat bs < m2.cqSize q) ∧ (((m2.queue q).cqTail + m2.cqSize q - leNat bs) % m2.cqSize q ≤ ((m2.queue q).cqTail + m2.cqSize q - (m2.queue q).cqHead) % m2.cqSize q) := by
  exact ⟨at' qW, 0, [0, 0, 0, 0], _, by decide +kernel, by decide +kernel, by decide +kernel, by decide +kernel, rfl, by decide +kernel, by decide +kernel⟩

theorem witness_CommandLife_1 :
    ∃ (s : State) (die q k : Nat) (h : Head) (m1 : Mach),
    (s.m.clocked = true) ∧ (m1 = ((tkeys s.m.sched.queues).filter fun q => queueDie q == die).foldl (fun m q => Mach.endFailed 65536 m q) s.m) ∧ (m1.dieTakes die = true) ∧ (m1.reg 0x2200 3 0 = 1) ∧ (m1.chooseHead die = some (q, h, false)) ∧ (m1.freeSlot die = some k) ∧ (m1.confState = 0) ∧ (needsEng (descOp h.desc) = false) ∧ (m1.confBarred q h.desc = false) := by
  exact ⟨at' fun m => (qW (m.setReg 0x5401 0x0E 0 16)).setQueue 0 { Queue.fresh with heads := [⟨0, desc [(0, 1, 0x51)], 0, true, none⟩] }, 0, 0, 0, ⟨0, desc [(0, 1, 0x51)], 0, true, none⟩, _, by decide +kernel, rfl, by decide +kernel, by decide +kernel, by decide +kernel, by decide +kernel, by decide +kernel, by decide +kernel, by decide +kernel⟩

theorem witness_CommandLife_2 :
    ∃ (s : State) (slot path : Nat) (c : Cmd),
    (s.m.clocked = true) ∧ (s.m.cmd? slot = some c) ∧ (c.flushOut.contains path = true) := by
  exact ⟨at' (withCmd { cmd [] with flushOut := [255] }), 0, 255, { cmd [] with flushOut := [255] }, by decide +kernel⟩

theorem witness_CommandLife_3 :
    ∃ (s : State) (slot path : Nat) (c : Cmd),
    (s.m.clocked = true) ∧ (s.m.cmd? slot = some c) ∧ (c.flushOut.contains path = true) := by
  exact ⟨at' (withCmd { cmd [] with flushOut := [255] }), 0, 255, { cmd [] with flushOut := [255] }, by decide +kernel⟩

theorem witness_CommandLife_4 :
    ∃ (s : State) (slot : Nat) (c : Cmd) (m1 m2 : Mach),
    (s.m.clocked = true) ∧ (s.m.cmd? slot = some c) ∧ (c.done = true) ∧ (c.fabricDests = []) ∧ (m1 = (s.m.stopCrags slot).sendFlushes slot) ∧ (m1.cragsSettled slot = true) ∧ (m1.writesPending slot = false) ∧ (m1.cmd? slot = some c) ∧ (c.flushOut = []) ∧ (c.fabricOut = 0) ∧ ((m1.xl.migrations.any (·.slot == slot)) = false) ∧ ((m1.releaseLock slot).1 = true) ∧ (m2 = (m1.releaseLock slot).2) ∧ (m2.recordBlocked c.queue = none) := by
  exact ⟨at' fun m => qW (withCmd { cmd (desc [(0, 1, 0x51)]) with done := true } m), 0, { cmd (desc [(0, 1, 0x51)]) with done := true }, _, _, by decide +kernel, by decide +kernel, by decide +kernel, by decide +kernel, rfl, by decide +kernel, by decide +kernel, by decide +kernel, by decide +kernel, by decide +kernel, by decide +kernel, by decide +kernel, rfl, by decide +kernel⟩

theorem witness_CommandLife_5 :
    ∃ (s : State) (q : Nat),
    (s.m.clocked = true) ∧ ((s.m.queue q).coalescing = true) := by
  exact ⟨at' fun m => m.setQueue 4095 { Queue.fresh with coalescing := true, raisePending := true }, 4095, by decide +kernel⟩

theorem witness_CommandLife_6 :
    ∃ (s : State) (slot : Nat) (c : Cmd),
    (s.m.clocked = true) ∧ (s.m.cmd? slot = some c) ∧ (c.done = false) ∧ (descOp c.desc = 0x20) ∧ (s.m.timeBound c.desc ≠ 0) ∧ (s.m.talus? slot = none) := by
  exact ⟨at' fun m => (withCmd (cmd (desc [(0, 1, 0x20)])) m).setReg 0x5000 1 0 1, 0, cmd (desc [(0, 1, 0x20)]), by decide +kernel⟩

theorem witness_EventsAndFences_1 :
    ∃ (s : State) (w : Src) (v : Nat),
    (s.m.clocked = true) ∧ (s.m.admits w 0x5410 4 = true) := by
  exact ⟨at' session, sess, 5, by decide +kernel⟩

theorem witness_EventsAndFences_2 :
    ∃ (s : State) (slot : Nat) (c : Cmd),
    (s.m.clocked = true) ∧ (s.m.cmd? slot = some c) ∧ (descOp c.desc = 0x51) ∧ (c.done = false) ∧ (s.m.eventOk (s.m.qOwner c.queue) (fld c.desc 16 2) = true) ∧ (fld c.desc 18 1 ≤ 1) ∧ (fld c.desc 19 1 = 0) ∧ (allZero (slice c.desc 24 40) = true) := by
  exact ⟨at' (withCmd (cmd (desc [(0, 1, 0x51), (16, 2, 65535), (20, 4, 7)]))), 0, cmd (desc [(0, 1, 0x51), (16, 2, 65535), (20, 4, 7)]), by decide +kernel⟩

theorem witness_EventsAndFences_3 :
    ∃ (s : State) (slot : Nat) (c : Cmd),
    (s.m.clocked = true) ∧ (s.m.cmd? slot = some c) ∧ (descOp c.desc = 0x52) ∧ (fld c.desc 18 1 ≠ 1) ∧ (c.done = false) ∧ (s.m.waitFail c = 0) ∧ (s.m.reached (fld c.desc 24 2) (fld c.desc 32 4) = true) := by
  exact ⟨at' (withCmd (cmd (desc [(0, 1, 0x52)]))), 0, cmd (desc [(0, 1, 0x52)]), by decide +kernel⟩

theorem witness_EventsAndFences_4 :
    ∃ (s : State) (slot : Nat) (c : Cmd) (dpa span : Nat) (bs : List Byte) (m1 m2 : Mach),
    (s.m.clocked = true) ∧ (s.m.cmd? slot = some c) ∧ (descOp c.desc = 0x52) ∧ (fld c.desc 18 1 = 1) ∧ (c.done = false) ∧ (c.started = false) ∧ (s.m.waitFail c = 0) ∧ ((s.m.xlate (slotDie slot) engOther (fld c.desc 16 2) (fld c.desc 24 8) .read).1 = .local dpa span) ∧ (m1 = (s.m.xlate (slotDie slot) engOther (fld c.desc 16 2) (fld c.desc 24 8) .read).2) ∧ ((m1.loadDva slot engOther (fld c.desc 16 2) (fld c.desc 24 8) 8).1 = .ok bs) ∧ (m2 = (m1.loadDva slot engOther (fld c.desc 16 2) (fld c.desc 24 8) 8).2) ∧ (waitHolds c.desc (leNat bs) = true) := by
  exact ⟨memM, 0, memC, 0x300000, 65536, zeros 8, _, _, by decide +kernel, by decide +kernel, by decide +kernel, by decide +kernel, by decide +kernel, by decide +kernel, by decide +kernel, by decide +kernel, rfl, by decide +kernel, rfl, by decide +kernel⟩

theorem witness_EventsAndFences_5 :
    ∃ (s : State) (slot : Nat) (c : Cmd),
    (s.m.clocked = true) ∧ (s.m.cmd? slot = some c) ∧ (memoryWait c.desc = true) ∧ (c.done = false) ∧ (c.started = true) := by
  exact ⟨at' (withCmd { cmd (desc [(0, 1, 0x52), (18, 1, 1)]) with started := true }), 0, { cmd (desc [(0, 1, 0x52), (18, 1, 1)]) with started := true }, by decide +kernel⟩

theorem witness_EventsAndFences_6 :
    ∃ (s : State) (slot : Nat) (c : Cmd),
    (s.m.clocked = true) ∧ (s.m.cmd? slot = some c) ∧ (descOp c.desc = 0x52) ∧ (fld c.desc 48 4 ≠ 0) ∧ (c.done = false) := by
  exact ⟨at' (withCmd (cmd (desc [(0, 1, 0x52), (48, 4, 9)]))), 0, cmd (desc [(0, 1, 0x52), (48, 4, 9)]), by decide +kernel⟩

theorem witness_EventsAndFences_7 :
    ∃ (s : State) (slot : Nat) (c : Cmd),
    (s.m.clocked = true) ∧ (s.m.cmd? slot = some c) ∧ (descOp c.desc = 0x50) ∧ (fld c.desc 18 1 = 0) ∧ (c.done = false) ∧ (s.m.fenceFail c = 0) := by
  exact ⟨at' (withCmd (cmd (desc [(0, 1, 0x50)]))), 0, cmd (desc [(0, 1, 0x50)]), by decide +kernel⟩

theorem witness_EventsAndFences_8 :
    ∃ (s : State) (slot : Nat) (c : Cmd),
    (s.m.clocked = true) ∧ (s.m.cmd? slot = some c) ∧ (descOp c.desc = 0x50) ∧ (fld c.desc 18 1 = 1) ∧ (c.done = false) ∧ (s.m.fenceFail c = 0) ∧ (s.m.eng.talus.sets = []) ∧ ((s.m.freeSets fun s => (s.ast == fld c.desc 16 2 && !s.retired) && s.user.isNone) = s.m) ∧ (s.m.setSets [] = s.m) := by
  exact ⟨at' fun m => withAst (withCmd (cmd (desc [(0, 1, 0x50), (16, 2, 1), (18, 1, 1)])) m), 0, cmd (desc [(0, 1, 0x50), (16, 2, 1), (18, 1, 1)]), by decide +kernel⟩

theorem witness_EventsAndFences_9 :
    ∃ (s : State) (slot : Nat) (c : Cmd),
    (s.m.clocked = true) ∧ (s.m.cmd? slot = some c) ∧ (descOp c.desc = 0x50) ∧ (fld c.desc 18 1 = 2) ∧ (c.done = false) ∧ (s.m.fenceFail c = 0) ∧ (c.waitsFor = []) := by
  exact ⟨at' (withCmd (cmd (desc [(0, 1, 0x50), (18, 1, 2)]))), 0, cmd (desc [(0, 1, 0x50), (18, 1, 2)]), by decide +kernel⟩

theorem witness_EventsAndFences_10 :
    ∃ (s : State) (slot : Nat) (c : Cmd),
    (s.m.clocked = true) ∧ (s.m.cmd? slot = some c) ∧ (descOp c.desc = 0x50) ∧ (fld c.desc 18 1 = 2) ∧ (c.done = false) ∧ (s.m.fenceFail c = 0) ∧ (c.waitsFor ≠ []) := by
  exact ⟨at' (withCmd { cmd (desc [(0, 1, 0x50), (18, 1, 2)]) with waitsFor := [8191] }), 0, { cmd (desc [(0, 1, 0x50), (18, 1, 2)]) with waitsFor := [8191] }, by decide +kernel⟩

theorem witness_BankArbiters_1 :
    ∃ (s : State) (die crag bank input : Nat) (r : BankReq),
    (s.m.clocked = true) ∧ ((s.m.bank (bankKey die crag bank)).backing.find? (·.input == input) = some r) := by
  exact ⟨at' (bankW { Bank.idle with backing := [⟨2, 1, 0, 0⟩] }), 7, 39, 15, 2, ⟨2, 1, 0, 0⟩, by decide +kernel⟩

theorem witness_BankArbiters_2 :
    ∃ (s : State) (die crag bank input : Nat),
    (s.m.clocked = true) ∧ ((s.m.bank (bankKey die crag bank)).starved = false) ∧ (((s.m.bank (bankKey die crag bank)).parked ++ (s.m.bank (bankKey die crag bank)).stalled ++ (s.m.bank (bankKey die crag bank)).backing).any (·.input == input) = true) := by
  exact ⟨at' (bankW { Bank.idle with parked := [⟨2, 1, 0, 0⟩] }), 7, 39, 15, 2, by decide +kernel⟩

theorem witness_BankArbiters_3 :
    ∃ (s : State) (die crag bank : Nat) (h : BankReq),
    (s.m.clocked = true) ∧ ((s.m.bank (bankKey die crag bank)).holder = some h) := by
  exact ⟨at' (bankW { Bank.idle with holder := some ⟨6, 1, 0, 0⟩, parked := [⟨2, 1, 0, 0⟩] }), 7, 39, 15, ⟨6, 1, 0, 0⟩, by decide +kernel⟩

theorem witness_BankArbiters_4 :
    ∃ (s : State) (die crag bank : Nat),
    (s.m.clocked = true) ∧ ((s.m.bank (bankKey die crag bank)).resetting = true) := by
  exact ⟨at' (bankW { Bank.idle with resetting := true }), 7, 39, 15, by decide +kernel⟩

theorem witness_AcrossDevices_1 :
    ∃ (s : State) (slot : Nat) (c : Cmd) (dpa span old : Nat) (m1 m2 : Mach),
    (s.m.clocked = true) ∧ (s.m.cmd? slot = some c) ∧ (descOp c.desc = 0x42) ∧ (c.done = false) ∧ (s.m.astOk c.queue (fld c.desc 16 2) = true) ∧ (atomicOk c.desc = true) ∧ (bit (fld c.desc 19 1) 0 = true) ∧ (fld c.desc 18 1 ≠ 0x24) ∧ ((s.m.xlate (slotDie slot) engOther (fld c.desc 16 2) (fld c.desc 24 8) .atomic).1 = .local dpa span) ∧ (m1 = (s.m.xlate (slotDie slot) engOther (fld c.desc 16 2) (fld c.desc 24 8) .atomic).2) ∧ (m1.recall dpa (atomicWidth (fld c.desc 18 1)) true = none) ∧ ((m1.atomicAt (m1.homeOf dpa) dpa (fld c.desc 18 1) (fld (leBytes 16 (fld c.desc 40 8) ++ leBytes 16 (fld c.desc 48 8)) 0 16) (fld (leBytes 16 (fld c.desc 40 8) ++ leBytes 16 (fld c.desc 48 8)) 16 16) (.cmd slot)).1.toOption = some old) ∧ (m2 = (m1.atomicAt (m1.homeOf dpa) dpa (fld c.desc 18 1) (fld (leBytes 16 (fld c.desc 40 8) ++ leBytes 16 (fld c.desc 48 8)) 0 16) (fld (leBytes 16 (fld c.desc 40 8) ++ leBytes 16 (fld c.desc 48 8)) 16 16) (.cmd slot)).2) := by
  exact ⟨at' (localW engOther atomC), 0, atomC, 0x300000, 65536, 0, _, _, by decide +kernel, by decide +kernel, by decide +kernel, by decide +kernel, by decide +kernel, by decide +kernel, by decide +kernel, by decide +kernel, by decide +kernel, rfl, by decide +kernel, by decide +kernel, rfl⟩

theorem witness_AcrossDevices_2 :
    ∃ (s : State) (slot : Nat) (c : Cmd) (bs cs : List Byte) (m1 m2 : Mach),
    (s.m.clocked = true) ∧ (s.m.cmd? slot = some c) ∧ (descOp c.desc = 0x43) ∧ (c.done = false) ∧ (s.m.astOk c.queue (fld c.desc 16 2) = true) ∧ (publishOk c.desc = true) ∧ (s.m.chanOf slot = none) ∧ ((s.m.localReady (slotDie slot) engOther (fld c.desc 16 2) (fld c.desc 24 8) (fld c.desc 40 8) .read).1 = .ok bs) ∧ (m1 = (s.m.localReady (slotDie slot) engOther (fld c.desc 16 2) (fld c.desc 24 8) (fld c.desc 40 8) .read).2) ∧ ((Mach.memberRange (fld c.desc 40 8 / 65536 + 4) m1 (slotDie slot) (fld c.desc 16 2) (fld c.desc 32 8) (fld c.desc 40 8)).1 = .ok cs) ∧ (m2 = (Mach.memberRange (fld c.desc 40 8 / 65536 + 4) m1 (slotDie slot) (fld c.desc 16 2) (fld c.desc 32 8) (fld c.desc 40 8)).2) := by
  exact ⟨pubM, 0, pubC, [], [], _, _, by decide +kernel, by decide +kernel, by decide +kernel, by decide +kernel, by decide +kernel, by decide +kernel, by decide +kernel, by decide +kernel, rfl, by decide +kernel, rfl⟩

theorem witness_AcrossDevices_3 :
    ∃ (s : State) (slot : Nat) (c : Cmd) (bs src : List Byte) (m1 m2 : Mach),
    (s.m.clocked = true) ∧ (s.m.cmd? slot = some c) ∧ (descOp c.desc = 0x60) ∧ (c.done = false) ∧ (s.m.hall.colls = []) ∧ (s.m.astOk c.queue (fld c.desc 16 2) = true) ∧ (fld c.desc 22 2 < 1024) ∧ (s.m.groupMembers (fld c.desc 22 2) = [s.m.node]) ∧ (s.m.ownBlock (fld c.desc 22 2) = some 0) ∧ (collFail c.desc 1 = 0) ∧ (s.m.reg 0x4510 0x0A (fld c.desc 22 2) = 1) ∧ (fld c.desc 18 1 ≠ 3) ∧ ((s.m.localReady (slotDie slot) engOther (fld c.desc 16 2) (fld c.desc 32 8) (collSpans c.desc 1).2 .write).1 = .ok bs) ∧ (m1 = (s.m.localReady (slotDie slot) engOther (fld c.desc 16 2) (fld c.desc 32 8) (collSpans c.desc 1).2 .write).2) ∧ ((m1.loadLocal slot (slotDie slot) engOther (fld c.desc 16 2) (fld c.desc 24 8) (collSpans c.desc 1).1).1 = .ok src) ∧ (m2 = (m1.loadLocal slot (slotDie slot) engOther (fld c.desc 16 2) (fld c.desc 24 8) (collSpans c.desc 1).1).2) := by
  exact ⟨at' fun m => groupW 1 (localW engOther (collC 32) m), 0, collC 32, [], zeros 128, _, _, by decide +kernel, by decide +kernel, by decide +kernel, by decide +kernel, by decide +kernel, by decide +kernel, by decide +kernel, by decide +kernel, by decide +kernel, by decide +kernel, by decide +kernel, by decide +kernel, by decide +kernel, rfl, by decide +kernel, rfl⟩

theorem witness_AcrossDevices_4 :
    ∃ (s : State) (slot p tag : Nat) (c : Cmd) (bs src : List Byte) (m1 m2 : Mach),
    (s.m.clocked = true) ∧ (s.m.cmd? slot = some c) ∧ (descOp c.desc = 0x60) ∧ (c.done = false) ∧ (s.m.hall.colls = []) ∧ (s.m.astOk c.queue (fld c.desc 16 2) = true) ∧ (fld c.desc 22 2 < 1024) ∧ ((s.m.groupMembers (fld c.desc 22 2)).length = p) ∧ (1 < p) ∧ ((s.m.ownBlock (fld c.desc 22 2)).isSome = true) ∧ (collFail c.desc p = 0) ∧ (s.m.reg 0x4510 0x0A (fld c.desc 22 2) = 1) ∧ (fld c.desc 18 1 ≠ 3) ∧ ((s.m.localReady (slotDie slot) engOther (fld c.desc 16 2) (fld c.desc 32 8) (collSpans c.desc p).2 .write).1 = .ok bs) ∧ (m1 = (s.m.localReady (slotDie slot) engOther (fld c.desc 16 2) (fld c.desc 32 8) (collSpans c.desc p).2 .write).2) ∧ ((m1.loadLocal slot (slotDie slot) engOther (fld c.desc 16 2) (fld c.desc 24 8) (collSpans c.desc p).1).1 = .ok src) ∧ (m2 = (m1.loadLocal slot (slotDie slot) engOther (fld c.desc 16 2) (fld c.desc 24 8) (collSpans c.desc p).1).2) ∧ (m2.newTag (slotDie slot) false = some tag) := by
  exact ⟨at' fun m => groupW 3 (localW engOther (collC 64) m), 0, 2, 0, collC 64, [], zeros 256, _, _, by decide +kernel, by decide +kernel, by decide +kernel, by decide +kernel, by decide +kernel, by decide +kernel, by decide +kernel, by decide +kernel, by decide +kernel, by decide +kernel, by decide +kernel, by decide +kernel, by decide +kernel, by decide +kernel, rfl, by decide +kernel, rfl, by decide +kernel⟩

theorem witness_AcrossDevices_5 :
    ∃ (s : State) (port : Nat) (f : RFrame) (c : Coll) (m1 : Mach),
    (s.m.clocked = true) ∧ (f.opcode = opColl) ∧ (RFrameFormOk f = true) ∧ ((s.m.keyCheck f).1 = 0) ∧ (m1 = (s.m.keyCheck f).2) ∧ (bits (f.word 5) 23 16 = m1.reg 0x4510 9 (f.word 5 % 65536)) ∧ ((m1.ownBlock (f.word 5 % 65536)).isSome = true) ∧ (m1.hall.colls.find? (·.group == f.word 5 % 65536) = some c) := by
  exact ⟨at' fun m => winW 1 (groupW 3 { m with hall := { m.hall with colls := [collRun0] } }), 7, rq opColl 1 64, collRun0, _, by decide +kernel, by decide +kernel, by decide +kernel, by decide +kernel, rfl, by decide +kernel, by decide +kernel, by decide +kernel⟩

theorem witness_AcrossDevices_6 :
    ∃ (s : State) (port : Nat) (f : RFrame) (n : Nat) (k : Nat),
    (s.m.clocked = true) ∧ (mgmtFormOk f 0xE0 2 = true) := by
  exact ⟨on, 7, { rq 0xE0 1 0 with mg := true }, 7, 1, by decide +kernel⟩

theorem witness_AcrossDevices_7 :
    ∃ (s : State) (port address txn : Nat) (f : RFrame) (r : OutReq),
    (s.m.clocked = true) ∧ (mgmtFormOk f 0xE1 1 = true) ∧ (tget (s.m.takeArrived port f).fab.reqs f.tag = some r) ∧ (r.purpose = .relay address txn) := by
  exact ⟨at' fun m => { m with fab := { m.fab with reqs := [(7, ⟨rq 0xE0 1 0, .relay 3 4, 0, 0⟩)] } }, 7, 3, 4, { rq 0xE1 1 0 with mg := true, cls := 1, tag := 7 }, ⟨rq 0xE0 1 0, .relay 3 4, 0, 0⟩, by decide +kernel⟩

theorem witness_Transfers_1 :
    ∃ (s : State) (slot : Nat) (c : Cmd),
    (s.m.clocked = true) ∧ (s.m.cmd? slot = some c) ∧ (descOp c.desc = 0x01) ∧ (c.done = false) ∧ (s.m.chanOf slot = none) ∧ (s.m.astOk c.queue (fld c.desc 16 2) = true) ∧ (copyOk c.desc = true) ∧ ((xferCopy c.desc).geometryOk = true) := by
  exact ⟨at' (localW engCouloir copyC), 0, copyC, by decide +kernel⟩

theorem witness_Transfers_2 :
    ∃ (s : State) (slot : Nat) (c : Cmd),
    (s.m.clocked = true) ∧ (s.m.cmd? slot = some c) ∧ (descOp c.desc = 0x02) ∧ (c.done = false) ∧ (s.m.chanOf slot = none) ∧ (s.m.astOk c.queue (fld c.desc 16 2) = true) ∧ (transformOk c.desc = true) := by
  exact ⟨at' (localW engCouloir (cmd (desc [(0, 1, 2), (16, 2, 1), (18, 1, 63), (20, 1, 39), (32, 4, 1)]))), 0, cmd (desc [(0, 1, 2), (16, 2, 1), (18, 1, 63), (20, 1, 39), (32, 4, 1)]), by decide +kernel⟩

theorem witness_Transfers_3 :
    ∃ (s : State) (die ch : Nat) (r : ChanRun) (c : Cmd) (e : List Byte) (m2 : Mach),
    (s.m.clocked = true) ∧ (s.m.chanReady (chanKey die ch) = some (r, c)) ∧ (descOp c.desc = 0x02) ∧ (r.elem = none) ∧ (r.index < fld c.desc 32 4) ∧ ((s.m.loadLocal r.slot die engCouloir (fld c.desc 16 2) r.elemDva 64).1 = .ok e) ∧ (m2 = (s.m.loadLocal r.slot die engCouloir (fld c.desc 16 2) r.elemDva 64).2) ∧ (m2.elementOk e (couloirCrag c.desc).isSome = true) := by
  exact ⟨at' fun m => (chanW 1 trC m).setBytes 0x300000 trE, 0, 0, run0, trC, trE, _, by decide +kernel, by decide +kernel, by decide +kernel, by decide +kernel, by decide +kernel, by decide +kernel, rfl, by decide +kernel⟩

theorem witness_Transfers_4 :
    ∃ (s : State) (die ch steps taken : Nat) (r : ChanRun) (c : Cmd) (m2 : Mach),
    (s.m.clocked = true) ∧ (s.m.chanReady (chanKey die ch) = some (r, c)) ∧ ((Mach.sliceSteps (min steps 256) s.m (chanKey die ch) 0).1 = taken) ∧ (m2 = (Mach.sliceSteps (min steps 256) s.m (chanKey die ch) 0).2) ∧ (((m2.cmd? r.slot).map (·.done)) = some false) := by
  exact ⟨at' (chanW 1 copyC), 0, 0, 0, 0, run0, copyC, _, by decide +kernel, by decide +kernel, by decide +kernel, rfl, by decide +kernel⟩

theorem witness_Transfers_5 :
    ∃ (s : State) (die ch st : Nat) (r : ChanRun) (c : Cmd) (m2 : Mach),
    (s.m.clocked = true) ∧ (s.m.chan? (chanKey die ch) = some r) ∧ (s.m.cmd? r.slot = some c) ∧ (descOp c.desc = 0x02) ∧ (couloirCrag c.desc = none) ∧ (c.done = false) ∧ (s.m.channel (chanKey die ch) = 1) ∧ (r.elem = none) ∧ (r.index < fld c.desc 32 4) ∧ ((s.m.loadLocal r.slot die engCouloir (fld c.desc 16 2) r.elemDva 64).1 = .failed st) ∧ (m2 = (s.m.loadLocal r.slot die engCouloir (fld c.desc 16 2) r.elemDva 64).2) ∧ (st ≠ stBadFormat) ∧ (st ≠ stPoison) := by
  exact ⟨at' fun m => { chanW 1 trC m with xl := { m.xl with asts := [] } }, 0, 0, stBadAst, run0, trC, _, by decide +kernel, by decide +kernel, by decide +kernel, by decide +kernel, by decide +kernel, by decide +kernel, by decide +kernel, by decide +kernel, by decide +kernel, by decide +kernel, rfl, by decide +kernel, by decide +kernel⟩

theorem witness_ChannelControls_1 :
    ∃ (s : State) (w : Src) (k : Nat),
    (s.m.clocked = true) ∧ (s.m.admits w 0x5301 4 = true) ∧ (s.m.heard.rowOf w.q 0x5301 4 = k) ∧ (s.m.heard.identOf w.q = none) ∧ (s.m.heard.engDown (k / 64) = false) ∧ (s.m.heard.channel k = 2) := by
  exact ⟨at' fun m => session (chanW 2 copyC m), sess, 0, by decide +kernel⟩

theorem witness_ChannelControls_2 :
    ∃ (s : State) (w : Src) (k : Nat),
    (s.m.clocked = true) ∧ (s.m.admits w 0x5301 4 = true) ∧ (s.m.heard.rowOf w.q 0x5301 4 = k) ∧ (s.m.heard.identOf w.q = none) ∧ (s.m.heard.channel k = 1) := by
  exact ⟨at' fun m => session (chanW 1 copyC m), sess, 0, by decide +kernel⟩

theorem witness_ChannelControls_3 :
    ∃ (s : State) (w : Src) (k : Nat) (r : ChanRun) (c : Cmd),
    (s.m.clocked = true) ∧ (s.m.admits w 0x5301 4 = true) ∧ (s.m.heard.rowOf w.q 0x5301 4 = k) ∧ (s.m.heard.identOf w.q = none) ∧ (s.m.heard.channel k = 3) ∧ (s.m.heard.chan? k = some r) ∧ (s.m.heard.cmd? r.slot = some c) := by
  exact ⟨at' fun m => session (chanW 3 copyC m), sess, 0, run0, copyC, by decide +kernel⟩

theorem witness_ChannelControls_4 :
    ∃ (s : State) (w : Src) (k : Nat) (r : ChanRun),
    (s.m.clocked = true) ∧ (s.m.admits w 0x5301 4 = true) ∧ (s.m.heard.rowOf w.q 0x5301 4 = k) ∧ (s.m.heard.identOf w.q = none) ∧ (s.m.heard.channel k = 3) ∧ (s.m.heard.chan? k = some r) ∧ (s.m.heard.engDown (k / 64) = false) := by
  exact ⟨at' fun m => session (chanW 3 copyC m), sess, 0, run0, by decide +kernel⟩

theorem witness_ChannelControls_5 :
    ∃ (s : State) (w : Src) (k : Nat),
    (s.m.clocked = true) ∧ (s.m.admits w 0x5301 4 = true) ∧ (s.m.heard.rowOf w.q 0x5301 4 = k) ∧ (s.m.heard.identOf w.q = none) ∧ (s.m.heard.channel k = 3) := by
  exact ⟨at' fun m => session (chanW 3 copyC m), sess, 0, by decide +kernel⟩

theorem witness_ChannelControls_6 :
    ∃ (s : State) (die ch : Nat) (r : ChanRun),
    (s.m.clocked = true) ∧ (s.m.channel (chanKey die ch) = 3) ∧ (s.m.reg 0x5300 2 0 ≠ 0) ∧ (s.m.chan? (chanKey die ch) = some r) := by
  exact ⟨at' fun m => (chanW 3 copyC m).setReg 0x5300 2 0 9, 0, 0, run0, by decide +kernel⟩

theorem witness_TileControl_1 :
    ∃ (s : State) (die n : Nat) (i : TileInstr),
    (s.m.clocked = true) ∧ (s.m.issues 0x00 die n i = true) := by
  exact ⟨at' (tileW (tileI 0x00 0 0 0 0 0)), 0, 0, ⟨0x00, false, 0, 0, 0, 0, 0, 0⟩, by decide +kernel⟩

theorem witness_TileControl_2 :
    ∃ (s : State) (die n : Nat) (i : TileInstr),
    (s.m.clocked = true) ∧ (s.m.issues 0x01 die n i = true) ∧ ((s.m.crag (cragKey die n)).asyncs = []) ∧ ((s.m.crag (cragKey die n)).slot = none) := by
  exact ⟨at' (tileFree (tileI 0x01 0 0 0 0 0)), 0, 0, ⟨0x01, false, 0, 0, 0, 0, 0, 0⟩, by decide +kernel⟩

theorem witness_TileControl_3 :
    ∃ (s : State) (die n : Nat) (i : TileInstr) (k : Nat),
    (s.m.clocked = true) ∧ (s.m.issues 0x01 die n i = true) ∧ ((s.m.crag (cragKey die n)).asyncs = []) ∧ ((s.m.crag (cragKey die n)).slot = some k) := by
  exact ⟨at' (tileW (tileI 0x01 0 0 0 0 0)), 0, 0, ⟨0x01, false, 0, 0, 0, 0, 0, 0⟩, 0, by decide +kernel⟩

theorem witness_TileControl_4 :
    ∃ (s : State) (die n : Nat) (i : TileInstr),
    (s.m.clocked = true) ∧ (s.m.issues 0x02 die n i = true) := by
  exact ⟨at' (tileW (tileI 0x02 0 0 0 77 0)), 0, 0, ⟨0x02, false, 0, 0, 0, 0, 77, 0⟩, by decide +kernel⟩

theorem witness_TileControl_5 :
    ∃ (s : State) (die n : Nat) (i : TileInstr),
    (s.m.clocked = true) ∧ (s.m.issues 0x03 die n i = true) ∧ (16 * (i.b % 4096) < (s.m.crag (cragKey die n)).prog.length) := by
  exact ⟨at' (tileW (tileI 0x03 0 0 4096 0 0)), 0, 0, ⟨0x03, false, 0, 0, 0, 4096, 0, 0⟩, by decide +kernel⟩

theorem witness_TileControl_6 :
    ∃ (s : State) (die n : Nat) (i : TileInstr),
    (s.m.clocked = true) ∧ (s.m.issues 0x04 die n i = true) ∧ ((s.m.crag (cragKey die n)).pc < i.c % 4096) ∧ (16 * (i.c % 4096) < (s.m.crag (cragKey die n)).prog.length) ∧ ((s.m.crag (cragKey die n)).loops = []) := by
  exact ⟨at' (tileW (tileI 0x04 0 0 65536 3 1 ++ zeros 16)), 0, 0, ⟨0x04, false, 0, 0, 0, 65536, 3, 1⟩, by decide +kernel⟩

theorem witness_TileControl_7 :
    ∃ (s : State) (die n : Nat) (i : TileInstr),
    (s.m.clocked = true) ∧ (s.m.issues 0x05 die n i = true) ∧ ((bit i.a 0 && !(s.m.crag (cragKey die n)).asyncs.isEmpty) = false) := by
  exact ⟨at' (tileW (tileI 0x05 0 0 1 0 0)), 0, 0, ⟨0x05, false, 0, 0, 0, 1, 0, 0⟩, by decide +kernel⟩

theorem witness_TileScalar_1 :
    ∃ (s : State) (die n : Nat) (i : TileInstr),
    (s.m.clocked = true) ∧ (s.m.issues 0x10 die n i = true) := by
  exact ⟨at' (tileW (tileI 0x10 0 0 0 4294967295 0)), 0, 0, ⟨0x10, false, 0, 0, 0, 0, 4294967295, 0⟩, by decide +kernel⟩

theorem witness_TileScalar_2 :
    ∃ (s : State) (die n : Nat) (i : TileInstr),
    (s.m.clocked = true) ∧ (s.m.issues 0x11 die n i = true) := by
  exact ⟨at' (tileW (tileI 0x11 0 0 0 4294967295 0)), 0, 0, ⟨0x11, false, 0, 0, 0, 0, 4294967295, 0⟩, by decide +kernel⟩

theorem witness_TileScalar_3 :
    ∃ (s : State) (die n : Nat) (i : TileInstr),
    (s.m.clocked = true) ∧ (s.m.issues 0x12 die n i = true) := by
  exact ⟨at' (tileW (tileI 0x12 0 0 33 0 0)), 0, 0, ⟨0x12, false, 0, 0, 0, 33, 0, 0⟩, by decide +kernel⟩

theorem witness_TileScalar_4 :
    ∃ (s : State) (die n : Nat) (i : TileInstr),
    (s.m.clocked = true) ∧ (s.m.issues 0x13 die n i = true) := by
  exact ⟨at' (tileW (tileI 0x13 0 0 33 0 0)), 0, 0, ⟨0x13, false, 0, 0, 0, 33, 0, 0⟩, by decide +kernel⟩

theorem witness_TileScalar_5 :
    ∃ (s : State) (die n : Nat) (i : TileInstr),
    (s.m.clocked = true) ∧ (s.m.issues 0x14 die n i = true) := by
  exact ⟨at' (tileW (tileI 0x14 0 0 33 0 0)), 0, 0, ⟨0x14, false, 0, 0, 0, 33, 0, 0⟩, by decide +kernel⟩

theorem witness_TileScalar_6 :
    ∃ (s : State) (die n : Nat) (i : TileInstr),
    (s.m.clocked = true) ∧ (s.m.issues 0x15 die n i = true) := by
  exact ⟨at' (tileW (tileI 0x15 0 0 33 0 0)), 0, 0, ⟨0x15, false, 0, 0, 0, 33, 0, 0⟩, by decide +kernel⟩

theorem witness_TileScalar_7 :
    ∃ (s : State) (die n : Nat) (i : TileInstr),
    (s.m.clocked = true) ∧ (s.m.issues 0x16 die n i = true) := by
  exact ⟨at' (tileW (tileI 0x16 0 0 33 0 0)), 0, 0, ⟨0x16, false, 0, 0, 0, 33, 0, 0⟩, by decide +kernel⟩

theorem witness_TileScalar_8 :
    ∃ (s : State) (die n : Nat) (i : TileInstr),
    (s.m.clocked = true) ∧ (s.m.issues 0x17 die n i = true) := by
  exact ⟨at' (tileW (tileI 0x17 0 0 33 0 0)), 0, 0, ⟨0x17, false, 0, 0, 0, 33, 0, 0⟩, by decide +kernel⟩

theorem witness_TileScalar_9 :
    ∃ (s : State) (die n : Nat) (i : TileInstr),
    (s.m.clocked = true) ∧ (s.m.issues 0x18 die n i = true) := by
  exact ⟨at' (tileW (tileI 0x18 0 0 33 0 0)), 0, 0, ⟨0x18, false, 0, 0, 0, 33, 0, 0⟩, by decide +kernel⟩

theorem witness_TileScalar_10 :
    ∃ (s : State) (die n : Nat) (i : TileInstr) (a : Nat),
    (s.m.clocked = true) ∧ (s.m.issues 0x19 die n i = true) ∧ (slAddr (s.m.crag (cragKey die n)) i = some a) := by
  exact ⟨at' (tileW (tileI 0x19 0 0 0 2097144 0)), 0, 0, ⟨0x19, false, 0, 0, 0, 0, 2097144, 0⟩, 2097144, by decide +kernel⟩

theorem witness_TileScalar_11 :
    ∃ (s : State) (die n : Nat) (i : TileInstr) (a : Nat),
    (s.m.clocked = true) ∧ (s.m.issues 0x1A die n i = true) ∧ (slAddr (s.m.crag (cragKey die n)) i = some a) := by
  exact ⟨at' (tileW (tileI 0x1A 0 0 0 2097144 0)), 0, 0, ⟨0x1A, false, 0, 0, 0, 0, 2097144, 0⟩, 2097144, by decide +kernel⟩

theorem witness_TileVector_1 :
    ∃ (s : State) (die n : Nat) (i : TileInstr) (a : Nat),
    (s.m.clocked = true) ∧ (s.m.issues 0x40 die n i = true) ∧ (vlAddr (s.m.crag (cragKey die n)) i = some a) := by
  exact ⟨at' (tileW (tileI 0x40 0 0 0 2096896 0)), 0, 0, ⟨0x40, false, 0, 0, 0, 0, 2096896, 0⟩, 2096896, by decide +kernel⟩

theorem witness_TileVector_2 :
    ∃ (s : State) (die n : Nat) (i : TileInstr) (a : Nat),
    (s.m.clocked = true) ∧ (s.m.issues 0x41 die n i = true) ∧ (vlAddr (s.m.crag (cragKey die n)) i = some a) := by
  exact ⟨at' (tileW (tileI 0x41 0 0 0 2096896 0)), 0, 0, ⟨0x41, false, 0, 0, 0, 0, 2096896, 0⟩, 2096896, by decide +kernel⟩

theorem witness_TileVector_3 :
    ∃ (s : State) (die n : Nat) (i : TileInstr),
    (s.m.clocked = true) ∧ (s.m.issues 0x42 die n i = true) := by
  exact ⟨at' (tileW (tileI 0x42 0 0 0 0 0)), 0, 0, ⟨0x42, false, 0, 0, 0, 0, 0, 0⟩, by decide +kernel⟩

theorem witness_TileVector_4 :
    ∃ (s : State) (die n : Nat) (i : TileInstr),
    (s.m.clocked = true) ∧ (s.m.issues 0x43 die n i = true) := by
  exact ⟨at' (tileW (tileI 0x43 0 0 0 0 0)), 0, 0, ⟨0x43, false, 0, 0, 0, 0, 0, 0⟩, by decide +kernel⟩

theorem witness_TileVector_5 :
    ∃ (s : State) (die n : Nat) (i : TileInstr),
    (s.m.clocked = true) ∧ (s.m.issues 0x44 die n i = true) := by
  exact ⟨at' (tileW (tileI 0x44 0 0 0 0 0)), 0, 0, ⟨0x44, false, 0, 0, 0, 0, 0, 0⟩, by decide +kernel⟩

theorem witness_TileVector_6 :
    ∃ (s : State) (die n : Nat) (i : TileInstr),
    (s.m.clocked = true) ∧ (s.m.issues 0x45 die n i = true) := by
  exact ⟨at' (tileW (tileI 0x45 0 0 0 0 0)), 0, 0, ⟨0x45, false, 0, 0, 0, 0, 0, 0⟩, by decide +kernel⟩

theorem witness_TileVector_7 :
    ∃ (s : State) (die n : Nat) (i : TileInstr),
    (s.m.clocked = true) ∧ (s.m.issues 0x46 die n i = true) := by
  exact ⟨at' (tileW (tileI 0x46 0 0 0 0 0)), 0, 0, ⟨0x46, false, 0, 0, 0, 0, 0, 0⟩, by decide +kernel⟩

theorem witness_TileVector_8 :
    ∃ (s : State) (die n : Nat) (i : TileInstr),
    (s.m.clocked = true) ∧ (s.m.issues 0x47 die n i = true) := by
  exact ⟨at' (tileW (tileI 0x47 0 0 0 0 0)), 0, 0, ⟨0x47, false, 0, 0, 0, 0, 0, 0⟩, by decide +kernel⟩

theorem witness_TileVector_9 :
    ∃ (s : State) (die n : Nat) (i : TileInstr),
    (s.m.clocked = true) ∧ (s.m.issues 0x48 die n i = true) := by
  exact ⟨at' (tileW (tileI 0x48 0 0 0 0 0)), 0, 0, ⟨0x48, false, 0, 0, 0, 0, 0, 0⟩, by decide +kernel⟩

theorem witness_TileVector_10 :
    ∃ (s : State) (die n : Nat) (i : TileInstr),
    (s.m.clocked = true) ∧ (s.m.issues 0x49 die n i = true) := by
  exact ⟨at' (tileW (tileI 0x49 0 0 0 0 0)), 0, 0, ⟨0x49, false, 0, 0, 0, 0, 0, 0⟩, by decide +kernel⟩

theorem witness_TileVector_11 :
    ∃ (s : State) (die n : Nat) (i : TileInstr),
    (s.m.clocked = true) ∧ (s.m.issues 0x4A die n i = true) := by
  exact ⟨at' (tileW (tileI 0x4A 0 0 0 0 0)), 0, 0, ⟨0x4A, false, 0, 0, 0, 0, 0, 0⟩, by decide +kernel⟩

theorem witness_TileVector_12 :
    ∃ (s : State) (die n : Nat) (i : TileInstr) (v : List Nat) (m1 : Mach),
    (s.m.clocked = true) ∧ (s.m.issues 0x4B die n i = true) ∧ ((((s.m.crag (cragKey die n)).v i.va).foldl (fun (r : List Nat × Mach) a => (r.1 ++ [(r.2.exp2Lane a).1], (r.2.exp2Lane a).2)) ([], s.m)).1 = v) ∧ (m1 = (((s.m.crag (cragKey die n)).v i.va).foldl (fun (r : List Nat × Mach) a => (r.1 ++ [(r.2.exp2Lane a).1], (r.2.exp2Lane a).2)) ([], s.m)).2) := by
  exact ⟨at' (tileW (tileI 0x4B 0 0 0 0 0)), 0, 0, ⟨0x4B, false, 0, 0, 0, 0, 0, 0⟩, List.replicate 64 0x3F800000, _, by decide +kernel, by decide +kernel, by decide +kernel, rfl⟩

theorem witness_TileVector_13 :
    ∃ (s : State) (die n : Nat) (i : TileInstr),
    (s.m.clocked = true) ∧ (s.m.issues 0x4C die n i = true) ∧ (bit i.a 28 = true) := by
  exact ⟨at' (tileW (tileI 0x4C 0 0 268435456 0 0)), 0, 0, ⟨0x4C, false, 0, 0, 0, 268435456, 0, 0⟩, by decide +kernel⟩

theorem witness_TileVector_14 :
    ∃ (s : State) (die n : Nat) (i : TileInstr),
    (s.m.clocked = true) ∧ (s.m.issues 0x4C die n i = true) ∧ (bit i.a 28 = false) := by
  exact ⟨at' (tileW (tileI 0x4C 0 0 0 0 0)), 0, 0, ⟨0x4C, false, 0, 0, 0, 0, 0, 0⟩, by decide +kernel⟩

theorem witness_TileVector_15 :
    ∃ (s : State) (die n : Nat) (i : TileInstr),
    (s.m.clocked = true) ∧ (s.m.issues 0x4D die n i = true) := by
  exact ⟨at' (tileW (tileI 0x4D 0 0 0 0 0)), 0, 0, ⟨0x4D, false, 0, 0, 0, 0, 0, 0⟩, by decide +kernel⟩

theorem witness_TileVector_16 :
    ∃ (s : State) (die n : Nat) (i : TileInstr),
    (s.m.clocked = true) ∧ (s.m.issues 0x4E die n i = true) := by
  exact ⟨at' (tileW (tileI 0x4E 0 0 0 0 0)), 0, 0, ⟨0x4E, false, 0, 0, 0, 0, 0, 0⟩, by decide +kernel⟩

theorem witness_TileAsync_1 :
    ∃ (s : State) (die n : Nat) (i : TileInstr),
    (s.m.clocked = true) ∧ (s.m.issues 0x20 die n i = true) ∧ (asyncFault i (sregA i (s.m.crag (cragKey die n))) (sregB i (s.m.crag (cragKey die n))) = none) := by
  exact ⟨at' (tileW (tileI 0x20 0 0 0 0 1)), 0, 0, ⟨0x20, false, 0, 0, 0, 0, 0, 1⟩, by decide +kernel⟩

theorem witness_TileAsync_2 :
    ∃ (s : State) (die n : Nat) (i : TileInstr),
    (s.m.clocked = true) ∧ (s.m.issues 0x21 die n i = true) ∧ (asyncFault i (sregA i (s.m.crag (cragKey die n))) (sregB i (s.m.crag (cragKey die n))) = none) := by
  exact ⟨at' (tileW (tileI 0x21 0 0 0 0 0)), 0, 0, ⟨0x21, false, 0, 0, 0, 0, 0, 0⟩, by decide +kernel⟩

theorem witness_TileAsync_3 :
    ∃ (s : State) (die n : Nat) (i : TileInstr),
    (s.m.clocked = true) ∧ (s.m.issues 0x22 die n i = true) ∧ (asyncFault i (sregA i (s.m.crag (cragKey die n))) (sregB i (s.m.crag (cragKey die n))) = none) := by
  exact ⟨at' (tileW (tileI 0x22 0 0 0 0 1)), 0, 0, ⟨0x22, false, 0, 0, 0, 0, 0, 1⟩, by decide +kernel⟩

theorem witness_TileAsync_4 :
    ∃ (s : State) (die n : Nat) (i : TileInstr),
    (s.m.clocked = true) ∧ (s.m.issues 0x23 die n i = true) ∧ (asyncFault i (sregNone i (s.m.crag (cragKey die n))) (sregNone i (s.m.crag (cragKey die n))) = none) := by
  exact ⟨at' (tileW (tileI 0x23 0 0 0 64 4)), 0, 0, ⟨0x23, false, 0, 0, 0, 0, 64, 4⟩, by decide +kernel⟩

theorem witness_TileAsync_5 :
    ∃ (s : State) (die n : Nat) (i : TileInstr),
    (s.m.clocked = true) ∧ (s.m.issues 0x24 die n i = true) ∧ (asyncFault i (sregNone i (s.m.crag (cragKey die n))) (sregNone i (s.m.crag (cragKey die n))) = none) := by
  exact ⟨at' (tileW (tileI 0x24 0 0 0 7 4)), 0, 0, ⟨0x24, false, 0, 0, 0, 0, 7, 4⟩, by decide +kernel⟩

theorem witness_TileAsync_6 :
    ∃ (s : State) (die n : Nat) (i : TileInstr),
    (s.m.clocked = true) ∧ (s.m.issues 0x30 die n i = true) ∧ (asyncFault i (sregM i (s.m.crag (cragKey die n))) (sregNone i (s.m.crag (cragKey die n))) = none) := by
  exact ⟨at' (tileW (tileI 0x30 0 0 1025 0 0)), 0, 0, ⟨0x30, false, 0, 0, 0, 1025, 0, 0⟩, by decide +kernel⟩

theorem witness_TileAsync_7 :
    ∃ (s : State) (die n : Nat) (i : TileInstr),
    (s.m.clocked = true) ∧ (s.m.issues 0x31 die n i = true) ∧ (asyncFault i (sregM i (s.m.crag (cragKey die n))) (sregNone i (s.m.crag (cragKey die n))) = none) := by
  exact ⟨at' (tileW (tileI 0x31 0 0 1025 0 0)), 0, 0, ⟨0x31, false, 0, 0, 0, 1025, 0, 0⟩, by decide +kernel⟩

theorem witness_TileAsync_8 :
    ∃ (s : State) (die n : Nat) (i : TileInstr),
    (s.m.clocked = true) ∧ (s.m.issues 0x32 die n i = true) ∧ (asyncFault i (sregM i (s.m.crag (cragKey die n))) (sregNone i (s.m.crag (cragKey die n))) = none) := by
  exact ⟨at' (tileW (tileI 0x32 0 0 1 0 0)), 0, 0, ⟨0x32, false, 0, 0, 0, 1, 0, 0⟩, by decide +kernel⟩

theorem witness_TileAsync_9 :
    ∃ (s : State) (die n : Nat) (i : TileInstr),
    (s.m.clocked = true) ∧ (s.m.issues 0x33 die n i = true) ∧ (asyncFault i (sregM i (s.m.crag (cragKey die n))) (sregNone i (s.m.crag (cragKey die n))) = none) := by
  exact ⟨at' (tileW (tileI 0x33 0 0 3585 0 0)), 0, 0, ⟨0x33, false, 0, 0, 0, 3585, 0, 0⟩, by decide +kernel⟩

theorem witness_TileAsync_10 :
    ∃ (s : State) (die n : Nat) (i : TileInstr),
    (s.m.clocked = true) ∧ (s.m.issues 0x34 die n i = true) ∧ (asyncFault i (sregM i (s.m.crag (cragKey die n))) (sregNone i (s.m.crag (cragKey die n))) = none) := by
  exact ⟨at' (tileW (tileI 0x34 0 0 3585 0 0)), 0, 0, ⟨0x34, false, 0, 0, 0, 3585, 0, 0⟩, by decide +kernel⟩

theorem witness_TileAsync_11 :
    ∃ (s : State) (die n idx slot : Nat) (o : AsyncOp) (bs : List Byte) (m2 : Mach),
    (s.m.clocked = true) ∧ ((s.m.crag (cragKey die n)).asyncs[idx]? = some o) ∧ ((s.m.crag (cragKey die n)).slot = some slot) ∧ (((s.m.crag (cragKey die n)).asyncs.take idx).any (fun e => asyncBefore e o) = false) ∧ (o.op = 0x20) ∧ ((s.m.loadRows slot die n (((s.m.cmd? slot).map fun d => fld d.desc 16 2).getD 0) o.x o.y (tLen o.b) (tRows o.b)).1 = .ok bs) ∧ (m2 = (s.m.loadRows slot die n (((s.m.cmd? slot).map fun d => fld d.desc 16 2).getD 0) o.x o.y (tLen o.b) (tRows o.b)).2) := by
  exact ⟨at' (asyncW ⟨0x20, 0, 0, 1, none, 0, 0, 0, 0⟩), 0, 0, 0, 0, ⟨0x20, 0, 0, 1, none, 0, 0, 0, 0⟩, zeros 16, _, by decide +kernel, by decide +kernel, by decide +kernel, by decide +kernel, by decide +kernel, by decide +kernel, rfl⟩

theorem witness_TileAsync_12 :
    ∃ (s : State) (die n idx slot : Nat) (o : AsyncOp),
    (s.m.clocked = true) ∧ ((s.m.crag (cragKey die n)).asyncs[idx]? = some o) ∧ ((s.m.crag (cragKey die n)).slot = some slot) ∧ (((s.m.crag (cragKey die n)).asyncs.take idx).any (fun e => asyncBefore e o) = false) ∧ (o.op = 0x23) := by
  exact ⟨at' (asyncW ⟨0x23, 0, 64, 4, none, 0, 0, 0, 0⟩), 0, 0, 0, 0, ⟨0x23, 0, 64, 4, none, 0, 0, 0, 0⟩, by decide +kernel⟩

theorem witness_TileAsync_13 :
    ∃ (s : State) (die n idx slot : Nat) (o : AsyncOp),
    (s.m.clocked = true) ∧ ((s.m.crag (cragKey die n)).asyncs[idx]? = some o) ∧ ((s.m.crag (cragKey die n)).slot = some slot) ∧ (((s.m.crag (cragKey die n)).asyncs.take idx).any (fun e => asyncBefore e o) = false) ∧ (o.op = 0x24) := by
  exact ⟨at' (asyncW ⟨0x24, 0, 7, 4, none, 0, 0, 0, 0⟩), 0, 0, 0, 0, ⟨0x24, 0, 7, 4, none, 0, 0, 0, 0⟩, by decide +kernel⟩

theorem witness_TileAsync_14 :
    ∃ (s : State) (die n idx slot : Nat) (o : AsyncOp),
    (s.m.clocked = true) ∧ ((s.m.crag (cragKey die n)).asyncs[idx]? = some o) ∧ ((s.m.crag (cragKey die n)).slot = some slot) ∧ (((s.m.crag (cragKey die n)).asyncs.take idx).any (fun e => asyncBefore e o) = false) ∧ (o.op = 0x30) := by
  exact ⟨at' (asyncW ⟨0x30, 1025, 0, 0, none, 0, 0, 0, 0⟩), 0, 0, 0, 0, ⟨0x30, 1025, 0, 0, none, 0, 0, 0, 0⟩, by decide +kernel⟩

theorem witness_TileAsync_15 :
    ∃ (s : State) (die n idx slot : Nat) (o : AsyncOp),
    (s.m.clocked = true) ∧ ((s.m.crag (cragKey die n)).asyncs[idx]? = some o) ∧ ((s.m.crag (cragKey die n)).slot = some slot) ∧ (((s.m.crag (cragKey die n)).asyncs.take idx).any (fun e => asyncBefore e o) = false) ∧ (o.op = 0x31) ∧ ((maskArrays o.a).any (fun a => !pairOk (s.m.crag (cragKey die n)) o a) = false) := by
  exact ⟨at' (asyncW ⟨0x31, 1025, 0, 0, none, 0, 0, 0, 0⟩), 0, 0, 0, 0, ⟨0x31, 1025, 0, 0, none, 0, 0, 0, 0⟩, by decide +kernel⟩

theorem witness_TileAsync_16 :
    ∃ (s : State) (die n idx slot : Nat) (o : AsyncOp),
    (s.m.clocked = true) ∧ ((s.m.crag (cragKey die n)).asyncs[idx]? = some o) ∧ ((s.m.crag (cragKey die n)).slot = some slot) ∧ (((s.m.crag (cragKey die n)).asyncs.take idx).any (fun e => asyncBefore e o) = false) ∧ (o.op = 0x32) := by
  exact ⟨at' (asyncW ⟨0x32, 1, 0, 0, none, 0, 0, 0, 0⟩), 0, 0, 0, 0, ⟨0x32, 1, 0, 0, none, 0, 0, 0, 0⟩, by decide +kernel⟩

theorem witness_TileAsync_17 :
    ∃ (s : State) (die n idx slot : Nat) (o : AsyncOp),
    (s.m.clocked = true) ∧ ((s.m.crag (cragKey die n)).asyncs[idx]? = some o) ∧ ((s.m.crag (cragKey die n)).slot = some slot) ∧ (((s.m.crag (cragKey die n)).asyncs.take idx).any (fun e => asyncBefore e o) = false) ∧ (o.op = 0x33) := by
  exact ⟨at' (asyncW ⟨0x33, 3585, 0, 0, none, 0, 0, 0, 0⟩), 0, 0, 0, 0, ⟨0x33, 3585, 0, 0, none, 0, 0, 0, 0⟩, by decide +kernel⟩

theorem witness_TileAsync_18 :
    ∃ (s : State) (die n idx slot : Nat) (o : AsyncOp),
    (s.m.clocked = true) ∧ ((s.m.crag (cragKey die n)).asyncs[idx]? = some o) ∧ ((s.m.crag (cragKey die n)).slot = some slot) ∧ (((s.m.crag (cragKey die n)).asyncs.take idx).any (fun e => asyncBefore e o) = false) ∧ (o.op = 0x34) := by
  exact ⟨at' (asyncW ⟨0x34, 3585, 0, 0, none, 0, 0, 0, 0⟩), 0, 0, 0, 0, ⟨0x34, 3585, 0, 0, none, 0, 0, 0, 0⟩, by decide +kernel⟩

theorem witness_CragCommands_1 :
    ∃ (s : State) (slot : Nat) (c : Cmd),
    (s.m.clocked = true) ∧ (s.m.cmd? slot = some c) ∧ (descOp c.desc = 0x30) ∧ (c.done = false) ∧ (s.m.hasCrags slot = false) ∧ (s.m.astOk c.queue (fld c.desc 16 2) = true) ∧ (kernelOk c.desc = true) ∧ (kernelDie slot c.desc < s.m.dies) ∧ (s.m.dieActive (kernelDie slot c.desc) = true) := by
  exact ⟨at' (localW 0 kernC), 0, kernC, by decide +kernel⟩

theorem witness_CragCommands_2 :
    ∃ (s : State) (slot : Nat) (c : Cmd) (b1 b2 b3 h : List Byte) (m1 m2 m3 m4 : Mach),
    (s.m.clocked = true) ∧ (s.m.cmd? slot = some c) ∧ (descOp c.desc = 0x31) ∧ (c.done = false) ∧ ((tget s.m.eng.crag.optims slot).isSome = false) ∧ (s.m.astOk c.queue (fld c.desc 16 2) = true) ∧ (optimOk c.desc = true) ∧ ((s.m.localReady (slotDie slot) (fld c.desc 21 1) (fld c.desc 16 2) (fld c.desc 24 8) 1 .write).1 = .ok b1) ∧ (m1 = (s.m.localReady (slotDie slot) (fld c.desc 21 1) (fld c.desc 16 2) (fld c.desc 24 8) 1 .write).2) ∧ ((m1.localReady (slotDie slot) (fld c.desc 21 1) (fld c.desc 16 2) (fld c.desc 32 8) 1 .read).1 = .ok b2) ∧ (m2 = (m1.localReady (slotDie slot) (fld c.desc 21 1) (fld c.desc 16 2) (fld c.desc 32 8) 1 .read).2) ∧ ((m2.localReady (slotDie slot) (fld c.desc 21 1) (fld c.desc 16 2) (fld c.desc 40 8) 1 .write).1 = .ok b3) ∧ (m3 = (m2.localReady (slotDie slot) (fld c.desc 21 1) (fld c.desc 16 2) (fld c.desc 40 8) 1 .write).2) ∧ ((m3.loadDva slot (fld c.desc 21 1) (fld c.desc 16 2) (fld c.desc 48 8) 64).1 = .ok h) ∧ (m4 = (m3.loadDva slot (fld c.desc 21 1) (fld c.desc 16 2) (fld c.desc 48 8) 64).2) ∧ (hyperOk (fld c.desc 18 1) h = true) := by
  exact ⟨at' fun m => (localW 0 optC m).setBytes 0x303000 optH, 0, optC, [], [], [], optH, _, _, _, _, by decide +kernel, by decide +kernel, by decide +kernel, by decide +kernel, by decide +kernel, by decide +kernel, by decide +kernel, by decide +kernel, rfl, by decide +kernel, rfl, by decide +kernel, rfl, by decide +kernel, rfl, by decide +kernel⟩

theorem witness_CragCommands_3 :
    ∃ (s : State) (slot : Nat) (r : CragReq) (c : Cmd),
    (s.m.clocked = true) ∧ (s.m.eng.crag.reqs.find? (·.slot == slot) = some r) ∧ (s.m.mayGrant r = true) ∧ ((s.m.grantCrags r).cmd? slot = some c) ∧ (descOp c.desc = 0x30) := by
  exact ⟨at' fun m => (localW 0 kernC m).askCrags 0 0 39 1, 0, ⟨0, 0, 39, 1⟩, kernC, by decide +kernel⟩

theorem witness_CragCommands_4 :
    ∃ (s : State) (slot : Nat) (r : CragReq) (c : Cmd),
    (s.m.clocked = true) ∧ (s.m.eng.crag.reqs.find? (·.slot == slot) = some r) ∧ (s.m.mayGrant r = true) ∧ ((s.m.grantCrags r).cmd? slot = some c) ∧ (descOp c.desc ≠ 0x30) := by
  exact ⟨at' fun m => (localW 0 optC m).askCrags 0 0 39 1, 0, ⟨0, 0, 39, 1⟩, optC, by decide +kernel⟩

theorem witness_CragCommands_5 :
    ∃ (s : State) (slot : Nat) (c : Cmd) (r : CragReq) (prog args : List Byte) (m1 m2 : Mach),
    (s.m.clocked = true) ∧ (s.m.cmd? slot = some c) ∧ (tget s.m.eng.crag.granted slot = some r) ∧ (descOp c.desc = 0x30) ∧ (c.done = false) ∧ ((s.m.crag (cragKey r.die r.first)).phase = .idle) ∧ ((s.m.loadDvaOn slot r.die r.first (fld c.desc 16 2) (fld c.desc 24 8) (fld c.desc 32 4)).1 = .ok prog) ∧ (m1 = (s.m.loadDvaOn slot r.die r.first (fld c.desc 16 2) (fld c.desc 24 8) (fld c.desc 32 4)).2) ∧ ((m1.loadDvaOn slot r.die r.first (fld c.desc 16 2) (fld c.desc 40 8) 64).1 = .ok args) ∧ (m2 = (m1.loadDvaOn slot r.die r.first (fld c.desc 16 2) (fld c.desc 40 8) 64).2) := by
  exact ⟨at' fun m => (localW 0 kernC m).grantCrags ⟨0, 0, 0, 2⟩, 0, kernC, ⟨0, 0, 0, 2⟩, zeros 16, zeros 64, _, _, by decide +kernel, by decide +kernel, by decide +kernel, by decide +kernel, by decide +kernel, by decide +kernel, by decide +kernel, rfl, by decide +kernel, rfl⟩

theorem witness_CragCommands_6 :
    ∃ (s : State) (slot j : Nat) (c : Cmd) (r : OptimRun) (x : List Byte × List Byte × List Byte × List Byte) (m1 : Mach),
    (s.m.clocked = true) ∧ (s.m.cmd? slot = some c) ∧ (tget s.m.eng.crag.optims slot = some r) ∧ (r.started.contains j = true) ∧ (s.m.hasCrags slot = true) ∧ ((s.m.chunkIn slot j c).1.toOption = some x) ∧ (m1 = (s.m.chunkIn slot j c).2) ∧ (((m1.chunkOut slot j c r.hyper x.1 x.2.1 x.2.2.1 x.2.2.2).cmd? slot).bind (·.fail) = none) := by
  exact ⟨optM, 0, 0, optC, ⟨optH, [0], 0⟩, (zeros 4, zeros 4, zeros 4, []), _, by decide +kernel, by decide +kernel, by decide +kernel, by decide +kernel, by decide +kernel, by decide +kernel, rfl, by decide +kernel⟩

theorem witness_TalusWork_1 :
    ∃ (s : State) (slot : Nat) (c : Cmd) (r : TalusRun),
    (s.m.clocked = true) ∧ (s.m.cmd? slot = some c) ∧ (descOp c.desc = 0x10) ∧ (c.done = false) ∧ (s.m.talus? slot = some r) ∧ (talusScratch c.desc = false) ∧ (r.table ≠ []) ∧ (r.begun = true) := by
  exact ⟨at' (talusW gathC), 0, gathC, gathR, by decide +kernel⟩

theorem witness_TalusWork_2 :
    ∃ (s : State) (slot : Nat) (c : Cmd) (r : TalusRun),
    (s.m.clocked = true) ∧ (s.m.cmd? slot = some c) ∧ (descOp c.desc = 0x11) ∧ (c.done = false) ∧ (s.m.talus? slot = some r) ∧ (r.table ≠ []) := by
  exact ⟨at' (talusW scatC), 0, scatC, gathR, by decide +kernel⟩

theorem witness_TalusWork_3 :
    ∃ (s : State) (slot : Nat) (c : Cmd) (r : TalusRun),
    (s.m.clocked = true) ∧ (s.m.cmd? slot = some c) ∧ (descOp c.desc = 0x12) ∧ (c.done = false) ∧ (s.m.talus? slot = some r) ∧ (talusScratch c.desc = false) ∧ (r.table ≠ []) := by
  exact ⟨at' (talusW poolC), 0, poolC, gathR, by decide +kernel⟩

theorem witness_TalusWork_4 :
    ∃ (s : State) (slot : Nat) (c : Cmd),
    (s.m.clocked = true) ∧ (s.m.cmd? slot = some c) ∧ (c.done = false) ∧ (s.m.talus? slot = none) ∧ (s.m.astOk c.queue (fld c.desc 16 2) = true) ∧ (s.m.talusTurn slot = true) ∧ (talusScratch c.desc = false) ∧ (s.m.eng.talus.sets = []) := by
  exact ⟨at' (localW engTalus gathC), 0, gathC, by decide +kernel⟩

theorem witness_TalusWork_5 :
    ∃ (s : State) (slot pos : Nat) (c : Cmd) (r : TalusRun) (ref : RowRef) (bs : List Byte) (m1 m2 : Mach) (r2 : TalusRun),
    (s.m.clocked = true) ∧ (s.m.cmd? slot = some c) ∧ (s.m.talus? slot = some r) ∧ (c.done = false) ∧ (descOp c.desc = 0x10) ∧ (r.todo.find? (·.pos == pos) = some ref) ∧ ((s.m.loadRow slot c r.table ref).1 = .ok bs) ∧ (m1 = (s.m.loadRow slot c r.table ref).2) ∧ ((m1.outRow slot c.desc (fld c.desc 40 8 + pos * fld c.desc 48 4) (tabRowBytes r.table) (some bs)).1 = true) ∧ (m2 = (m1.outRow slot c.desc (fld c.desc 40 8 + pos * fld c.desc 48 4) (tabRowBytes r.table) (some bs)).2) ∧ (m2.talus? slot = some r2) := by
  exact ⟨at' (talusW gathC), 0, 0, gathC, gathR, ⟨0, 0, 0x1000, 0⟩, zeros 16, _, _, gathR, by decide +kernel, by decide +kernel, by decide +kernel, by decide +kernel, by decide +kernel, by decide +kernel, by decide +kernel, rfl, by decide +kernel, rfl, by decide +kernel⟩

theorem witness_TalusWork_6 :
    ∃ (s : State) (slot pos : Nat) (c : Cmd) (r : TalusRun) (ref : RowRef) (row : List Byte) (m1 : Mach),
    (s.m.clocked = true) ∧ (s.m.cmd? slot = some c) ∧ (s.m.talus? slot = some r) ∧ (c.done = false) ∧ (descOp c.desc = 0x12) ∧ (bit (fld c.desc 18 1) 2 = false) ∧ (r.waiting = some ref) ∧ (ref.pos = pos) ∧ ((s.m.loadRow slot c r.table ref).1 = .ok row) ∧ (m1 = (s.m.loadRow slot c r.table ref).2) := by
  exact ⟨at' (talusW poolC), 0, 0, poolC, gathR, ⟨0, 0, 0x1000, 0⟩, zeros 16, _, by decide +kernel, by decide +kernel, by decide +kernel, by decide +kernel, by decide +kernel, by decide +kernel, by decide +kernel, by decide +kernel, by decide +kernel, rfl⟩

theorem witness_TalusWork_7 :
    ∃ (s : State) (q idx : Nat) (p : PrefetchSet) (r : RowRef) (bs : List Byte) (m1 : Mach),
    (s.m.clocked = true) ∧ (s.m.prefetchSet q = some p) ∧ (p.todo.find? (·.idx == idx) = some r) ∧ (p.todo.erase r ≠ []) ∧ ((s.m.loadDvaOn (prefetchSlot q) (queueDie q) engTalus p.ast r.dva p.rowBytes).1 = .ok bs) ∧ (m1 = (s.m.loadDvaOn (prefetchSlot q) (queueDie q) engTalus p.ast r.dva p.rowBytes).2) := by
  exact ⟨at' fun m => (talusW gathC m).setSets [preS], 0, 3, preS, ⟨0, 3, 0x1000, 0⟩, zeros 16, _, by decide +kernel, by decide +kernel, by decide +kernel, by decide +kernel, by decide +kernel, rfl⟩

theorem witness_TalusWork_8 :
    ∃ (s : State) (w : Src),
    (s.m.clocked = true) ∧ (s.m.admits w 0x5110 0x46 = true) := by
  exact ⟨at' session, sess, by decide +kernel⟩

theorem witness_CirqueWork_1 :
    ∃ (s : State) (slot : Nat) (c : Cmd),
    (s.m.clocked = true) ∧ (s.m.cmd? slot = some c) ∧ (c.done = false) ∧ (s.m.cirque? slot = none) ∧ (s.m.astOk c.queue (fld c.desc 16 2) = true) ∧ (s.m.cirqueTurn slot = true) := by
  exact ⟨at' (localW engCirque delC), 0, delC, by decide +kernel⟩

theorem witness_CirqueWork_2 :
    ∃ (s : State) (slot : Nat) (c : Cmd) (r : CirqueRun) (refused scored : Nat) (m1 : Mach),
    (s.m.clocked = true) ∧ (s.m.cmd? slot = some c) ∧ (descOp c.desc = 0x20) ∧ (c.done = false) ∧ (s.m.cirque? slot = some r) ∧ (fld c.desc 19 1 = 0 ∨ s.m.hasCrags slot = true) ∧ (bit (fld c.desc 18 1) 3 = false) ∧ (((Eng.localSearch slot c.desc).on s.m).1.toOption = some (refused, scored)) ∧ (m1 = ((Eng.localSearch slot c.desc).on s.m).2) := by
  exact ⟨searchM, 0, searC, CirqueRun.fresh, 0, 0, _, by decide +kernel, by decide +kernel, by decide +kernel, by decide +kernel, by decide +kernel, by decide +kernel, by decide +kernel, by decide +kernel, rfl⟩

theorem witness_CirqueWork_3 :
    ∃ (s : State) (slot : Nat) (c : Cmd) (r : CirqueRun),
    (s.m.clocked = true) ∧ (s.m.cmd? slot = some c) ∧ (c.done = false) ∧ (s.m.cirque? slot = some r) ∧ (fld c.desc 19 1 = 0 ∨ s.m.hasCrags slot = true) ∧ (r.wrote = true) ∧ (r.published = true) ∧ (r.lockDpa.isSome = true) := by
  exact ⟨at' fun m => (localW engCirque delC m).setCirque 0 { CirqueRun.fresh with wrote := true, published := true, lockDpa := some 0x300060 }, 0, delC, { CirqueRun.fresh with wrote := true, published := true, lockDpa := some 0x300060 }, by decide +kernel⟩

theorem witness_CirqueWork_4 :
    ∃ (s : State),
    (s.m.clocked = true) ∧ (s.m.reg 0x5220 6 0 = 0) := by
  exact ⟨on, by decide +kernel⟩

theorem witness_CirqueWork_5 :
    ∃ (s : State) (f : Fanout) (w len i node shard : Nat) (c : Cmd) (line bs : List Byte) (m1 m2 : Mach),
    (s.m.clocked = true) ∧ (s.m.eng.cirque.fan = some f) ∧ (f.members = [(i, node, shard)]) ∧ (s.m.fanWindow = some (w, len)) ∧ (s.m.cmd? f.slot = some c) ∧ (node ≠ s.m.node) ∧ (s.m.xl.fetches = []) ∧ (s.m.recall (w + 4096 + 64 * i) 64 false = none) ∧ ((s.m.loadDpa (slotDie f.slot) (w + 4096 + 64 * i) 64).1 = .ok line) ∧ (m1 = (s.m.loadDpa (slotDie f.slot) (w + 4096 + 64 * i) 64).2) ∧ (fld line 0 8 = f.number) ∧ (fld line 8 2 = 0) ∧ (m1.recall (w + f.resultsAt) (fld c.desc 48 2 * fld c.desc 22 2 * 16) false = none) ∧ ((m1.loadDpa (slotDie f.slot) (w + f.resultsAt) (fld c.desc 48 2 * fld c.desc 22 2 * 16)).1 = .ok bs) ∧ (m2 = (m1.loadDpa (slotDie f.slot) (w + f.resultsAt) (fld c.desc 48 2 * fld c.desc 22 2 * 16)).2) := by
  exact ⟨at' fanW, fanF, 0x300000, 2 ^ 20, 0, 5, 0, searC, desc [(0, 8, 1)], zeros 16, _, _, by decide +kernel, by decide +kernel, by decide +kernel, by decide +kernel, by decide +kernel, by decide +kernel, by decide +kernel, by decide +kernel, by decide +kernel, rfl, by decide +kernel, by decide +kernel, by decide +kernel, by decide +kernel, rfl⟩

theorem witness_CirqueWork_6 :
    ∃ (s : State) (f : Fanout),
    (s.m.clocked = true) ∧ (s.m.eng.cirque.fan = some f) := by
  exact ⟨at' fun m => m.setFan (some ⟨0, 1, [(0, 5, 0)], 0, 0, [], [], 0⟩), ⟨0, 1, [(0, 5, 0)], 0, 0, [], [], 0⟩, by decide +kernel⟩

theorem witness_Membership_1 :
    ∃ (s : State) (p : Nat),
    (s.m.clocked = true) ∧ ([7, 8, 9].contains (s.m.pState p) = true) := by
  exact ⟨at' (portW 7 7), 7, by decide +kernel⟩

theorem witness_Membership_2 :
    ∃ (s : State) (p : Nat),
    (s.m.clocked = true) ∧ (s.m.digestState p = true) ∧ (s.m.edgePort p = false) := by
  exact ⟨at' (portW 0 7), 0, by decide +kernel⟩

theorem witness_Membership_3 :
    ∃ (s : State) (w : Src) (p : Nat),
    (s.m.clocked = true) ∧ (s.m.admits w 0x4501 3 = true) ∧ (p < 8) ∧ (s.m.heard.reg 0x4501 7 p ≠ 0) ∧ (s.m.heard.pState p = 8) := by
  exact ⟨at' fun m => session ((portW 0 8 m).setReg 0x4501 7 0 1), sess, 0, by decide +kernel⟩

theorem witness_Membership_4 :
    ∃ (s : State) (p : Nat) (f : RFrame),
    (s.m.clocked = true) ∧ (p < 8) ∧ ((s.m.takeArrived p f).edgePort p = false) ∧ ((s.m.takeArrived p f).hall.seen.any (fun x => x.1 == f.src && x.2.1 == f.sequence) = false) := by
  exact ⟨on, 0, { fr with opcode := 0xC1 }, by decide +kernel⟩

theorem witness_Membership_5 :
    ∃ (s : State) (p : Nat) (f : RFrame),
    (s.m.clocked = true) ∧ (p < 8) ∧ ((s.m.takeArrived p f).edgePort p = false) ∧ ((s.m.takeArrived p f).hall.seen.any (fun x => x.1 == f.src && x.2.1 == f.sequence) = true) := by
  exact ⟨at' fun m => { m with hall := { m.hall with seen := [(9, 0, 0)] } }, 0, { fr with opcode := 0xC3 }, by decide +kernel⟩

theorem witness_Membership_6 :
    ∃ (s : State) (origin number : Nat),
    (s.m.clocked = true) := by
  exact ⟨on, 0, 0, by decide +kernel⟩

theorem witness_Membership_7 :
    ∃ (s : State) (g : Nat),
    (s.m.clocked = true) ∧ (s.m.reg 0x4510 0x0A g = 2) ∧ ((s.m.groupMembers g).filter (fun n => !maskBit (s.m.oct 0x4502 1 0) n) = s.m.groupMembers g) := by
  exact ⟨at' fun m => (groupW 2 m).setReg 0x4510 0x0A 0 2, 0, by decide +kernel⟩

theorem witness_Membership_8 :
    ∃ (s : State) (g : Nat),
    (s.m.clocked = true) ∧ (s.m.reg 0x4510 0x0A g = 2) ∧ (((s.m.groupMembers g).filter (fun n => !maskBit (s.m.oct 0x4502 1 0) n)).length ≠ (s.m.groupMembers g).length) ∧ (s.m.reg 0x4510 8 g = 1) := by
  exact ⟨at' fun m => (((groupW 2 m).setReg 0x4510 0x0A 0 2).setReg 0x4510 8 0 1).setOct 0x4502 1 0 (leBytes 64 2), 0, by decide +kernel⟩

theorem witness_Membership_9 :
    ∃ (s : State) (g : Nat),
    (s.m.clocked = true) ∧ ((s.m.ownBlock g).isSome = true) ∧ (s.m.sched.slots = []) ∧ (s.m.hall.colls.any (fun x => x.group == g) = true) := by
  exact ⟨at' fun m => let m := groupW 1 m; { m with hall := { m.hall with colls := [collRun0] } }, 0, by decide +kernel⟩

theorem witness_Membership_10 :
    ∃ (s : State) (w : Src) (v : Nat),
    (s.m.clocked = true) ∧ (s.m.admits w 0x4510 9 = true) ∧ (v < 256) := by
  exact ⟨at' session, sess, 255, by decide +kernel⟩

theorem witness_Timebase_1 :
    ∃ (s : State) (p : Nat) (f : RFrame),
    (s.m.clocked = true) ∧ (f.opcode = 0xC0) ∧ ((s.m.takeArrived p f).torusPort p = true) ∧ ((s.m.takeArrived p f).digestState p = true) ∧ (((s.m.takeArrived p f).portHall p).sentAt = []) := by
  exact ⟨at' fun m => ((portW 0 7 m).setReg 0x4000 1 0 2).setReg 0x4000 2 0 4, 0, { fr with opcode := 0xC0 }, by decide +kernel⟩

theorem witness_Timebase_2 :
    ∃ (s : State),
    (s.m.clocked = true) ∧ (s.m.hall.selfRoot = true) ∧ ((List.range s.m.dies).filter (fun p => s.m.torusPort p && s.m.digestState p) = []) := by
  exact ⟨at' fun m => { m with hall := { m.hall with selfRoot := true } }, by decide +kernel⟩

theorem witness_Timebase_3 :
    ∃ (s : State) (p : Nat),
    (s.m.clocked = true) ∧ (s.m.hall.selfRoot = false) ∧ ((List.range s.m.dies).filter (fun p => s.m.torusPort p && s.m.digestState p) = [p]) ∧ ((s.m.portHall p).beacon = none) := by
  exact ⟨at' fun m => ((portW 0 7 m).setReg 0x4000 1 0 2).setReg 0x4000 2 0 4, 0, by decide +kernel⟩

theorem witness_Timebase_4 :
    ∃ (s : State) (domain : Nat) (e : Int) (m1 : Mach),
    (s.m.clocked = true) ∧ (s.m.reg 0x1320 3 0 = 1) ∧ (s.m.reg 0x1320 2 0 = domain) ∧ (s.m.cairnUp = true) ∧ (m1 = ({ s.m.setReg 0x1320 0x0A 0 (ofSigned 64 e) with hall := { s.m.hall with ptpLocked := true } } : Mach).chooseRoot) ∧ (m1.reg 0x1320 6 0 = m1.node) := by
  exact ⟨at' fun m => (upW m).setReg 0x1320 3 0 1, 0, -5, _, by decide +kernel, by decide +kernel, by decide +kernel, by decide +kernel, rfl, by decide +kernel⟩

theorem witness_Timebase_5 :
    ∃ (s : State) (domain : Nat) (utc : Option Int),
    (s.m.clocked = true) ∧ (s.m.reg 0x1320 3 0 = 1) ∧ (s.m.reg 0x1320 2 0 = domain) ∧ (s.m.cairnUp = true) := by
  exact ⟨at' fun m => (upW m).setReg 0x1320 3 0 1, 0, some 37, by decide +kernel⟩

theorem witness_Timebase_6 :
    ∃ (s : State) (m1 : Mach),
    (s.m.clocked = true) ∧ (s.m.reg 0x1320 6 0 = s.m.node) ∧ (m1 = ({ s.m with hall := { s.m.hall with ptpLocked := false, smallSince := none } } : Mach).chooseRoot) ∧ (m1.timeState = 1) := by
  exact ⟨at' fun m => (m.setReg 0x1320 6 0 0).setReg 0x1320 5 0 1, _, by decide +kernel, by decide +kernel, rfl, by decide +kernel⟩

theorem witness_Timebase_7 :
    ∃ (s : State) (t : Nat),
    (s.m.clocked = true) ∧ (s.m.timeState = 2) ∧ (s.m.hall.smallSince = some t) := by
  exact ⟨at' fun m => ({ m with hall := { m.hall with smallSince := some 5 } } : Mach).setReg 0x1320 5 0 2, 5, by decide +kernel⟩

theorem witness_Timebase_8 :
    ∃ (s : State) (w : Src),
    (s.m.clocked = true) ∧ (s.m.admits w 0x1320 0x0D = true) ∧ (s.m.heard.timeState = 2) := by
  exact ⟨at' fun m => session (m.setReg 0x1320 5 0 2), sess, by decide +kernel⟩

theorem witness_CairnRequests_1 :
    ∃ (s : State) (q : Requester) (r : Request),
    (s.m.clocked = true) ∧ (s.m.reaches q = true) ∧ (s.m.kept? q r.txn = none) ∧ (q ≠ .bare) ∧ (s.m.openGate q r.index r.sub = none) ∧ (reqFaults { r with op := 1 } = []) ∧ ((s.m.entryBytes q r.index r.sub (bit r.flags 1)).length ≤ 992) ∧ (¬ (r.index = 0x3051 ∧ 1 ≤ r.sub) ∧ ¬ (r.index = 0x9010 ∧ r.sub = 5) ∧ ¬ (r.index = 0x7150 ∧ r.sub = 0x0B)) := by
  exact ⟨at' session, .session 0, ⟨7, 1, 0, 0x1100, 1, 0, 0, 0, []⟩, by decide +kernel⟩

theorem witness_CairnRequests_2 :
    ∃ (s : State) (q : Requester) (r : Request) (e : DEntry),
    (s.m.clocked = true) ∧ (s.m.reaches q = true) ∧ (s.m.kept? q r.txn = none) ∧ (q ≠ .bare) ∧ (s.m.gate q r.index r.sub = none) ∧ (dictLine r.index r.sub = some e) ∧ (s.m.spanLocked q r.index r.sub (leNat r.data) = false) ∧ (firstAbort (reqFaults { r with op := 2 } ++ valueFaults r.index r.sub r.ty e r.data) = none) ∧ (e.acc = .rw) ∧ (e.ty.isBytes = false) ∧ ((s.m.ownWrite ⟨q, r.txn, false⟩ r.index r.sub (leNat r.data) r.data).isNone = true) ∧ (¬ (r.index = 0x7150 ∧ r.sub = 0x0B)) ∧ (s.m.writeRange q r.index r.sub (leNat r.data) = false) ∧ (s.m.writeBusy q r.index r.sub = false) := by
  exact ⟨at' session, .session 0, ⟨7, 2, 0, 0x5000, 2, 1, 1, 0, [0]⟩, (dictLine 0x5000 2).get (by decide +kernel), by decide +kernel⟩

theorem witness_CairnRequests_3 :
    ∃ (s : State) (q : Requester) (r : Request) (e : DEntry),
    (s.m.clocked = true) ∧ (s.m.reaches q = true) ∧ (s.m.kept? q r.txn = none) ∧ (q ≠ .bare) ∧ (s.m.gate q r.index r.sub = none) ∧ (dictLine r.index r.sub = some e) ∧ (s.m.spanLocked q r.index r.sub (leNat r.data) = false) ∧ (firstAbort (reqFaults { r with op := 2 } ++ valueFaults r.index r.sub r.ty e r.data) = none) ∧ (e.acc = .rws) ∧ ((s.m.ownWrite ⟨q, r.txn, false⟩ r.index r.sub (leNat r.data) r.data).isNone = true) ∧ (¬ (r.index = 0x7150 ∧ r.sub = 0x0B)) ∧ ((s.m.stageWrite q r.index r.sub (e.parse r.data)).isOk = true) := by
  exact ⟨at' session, .session 0, ⟨7, 2, 0, 0x3000, 1, 5, 8, 0, leBytes 8 65536⟩, (dictLine 0x3000 1).get (by decide +kernel), by decide +kernel⟩

theorem witness_CairnRequests_4 :
    ∃ (s : State) (q : Requester) (r : Request),
    (s.m.clocked = true) ∧ (s.m.reaches q = true) ∧ (s.m.kept? q r.txn = none) ∧ (q ≠ .bare) ∧ (¬ (r.index = 0x7150 ∧ r.sub = 0x0B ∨ r.index = 0x9010 ∧ r.sub = 5)) ∧ (s.m.heard.readGate q r.index r.sub = none) ∧ (reqFaults { r with op := 3 } = []) ∧ (r.off = 0) := by
  exact ⟨at' session, .session 0, ⟨7, 3, 0, 0x1100, 1, 0, 0, 0, []⟩, by decide +kernel⟩

theorem witness_CairnRequests_5 :
    ∃ (s : State) (q : Requester) (r : Request) (m1 : Mach),
    (s.m.clocked = true) ∧ (s.m.reaches q = true) ∧ (s.m.kept? q r.txn = none) ∧ (q ≠ .bare) ∧ (¬ (r.index = 0x6010 ∧ r.sub = 3) ∧ ¬ (r.index = 0x7150 ∧ r.sub = 0x0B)) ∧ (s.m.gate q r.index r.sub = none) ∧ (firstAbort (reqFaults { r with op := 4 } ++ (if r.ty ≠ typeCode r.index r.sub then [abType] else [])) = none) ∧ ((s.m.takeSegment q { r with op := 4 }).1.toOption = some none) ∧ (m1 = (s.m.takeSegment q { r with op := 4 }).2) := by
  exact ⟨at' session, .session 0, ⟨7, 4, 0, 0x5000, 2, 1, 0, 0, []⟩, _, by decide +kernel, by decide +kernel, by decide +kernel, by decide +kernel, by decide +kernel, by decide +kernel, by decide +kernel, by decide +kernel, rfl⟩

theorem witness_CairnRequests_6 :
    ∃ (s : State) (q : Requester) (x : ReqState) (write : Bool),
    (s.m.clocked = true) ∧ (tget s.m.cairn.reqs q.code = some x) := by
  exact ⟨at' session, .session 0, ReqState.fresh 0 15 0 true 0, true, by decide +kernel⟩

theorem witness_CairnRequests_7 :
    ∃ (s : State) (w : Src),
    (s.m.clocked = true) ∧ (s.m.reaches w.q = true) ∧ (s.m.kept? w.q w.txn = none) ∧ (s.m.gate w.q 0x1110 1 = none) ∧ (s.m.cairn.commit = none) ∧ (s.m.heard.commitChecks (s.m.heard.req w.q).stage = []) ∧ (fusesOf s.m.heard (s.m.heard.putAll (s.m.heard.req w.q).stage) = []) := by
  exact ⟨at' session, sess, by decide +kernel⟩

theorem witness_CairnRequests_8 :
    ∃ (s : State) (w : Src),
    (s.m.clocked = true) ∧ (s.m.admits w 0x1110 2 = true) := by
  exact ⟨at' session, sess, by decide +kernel⟩

theorem witness_CairnRequests_9 :
    ∃ (s : State) (address : Nat) (msg : SpdmMsg),
    (s.m.clocked = true) := by
  exact ⟨on, 5, .keyExchange, by decide +kernel⟩

theorem witness_CairnRequests_10 :
    ∃ (s : State) (n : Nat) (r : Request) (x : ReqState),
    (s.m.clocked = true) ∧ (tget s.m.cairn.reqs n = some x) ∧ (n < 8) ∧ (x.ridgeline = false) ∧ (s.m.cairnUp = true) := by
  exact ⟨at' fun m => (upW m).setReq (.session 0) (ReqState.fresh 0 15 0 false 0), 0, ⟨7, 1, 0, 0x1100, 1, 0, 0, 0, []⟩, ReqState.fresh 0 15 0 false 0, by decide +kernel⟩

theorem witness_CairnRequests_11 :
    ∃ (s : State) (address txn node : Nat) (bs : List Byte) (msg : SpdmMsg) (tag : Nat),
    (s.m.clocked = true) ∧ (s.m.cairnUp = true) ∧ (node ≠ (s.m.bump 0x7110 0x0A).node) ∧ (node < 512) ∧ (((s.m.bump 0x7110 0x0A).bump 0x7110 1).nodeDead node = false) ∧ (((s.m.bump 0x7110 0x0A).bump 0x7110 1).newTag 0 false = some tag) := by
  exact ⟨at' upW, 5, 0, 5, [], .keyExchange, ((onM.bump 0x7110 0x0A).newTag 0 false).getD 0, by decide +kernel⟩

theorem witness_CairnRequests_12 :
    ∃ (s : State) (txn : Nat),
    (s.m.clocked = true) ∧ (s.m.cairnUp = true) := by
  exact ⟨at' upW, 0, by decide +kernel⟩

theorem witness_Notices_1 :
    ∃ (s : State) (w : Src) (bs : List Byte) (k : Bool × Nat × Nat) (n : Nat),
    (s.m.clocked = true) ∧ (s.m.admits w 0x1121 1 = true) ∧ (s.m.heard.subscriberKey w.q = some k) ∧ (bs.length = 48) ∧ (allZero (slice bs 2 6) = true) ∧ (fld bs 8 8 = 0) ∧ (((s.m.heard.cairn.subs.find? fun p => p.2.isOf k).map Prod.fst).or (firstFrom 4 0 fun n => (tget s.m.heard.cairn.subs n).isNone) = some n) := by
  exact ⟨at' session, sess, zeros 48, (false, 0, 0), 0, by decide +kernel⟩

theorem witness_Notices_2 :
    ∃ (s : State) (w : Src) (slot : Nat),
    (s.m.clocked = true) ∧ (s.m.admits w 0x1121 2 = true) ∧ (slot < 4) ∧ (hasRole (s.m.heard.roles w.q) .steward = true) := by
  exact ⟨at' session, sess, 3, by decide +kernel⟩

theorem witness_Notices_3 :
    ∃ (s : State) (n sequence : Nat),
    (s.m.clocked = true) ∧ (s.m.reaches (.session n) = true) := by
  exact ⟨at' session, 0, 5, by decide +kernel⟩

theorem witness_Notices_4 :
    ∃ (s : State) (w : Src) (sequence : Nat),
    (s.m.clocked = true) ∧ (s.m.admits w 0x1121 3 = true) := by
  exact ⟨at' inBandW, ⟨.inBand 0 0, 7, false⟩, 5, by decide +kernel⟩

theorem witness_Notices_5 :
    ∃ (s : State) (slot sequence : Nat) (x : Subscriber) (n : QueuedNotice),
    (s.m.clocked = true) ∧ (tget s.m.cairn.subs slot = some x) ∧ (x.queue.find? (fun n => n.sequence == sequence && n.sends != 0) = some n) ∧ (n.sends < 5) ∧ (s.m.subReach x = true) := by
  exact ⟨at' (subW 4 2), 3, 9, subX 4 2, ⟨9, 0x8041, [], 0, 4, 0⟩, by decide +kernel⟩

theorem witness_Notices_6 :
    ∃ (s : State) (slot sequence : Nat) (x : Subscriber) (n : QueuedNotice),
    (s.m.clocked = true) ∧ (tget s.m.cairn.subs slot = some x) ∧ (x.queue.find? (fun n => n.sequence == sequence && n.sends != 0) = some n) ∧ (5 ≤ n.sends) ∧ (x.discards = 2) := by
  exact ⟨at' (subW 5 2), 3, 9, subX 5 2, ⟨9, 0x8041, [], 0, 5, 0⟩, by decide +kernel⟩

theorem witness_NodeAndCalendar_1 :
    ∃ (s : State) (k : Nat),
    (s.m.clocked = true) ∧ (s.m.managed = true) := by
  exact ⟨at' fun m => m.setReg 0x1100 6 0 0, 31, by decide +kernel⟩

theorem witness_NodeAndCalendar_2 :
    ∃ (s : State),
    (s.m.clocked = true) ∧ (s.m.managed = true) ∧ (s.m.reg 0x1100 6 0 = 0) := by
  exact ⟨at' fun m => m.setReg 0x1100 6 0 0, by decide +kernel⟩

theorem witness_NodeAndCalendar_3 :
    ∃ (s : State),
    (s.m.clocked = true) ∧ (s.m.managed = true) ∧ (s.m.reg 0x1100 1 0 ≤ 30) := by
  exact ⟨at' fun m => m.setReg 0x1100 1 0 30, by decide +kernel⟩

theorem witness_NodeAndCalendar_4 :
    ∃ (s : State) (w : Src) (v : Nat),
    (s.m.clocked = true) ∧ (s.m.admits w 0x1100 7 = true) ∧ (1 ≤ v ∧ v ≤ 31) ∧ (w.q.isInBand = true) ∧ (s.m.heard.reg 0x1100 6 0 = 0) := by
  exact ⟨at' fun m => inBandW (m.setReg 0x1100 6 0 0), ⟨.inBand 0 0, 7, false⟩, 31, by decide +kernel⟩

theorem witness_NodeAndCalendar_5 :
    ∃ (s : State),
    (s.m.clocked = true) ∧ (s.m.managed = true) ∧ (s.m.cairn.enum.dadRunning = true) := by
  exact ⟨at' fun m => m.takeNodeId 3 1, by decide +kernel⟩

theorem witness_NodeAndCalendar_6 :
    ∃ (s : State) (ok : Bool),
    (s.m.clocked = true) ∧ (s.m.managed = true) ∧ (s.m.reg 0x1100 1 0 ≠ 0xFF) := by
  exact ⟨at' fun m => m.setReg 0x1100 1 0 1, true, by decide +kernel⟩

theorem witness_NodeAndCalendar_7 :
    ∃ (s : State),
    (s.m.clocked = true) ∧ (s.m.cairnUp = true) := by
  exact ⟨at' upW, by decide +kernel⟩

theorem witness_NodeAndCalendar_8 :
    ∃ (s : State) (w : Src) (v : Nat),
    (s.m.clocked = true) ∧ (s.m.admits w 0x1300 1 = true) ∧ (dateOk v = true) := by
  exact ⟨at' session, sess, 2399 + 12 * 65536 + 31 * 2 ^ 24, by decide +kernel⟩

theorem witness_NodeAndCalendar_9 :
    ∃ (s : State) (w : Src) (v : Nat),
    (s.m.clocked = true) ∧ (s.m.admits w 0x1300 2 = true) ∧ (todOk v = true) := by
  exact ⟨at' session, sess, 23 + 59 * 256, by decide +kernel⟩

theorem witness_NodeAndCalendar_10 :
    ∃ (s : State) (w : Src) (bs : List Byte),
    (s.m.clocked = true) ∧ (s.m.admits w 0x1300 3 = true) ∧ (bs.length = 12) ∧ (dateOk (fld bs 0 4) = true) ∧ (todOk (fld bs 4 8) = true) := by
  exact ⟨at' session, sess, leBytes 4 (1970 + 65536 + 2 ^ 24) ++ zeros 8, by decide +kernel⟩

theorem witness_NodeAndCalendar_11 :
    ∃ (s : State) (w : Src),
    (s.m.clocked = true) ∧ (s.m.admits w 0x1300 5 = true) := by
  exact ⟨at' session, sess, by decide +kernel⟩

theorem witness_References_1 :
    ∃ (s : State) (i : Nat),
    (s.m.elec.vauxOk = true) ∧ (i < 2) ∧ (s.m.refState i = 0) ∧ (s.m.clk.stage ≠ 2) := by
  exact ⟨on, 1, by decide +kernel⟩

theorem witness_References_2 :
    ∃ (s : State) (i : Nat),
    (s.m.clocked = true) ∧ (i < 2) ∧ (s.m.refState i ≠ 0) ∧ ((s.m.setRef i 0).reg 0x2000 0x0A 0 = 0) ∧ ((s.m.setRef i 0).activeRef = i) ∧ ((s.m.setRef i 0).refState (1 - i) = 2) := by
  exact ⟨at' fun m => ((m.setReg 0x2000 3 0 0).setReg 0x2000 4 0 2).setReg 0x2000 5 0 2, 0, by decide +kernel⟩

theorem witness_References_3 :
    ∃ (s : State) (i : Nat),
    (s.m.clocked = true) ∧ (i < 2) ∧ (s.m.refState i ≠ 0) ∧ ((s.m.setRef i 0).reg 0x2000 0x0A 0 = 0) ∧ ((s.m.setRef i 0).activeRef = i) ∧ ((s.m.setRef i 0).refState (1 - i) ≠ 2) := by
  exact ⟨at' fun m => ((m.setReg 0x2000 3 0 0).setReg 0x2000 4 0 2).setReg 0x2000 5 0 1, 0, by decide +kernel⟩

theorem witness_References_4 :
    ∃ (s : State) (i : Nat),
    (s.m.powered = true) ∧ (i < 2) ∧ (s.m.clk.stage = 3) ∧ (s.m.refState i = 1) ∧ ((s.m.setRef i 2).activeRef = 0xFF) := by
  exact ⟨at' fun m => ({ m with clk := { m.clk with stage := 3 } } : Mach).setReg 0x2000 5 0 1, 1, by decide +kernel⟩

theorem witness_References_5 :
    ∃ (s : State) (a b : Nat),
    (s.m.clocked = true) ∧ (s.m.activeRef = 0) ∧ (s.m.refState 0 = 2) ∧ (s.m.refState 1 = 2) ∧ (s.m.clk.switchTo = none) ∧ (s.m.reg 0x2000 9 0 * ((s.m.corrected 0 a).1 * (s.m.corrected 1 b).2) <
  (if (s.m.corrected 0 a).1 * (s.m.corrected 1 b).2 ≤ (s.m.corrected 1 b).1 * (s.m.corrected 0 a).2 then
    (s.m.corrected 1 b).1 * (s.m.corrected 0 a).2 - (s.m.corrected 0 a).1 * (s.m.corrected 1 b).2
  else (s.m.corrected 0 a).1 * (s.m.corrected 1 b).2 - (s.m.corrected 1 b).1 * (s.m.corrected 0 a).2) * 1000000) := by
  exact ⟨at' fun m => ((m.setReg 0x2000 3 0 0).setReg 0x2000 4 0 2).setReg 0x2000 5 0 2, 1000000, 2000000, by decide +kernel⟩

theorem witness_References_6 :
    ∃ (s : State) (w : Src) (v : Nat),
    (s.m.clocked = true) ∧ (s.m.admits w 0x2000 1 = true) ∧ (v < 2) ∧ ((s.m.heard.setReg 0x2000 1 0 v).steadyRef = false) := by
  exact ⟨at' session, sess, 1, by decide +kernel⟩

theorem witness_References_7 :
    ∃ (s : State),
    (s.m.clocked = true) ∧ (s.m.clk.dwelling = true) := by
  exact ⟨at' fun m => { m with clk := { m.clk with dwelling := true } }, by decide +kernel⟩

theorem witness_References_8 :
    ∃ (s : State),
    (s.m.powered = true) ∧ (s.m.clk.locking = true) ∧ (s.m.clk.stage < 5) := by
  exact ⟨at' fun m => { m with clk := { m.clk with locking := true, stage := 4 } }, by decide +kernel⟩

theorem witness_References_9 :
    ∃ (s : State),
    (s.m.powered = true) ∧ (s.m.clk.locking = true) ∧ (5 ≤ s.m.clk.stage) ∧ (s.m.reg 0x2000 0x0A 0 = 1) := by
  exact ⟨at' fun m => ({ m with clk := { m.clk with locking := true } } : Mach).setReg 0x2000 0x0A 0 1, by decide +kernel⟩

theorem witness_References_10 :
    ∃ (s : State) (w : Src) (v : Nat),
    (s.m.clocked = true) ∧ (s.m.admits w 0x2001 1 = true) ∧ ([4, 5, 6, 8].contains v = true) := by
  exact ⟨at' session, sess, 8, by decide +kernel⟩

theorem witness_References_11 :
    ∃ (s : State) (r : Nat),
    (s.m.clocked = true) ∧ ((if s.m.activeRef < 2 then s.m.reg 0x2000 (7 + s.m.activeRef) 0 else 0) = r) ∧ (s.m.reg 0x2002 3 0 < min (s.m.reg 0x2002 1 0) (50 - r)) := by
  exact ⟨at' fun m => (m.setReg 0x2002 1 0 12).setReg 0x2000 3 0 0xFF, 0, by decide +kernel⟩

theorem witness_References_12 :
    ∃ (s : State) (w : Src),
    (s.m.clocked = true) ∧ (s.m.admits w 0x2010 4 = true) ∧ (s.m.heard.reg 0x2010 5 0 ≠ 1) := by
  exact ⟨at' session, sess, by decide +kernel⟩

theorem witness_References_13 :
    ∃ (s : State) (count : Nat),
    (s.m.clocked = true) ∧ (s.m.reg 0x2010 5 0 = 1) := by
  exact ⟨at' fun m => m.setReg 0x2010 5 0 1, 1000, by decide +kernel⟩

theorem witness_Resets_1 :
    ∃ (s : State) (segid refqual : Nat),
    (s.m.elec.resetLow = true) ∧ (s.m.clk.tripped = false) := by
  exact ⟨at' fun m => { m with elec := { m.elec with resetLow := true } }, 15, 7, by decide +kernel⟩

theorem witness_Resets_2 :
    ∃ (s : State) (up down : Nat),
    (s.m.elec.strapCheck = true) := by
  exact ⟨at' fun m => { m with elec := { m.elec with strapCheck := true } }, 127, 0, by decide +kernel⟩

theorem witness_Resets_3 :
    ∃ (s : State),
    (s.m.elec.suppliesOk = false) ∧ (s.m.clk.stage = 0) := by
  exact ⟨State.reset, by decide +kernel⟩

theorem witness_Resets_4 :
    ∃ (s : State),
    (s.m.elec.suppliesOk = true) ∧ (s.m.elec.vinLow = false) := by
  exact ⟨on, by decide +kernel⟩

theorem witness_Resets_5 :
    ∃ (s : State),
    (s.m.elec.vinLow = true) ∧ (s.m.clk.tripped = false) := by
  exact ⟨at' fun m => { m with elec := { m.elec with vinLow := true } }, by decide +kernel⟩

theorem witness_Resets_6 :
    ∃ (s : State),
    (s.m.elec.vauxOk = true) := by
  exact ⟨on, by decide +kernel⟩

theorem witness_Resets_7 :
    ∃ (s : State),
    (s.m.clocked = true) := by
  exact ⟨at' fun m => { m with clk := { m.clk with stage := 10 } }, by decide +kernel⟩

theorem witness_Resets_8 :
    ∃ (s : State) (w : Src),
    (s.m.clocked = true) ∧ (s.m.admits w 0x2200 1 = true) ∧ (s.m.heard.ready = true) := by
  exact ⟨at' session, sess, by decide +kernel⟩

theorem witness_Resets_9 :
    ∃ (s : State) (w : Src),
    (s.m.clocked = true) ∧ (s.m.admits w 0x2200 1 = true) ∧ (s.m.ready = true) ∧ (s.m.kept? w.q w.txn = none) ∧ (s.m.gate w.q 0x2200 1 = none) ∧ (s.m.heard.ready = true) := by
  exact ⟨at' session, sess, by decide +kernel⟩

theorem witness_Resets_10 :
    ∃ (s : State),
    (s.m.clocked = true) ∧ (s.m.reg 0x2200 3 0 = 2) ∧ (s.m.clk.entered = false) ∧ ((s.m.warmLoss.setReg 0x2001 2 0 8).reg 0x2000 0x0A 0 = 0) := by
  exact ⟨at' fun m => m.setReg 0x2200 3 0 2, by decide +kernel⟩

theorem witness_Resets_11 :
    ∃ (s : State),
    (s.m.clocked = true) ∧ (s.m.reg 0x2200 3 0 = 2) ∧ (s.m.clk.entered = true) ∧ (s.m.clk.locking = false) ∧ (s.m.clk.dwelling = false) ∧ (s.m.reg 0x2001 2 0 = s.m.divisorInForce) := by
  exact ⟨at' fun m => ({ m with clk := { m.clk with entered := true } } : Mach).setReg 0x2200 3 0 2 |>.setReg 0x2001 2 0 m.divisorInForce, by decide +kernel⟩

theorem witness_Resets_12 :
    ∃ (s : State) (w : Src),
    (s.m.clocked = true) ∧ (s.m.admits w 0x2201 3 = true) ∧ (s.m.heard.domain (s.m.heard.sel w.q 0x2201 1) 1 = 1) ∧ (s.m.heard.reg 0x2201 2 0 < 3) := by
  exact ⟨at' session, sess, by decide +kernel⟩

theorem witness_Resets_13 :
    ∃ (s : State) (die eng : Nat),
    (s.m.clocked = true) := by
  exact ⟨on, 0, 0, by decide +kernel⟩

theorem witness_PowerAndHeat_1 :
    ∃ (s : State) (w : Src) (die dom : Nat),
    (s.m.clocked = true) ∧ (s.m.admits w 0x2220 4 = true) ∧ (s.m.rowOf w.q 0x2220 4 = die * 16 + dom) ∧ (1 ≤ dom ∧ dom < 7) ∧ (s.m.heard.domain die dom = 1) ∧ (s.m.heard.downBar die dom = none) := by
  exact ⟨at' fun m => (session m).setSel (.session 0) 0x2220 2 1, sess, 0, 1, by decide +kernel⟩

theorem witness_PowerAndHeat_2 :
    ∃ (s : State) (w : Src) (die dom : Nat),
    (s.m.clocked = true) ∧ (s.m.admits w 0x2220 4 = true) ∧ (s.m.rowOf w.q 0x2220 4 = die * 16 + dom) ∧ (1 ≤ dom ∧ dom < 7) ∧ (s.m.heard.domain die dom = 3) := by
  exact ⟨at' fun m => ((session m).setSel (.session 0) 0x2220 2 1).setReg 0x2220 3 1 3, sess, 0, 1, by decide +kernel⟩

theorem witness_PowerAndHeat_3 :
    ∃ (s : State) (die dom : Nat),
    (s.m.clocked = true) ∧ (s.m.domain die dom = 2) ∧ (dom ≠ 1) := by
  exact ⟨at' fun m => m.setReg 0x2220 3 (domainRow 7 6) 2, 7, 6, by decide +kernel⟩

theorem witness_PowerAndHeat_4 :
    ∃ (s : State) (die : Nat),
    (s.m.clocked = true) ∧ (s.m.domain die 1 = 2) := by
  exact ⟨at' fun m => m.setReg 0x2220 3 (domainRow 0 1) 2, 0, by decide +kernel⟩

theorem witness_PowerAndHeat_5 :
    ∃ (s : State) (die dom : Nat),
    (s.m.clocked = true) ∧ (s.m.domain die dom = 4) := by
  exact ⟨at' fun m => m.setReg 0x2220 3 (domainRow 7 6) 4, 7, 6, by decide +kernel⟩

theorem witness_PowerAndHeat_6 :
    ∃ (s : State) (watts mA vin vaux vauxMa : Nat) (m1 : Mach),
    (s.m.clocked = true) ∧ (m1 = (((((s.m.setReg 0x2232 1 0 (vin % 65536)).setReg 0x2232 2 0 (vaux % 65536)).setReg 0x2232 3 0 (vauxMa % 65536)).setReg 0x2100 3 0 watts).setReg 0x2100 4 0 mA)) ∧ (m1.reg 0x2100 1 0 < watts) ∧ ((m1.setClk { m1.clk with below := 0 }).ramping = false) ∧ (watts * 100 ≥ 98 * m1.reg 0x2100 1 0) := by
  exact ⟨at' fun m => m.setReg 0x2100 1 0 10, 600, 50000, 12000, 3300, 100, _, by decide +kernel, rfl, by decide +kernel, by decide +kernel, by decide +kernel⟩

theorem witness_PowerAndHeat_7 :
    ∃ (s : State),
    (s.m.clocked = true) ∧ (s.m.clk.cut = false) := by
  exact ⟨on, by decide +kernel⟩

theorem witness_PowerAndHeat_8 :
    ∃ (s : State),
    (s.m.clocked = true) ∧ (s.m.clk.cut = true) := by
  exact ⟨at' fun m => { m with clk := { m.clk with cut := true } }, by decide +kernel⟩

theorem witness_PowerAndHeat_9 :
    ∃ (s : State) (n : Nat) (readings : List Int),
    (s.m.clocked = true) ∧ (n < s.m.dies) ∧ (readings ≠ []) ∧ (1150 ≤ maxInt readings) := by
  exact ⟨on, 7, [1150], by decide +kernel⟩

theorem witness_PowerAndHeat_10 :
    ∃ (s : State) (n : Nat) (readings : List Int) (m1 : Mach),
    (s.m.clocked = true) ∧ (n < s.m.dies) ∧ (readings ≠ []) ∧ (maxInt readings < 1050) ∧ (s.m.clk.critical = false) ∧ (m1 = (let x := s.m.setReg 0x2101 2 n (ofSigned 32 (maxInt readings))
    (x.setReg 0x2100 0x0B 0 (ofSigned 32 (maxInt ((List.range x.dies).map fun d => toSigned 32 (x.reg 0x2101 2 d))))).setReg 0x2100 0x0C 0
      (ofSigned 32 (maxInt ((List.range (2 * x.dies)).map fun k => toSigned 32 (x.reg 0x2101 (3 + k % 2) (k / 2))))))) ∧ (maxInt ((List.range s.m.dies).map fun d => toSigned 32 ((s.m.setReg 0x2101 2 n (ofSigned 32 (maxInt readings))).reg 0x2101 2 d)) ≤ ((10 * m1.reg 0x2100 8 0 : Nat) : Int)) := by
  exact ⟨on, 7, [400], _, by decide +kernel, by decide +kernel, by decide +kernel, by decide +kernel, by decide +kernel, rfl, by decide +kernel⟩

theorem witness_BootAndUpdate_1 :
    ∃ (s : State) (ok : Bool) (k : Nat),
    (s.m.clocked = true) ∧ (s.m.clk.stage = 6) ∧ (s.m.clk.booted = false) ∧ (s.m.chooseSlot = (some k, 0)) ∧ ((s.m.bumpBy 0x7130 3 0 0).sec.flash.recorded = (s.m.bumpBy 0x7130 3 0 0).sec.flash.burnt) := by
  exact ⟨at' fun m => { m with clk := { m.clk with stage := 6, booted := false } }, true, 0, by decide +kernel⟩

theorem witness_BootAndUpdate_2 :
    ∃ (s : State) (ok : Bool),
    (s.m.clocked = true) ∧ (s.m.clk.stage = 6) ∧ (s.m.clk.booted = false) ∧ (s.m.chooseSlot = (none, 2)) := by
  exact ⟨at' fun m => { m with clk := { m.clk with stage := 6, booted := false, noImage := true }, sec := { m.sec with flash := { m.sec.flash with slotA := none, slotB := none } } }, true, by decide +kernel⟩

theorem witness_BootAndUpdate_3 :
    ∃ (s : State) (q : Requester) (r : Request) (m1 : Mach),
    (s.m.clocked = true) ∧ (r.op = 4) ∧ (r.index = 0x6010) ∧ (r.sub = 3) ∧ (s.m.fresh? q r.txn = true) ∧ (s.m.heard.gate q 0x6010 3 = none) ∧ (firstAbort (reqFaults r ++ (if r.ty ≠ typeCode 0x6010 3 then [abType] else []) ++
  (if [2, 3, 4].contains (s.m.heard.reg 0x6010 5 0) then some abBusy else none).toList) = none) ∧ ((s.m.heard.takeSegment q r).1.toOption = some none) ∧ (m1 = (s.m.heard.takeSegment q r).2) := by
  exact ⟨at' session, .session 0, ⟨7, 4, 0, 0x6010, 3, 0x0E, 0, 0, []⟩, _, by decide +kernel, by decide +kernel, by decide +kernel, by decide +kernel, by decide +kernel, by decide +kernel, by decide +kernel, by decide +kernel, rfl⟩

theorem witness_BootAndUpdate_4 :
    ∃ (s : State) (w : Src),
    (s.m.clocked = true) ∧ (s.m.admits w 0x6010 4 = true) ∧ (s.m.heard.imageValid (s.m.heard.sec.flash.slot s.m.heard.otherSlot) = true) ∧ ([2, 3, 4].contains (s.m.heard.reg 0x6010 5 0) = false) ∧ (s.m.heard.hasStandby = true) := by
  exact ⟨at' fun m => { session m with sec := { m.sec with flash := { m.sec.flash with slotB := m.sec.flash.slotA } } }, sess, by decide +kernel⟩

theorem witness_BootAndUpdate_5 :
    ∃ (s : State),
    (s.m.clocked = true) ∧ (s.m.reg 0x6010 5 0 = 3) ∧ (s.m.hasStandby = true) := by
  exact ⟨at' fun m => m.setReg 0x6010 5 0 3, by decide +kernel⟩

theorem witness_BootAndUpdate_6 :
    ∃ (s : State),
    (s.m.clocked = true) ∧ (s.m.reg 0x6010 5 0 = 3) := by
  exact ⟨at' fun m => m.setReg 0x6010 5 0 3, by decide +kernel⟩

theorem witness_BootAndUpdate_7 :
    ∃ (s : State),
    (s.m.clocked = true) := by
  exact ⟨on, by decide +kernel⟩

theorem witness_BootAndUpdate_8 :
    ∃ (s : State) (n : Nat) (rest : List Nat),
    (s.m.clocked = true) ∧ (s.m.sec.auditUnwritten = n :: rest) := by
  exact ⟨at' fun m => { m with sec := { m.sec with auditUnwritten := [5], auditRetried := true } }, 5, [], by decide +kernel⟩

theorem witness_ConfidentialMode_1 :
    ∃ (s : State) (w : Src),
    (s.m.clocked = true) ∧ (s.m.admits w 0x6020 5 = true) ∧ (s.m.heard.reg 0x6001 2 0 ≠ 0) ∧ (s.m.heard.reg 0x3430 5 s.m.heard.tenant = 1) ∧ (s.m.heard.bounceOk = true) ∧ (s.m.heard.tenantPathsOk = true) ∧ (s.m.heard.confState = 0) := by
  exact ⟨at' fun m => confW (session m), sess, by decide +kernel⟩

theorem witness_ConfidentialMode_2 :
    ∃ (s : State) (w : Src),
    (s.m.clocked = true) ∧ (s.m.admits w 0x6020 6 = true) ∧ (s.m.heard.confState = 2) := by
  exact ⟨at' fun m => (session m).setConf 2, sess, by decide +kernel⟩

theorem witness_ConfidentialMode_3 :
    ∃ (s : State),
    (s.m.clocked = true) := by
  exact ⟨on, by decide +kernel⟩

theorem witness_ConfidentialMode_4 :
    ∃ (s : State) (key : List Byte),
    (s.m.clocked = true) ∧ (s.m.confState = 1) ∧ (s.m.confWaits = []) := by
  exact ⟨at' fun m => m.setConf 1, zeros 32, by decide +kernel⟩

theorem witness_ConfidentialMode_5 :
    ∃ (s : State),
    (s.m.clocked = true) ∧ (s.m.confState = 3) ∧ (s.m.confWaits = []) := by
  exact ⟨at' fun m => m.setConf 3, by decide +kernel⟩

theorem witness_ConfidentialMode_6 :
    ∃ (s : State),
    (s.m.clocked = true) ∧ (s.m.confState = 2) ∧ (s.m.paths s.m.tenant = []) ∧ (s.m.reg 0x6020 8 0 ≠ 0) := by
  exact ⟨at' fun m => (m.setReg 0x6020 8 0 9).setConf 2, by decide +kernel⟩

theorem witness_ConfidentialMode_7 :
    ∃ (s : State) (w : Src) (k base len who : Nat),
    (s.m.clocked = true) ∧ (s.m.admits w 0x6031 6 = true) ∧ (s.m.heard.sel w.q 0x6031 1 = k) ∧ (s.m.heard.reg 0x6031 4 k = base) ∧ (s.m.heard.reg 0x6031 5 k = len) ∧ (s.m.heard.bindOwner w.q = who) ∧ (base % 2 ^ 21 = 0) ∧ (len % 2 ^ 21 = 0) ∧ (len ≠ 0) ∧ (s.m.heard.sec.bound = []) ∧ (s.m.heard.inGrant who (s.m.heard.reg 0x6031 2 k) (s.m.heard.reg 0x6031 3 k) = true) ∧ (s.m.heard.inGrant who base len = true) := by
  exact ⟨at' fun m => (session m).setReg 0x6031 5 0 (2 ^ 21), sess, 0, 0, 2 ^ 21, 0xFF, by decide +kernel⟩

theorem witness_ConfidentialMode_8 :
    ∃ (s : State) (w : Src) (k : Nat),
    (s.m.clocked = true) ∧ (s.m.admits w 0x6031 6 = true) ∧ (s.m.heard.sel w.q 0x6031 1 = k) := by
  exact ⟨at' session, sess, 0, by decide +kernel⟩

theorem witness_ConfidentialMode_9 :
    ∃ (s : State) (slot : Nat) (b : BoundRegion) (p : List Byte) (m1 : Mach),
    (s.m.clocked = true) ∧ (tget s.m.sec.bound slot = some b) ∧ (s.m.reg 0x6031 7 slot = 0) ∧ (s.m.recall (s.m.reg 0x6031 2 slot) (s.m.reg 0x6031 3 slot) false = none) ∧ ((s.m.loadDpa 0 (s.m.reg 0x6031 2 slot) (s.m.reg 0x6031 3 slot)).1 = .ok p) ∧ (m1 = (s.m.loadDpa 0 (s.m.reg 0x6031 2 slot) (s.m.reg 0x6031 3 slot)).2) := by
  exact ⟨at' fun m => localW 0 (cmd []) { m with sec := { m.sec with bound := [(0, ⟨0, 2 ^ 21, []⟩)] } } |>.setReg 0x6031 2 0 0x300000 |>.setReg 0x6031 3 0 64, 0, ⟨0, 2 ^ 21, []⟩, zeros 64, _, by decide +kernel, by decide +kernel, by decide +kernel, by decide +kernel, by decide +kernel, rfl⟩

theorem witness_Telemetry_1 :
    ∃ (s : State) (w : Src),
    (s.m.clocked = true) ∧ (s.m.admits w 0x7000 1 = true) := by
  exact ⟨at' session, sess, by decide +kernel⟩

theorem witness_Telemetry_2 :
    ∃ (s : State) (w : Src),
    (s.m.clocked = true) ∧ (s.m.admits w 0x7000 3 = true) := by
  exact ⟨at' session, sess, by decide +kernel⟩

theorem witness_Telemetry_3 :
    ∃ (s : State) (w : Src) (u : Nat),
    (s.m.clocked = true) ∧ (s.m.admits w 0x7140 5 = true) ∧ (s.m.heard.rowOf w.q 0x7140 5 = u) := by
  exact ⟨at' session, sess, 0, by decide +kernel⟩

theorem witness_Telemetry_4 :
    ∃ (s : State) (w : Src),
    (s.m.clocked = true) ∧ (s.m.admits w 0x7140 6 = true) := by
  exact ⟨at' session, sess, by decide +kernel⟩

theorem witness_Telemetry_5 :
    ∃ (s : State) (w : Src),
    (s.m.clocked = true) ∧ (s.m.admits w 0x7140 7 = true) := by
  exact ⟨at' session, sess, by decide +kernel⟩

theorem witness_Telemetry_6 :
    ∃ (s : State) (t : Nat),
    (s.m.clocked = true) ∧ ((s.m.tele.events.map (·.stamp)).min? = some t) := by
  exact ⟨at' fun m => m.setTele { m.tele with events := [⟨5, 0, 0⟩, ⟨9, 0, 1⟩] }, 5, by decide +kernel⟩

theorem witness_Telemetry_7 :
    ∃ (s : State) (w : Src),
    (s.m.clocked = true) ∧ (s.m.admits w 0x7140 0x13 = true) := by
  exact ⟨at' session, sess, by decide +kernel⟩

theorem witness_Telemetry_8 :
    ∃ (s : State) (p height width first : Nat) (rest : List Nat),
    (s.m.clocked = true) ∧ (s.m.lanesUsed p = first :: rest) ∧ (p < 8) ∧ (s.m.numberedState p = true) ∧ ((first :: rest).contains (tgetD s.m.tele.eyeLane p first) = true) := by
  exact ⟨at' fun m => ((portW 7 7 m).setReg 0x4011 2 7 4).setReg 0x4011 3 7 0xF0, 7, 30, 400, 4, [5, 6, 7], by decide +kernel⟩

theorem witness_Telemetry_9 :
    ∃ (s : State) (rails : List (Nat × Int × Nat)) (slacks : List (Nat × Int)),
    (s.m.clocked = true) := by
  exact ⟨on, [(0, 15, 750)], [(0, 20)], by decide +kernel⟩

theorem witness_Telemetry_10 :
    ∃ (s : State) (w : Src),
    (s.m.clocked = true) ∧ (s.m.admits w 0x9000 7 = true) ∧ (s.m.heard.tracing = false) := by
  exact ⟨at' session, sess, by decide +kernel⟩

theorem witness_Telemetry_11 :
    ∃ (s : State) (w : Src),
    (s.m.clocked = true) ∧ (s.m.admits w 0x9000 7 = true) := by
  exact ⟨at' session, sess, by decide +kernel⟩

theorem witness_Telemetry_12 :
    ∃ (s : State),
    (s.m.clocked = true) ∧ (s.m.reg 0x9000 8 0 = 2) ∧ (s.m.tele.trace.postLeft = 0) := by
  exact ⟨at' fun m => m.setReg 0x9000 8 0 2, by decide +kernel⟩

theorem witness_ModulesAndDebug_1 :
    ∃ (s : State) (i : Nat),
    (s.m.position i = true) ∧ (s.m.moduleState i = 0) := by
  exact ⟨on, 31, by decide +kernel⟩

theorem witness_ModulesAndDebug_2 :
    ∃ (s : State) (i : Nat),
    (s.m.position i = true) := by
  exact ⟨on, 31, by decide +kernel⟩

theorem witness_ModulesAndDebug_3 :
    ∃ (s : State) (i app a b c d : Nat),
    (s.m.clocked = true) ∧ (s.m.position i = true) ∧ (s.m.moduleState i = 1) := by
  exact ⟨at' fun m => m.setReg 0x7150 2 31 1, 31, 1, 0, 0, 0, 0, by decide +kernel⟩

theorem witness_ModulesAndDebug_4 :
    ∃ (s : State) (i : Nat),
    (s.m.clocked = true) ∧ (s.m.moduleState i = 1) := by
  exact ⟨at' fun m => m.setReg 0x7150 2 31 1, 31, by decide +kernel⟩

theorem witness_ModulesAndDebug_5 :
    ∃ (s : State) (i : Nat),
    (s.m.clocked = true) ∧ (s.m.moduleState i = 4) := by
  exact ⟨at' fun m => m.setReg 0x7150 2 31 4, 31, by decide +kernel⟩

theorem witness_ModulesAndDebug_6 :
    ∃ (s : State) (i : Nat) (lanes : List (Nat × Nat)) (fault : Bool),
    (s.m.clocked = true) ∧ (s.m.moduleState i = 2) := by
  exact ⟨at' fun m => m.setReg 0x7150 2 31 2, 31, [(10000, 0)], false, by decide +kernel⟩

theorem witness_ModulesAndDebug_7 :
    ∃ (s : State) (w : Src) (bs : List Byte),
    (s.m.clocked = true) ∧ (s.m.fresh? w.q w.txn = true) ∧ (s.m.heard.readGate w.q 0x7150 0x0B = none) ∧ (s.m.heard.mapFault w.q (s.m.heard.sel w.q 0x7150 0x0A) false = none) := by
  exact ⟨at' mapW, sess, [7], by decide +kernel⟩

theorem witness_ModulesAndDebug_8 :
    ∃ (s : State) (w : Src) (bs : List Byte),
    (s.m.clocked = true) ∧ (s.m.admits w 0x7150 0x0B = true) ∧ (bs.length = s.m.heard.sel w.q 0x7150 0x0A) ∧ (s.m.heard.mapFault w.q bs.length true = none) := by
  exact ⟨at' fun m => mapW (portW 0 1 m), sess, [7], by decide +kernel⟩

theorem witness_ModulesAndDebug_9 :
    ∃ (s : State) (code : Nat),
    (s.m.elec.vauxOk = true) := by
  exact ⟨at' fun m => m.setReg 0x2200 3 0 5, 7, by decide +kernel⟩

theorem witness_ModulesAndDebug_10 :
    ∃ (s : State) (w : Src) (bs : List Byte) (m1 : Mach),
    (s.m.clocked = true) ∧ (s.m.tele.scratchAsk = none) ∧ (s.m.fresh? w.q w.txn = true) ∧ (s.m.heard.readGate w.q 0x9010 5 = none) ∧ (s.m.heard.scratchFault w.q = none) ∧ (s.m.heard.scratchFree w.q = true) ∧ (((s.m.heard.setTele { s.m.heard.tele with scratchAsk := none }).scratchRead (s.m.heard.sel w.q 0x9010 1) (s.m.heard.sel w.q 0x9010 2) 0 0xFFFF (s.m.heard.sel w.q 0x9010 3) (s.m.heard.sel w.q 0x9010 4)).1 = bs) ∧ (m1 = ((s.m.heard.setTele { s.m.heard.tele with scratchAsk := none }).scratchRead (s.m.heard.sel w.q 0x9010 1) (s.m.heard.sel w.q 0x9010 2) 0 0xFFFF (s.m.heard.sel w.q 0x9010 3) (s.m.heard.sel w.q 0x9010 4)).2) := by
  exact ⟨at' scrW, sess, zeros 64, _, by decide +kernel, by decide +kernel, by decide +kernel, by decide +kernel, by decide +kernel, by decide +kernel, by decide +kernel, rfl⟩

theorem witness_ModulesAndDebug_11 :
    ∃ (s : State) (w : Src) (bs : List Byte),
    (s.m.clocked = true) ∧ (s.m.tele.scratchAsk = none) ∧ (s.m.fresh? w.q w.txn = true) ∧ (s.m.heard.gate w.q 0x9010 5 = none) ∧ (bs.length = s.m.heard.sel w.q 0x9010 4) ∧ (s.m.heard.scratchFault w.q = none) ∧ (s.m.heard.scratchFree w.q = true) := by
  exact ⟨at' scrW, sess, zeros 64, by decide +kernel⟩

theorem witness_ModulesAndDebug_12 :
    ∃ (s : State) (d : DebugAccess),
    (s.m.clocked = true) ∧ (s.m.tele.scratchAsk = some d) := by
  exact ⟨at' fun m => (session m).setTele { m.tele with scratchAsk := some ⟨0, 7, false⟩ }, ⟨0, 7, false⟩, by decide +kernel⟩

theorem witness_ModulesAndDebug_13 :
    ∃ (s : State) (st : Nat),
    (s.m.elec.vauxOk = true) := by
  exact ⟨on, 1, by decide +kernel⟩

theorem witness_PinsAlone_1 :
    ∃ (c : Instr) (s t : State),
    (pinCommand c = false) ∧ (exec c s = .next t) := by
  exact ⟨.pllLocked, on, on, by decide +kernel, rfl⟩

theorem witness_PinsAlone_2 :
    ∃ (c : Instr) (s t : State),
    (∀ a b, c ≠ .resetInLRelease a b) ∧ (exec c s = .next t) := by
  exact ⟨.pllLocked, on, on, by simp, rfl⟩

theorem witness_PinsAlone_3 :
    ∃ (c : Instr) (s : State),
    (pinCommand c = false) ∧ (portPinCommand c = false) ∧ (s.m.elec.vauxOk = false) := by
  exact ⟨.pllLocked, State.reset, by decide +kernel⟩

theorem witness_TripHolds :
    ∃ (s t : State),
    (s.m.clk.tripped = true) ∧ (s.pending.head? ≠ some .vauxUndervoltage) ∧ (step s = .next t) := by
  exact ⟨at' fun m => { m with clk := { m.clk with tripped := true } }, at' fun m => { m with clk := { m.clk with tripped := true } }, by decide +kernel, by simp [at'], rfl⟩

theorem witness_PinsStayConsistent :
    ∃ (s t : State),
    (s.m.pinsConsistent = true) ∧ (step s = .next t) := by
  exact ⟨on, ⟨onM.tick, []⟩, by decide +kernel, rfl⟩

theorem witness_StoreReadsBack :
    ∃ (m : Mach) (a b n : Nat) (bs : List Byte),
    (Memory.wf m.store.mem = true) := by
  exact ⟨onM, 0, 1, 5, [7], by decide +kernel⟩

theorem witness_RefusedFrames :
    ∃ (s : State) (port : Nat) (f : RFrame),
    (s.m.clocked = true) ∧ (f.opcode < 0xC0) ∧ (RFrameFormOk f = false) := by
  exact ⟨on, 7, { fr with len := 0, opcode := 0x3F }, by decide +kernel⟩

theorem witness_StaleCollFrames :
    ∃ (s : State) (port : Nat) (f : RFrame),
    (s.m.clocked = true) ∧ (f.opcode = opColl) ∧ (RFrameFormOk f = true) ∧ ((s.m.keyCheck f).1 = 0) ∧ (bits (f.word 5) 23 16 ≠ s.m.reg 0x4510 9 (f.word 5 % 65536)) := by
  exact ⟨at' fun m => (winW 1 (groupW 3 m)).setReg 0x4510 9 0 1, 7, rq opColl 1 64, by decide +kernel⟩

end Sys2Proof.Tests
end

section
/-! The frame of a step: whatever the command, the step answers a next state, takes nothing but the front of the queue and
leaves the variant's number of dies (D of 00_scope.md R2) alone. A command acts in one of five ways (`run`, `powered`, `onAux`, `atPort`,
`pinEvent`); four of them put the dies back themselves, and of the pins' commands `Laws/Reset` says that each keeps them. -/

namespace Sys2Proof.Machine

/-! ## What each way of acting leaves of the queue and the variant -/

@[simp] theorem State.run_pending (s : State) (f : Mach → Mach) : (s.run f).pending = s.pending := by
  unfold State.run; split <;> rfl

@[simp] theorem State.run_dies (s : State) (f : Mach → Mach) : (s.run f).m.dies = s.m.dies := by
  unfold State.run; split <;> rfl

@[simp] theorem State.powered_pending (s : State) (f : Mach → Mach) : (s.powered f).pending = s.pending := by
  unfold State.powered; split <;> rfl

@[simp] theorem State.powered_dies (s : State) (f : Mach → Mach) : (s.powered f).m.dies = s.m.dies := by
  unfold State.powered; split <;> rfl

@[simp] theorem State.onAux_pending (s : State) (f : Mach → Mach) : (s.onAux f).pending = s.pending := by
  unfold State.onAux; split <;> rfl

@[simp] theorem State.onAux_dies (s : State) (f : Mach → Mach) : (s.onAux f).m.dies = s.m.dies := by
  unfold State.onAux; split <;> rfl

@[simp] theorem State.atPort_pending (s : State) (f : Mach → Mach) : (s.atPort f).pending = s.pending := rfl
@[simp] theorem State.atPort_dies (s : State) (f : Mach → Mach) : (s.atPort f).m.dies = s.m.dies := rfl
@[simp] theorem State.pinEvent_pending (s : State) (f : Mach → Mach) : (s.pinEvent f).pending = s.pending := rfl
@[simp] theorem State.pinEvent_m (s : State) (f : Mach → Mach) : (s.pinEvent f).m = f s.m := rfl

@[simp] theorem Mach.tick_dies (m : Mach) : m.tick.dies = m.dies := by
  unfold Mach.tick; split <;> rfl

/-! ## Every command and every step goes on -/

/-- A command of the supplies, RESET_IN_L or the straps is a pin event that keeps the number of dies. -/
theorem exec_pinEvent_of_pinCommand {c : Instr} (h : pinCommand c = true) (s : State) :
    ∃ f, exec c s = .next (s.pinEvent f) ∧ (f s.m).dies = s.m.dies := by
  obtain ⟨ns, rfl⟩ | ⟨segid, refqual, rfl⟩ | ⟨up, down, rfl⟩ | rfl | rfl | rfl | rfl := pinCommand_cases c h
  · obtain ⟨-, hd, -⟩ := s.m.rowResetInAssert_pins ns
    exact ⟨_, exec_resetInLAssert .., hd⟩
  · obtain ⟨-, hd, -⟩ := s.m.rowResetInRelease_pins segid refqual
    exact ⟨_, exec_resetInLRelease .., hd⟩
  · obtain ⟨-, hd, -⟩ := s.m.rowStrapCheckDone_pins up down
    exact ⟨_, exec_strapCheckDone .., hd⟩
  · obtain ⟨-, hd, -⟩ := s.m.rowSuppliesInRange_pins
    exact ⟨_, exec_suppliesInRange .., hd⟩
  · obtain ⟨-, hd, -⟩ := s.m.rowVinUndervoltage_pins
    exact ⟨_, exec_vinUndervoltage .., hd⟩
  · obtain ⟨-, hd, -⟩ := s.m.rowVinReturn_pins
    exact ⟨_, exec_vinReturnExpiry .., hd⟩
  · obtain ⟨-, hd⟩ := s.m.rowVauxUndervoltage_pins
    exact ⟨_, exec_vauxUndervoltage .., hd⟩

/-- Every command answers a next state with the queue and the number of dies that it found. -/
theorem exec_goesOn (c : Instr) (s : State) :
    ∃ t, exec c s = .next t ∧ t.pending = s.pending ∧ t.m.dies = s.m.dies := by
  cases hp : pinCommand c with
  | true =>
    obtain ⟨f, he, hd⟩ := exec_pinEvent_of_pinCommand hp s
    exact ⟨_, he, s.pinEvent_pending f, hd⟩
  | false =>
    obtain ⟨f, he⟩ | ⟨f, he⟩ | ⟨f, he, -⟩ | ⟨-, f, he⟩ := exec_shape c s hp
    · exact ⟨_, he, s.run_pending f, s.run_dies f⟩
    · exact ⟨_, he, s.powered_pending f, s.powered_dies f⟩
    · exact ⟨_, he, s.onAux_pending f, s.onAux_dies f⟩
    · exact ⟨_, he, s.atPort_pending f, s.atPort_dies f⟩

theorem step_nil {s : State} (h : s.pending = []) : step s = .next { s with m := s.m.tick } := by
  simp only [step, h]

theorem step_cons {s : State} {c : Instr} {rest : List Instr} (h : s.pending = c :: rest) :
    step s = exec c { s with pending := rest } := by
  simp only [step, h]

/-- Settles O54: an empty queue ticks, and a command at the front runs on the queue's rest and goes on (`exec_goesOn`). -/
theorem everyStepGoesOn : Obligations.EveryStepGoesOn := by
  intro s
  cases hq : s.pending with
  | nil => exact ⟨_, step_nil hq, hq, s.m.tick_dies⟩
  | cons c rest =>
    obtain ⟨t, he, hpending, hdies⟩ := exec_goesOn c { s with pending := rest }
    exact ⟨t, (step_cons hq).trans he, hpending, hdies⟩

end Sys2Proof.Machine
end

section
/-! What the statements on one command share: a clocked command is its row's operation on the machine at hand. -/

namespace Sys2Proof.Machine

/-- A clocked command whose operation gives what g gives on the machine at hand: its answer. -/
theorem next_run_eq {s : State} {f g : Mach → Mach} (hc : s.m.clocked = true) (h : f s.m = g s.m) :
    (.next (s.run f) : Host.Outcome State Fault Refusal) = .next (s.after g) := by
  rw [State.run_eq hc h]

@[simp] theorem Mach.heard_dies (m : Mach) : m.heard.dies = m.dies := rfl
@[simp] theorem Mach.heard_xl (m : Mach) : m.heard.xl = m.xl := rfl

@[simp] theorem remove_singleton_self (x : Nat) : remove [x] x = [] := by simp [remove]

end Sys2Proof.Machine
end

section
/-! The Col's commands (01_organisation.md R19-R24): what a home does with a request on a line that nothing is under way on,
and what snoops and their answers do. -/

namespace Sys2Proof.Machine

/-! ## A request at its home -/

theorem Mach.lineFree_iff (m : Mach) (home req line : Nat) :
    m.lineFree home req line = true ↔
      m.colFind .evict req home line = none ∧ m.colFind .wb req home line = none ∧ tget m.col.txns line = none ∧
        (m.filterSet home line).length < 16 := by
  simp [Mach.lineFree, and_assoc]

/-- A home with room in the line's set of its filter serves a request without a recall (R22). -/
theorem Mach.serveOrRecall_of_room {m : Mach} {home line : Nat} (h : (m.filterSet home line).length < 16) (req : Nat)
    (kind : TxnKind) : m.serveOrRecall home req line kind = m.serve home req line kind := by
  simp [Mach.serveOrRecall, Nat.not_le.mpr h]

/-- A request that was sent, on a line with nothing under way: taken off the Col and served at once. -/
theorem Mach.colReq_of_lineFree {m : Mach} {ty : ColType} {home req line : Nat} {x : ColMsg} (kind : TxnKind)
    (hh : m.dieActive home = true) (hr : m.dieActive req = true) (hx : m.colFind ty req home line = some x)
    (hf : (m.colTake x).lineFree home req line = true) :
    m.colReq ty kind home req line = (m.colTake x).serve home req line kind := by
  obtain ⟨hevict, hwb, htxn, hroom⟩ := (Mach.lineFree_iff ..).mp hf
  have happly : (m.colTake x).applyEvicts home req line = m.colTake x := by simp only [Mach.applyEvicts, hevict, hwb]
  simp [Mach.colReq, hh, hr, hx, happly, Mach.request, htxn, Mach.serveOrRecall_of_room hroom]

/-- A read of a line that no die holds: the media answer it, in state E (R20). -/
theorem Mach.serve_shared_of_unheld {m : Mach} {home line : Nat} (h : m.holders home line = (.S, [])) (req : Nat) :
    m.serve home req line .shared = (m.openTxn line (ColTxn.fresh .shared req home)).readMedia home req line .E := by
  simp only [Mach.serve, h]
  rfl

/-- A read for ownership of a line that no die holds: the media answer it (R20). -/
theorem Mach.serve_own_of_unheld {m : Mach} {home line : Nat} (h : m.holders home line = (.S, [])) (req : Nat) :
    m.serve home req line .own = (m.openTxn line (ColTxn.fresh .own req home)).readMedia home req line .E := by
  simp only [Mach.serve, h]
  rfl

/-- An upgrade of the only sharer: granted by ACK (R19). -/
theorem Mach.serve_upgrade_of_sole {m : Mach} {home req line : Nat} (h : m.holders home line = (.S, [req])) :
    m.serve home req line .upgrade =
      (m.openTxn line (ColTxn.fresh .upgrade req home)).colSend .ack home req line req .inv .poison .E := by
  simp [Mach.serve, h]

/-- Settles O1: a request on a free line is served at once (`colReq_of_lineFree`), and `serve` has one case for each kind of
request; EVICT and WB act on the message that was found. -/
theorem colRequests : Obligations.ColRequests := by
  refine ⟨?rdShared, ?rdOwn, ?upgrade, ?evict, ?wb⟩
  case rdShared =>
    intro s home req line x hc hh hr hx hf hold
    exact next_run_eq hc ((Mach.colReq_of_lineFree .shared hh hr hx hf).trans (Mach.serve_shared_of_unheld hold req))
  case rdOwn =>
    intro s home req line x hc hh hr hx hf hold
    exact next_run_eq hc ((Mach.colReq_of_lineFree .own hh hr hx hf).trans (Mach.serve_own_of_unheld hold req))
  case upgrade =>
    intro s home req line x hc hh hr hx hf hold
    exact next_run_eq hc ((Mach.colReq_of_lineFree .upgrade hh hr hx hf).trans (Mach.serve_upgrade_of_sole hold))
  case evict =>
    intro s home src line x hc hx
    exact next_run_eq hc (by simp only [Mach.rowColEvict, hx])
  case wb =>
    intro s home src line x hc hx htxn
    exact next_run_eq hc (by simp only [Mach.rowColWb, hx, htxn])

/-! ## Snoops and their answers -/

@[simp] theorem Mach.colTake_cached (m : Mach) (x : ColMsg) (die line : Nat) : (m.colTake x).cached die line = m.cached die line := rfl
@[simp] theorem Mach.colTake_txns (m : Mach) (x : ColMsg) : (m.colTake x).col.txns = m.col.txns := rfl
@[simp] theorem Mach.colTake_homeOf (m : Mach) (x : ColMsg) (dpa : Nat) : (m.colTake x).homeOf dpa = m.homeOf dpa := rfl
@[simp] theorem Mach.openTxn_cached (m : Mach) (line : Nat) (t : ColTxn) (die l : Nat) :
    (m.openTxn line t).cached die l = m.cached die l := rfl
@[simp] theorem Mach.putCached_txns (m : Mach) (die line : Nat) (l : ColLine) : (m.putCached die line l).col.txns = m.col.txns := rfl

/-- Settles O2: each answer acts on the message that was found, by the one branch of its row that its conditions leave. -/
theorem colAnswers : Obligations.ColAnswers := by
  refine ⟨?snpShare, ?snpInv, ?snpFwd, ?snpRsp, ?ack, ?data⟩
  case snpShare =>
    intro s home die line x hc hx hown
    exact next_run_eq hc (by simp [Mach.rowColSnpShare, hx, hown])
  case snpInv =>
    intro s home die line x hc hx hnone
    exact next_run_eq hc (by simp [Mach.rowColSnpInv, hx, hnone])
  case snpFwd =>
    intro s home die line x l hc hx hl
    exact next_run_eq hc (by simp [Mach.rowColSnpFwd, hx, hl])
  case snpRsp =>
    intro s home src line x t hc hx hans htxn hothers
    have hsent : (SnpAnswer.inv == .dataSent) = false := rfl
    exact next_run_eq hc (by simp [Mach.rowColSnpRsp, hx, htxn, hans, hothers, hsent])
  case ack =>
    intro s src die line x l t hc hx hl htxn
    exact next_run_eq hc (by simp [Mach.rowColAck, hx, hl, htxn])
  case data =>
    intro s src die line x t bs hc hx htxn hval hkind hdie hcopy hhome hmod
    have hcopy' : (die == t.home && x.st == .M) = false := hcopy
    have hinstalls : ¬(t.kind = .recall ∨ die ≠ t.req) := by simp [hkind, hdie]
    exact next_run_eq hc (by
      simp only [Mach.rowColData, hx, Mach.colTake_txns, htxn, hcopy', hval, hinstalls, hhome, hmod, Mach.colTake_homeOf,
        Mach.openTxn_cached, Mach.colTake_cached, Bool.false_eq_true, or_self, if_false])

end Sys2Proof.Machine
end

section
/-! Col links and die fences (01_organisation.md R25-R33; 03_store_tiers.md R98). -/

namespace Sys2Proof.Machine

/-! ## Col links -/

/-- A link's change of state, its old state known: notice 0x8011 says both (R25). -/
theorem Mach.setColLink_of_reg {m : Mach} {link old : Nat} (h : m.reg 0x7011 (1 + link) 0 = old) (v : Nat) :
    m.setColLink link v = (m.setReg 0x7011 (1 + link) 0 v).notice 0x8011 [byteOf link, byteOf old, byteOf v] := by
  simp only [Mach.setColLink, h]

/-- Settles O3: each event of a link acts on the state of the link that its register gives (`setColLink_of_reg`). -/
theorem colLinks : Obligations.ColLinks := by
  refine ⟨?errs, ?retrained, ?staysDown, ?cleared⟩
  case errs =>
    intro s link hc hlink hreg
    exact next_run_eq hc (by
      rw [Mach.rowColLinkError, if_pos ⟨hlink, hreg⟩, Mach.setColLink_of_reg hreg]; rfl)
  case retrained =>
    intro s link a b hc hreg hmem ha hb
    have hany : (s.m.colLinks.any fun l => l.1 == link && s.m.dieActive l.2.1 && s.m.dieActive l.2.2) = true :=
      List.any_eq_true.mpr ⟨(link, a, b), hmem, by simp [ha, hb]⟩
    exact next_run_eq hc (by
      rw [Mach.rowColLinkRetrainDone, if_pos ⟨hreg, hany⟩, Mach.setColLink_of_reg hreg]; rfl)
  case staysDown =>
    intro s link l hc hlink hreg hl hroute
    have hset : s.m.setColLink link 3 = (s.m.setReg 0x7011 (1 + link) 0 3).notice 0x8011 [byteOf link, 2, 3] :=
      Mach.setColLink_of_reg hreg 3
    have hretrains : ¬(10 ≤ link ∨ s.m.reg 0x7011 (1 + link) 0 ≠ 2) := by omega
    exact next_run_eq hc (by
      simp only [Mach.rowColRetrainLimitExpiry, if_neg hretrains, hset, hl, hroute, Nat.one_ne_zero, if_false])
  case cleared =>
    intro s w v hc hadm hv
    exact next_run_eq hc (dictWrite_ok hadm (by rw [Mach.clearDownLink, if_neg (Nat.not_le.mpr hv)]))

/-! ## Abrupt fences -/

/-- An ACTIVE die whose loss leaves die 0 or die 1 ACTIVE, fenced abruptly: FENCING, cut off, and so is every die that this
cuts off (R26-R28). -/
theorem Mach.fenceAbrupt_of_active {m : Mach} {d : Nat} (hd : d < m.dies) (hst : m.dieState d = 1) (hf : m.fence? d = none)
    (ha : m.fenceAllowed d = true) : m.fenceAbrupt d = Mach.fenceSplit 8 ((m.setDie d 2).cutDie d true) := by
  have hone : m.fenceOne d = (m.setDie d 2).cutDie d true := by simp [Mach.fenceOne, hd, hst, hf, ha]
  rw [Mach.fenceAbrupt, hone]

/-- Settles O4: the three events are abrupt fences, and `fenceAbrupt_of_active` says what one does. -/
theorem abruptFences : Obligations.AbruptFences := by
  refine ⟨?watchdog, ?uncorrectable, ?supply⟩
  all_goals
    intro s d hc hd hst hf ha
    exact next_run_eq hc (Mach.fenceAbrupt_of_active hd hst hf ha)

/-! ## Orderly fences, rejoins -/

/-- The step that a die's fence is in, as the rows ask for it. -/
theorem Mach.fence?_any_step {m : Mach} {d : Nat} {st : FenceStep} (h : m.fence? d = some ⟨st⟩) :
    ((m.fence? d).any fun r => r.step == st) = true := by
  simp [h]

/-- Settles O5: the die's fence record names the step that it is in, and each step ends by the condition on the state that its
row asks. -/
theorem orderlyFences : Obligations.OrderlyFences := by
  refine ⟨?start, ?evacuated, ?drained, ?drainBound, ?cut, ?fenced⟩
  case start =>
    intro s w d hc hreg hadm hd hst ha
    exact next_run_eq hc (by
      rw [Mach.rowFenceOrderly, if_neg (not_not.mpr hreg)]
      exact dictWrite_ok hadm (by simp [Mach.fenceOrderly, hd, hst, ha]))
  case evacuated =>
    intro s d hc hf hempty
    exact next_run_eq hc (by simp [Mach.rowFenceEvacuationDone, Mach.fence?_any_step hf, hempty])
  case drained =>
    intro s d hc hf hslots
    exact next_run_eq hc (by rw [Mach.rowFenceDrainDone, Mach.fence?_any_step hf, hslots]; rfl)
  case drainBound =>
    intro s d hc hf hmigrations
    exact next_run_eq hc (by simp [Mach.rowCommandDrainBoundExpiry, Mach.fence?_any_step hf, hmigrations])
  case cut =>
    intro s d hc hf hhosts
    exact next_run_eq hc (by simp [Mach.rowFenceWritebackDone, Mach.fence?_any_step hf, hhosts])
  case fenced =>
    intro s d hc hf hhosts
    exact next_run_eq hc (by simp [Mach.rowFenceSurvivorWritebackDone, Mach.fence?_any_step hf, hhosts])

/-- Settles O6: with no movement and no removal left the bound only gives the fence up, and a rejoin passes its entry's own
checks. -/
theorem fenceAbandoned : Obligations.FenceAbandoned := by
  refine ⟨?givenUp, ?rejoin⟩
  case givenUp =>
    intro s d hc hf hmoves hreshape
    simp only [Mach.fenceGivenUp] at hreshape
    exact next_run_eq hc (by
      simp only [Mach.rowFenceEvacuationBoundExpiry, Mach.fenceGivenUp, Mach.fence?_any_step hf, Bool.not_true, Bool.false_eq_true,
        if_false, hmoves, List.filter_nil, List.map_nil, List.foldl_nil, hreshape])
  case rejoin =>
    intro s w d hc hreg hadm hd hst
    exact next_run_eq hc (by
      rw [Mach.rowDieRejoin, if_neg (not_not.mpr hreg)]
      exact dictWrite_ok hadm (by simp [Mach.rejoin, hd, hst]))

end Sys2Proof.Machine
end

section
/-! HDM decoders and ASTs (02_address_spaces.md R39, R42), the end of a rejoin (01_organisation.md R33) and the commits that wait
for hosts (01_organisation.md R34; 03_store_tiers.md R92). -/

namespace Sys2Proof.Machine

/-- Settles O7: a decoder and the entries of ASTs pass their own checks; a rejoin and the two commits that wait for hosts have
nothing left to wait for. -/
theorem decoders : Obligations.Decoders := by
  refine ⟨?commit, ?enable, ?disable, ?owner, ?rejoined, ?remapped, ?scrubbed⟩
  case commit =>
    intro s link ld k base size dpa g ways l hc hl hup hk hways hg hg' hbind hgrant
    exact next_run_eq hc (by
      simp only [Mach.rowHdmDecoderCommit, hl, hup, Nat.not_le.mpr hk, hways, hg, hg', hbind, hgrant, beq_self_eq_true, decide_true,
        Bool.and_self, Bool.or_true, Nat.reduceLT, or_self, if_false])
  case enable =>
    intro s w a t hc hadm ha ht hoff hkind hroot hkeys
    subst ht
    dsimp only at hkind hroot hkeys
    exact next_run_eq hc (dictWrite_ok hadm (by simp [Mach.enableAst, ← ha, hoff, hkind, hroot, hkeys]))
  case disable =>
    intro s w a hc hadm ha hidle
    exact next_run_eq hc (dictWrite_ok hadm (by simp [Mach.disableAst, ← ha, hidle]))
  case owner =>
    intro s w v a hc hadm ha hsteward hv hoff
    exact next_run_eq hc (dictWrite_ok hadm (by simp [Mach.astOwner, ← ha, hsteward, hv, hoff]))
  case rejoined =>
    intro s d t0 t1 hc hd hst
    have hgo : ¬(s.m.dies ≤ d ∨ s.m.dieState d ≠ 4) := by simp [hd, hst]
    exact next_run_eq hc (by rw [Mach.rowDieRejoinDone, if_neg hgo])
  case remapped =>
    intro s c hc hcommit hremap hhosts
    exact next_run_eq hc (by simp [Mach.rowHomeRemapWritebackDone, hcommit, hremap, hhosts])
  case scrubbed =>
    intro s c hc hcommit hscrub hhosts
    exact next_run_eq hc (by simp [Mach.rowHrtScrubDone, hcommit, hscrub, hhosts])

end Sys2Proof.Machine
end

section
/-! Prefetch walks (02_address_spaces.md R43, R51) and reads through host paths (R45). -/

namespace Sys2Proof.Machine

/-- A prefetch walk finds one of the first 24 slots free: it waits at its AST's root and is counted in 0x7020.03 (R51). -/
theorem Mach.rowPrefetchWalkStart_of_free {m : Mach} {die ast dva : Nat} {a : Ast} (ha : m.ast? ast = some a)
    (hactive : m.dieActive die = true) (hfree : (m.xl.walks.filter fun w => w.die == die).length < 24) (hdva : dva < 2 ^ 48)
    (hroot : a.root ≠ 0) (hmiss : m.cachedLeaf die engOther ast dva = none) (hkind : a.kind = 0) :
    m.rowPrefetchWalkStart die ast dva =
      ({ m with xl := { m.xl with walks := m.xl.walks ++ [⟨die, ast, dva, 4, a.root, none⟩] } } : Mach).bump 0x7020 3 := by
  have hstarts : ¬((!m.dieActive die) = true ∨ 24 ≤ (m.xl.walks.filter fun w => w.die == die).length ∨ 2 ^ 48 ≤ dva ∨
      a.root = 0 ∨ (m.cachedLeaf die engOther ast dva).isSome = true ∨ (a.kind = 1 ∧ 2 ^ 46 ≤ dva)) := by
    simpa [hactive, hfree, hroot, hmiss, hkind] using hdva
  simp only [Mach.rowPrefetchWalkStart, ha, if_neg hstarts]

/-- A sound entry that is no leaf, above level 1: it is cached for its level, and the walk goes on in the table that it names
(R43). -/
theorem Mach.rowWalkStepDone_of_table {m m' : Mach} {die ast dva e : Nat} {a : Ast} {w : Walk}
    (hw : (m.xl.walks.find? fun w => w.die == die && w.ast == ast && w.dva == dva) = some w) (ha : m.ast? ast = some a)
    (hread : m.readEntry die a.owner (w.table + 8 * levelIndex w.level dva) = (.entry e, m'))
    (hsound : entryCause w.level e = 0) (htable : bit e 1 = false) (hlevel : 2 ≤ w.level) :
    m.rowWalkStepDone die ast dva = (m'.cacheTable die ast w.level dva e).setWalk w
      (some { w with level := w.level - 1, table := nextTable e }) := by
  simp only [Mach.rowWalkStepDone, hw, ha, hread, hsound, htable, if_pos hlevel, ne_eq, not_true_eq_false, Bool.false_eq_true,
    if_false]

/-- Settles O8: a walk's start and its step to a table pass their rows' checks; a completion and a timeout end the read as their
rows say. -/
theorem walksAndReads : Obligations.WalksAndReads := by
  refine ⟨?start, ?step, ?completion, ?timeout⟩
  case start =>
    intro s die ast dva a hc ha hactive hfree hdva hroot hmiss hkind
    exact next_run_eq hc (Mach.rowPrefetchWalkStart_of_free ha hactive hfree hdva hroot hmiss hkind)
  case step =>
    intro s die ast dva e a w m' hc hw ha hm' hentry hsound htable hlevel
    have hread : s.m.readEntry die a.owner (w.table + 8 * levelIndex w.level dva) = (.entry e, m') :=
      Prod.ext hentry hm'.symm
    exact next_run_eq hc (Mach.rowWalkStepDone_of_table hw ha hread hsound htable hlevel)
  case completion =>
    intro s slot hpa bs hc
    exact next_run_eq hc (by rw [Mach.rowHostCxlioCompletion])
  case timeout =>
    intro s slot hpa hc
    exact next_run_eq hc (by rw [Mach.rowHostCompletionTimeout])

end Sys2Proof.Machine
end

section
/-! The store's bytes (03_store_tiers.md R66): what reads after many bytes are written. -/

namespace Sys2Proof.Machine

/-- Bytes outside the range that is written are kept. -/
theorem Memory.read_writeAll_outside {bs : List Byte} {mem : List Host.Cell} {a x : Nat} (w : Memory.wf mem = true)
    (h : x < a ∨ a + bs.length ≤ x) : Memory.read (Memory.writeAll mem a bs) x = Memory.read mem x := by
  induction bs generalizing mem a with
  | nil => rfl
  | cons b t ih =>
    rw [List.length_cons] at h
    rw [Memory.writeAll, ih (Memory.write_wf mem a b w) (by omega), Memory.read_write mem a x b w, if_neg (by omega)]

/-- The i-th byte that is written reads at the i-th address from the first on. -/
theorem Memory.read_writeAll_inside {bs : List Byte} {mem : List Host.Cell} {a i : Nat} (w : Memory.wf mem = true)
    (h : i < bs.length) : Memory.read (Memory.writeAll mem a bs) (a + i) = bs[i] := by
  induction bs generalizing mem a i with
  | nil => exact absurd h (Nat.not_lt_zero i)
  | cons b t ih =>
    have hw : Memory.wf (Memory.write mem a b) = true := Memory.write_wf mem a b w
    cases i with
    | zero =>
      calc Memory.read (Memory.writeAll (Memory.write mem a b) (a + 1) t) a
        _ = Memory.read (Memory.write mem a b) a := Memory.read_writeAll_outside hw (.inl (Nat.lt_succ_self a))
        _ = b := by rw [Memory.read_write mem a a b w, if_pos rfl]
    | succ i =>
      have hi : i < t.length := Nat.lt_of_succ_lt_succ h
      calc Memory.read (Memory.writeAll (Memory.write mem a b) (a + 1) t) (a + (i + 1))
        _ = Memory.read (Memory.writeAll (Memory.write mem a b) (a + 1) t) (a + 1 + i) := by
          rw [Nat.add_right_comm, Nat.add_assoc]
        _ = t[i] := ih hw hi

theorem Memory.readAll_writeAll_same {mem : List Host.Cell} (w : Memory.wf mem = true) (a : Nat) (bs : List Byte) :
    Memory.readAll (Memory.writeAll mem a bs) a bs.length = bs := by
  refine List.ext_getElem (by simp [Memory.readAll]) fun i _ hi => ?_
  simp only [Memory.readAll, List.getElem_map, List.getElem_range, Memory.read_writeAll_inside w hi]

theorem Memory.readAll_writeAll_apart {mem : List Host.Cell} (w : Memory.wf mem = true) {a b n : Nat} {bs : List Byte}
    (h : b + n ≤ a ∨ a + bs.length ≤ b) : Memory.readAll (Memory.writeAll mem a bs) b n = Memory.readAll mem b n := by
  refine List.map_congr_left fun i hi => ?_
  have hlt : i < n := List.mem_range.mp hi
  exact Memory.read_writeAll_outside w (by omega)

/-- Settles O58: a write of bytes reads back byte by byte (`read_writeAll_inside`), leaves what lies outside its range
(`read_writeAll_outside`) and keeps the canonical form (`writeAll_wf`). -/
theorem storeReadsBack : Obligations.StoreReadsBack := by
  intro m a b n bs w
  exact ⟨Memory.readAll_writeAll_same w a bs, Memory.readAll_writeAll_apart w, Memory.writeAll_wf bs _ a w⟩

end Sys2Proof.Machine
end

section
/-! The life of an extent's lease (03_store_tiers.md R93, R94). -/

namespace Sys2Proof.Machine

/-- A holder below 64 is in the range of 0x3421.01 and .04, whose other values name no identity. -/
theorem holderInRange_of_lt {holder : Nat} (h : holder < 64) :
    ¬(bits holder 14 12 ≠ 0 ∨ (!bit holder 15) = true ∧ 64 ≤ holder) := by
  simp only [bits]
  omega

/-- A renewal of a HELD extent changes its expiry and is not late (R93). -/
theorem Mach.renew_of_held {m : Mach} {k : Nat} (h : (m.lease k).state = 1) :
    m.renew k = m.setLease k { m.lease k with expiry := m.leaseEnd } := by
  simp [Mach.renew, h]

/-- Settles O13: a request passes its entry's own checks, an event finds the lease in the state that it ends, and no host and no
movement stands in its way. -/
theorem leases : Obligations.Leases := by
  refine ⟨?acquire, ?renew, ?renewHolder, ?release, ?expiry, ?graceEnd, ?scrubDone⟩
  case acquire =>
    intro s w holder k hc hadm hmay hlt hfree
    exact next_run_eq hc (dictWrite_ok hadm (by
      simp only [hmay, holderInRange_of_lt hlt, hfree, Bool.not_true, Bool.false_eq_true, if_false]))
  case renew =>
    intro s w k hc hadm hnone hheld
    exact next_run_eq hc (dictWrite_ok hadm (by simp only [hnone, Mach.renew_of_held hheld]))
  case renewHolder =>
    intro s w holder hc hadm hmay hlt
    exact next_run_eq hc (dictWrite_ok hadm (by
      simp only [hmay, holderInRange_of_lt hlt, Bool.not_true, Bool.false_eq_true, if_false]; rfl))
  case release =>
    intro s w k hc hadm hnone
    exact next_run_eq hc (dictWrite_ok hadm (by simp only [hnone]))
  case expiry =>
    intro s k hc hheld
    exact next_run_eq hc (by rw [Mach.rowLeaseExpiry, if_pos hheld])
  case graceEnd =>
    intro s k hc hgrace hmoves
    exact next_run_eq hc (by simp only [Mach.rowGraceEnd, if_pos hgrace, hmoves, List.filter_nil, List.foldl_nil])
  case scrubDone =>
    intro s k hc hscrub hhosts
    exact next_run_eq hc (by simp only [Mach.rowExtentScrubDone, hscrub, hhosts, ne_eq, not_true_eq_false, if_false])

end Sys2Proof.Machine
end

section
/-! Media accesses, ages and watermark records (03_store_tiers.md R66-R70, R86, R89, R90). -/

namespace Sys2Proof.Machine

/-- A write of bytes within one line of the device space, done at its medium: its owner is told (R66). -/
theorem Mach.rowMediaWrite_of_done {m : Mach} {w : StoreWrite} (hne : w.bytes ≠ []) (hline : w.dpa % 64 + w.bytes.length ≤ 64)
    (hdpa : w.dpa < m.reg 0x3000 1 0) (hdone : (m.mediaWrite w).2 = .done) :
    m.rowMediaWrite w = (m.mediaWrite w).1.writeEnded w.owner 0 := by
  have htake : w.bytes.take (64 - w.dpa % 64) = w.bytes := List.take_of_length_le (by omega)
  have hdone' : m.mediaWrite w = ((m.mediaWrite w).1, .done) := Prod.ext rfl hdone
  rw [Mach.rowMediaWrite, htake, if_neg (by simp [hne, Nat.not_le.mpr hdpa]), hdone']

/-- No write is held: the bound ends the writes of the granule that wait for a frame, and no others (R86). -/
theorem Mach.rowAllocationBound_of_unheld {m : Mach} (h : m.store.heldWrites = []) (g : Nat) :
    m.rowAllocationBound g = (m.store.allocWaits.filter fun w => granuleOf w.dpa == g).foldl
      (fun m w => (m.bump 0x7030 3).writeEnded w.owner stStoreFull)
      { m with store := { m.store with allocWaits := m.store.allocWaits.filter fun w => !(granuleOf w.dpa == g) } } := by
  simp only [Mach.rowAllocationBound, h, List.filter_nil, List.append_nil]

/-- A record read for the first time, out of band, by a requester with a role: answered and cleared (R89). -/
theorem Mach.rowWatermarkRecordRead_of_fresh {m : Mach} {w : Src} {k : Nat} (hfresh : m.fresh? w.q w.txn = true) (hk : k < 4)
    (hrole : m.heard.roles w.q ≠ 0) (hband : w.q.isInBand = false) :
    m.rowWatermarkRecordRead w k =
      (m.heard.setOct 0x3051 (1 + k) 0 (zeros 16)).answerGet w 0x3051 (1 + k) (m.heard.oct 0x3051 (1 + k) 0) := by
  simp only [Mach.fresh?, Mach.heard, Bool.and_eq_true, Option.isNone_iff_eq_none] at *
  obtain ⟨hreach, hnew⟩ := hfresh
  simp only [Mach.rowWatermarkRecordRead, hreach, hnew, hband, hrole, Nat.not_le.mpr hk, Mach.readRecord, Bool.not_true,
    Bool.false_eq_true, false_and, or_self, if_false]

/-- Settles O10: each access is its row with the one case that its hypotheses leave. -/
theorem storeAccesses : Obligations.StoreAccesses := by
  refine ⟨?readDone, ?write, ?allocationBound, ?zeroed, ?record, ?flushTick, ?sweep⟩
  case readDone =>
    intro s line r hc hread
    exact next_run_eq hc (by rw [Mach.rowMediaReadDone, if_pos hread])
  case write =>
    intro s w hc hne hline hdpa hdone
    exact next_run_eq hc (Mach.rowMediaWrite_of_done hne hline hdpa hdone)
  case allocationBound =>
    intro s g hc hheld
    exact next_run_eq hc (Mach.rowAllocationBound_of_unheld hheld g)
  case zeroed =>
    intro s f hc hf
    exact next_run_eq hc (by rw [Mach.rowFrameZeroed, if_pos hf])
  case record =>
    intro s w k hc hfresh hk hrole hband
    exact next_run_eq hc (Mach.rowWatermarkRecordRead_of_fresh hfresh hk hrole hband)
  case flushTick =>
    intro s die hc
    exact next_run_eq hc (by rw [Mach.rowAccessFlushTick])
  case sweep =>
    intro s hc hage
    exact next_run_eq hc (by rw [Mach.rowAgeSweepVisit, if_neg hage])

end Sys2Proof.Machine
end

section
/-! Movements of granules and the retirement of stacks (03_store_tiers.md R79, R80, R82, R83, R95). -/

namespace Sys2Proof.Machine

/-- The final pass of a movement to a stacked frame, no promotion and no evacuation waiting for it: the map leads to the new
frame, the old one is freed, and held writes go on (R82, R83). -/
theorem Mach.rowMovementFinalPassDone_of_stack {m : Mach} {g f : Nat} {mv : Movement} (hmv : tget m.store.moves g = some mv)
    (hfinal : mv.finalPass = true) (hdst : mv.dst = .stack f) (hpromote : mv.promotePending = false)
    (hevac : mv.evacPending = false) :
    m.rowMovementFinalPassDone g = ((((({ m with store := { m.store with moves := tdel m.store.moves g } } : Mach).setGran g
      { (MoveDest.stack f).entry (m.gran g) with moving := false }).freeFrame (m.gran g)).bump 0x7030
        (if mv.kind = .promote ∨ mv.kind = .expand then 1 else 2)).watch).releaseHeld g := by
  simp only [Mach.rowMovementFinalPassDone, hmv, hfinal, hdst, hpromote, hevac, Bool.not_true, Bool.false_eq_true, if_false]

/-- Settles O11: a start is made below its mark, a movement ends as its record says, and a stack's retirement passes its entry's
own checks. -/
theorem movements : Obligations.Movements := by
  refine ⟨?evict, ?compress, ?copied, ?finalPass, ?failed, ?retire, ?retired⟩
  case evict =>
    intro s die hc hlow
    exact next_run_eq hc (by rw [Mach.rowEvictionStart, if_pos hlow])
  case compress =>
    intro s d hc hmark hlow
    exact next_run_eq hc (if_pos ⟨hmark, hlow⟩)
  case copied =>
    intro s g hc
    exact next_run_eq hc (by rw [Mach.rowMovementCopyDone])
  case finalPass =>
    intro s g f mv hc hmv hfinal hdst hpromote hevac
    exact next_run_eq hc (Mach.rowMovementFinalPassDone_of_stack hmv hfinal hdst hpromote hevac)
  case failed =>
    intro s g mv hc hmv
    exact next_run_eq hc (by rw [Mach.rowMovementFailed, if_pos (Option.isSome_of_eq_some hmv)])
  case retire =>
    intro s w k hc hadm hk hst hdie hother hfits
    have hdies : ¬2 * s.m.heard.dies ≤ k := Nat.not_le.mpr hk
    exact next_run_eq hc (dictWrite_ok hadm (by
      simp only [hdies, hst, hdie, hother, hfits, Nat.reduceEqDiff, Bool.not_true, Bool.false_eq_true, or_self, if_false]))
  case retired =>
    intro s k hc hst hempty hmoves
    exact next_run_eq hc (by simp [Mach.rowStackEvacuationDone, hst, hempty, hmoves])

end Sys2Proof.Machine
end

section
/-! The state after reset (15_clocks_power.md R424, R428, R431; 03_store_tiers.md R66): its parts are out of reset, and of its
registers those that follow the variant and the straps are written. -/

namespace Sys2Proof.Machine

/-- The package of the state after reset before any register is written. -/
def Mach.resetParts : Mach :=
  { dies := 8, cairn := Cairn.reset, tele := Telemetry.reset [], elec := Electrical.unpowered, time := ⟨0, false, false⟩
    col := Col.reset, fences := [], store := Store.reset [] [], sched := Sched.reset, eng := Engines.reset, xl := Xlate.reset
    host := HostSide.reset, ports := [], fab := Fabric.reset, hall := Hall.reset, sec := Security.factory
    clk := { Clocks.reset with stage := 0, cause := 0 }, out := [], freeCtr := 0 }

theorem Mach.reset_eq : Mach.reset = Mach.resetParts.variantRegs.showStraps.setReg 0x2200 2 0 0 := rfl

/-- What no register's write changes is, after reset, what the parts give. -/
theorem Mach.reset_keep {β : Type} (p : Mach → β) (h : ∀ m i s r v, p (Mach.setReg m i s r v) = p m) :
    p Mach.reset = p Mach.resetParts := by
  rw [Mach.reset_eq, h, Mach.showStraps, h, h, h, h, Mach.variantRegs_keep p h]

theorem Mach.reset_store : Mach.reset.store = Store.reset [] [] := Mach.reset_keep Mach.store fun _ _ _ _ _ => rfl
theorem Mach.reset_time : Mach.reset.time = ⟨0, false, false⟩ := Mach.reset_keep Mach.time fun _ _ _ _ _ => rfl
theorem Mach.reset_sched : Mach.reset.sched = Sched.reset := Mach.reset_keep Mach.sched fun _ _ _ _ _ => rfl
theorem Mach.reset_out : Mach.reset.out = [] := Mach.reset_keep Mach.out fun _ _ _ _ _ => rfl
theorem Mach.reset_elec : Mach.reset.elec = Electrical.unpowered := Mach.reset_keep Mach.elec fun _ _ _ _ _ => rfl

theorem tget_eq_none_of_forall {α : Type} {t : Tbl α} {k : Nat} (h : ∀ p ∈ t, p.1 ≠ k) : tget t k = none := by
  induction t with
  | nil => rfl
  | cons p t ih =>
    obtain ⟨hp, ht⟩ := List.forall_mem_cons.mp h
    simp only [tget, if_neg hp, ih ht, ite_self]

/-- An entry of which no row is listed reads its table's default. -/
theorem Mach.reg_eq_default {m : Mach} {i s r : Nat} (hs : s < 256) (hr : r < 2 ^ 32)
    (h : ∀ p ∈ m.cairn.regs, (keyIndex p.1, keySub p.1) ≠ (dictIndex i, s)) : m.reg i s r = dictDefault i s := by
  rw [Mach.reg, tget_eq_none_of_forall fun p hp e => h p hp ?_, Option.getD_none]
  simp only [e, keyIndex, keySub, regKey, Prod.mk.injEq]
  omega

/-- The entries that a statement reads at their tables' defaults: the active reference (0x2000.03), the device's readiness
(0x2200.03), a queue's state (0x5401.02). -/
def unwrittenAtReset : List (Nat × Nat) := [(0x2000, 3), (0x2200, 3), (0x5401, 2)]

theorem Mach.reset_regs_unwritten : ∀ p ∈ Mach.reset.cairn.regs, (keyIndex p.1, keySub p.1) ∉ unwrittenAtReset := by
  have hall : (Mach.reset.cairn.regs.all fun p => decide ((keyIndex p.1, keySub p.1) ∉ unwrittenAtReset)) = true := rfl
  simpa only [List.all_eq_true, decide_eq_true_eq] using hall

theorem Mach.reset_reg_default {i s r : Nat} (hi : (dictIndex i, s) ∈ unwrittenAtReset) (hs : s < 256) (hr : r < 2 ^ 32) :
    Mach.reset.reg i s r = dictDefault i s :=
  Mach.reg_eq_default hs hr fun p hp e => Mach.reset_regs_unwritten p hp (e ▸ hi)

theorem Mach.reset_activeRef : Mach.reset.activeRef = 0xFF :=
  (Mach.reset_reg_default (by decide) (by decide) (by decide)).trans (by decide : dictDefault 0x2000 3 = 0xFF)

theorem Mach.reset_ready : Mach.reset.ready = false := by
  have hreg : Mach.reset.reg 0x2200 3 0 = 0 :=
    (Mach.reset_reg_default (by decide) (by decide) (by decide)).trans (by decide : dictDefault 0x2200 3 = 0)
  simp [Mach.ready, hreg]

/-- Every queue is DISABLED (R205). -/
theorem Mach.reset_queueState {q : Nat} (hq : q < 1024) : Mach.reset.reg 0x5401 2 q = 0 :=
  (Mach.reset_reg_default (by decide) (by decide) (by omega)).trans (by decide : dictDefault 0x5401 2 = 0)

theorem Mach.reset_domain_off : ∀ d < 8, ∀ k < 7, Mach.reset.domain d k = 3 := by decide

theorem Mach.reset_domain_always : ∀ d < 2, Mach.reset.domain d 7 = 1 := by decide

/-- No granule is listed, so each is UNBACKED (R66). -/
theorem Mach.reset_unbacked (g : Nat) : (Mach.reset.gran g).loc = .unbacked := by
  rw [Mach.gran, Mach.reset_store]
  rfl

/-- Settles O53: supplies, store, timebase, scoreboard and outputs are those of the parts (`reset_keep`); the entries that reset
leaves alone read their defaults (`reset_reg_default`), and the domains' states are written. -/
theorem resetState : Obligations.ResetState := by
  refine ⟨rfl, ?pins, ?supplies, ?resetLow, ?clocked, Mach.reset_ready, ?count, ?running, Mach.reset_activeRef,
    Mach.reset_domain_off, Mach.reset_domain_always, Mach.reset_unbacked, fun _ => Mach.reset_queueState, ?scoreboard,
    Mach.reset_out, ?memory⟩
  case pins => simp only [State.reset, Mach.pinsConsistent, Mach.reset_elec]; rfl
  case supplies => rw [State.reset, Mach.reset_elec]; rfl
  case resetLow => rw [State.reset, Mach.reset_elec]; rfl
  case clocked => simp [State.reset, Mach.clocked, Mach.reset_elec, Electrical.unpowered]
  case count => rw [State.reset, Mach.reset_time]
  case running => rw [State.reset, Mach.reset_time]
  case scoreboard => rw [State.reset, Mach.reset_sched]; rfl
  case memory => rw [State.reset, Mach.reset_store]; rfl

end Sys2Proof.Machine
end

section
/-! CXL.mem, back-invalidation and doorbells (04_host_ports.md R102, R105, R112, R115-R117, R121). -/

namespace Sys2Proof.Machine

/-! ## Requests and write-backs -/

/-- On a link in the state CXL a read is an access of its line, when its LD may make it (R112). -/
theorem Mach.rowHostCxlMemRead_of_dpa {m : Mach} {link ld hpa dpa : Nat} (hup : m.linkState link = 4)
    (hdpa : (m.mirrorHost link 1).hostDpa link ld hpa 64 = some dpa) (ask : HostAsk) (tag : Nat) :
    m.rowHostCxlMemRead link ld hpa ask tag = (m.mirrorHost link 1).hostAccess ⟨link, ld, tag, lineOf dpa, ask, 0, none⟩ := by
  simp only [Mach.rowHostCxlMemRead, if_neg (not_not.mpr hup), hdpa]

/-- A read that its LD may not make is counted and answered with poison (R112). -/
theorem Mach.rowHostCxlMemRead_of_refused {m : Mach} {link ld hpa : Nat} (hup : m.linkState link = 4)
    (hdpa : (m.mirrorHost link 1).hostDpa link ld hpa 64 = none) (ask : HostAsk) (tag : Nat) :
    m.rowHostCxlMemRead link ld hpa ask tag =
      ((m.mirrorHost link 1).hostRefuse link ld hpa).emit (.memData link ld tag .poison) := by
  simp only [Mach.rowHostCxlMemRead, if_neg (not_not.mpr hup), hdpa]

/-- A write that its LD may make is an access of its line that carries the bytes (R112). -/
theorem Mach.hostWrite_of_dpa {m : Mach} {link ld hpa dpa : Nat} {bs : List Byte}
    (hdpa : m.hostDpa link ld hpa bs.length = some dpa) (tag : Nat) :
    m.hostWrite link ld hpa bs tag = m.hostAccess ⟨link, ld, tag, lineOf dpa, .current, dpa % 64, some bs⟩ := by
  simp only [Mach.hostWrite, hdpa]

/-- A line's home is a matter of registers, which no entry of a host filter changes. -/
@[simp] theorem Mach.freeHostLine_homeOf (m : Mach) (die link line dpa : Nat) :
    (m.freeHostLine die link line).homeOf dpa = m.homeOf dpa := rfl

/-- A line given up by its holder, no snoop of it outstanding, its home another die: its entry is freed and its data is the
die's M copy (R116, R121). -/
theorem Mach.rowHostWriteback_of_remote_home {m : Mach} {link ld hpa dpa : Nat} (hup : m.linkState link = 4)
    (hheld : (m.mirrorHost link 1).heldDpa link ld hpa = some dpa)
    (hquiet : ((m.mirrorHost link 1).markReloc (lineOf dpa)).biOpen (link / 2) (lineOf dpa) = false)
    (hhome : ((m.mirrorHost link 1).markReloc (lineOf dpa)).homeOf (lineOf dpa * 64) ≠ link / 2) (bs : List Byte) (tag : Nat) :
    m.rowHostWriteback link ld hpa bs .current tag =
      ((((m.mirrorHost link 1).markReloc (lineOf dpa)).freeHostLine (link / 2) link (lineOf dpa)).putCached (link / 2) (lineOf dpa)
        ⟨.M, .data bs⟩).answerHostWrite link ld tag 0 := by
  simp only [Mach.rowHostWriteback, if_neg (not_not.mpr hup), hheld, hquiet, Bool.false_eq_true, if_false, Mach.freeHostLine_homeOf,
    if_neg hhome]

/-! ## Back-invalidation -/

/-- A BIRsp to a BISnpInv: the entry is freed, the snoop is over and what waited for it goes on (R115). -/
theorem Mach.rowBirsp_of_inv {m : Mach} {link line : Nat} {b : BiSnp}
    (hfind : m.host.bis.find? (fun b => b.link == link && b.line == line) = some b) (hinv : b.inv = true) :
    m.rowBirsp link line =
      ({ (m.mirrorHost link 1).freeHostLine b.die link line with host :=
        { ((m.mirrorHost link 1).freeHostLine b.die link line).host with
          bis := ((m.mirrorHost link 1).freeHostLine b.die link line).host.bis.erase b } } : Mach).biComplete b := by
  simp only [Mach.rowBirsp, hfind, if_pos hinv]

/-- The bound on a BISnp of a line that no LD of the link holds any more: the line is settled and the snoop completes (R117). -/
theorem Mach.rowBiBoundExpiry_of_unheld {m : Mach} {link line : Nat} {b : BiSnp}
    (hfind : m.host.bis.find? (fun b => b.link == link && b.line == line) = some b)
    (hunheld : (((m.hostLines b.die line).filter fun h => h.link == link).flatMap (·.lds)) = []) :
    m.rowBiBoundExpiry link line =
      ({ m.settleLine b.die line with host := { (m.settleLine b.die line).host with
        bis := (m.settleLine b.die line).host.bis.erase b } } : Mach).biComplete b := by
  simp only [Mach.rowBiBoundExpiry, hfind, hunheld, List.foldl_nil, if_pos (List.mem_of_find?_eq_some hfind)]

/-! ## Doorbells -/

/-- R105: a 32-bit write at the first word of queue q's page by the bound LD of its owner qualifies, the queue's die ACTIVE and
IDE not required. -/
theorem Mach.doorbellOk_of_owner {m : Mach} {link ld q value : Nat} {l : Ld} (hvalue : value < 65536) (hq : q < 512 * m.dies)
    (hdie : m.dieActive (queueDie q) = true) (hl : m.ld? link ld = some l) (hbound : l.bind = .bound)
    (howner : m.qOwner q = l.ident) (hide : m.ideRequired (link / 2) = false) :
    m.doorbellOk link ld (q * 4096) 4 value = true := by
  have hpage : q * 4096 / 4096 = q := Nat.mul_div_cancel q (by decide)
  have hword : q * 4096 % 4096 = 0 := Nat.mul_mod_left q 4096
  simp [Mach.doorbellOk, hpage, hword, hvalue, hq, hdie, hl, hbound, howner, hide]

/-- Settles O14: each command is its row's one case that the link's state, the LD's right to the address and the holders of the
line leave. -/
theorem hostMemory : Obligations.HostMemory := by
  refine ⟨?read, ?readRefused, ?write, ?writeback, ?birsp, ?biBound, ?snoop, ?doorbell⟩
  case read =>
    intro s link ld hpa tag dpa ask hc hup hdpa
    exact next_run_eq hc (Mach.rowHostCxlMemRead_of_dpa hup hdpa ask tag)
  case readRefused =>
    intro s link ld hpa tag ask hc hup hdpa
    exact next_run_eq hc (Mach.rowHostCxlMemRead_of_refused hup hdpa ask tag)
  case write =>
    intro s link ld hpa tag dpa bs hc hup hdpa
    exact next_run_eq hc (by rw [Mach.rowHostCxlMemWrite, if_neg (not_not.mpr hup), Mach.hostWrite_of_dpa hdpa])
  case writeback =>
    intro s link ld hpa tag dpa bs hc hup hheld hquiet hhome
    exact next_run_eq hc (Mach.rowHostWriteback_of_remote_home hup hheld hquiet hhome bs tag)
  case birsp =>
    intro s link line b hc hfind hinv
    exact next_run_eq hc (Mach.rowBirsp_of_inv hfind hinv)
  case biBound =>
    intro s link line b hc hfind hunheld
    exact next_run_eq hc (Mach.rowBiBoundExpiry_of_unheld hfind hunheld)
  case snoop =>
    intro s link hc hup
    exact next_run_eq hc (by rw [Mach.rowHostSnoop, if_neg (not_not.mpr hup)])
  case doorbell =>
    intro s link ld q value l hc hvalue hq hdie hl hbound howner hide
    exact next_run_eq hc (by
      rw [Mach.rowDoorbellWrite, if_pos (Mach.doorbellOk_of_owner hvalue hq hdie hl hbound howner hide),
        Nat.mul_div_cancel q (by decide)])

end Sys2Proof.Machine
end

section
/-! Host links, their LDs and the loss of paths (04_host_ports.md R109, R118-R122; 15_clocks_power.md R424). -/

namespace Sys2Proof.Machine

/-! ## Links -/

/-- Two sub-indices of one index have registers of their own. -/
theorem regKey_sub_ne {sub sub' : Nat} (h : sub' ≠ sub) (idx row : Nat) : regKey idx sub' row ≠ regKey idx sub row := by
  simp only [regKey]
  omega

/-- One link's state written leaves every other link's alone. -/
theorem Mach.linkState_setLinkState_ne {m : Mach} {link link' : Nat} (h : link' ≠ link) (v : Nat) :
    (m.setLinkState link v).linkState link' = m.linkState link' :=
  Mach.reg_setReg_other m _ _ _ _ _ _ _ (regKey_sub_ne (by omega) _ 0)

/-- A link that is up shows state 3, CXL.io alone, or 4, CXL. -/
theorem linkUp_inRange {st : Nat} (h : st = 3 ∨ st = 4) : ¬(st < 3 ∨ 4 < st) := by omega

/-- PERST_L released where the port's first link waits in DOWN and its second is absent: the first one trains (R424). -/
theorem Mach.rowPerstRelease_of_first {m : Mach} {port : Nat} (hexists : m.linkExists (2 * port) = true)
    (hdown : m.linkState (2 * port) = 1) (habsent : m.linkState (2 * port + 1) = 0) :
    m.rowPerstRelease port = m.setLinkState (2 * port) 2 := by
  have hsecond : (m.setLinkState (2 * port) 2).linkState (2 * port + 1) = 0 :=
    (Mach.linkState_setLinkState_ne (Nat.succ_ne_self _) 2).trans habsent
  simp [Mach.rowPerstRelease, hexists, hdown, hsecond]

/-- PERST_L asserted where the port's first link is CXL and its second is absent: the first one is lost (R118). -/
theorem Mach.rowPerstAssert_of_first {m : Mach} {port : Nat} (hup : m.linkState (2 * port) = 4)
    (habsent : (m.linkLost (2 * port) 1 1).linkState (2 * port + 1) = 0) :
    m.rowPerstAssert port = m.linkLost (2 * port) 1 1 := by
  simp [Mach.rowPerstAssert, hup, habsent]

/-! ## LDs -/

/-- A session in progress that ends leaves its LD UNBOUND (Table 04-4). -/
theorem Mach.endBinding_of_authenticating {m : Mach} {link ld : Nat} {l : Ld} (hl : m.ld? link ld = some l)
    (hauth : l.bind = .authenticating) : m.endBinding link ld = m.setLd link ld { l with bind := .unbound } := by
  simp only [Mach.endBinding, hl, if_pos hauth]

/-- A Function Level Reset of an LD that exists resets all but its decoders (R120). -/
theorem Mach.rowFunctionLevelReset_of_ld {m : Mach} {link ld : Nat} {l : Ld}
    (hl : ((m.losePath link ld 3).endBinding link ld).ld? link ld = some l) :
    m.rowFunctionLevelReset link ld =
      ((m.losePath link ld 3).endBinding link ld).setLd link ld { l.linkReset with decoders := l.decoders } := by
  simp only [Mach.rowFunctionLevelReset, hl, Option.elim_some, Ld.functionReset]

/-- A Steward unbinds an identity: each path of it is lost, and the audit log says so (R118). -/
theorem Mach.unbindIdentity_ok {m : Mach} {q : Requester} {ident : Nat} (h : ident < 64) :
    Mach.unbindIdentity q ident m = .ok ((m.loseIdentity ident 8).auditReq q 0x30 [byteOf ident]) :=
  if_neg (Nat.not_le.mpr h)

/-- Settles O15: the rows' guards hold by the link's or the LD's state, and no entry of the host filter is left to settle when a
lost path's sweep is done. -/
theorem hostPaths : Obligations.HostPaths := by
  refine ⟨?trained, ?perstRelease, ?linkDown, ?perstAssert, ?hotReset, ?functionReset, ?ideFailure, ?unbind, ?sweepDone, ?authBound,
    ?ideKeys⟩
  case trained =>
    intro s link rate lanes hc hexists htraining hrate hlanes
    have htrains : ¬((!s.m.linkExists link) = true ∨ (s.m.linkState link ≠ 1 ∧ s.m.linkState link ≠ 2) ∨
        s.m.reg 0x3400 4 (link / 2) < rate) := by simp [hexists, htraining, hrate]
    have hnarrow : ¬(lanes = 1 ∨ lanes = 2) := by omega
    have hwidth : ¬(!decide (lanes = 4 ∨ lanes = 8 ∨ (lanes = 16 ∧ s.m.reg 0x3400 2 (link / 2) = 0))) = true := by simp [hlanes]
    exact next_run_eq hc ((if_neg htrains).trans ((if_neg hnarrow).trans (if_neg hwidth)))
  case perstRelease =>
    intro s port hexists hdown habsent
    exact congrArg Host.Outcome.next (State.atPort_congr (Mach.rowPerstRelease_of_first hexists hdown habsent))
  case linkDown =>
    intro s link hc hlow hhigh
    exact next_run_eq hc (if_neg (by omega))
  case perstAssert =>
    intro s port hup habsent
    exact congrArg Host.Outcome.next (State.atPort_congr (Mach.rowPerstAssert_of_first hup habsent))
  case hotReset =>
    intro s link hc hup
    exact next_run_eq hc (if_neg (linkUp_inRange hup))
  case functionReset =>
    intro s link ld l hc hl
    exact next_run_eq hc (Mach.rowFunctionLevelReset_of_ld hl)
  case ideFailure =>
    intro s link ld hc
    exact next_run_eq hc (by rw [Mach.rowIdeIntegrityFailure])
  case unbind =>
    intro s w ident hc hadm hident
    exact next_run_eq hc (dictWrite_ok hadm (Mach.unbindIdentity_ok hident))
  case sweepDone =>
    intro s link ld l hc hl hlost hswept
    exact next_run_eq hc (by
      simp only [Mach.rowPathTeardownSweepDone, hl, if_neg (not_not.mpr hlost), hswept, List.foldl_nil]
      -- The link's state is a register: taking the path off the list of lost paths leaves it.
      rfl)
  case authBound =>
    intro s link ld l hc hl hauth
    exact next_run_eq hc (Mach.endBinding_of_authenticating hl hauth)
  case ideKeys =>
    intro s link ld io mem l hc hl hbound
    exact next_run_eq hc (by simp only [Mach.rowIdeKeyManagement, hl, if_neg (not_not.mpr hbound)])

end Sys2Proof.Machine
end

section
/-! Configuration and BAR accesses and the in-band mirror (04_host_ports.md R103, R104, R107, R123; 15_clocks_power.md R428). -/

namespace Sys2Proof.Machine

/-! ## The mirror -/

/-- Bytes written to the mirror's request buffer while it is not BUSY (R123). The request's length stands at 0x2004, beyond the
buffer. -/
theorem Mach.rowMirrorBufferWrite_of_bytes {m : Mach} {link ld off : Nat} {bs : List Byte} {l : Ld} (hl : m.ld? link ld = some l)
    (hidle : l.mirror.busy = false) (hfits : off + bs.length ≤ 4096) :
    m.rowMirrorBufferWrite link ld off bs =
      m.setLd link ld { l with mirror := { l.mirror with req := patch (slice l.mirror.req 0 4096) off bs } } := by
  have hoff : ¬off = 0x2004 := by omega
  simp only [Mach.rowMirrorBufferWrite, hl, hidle, Bool.false_eq_true, if_false, if_neg hoff, if_pos hfits]

/-- The request's length written while the mirror is not BUSY (R123). -/
theorem Mach.rowMirrorBufferWrite_of_length {m : Mach} {link ld : Nat} {l : Ld} (hl : m.ld? link ld = some l)
    (hidle : l.mirror.busy = false) (bs : List Byte) :
    m.rowMirrorBufferWrite link ld 0x2004 bs =
      m.setLd link ld { l with mirror := { l.mirror with reqLen := leNat bs % 8192 } } := by
  simp only [Mach.rowMirrorBufferWrite, hl, hidle, Bool.false_eq_true, if_false, if_true]

/-- GO of a well-formed request frame (KIND 0x01) of a bound LD: the mirror is BUSY and the request is served (R123). -/
theorem Mach.rowMirrorGo_of_request {m : Mach} {link ld : Nat} {l : Ld} (hl : m.ld? link ld = some l) (hbound : l.bind = .bound)
    (hidle : l.mirror.busy = false) (hmin : 16 ≤ l.mirror.reqLen) (hmax : l.mirror.reqLen ≤ 1024)
    (hversion : fld (slice l.mirror.req 0 l.mirror.reqLen) 0 1 = 1) (hkind : fld (slice l.mirror.req 0 l.mirror.reqLen) 1 1 = 1)
    (hlength : fld (slice l.mirror.req 0 l.mirror.reqLen) 2 2 = l.mirror.reqLen)
    (hreserved : allZero (slice (slice l.mirror.req 0 l.mirror.reqLen) 8 8) = true) :
    m.rowMirrorGo link ld =
      (m.setLd link ld { l with mirror := { l.mirror with busy := true } }).serveRequest (.inBand link ld)
        (parseRequest (slice l.mirror.req 0 l.mirror.reqLen)) := by
  have hsize : ¬(l.mirror.reqLen = 0 ∨ 4096 < l.mirror.reqLen) := by omega
  simp [Mach.rowMirrorGo, hl, hbound, hidle, hsize, hmin, hmax, hversion, hkind, hlength, hreserved]

/-- The response bound while the mirror is BUSY: counted and answered with an abort frame (R123). -/
theorem Mach.rowMirrorResponseBoundExpiry_of_busy {m : Mach} {link ld : Nat} {l : Ld} (hl : m.ld? link ld = some l)
    (hbusy : l.mirror.busy = true) :
    m.rowMirrorResponseBoundExpiry link ld =
      (m.bump 0x7110 2).mirrorDone link ld (mirrorAbort (parseRequest l.mirror.req).txn (parseRequest l.mirror.req).op
        (parseRequest l.mirror.req).index (parseRequest l.mirror.req).sub abGeneral).bytes := by
  simp only [Mach.rowMirrorResponseBoundExpiry, hl, hbusy, Bool.not_true, Bool.false_eq_true, if_false]

/-- Settles O16: an access is one of five kinds, each answered once the device has been ready (R428); the mirror's commands find
it idle or BUSY. -/
theorem hostRegisters : Obligations.HostRegisters := by
  refine ⟨?access, ?bytes, ?length, ?go, ?bound⟩
  case access =>
    intro s link ld a l hc hl hup hready
    have hearly : decide (s.m.clk.stage < 11) = false := decide_eq_false (Nat.not_lt.mpr hready)
    refine next_run_eq hc ?_
    simp only [Mach.rowHostConfigAccess, hl, if_neg (linkUp_inRange hup), hearly]
    cases a with
    | cfgRead r => rfl
    | cfgWrite r v => rfl
    | barRead bar off => rfl
    | barWrite bar off v => rfl
    | cdat => rfl
  case bytes =>
    intro s link ld off bs l hc hl hidle hfits
    exact next_run_eq hc (Mach.rowMirrorBufferWrite_of_bytes hl hidle hfits)
  case length =>
    intro s link ld bs l hc hl hidle
    exact next_run_eq hc (Mach.rowMirrorBufferWrite_of_length hl hidle bs)
  case go =>
    intro s link ld l hc hl hbound hidle hmin hmax hversion hkind hlength hreserved
    exact next_run_eq hc (Mach.rowMirrorGo_of_request hl hbound hidle hmin hmax hversion hkind hlength hreserved)
  case bound =>
    intro s link ld l hc hl hbusy
    exact next_run_eq hc (Mach.rowMirrorResponseBoundExpiry_of_busy hl hbusy)

end Sys2Proof.Machine
end

section
/-! SPDM sessions (14_cairn.md R400, R401; 16_security.md R445, R450-R452; 04_host_ports.md R109). -/

namespace Sys2Proof.Machine

/-! ## Messages -/

/-- A message over a Cairn port that is up: what the station's request answers is sent, and each way is counted (R400). -/
theorem Mach.spdm_cairn_of_up {m n : Mach} {a : Nat} {msg : SpdmMsg} {ans : SpdmAnswer} (hup : m.cairnUp = true)
    (h : (m.bump 0x7110 1).stationSpdm (.cairn a) msg = (ans, n)) :
    m.spdm (.cairn a) msg = (n.emit (.spdm (.cairn a) ans)).bump 0x7110 2 := by
  simp only [Mach.spdm, if_pos hup, h]

/-- A message on an LD that is not DOWN: what the LD answers is sent (R109). -/
theorem Mach.spdm_host_of_ld {m n : Mach} {link ld : Nat} {l : Ld} {msg : SpdmMsg} {ans : SpdmAnswer}
    (hl : m.ld? link ld = some l) (hdown : l.bind ≠ .down) (h : m.hostSpdm link ld l msg = (ans, n)) :
    m.spdm (.host link ld) msg = n.emit (.spdm (.host link ld) ans) := by
  simp only [Mach.spdm, hl, if_neg hdown, h]

/-! ## FINISH over Cairn -/

/-- The ownership state (0x6002.02) is no counter of Cairn. -/
theorem Mach.bump_owned (m : Mach) : (m.bump 0x7110 1).reg 0x6002 2 0 = m.reg 0x6002 2 0 :=
  Mach.bumpBy_reg_ne m _ _ _ _ _ _ _ (by decide)

/-- FINISH in the claim window of an UNOWNED device claims it: the session is credential 0's, with every role (R452). -/
theorem Mach.finishSession_of_claim {m : Mach} {a n : Nat} (hshake : tget m.cairn.handshakes n = some (.cairn a))
    (hclaim : m.sec.claimable = true) (hunowned : m.reg 0x6002 2 0 = 0) (leaf root : List Byte) (signed inDate : Bool) :
    m.finishSession (.cairn a) n leaf root signed inDate =
      (.finished, (m.claim (Config.sha384 leaf)).openSession n 0 15 (.cairn a)) := by
  simp [Mach.finishSession, hshake, hclaim, hunowned]

/-- FINISH outside the claim window with a chain that is not accepted is refused (R451). -/
theorem Mach.finishSession_of_badChain {m : Mach} {a n : Nat} {root : List Byte} {signed inDate : Bool}
    (hshake : tget m.cairn.handshakes n = some (.cairn a)) (hclaim : m.sec.claimable = false)
    (hchain : m.chainOk root signed inDate = false) (leaf : List Byte) :
    m.finishSession (.cairn a) n leaf root signed inDate = m.refuseSession n := by
  simp [Mach.finishSession, hshake, hclaim, hchain]

/-- FINISH with an accepted chain whose key is no credential's is refused. -/
theorem Mach.finishSession_of_stranger {m : Mach} {a n : Nat} {leaf root : List Byte} {signed inDate : Bool}
    (hshake : tget m.cairn.handshakes n = some (.cairn a)) (hclaim : m.sec.claimable = false)
    (hchain : m.chainOk root signed inDate = true) (hcred : m.credentialOf (Config.sha384 leaf) = none) :
    m.finishSession (.cairn a) n leaf root signed inDate = m.countUndated.refuseSession n := by
  simp [Mach.finishSession, hshake, hclaim, hchain, hcred]

/-- FINISH with an accepted chain whose key is credential k's opens the session with the credential's roles. -/
theorem Mach.finishSession_of_credential {m : Mach} {a n k : Nat} {leaf root : List Byte} {signed inDate : Bool}
    (hshake : tget m.cairn.handshakes n = some (.cairn a)) (hclaim : m.sec.claimable = false)
    (hchain : m.chainOk root signed inDate = true) (hcred : m.credentialOf (Config.sha384 leaf) = some k) :
    m.finishSession (.cairn a) n leaf root signed inDate =
      (.finished, m.countUndated.openSession n k (m.reg 0x1200 3 k % 16) (.cairn a)) := by
  simp [Mach.finishSession, hshake, hclaim, hchain, hcred]

/-- Settles O17: a message is counted and answered (`spdm_cairn_of_up`, `spdm_host_of_ld`) by what its request does of the
machine that has counted it in. -/
theorem sessions : Obligations.Sessions := by
  refine ⟨?keyExchange, ?hostKeyExchange, ?claim, ?finish, ?badChain, ?endSession, ?heartbeat, ?timeout, ?measurements, ?certificate,
    ?other⟩
  case keyExchange =>
    intro s a n hc hup hfree
    exact next_run_eq hc (Mach.spdm_cairn_of_up hup (by simp only [Mach.stationSpdm, hfree]))
  case hostKeyExchange =>
    intro s link ld l hc hl hunbound
    exact next_run_eq hc (Mach.spdm_host_of_ld hl (by simp [hunbound]) (by simp [Mach.hostSpdm, hunbound]))
  case claim =>
    intro s a n leaf root signed inDate hc hup hshake hclaim hunowned
    exact next_run_eq hc (Mach.spdm_cairn_of_up hup
      (Mach.finishSession_of_claim (m := s.m.bump 0x7110 1) hshake hclaim ((Mach.bump_owned s.m).trans hunowned) leaf root signed inDate))
  case finish =>
    intro s a n leaf root signed inDate hc hup hshake hclaim hchain
    refine next_run_eq hc ?_
    cases hcred : (s.m.bump 0x7110 1).credentialOf (Config.sha384 leaf) with
    | none =>
      simp only [hcred]
      exact Mach.spdm_cairn_of_up hup (Mach.finishSession_of_stranger hshake hclaim hchain hcred)
    | some k =>
      simp only [hcred]
      exact Mach.spdm_cairn_of_up hup (Mach.finishSession_of_credential hshake hclaim hchain hcred)
  case badChain =>
    intro s a n leaf root signed inDate hc hup hshake hclaim hchain
    exact next_run_eq hc (Mach.spdm_cairn_of_up hup (Mach.finishSession_of_badChain (m := s.m.bump 0x7110 1) hshake hclaim hchain leaf))
  case endSession =>
    intro s a n hc hup hopen
    exact next_run_eq hc (Mach.spdm_cairn_of_up hup (if_pos hopen))
  case heartbeat =>
    intro s link ld n l hc hl hbound
    exact next_run_eq hc (Mach.spdm_host_of_ld hl (by simp [hbound]) (by simp only [Mach.hostSpdm, if_pos hbound]))
  case timeout =>
    intro s a n hc hopen
    exact next_run_eq hc (if_pos hopen)
  case measurements =>
    intro s a hc hup
    exact next_run_eq hc (Mach.spdm_cairn_of_up hup (by rw [Mach.stationSpdm]))
  case certificate =>
    intro s a n chain hc hup hopen hrole
    exact next_run_eq hc (Mach.spdm_cairn_of_up hup (if_pos (by simp [hopen, hrole])))
  case other =>
    intro s a hc hup
    exact next_run_eq hc (Mach.spdm_cairn_of_up hup (by rw [Mach.stationSpdm]))

end Sys2Proof.Machine
end

section
/-! What arrives on a Ridgeline port (05_ridgeline_links.md R129, R130, R133, R135, R139, R158). -/

namespace Sys2Proof.Machine

/-! ## Flits in order -/

theorem Mach.numberedState_of_active {m : Mach} {p : Nat} (h : m.pState p = 7) : m.numberedState p = true := by
  simp [Mach.numberedState, h]

/-- An ACTIVE port is in a state in which it sends DIGESTs, asks for retries and enters RECOVERY. -/
theorem Mach.digestState_of_active {m : Mach} {p : Nat} (h : m.pState p = 7) : m.digestState p = true := by
  simp [Mach.digestState, h]

/-- A numbered flit on an ACTIVE port that awaits no replay is accepted, then taken (R133). -/
theorem Mach.numbered_of_active {m : Mach} {p : Nat} (h : m.pState p = 7) (hw : (m.port p).awaiting = false)
    (take : Mach → Mach) : m.numbered p take = take (m.acceptFlit p) := by
  simp [Mach.numbered, h, Mach.numberedState_of_active h, hw]

/-- A header flit with no frame in reception begins its frame (Table 05-7). -/
theorem Mach.rowHeaderFlit_of_active {m : Mach} {p : Nat} (h : m.pState p = 7) (hw : (m.port p).awaiting = false)
    (hrx : ((m.acceptFlit p).port p).rx = none) (hsusp : ((m.acceptFlit p).port p).suspended = none) (bs : List Byte) :
    m.rowHeaderFlit p bs = (m.acceptFlit p).headerIn p bs := by
  simp only [Mach.rowHeaderFlit, Mach.numbered_of_active h hw, hrx, hsusp]

/-- A data flit that is its frame's last: the frame has come whole (R139). -/
theorem Mach.dataIn_of_last {m : Mach} {p : Nat} {r : RxFrame} (h : m.pState p = 7) (hw : (m.port p).awaiting = false)
    (hrx : ((m.acceptFlit p).port p).rx = some r) (hlast : r.got + 1 = r.frame.len) (bs : List Byte) (stomp : Bool) :
    m.dataIn p bs stomp =
      ((m.acceptFlit p).setPort p { (m.acceptFlit p).port p with rx := none }).frameWhole p
        { r with got := r.got + 1, stomped := r.stomped || stomp,
                 frame := { r.frame with payload := r.frame.payload ++ slice bs 0 64 } } := by
  simp only [Mach.dataIn, Mach.numbered_of_active h hw, hrx, if_pos hlast]

/-- A data flit before its frame's last: added to the frame, which stays in reception (R139). -/
theorem Mach.dataIn_of_more {m : Mach} {p : Nat} {r : RxFrame} (h : m.pState p = 7) (hw : (m.port p).awaiting = false)
    (hrx : ((m.acceptFlit p).port p).rx = some r) (hmore : r.got + 1 ≠ r.frame.len) (bs : List Byte) (stomp : Bool) :
    m.dataIn p bs stomp =
      (m.acceptFlit p).setPort p { (m.acceptFlit p).port p with
        rx := some { r with got := r.got + 1, stomped := r.stomped || stomp,
                            frame := { r.frame with payload := r.frame.payload ++ slice bs 0 64 } } } := by
  simp only [Mach.dataIn, Mach.numbered_of_active h hw, hrx, if_neg hmore]

/-! ## Retries -/

/-- A slot in error on an ACTIVE port of a die that exists: its codewords counted, and a retry asked for (R128, R135). -/
theorem Mach.rowSlotInError_of_active {m : Mach} {p c u : Nat} (hp : p < m.dies)
    (h : ((m.bumpBy 0x7050 7 p c).bumpBy 0x7050 8 p u).pState p = 7)
    (hw : ((((m.bumpBy 0x7050 7 p c).bumpBy 0x7050 8 p u).bumpPort p 3).port p).awaiting = false) :
    m.rowSlotInError p c u = (((m.bumpBy 0x7050 7 p c).bumpBy 0x7050 8 p u).bumpPort p 3).sendRetry p := by
  simp [Mach.rowSlotInError, hp, h, hw]

/-- A retry sent again, below the limit: it names the EFN of the first error that the port keeps (R135). -/
theorem Mach.sendRetry_of_again {m : Mach} {p : Nat} (hlimit : (m.port p).retries < m.reg 0x4020 1 0)
    (hsent : 0 < (m.port p).retries) :
    m.sendRetry p = ((m.setPort p { m.port p with
      retryNum := ((m.port p).retryNum + 1) % 256, awaiting := true, retries := (m.port p).retries + 1 }).bumpPort p 4).emit
        (.retry p (m.port p).efn (((m.port p).retryNum + 1) % 256)) := by
  simp only [Mach.sendRetry, if_neg (Nat.not_le.mpr hlimit), if_neg hsent.ne']

/-- The resend interval of an ACTIVE port that awaits a replay asks for it again (R135). -/
theorem Mach.rowResendIntervalExpiry_of_awaiting {m : Mach} {p : Nat} (h : m.pState p = 7)
    (hw : (m.port p).awaiting = true) : m.rowResendIntervalExpiry p = m.sendRetry p :=
  if_pos ⟨Mach.digestState_of_active h, hw⟩

/-- A command that leaves the machine alone leaves the state alone, whether the clock runs or not. -/
theorem State.run_of_unchanged {s : State} {f : Mach → Mach} (h : f s.m = s.m) : s.run f = s := by
  cases hc : s.m.clocked with
  | false => exact State.run_unclocked hc f
  | true => simp only [State.run_clocked hc, State.after, Mach.inside, h]

/-- Settles O18: an ACTIVE port that awaits no replay takes the flit after accepting it (`numbered_of_active`); the frame in
reception is whole with this flit or not (`dataIn_of_last`, `dataIn_of_more`). -/
theorem portReception : Obligations.PortReception := by
  refine ⟨?header, ?last, ?more, ?stomp, ?idle, ?slot, ?resend, ?replay⟩
  case header =>
    intro s p bs hc hact hw hrx hsusp
    exact next_run_eq hc (Mach.rowHeaderFlit_of_active hact hw hrx hsusp bs)
  case last =>
    intro s p bs r hc hact hw hrx hlast
    refine next_run_eq hc ((Mach.dataIn_of_last hact hw hrx hlast bs false).trans ?_)
    simp only [Bool.or_false]
  case more =>
    intro s p bs r hc hact hw hrx hmore
    refine next_run_eq hc ((Mach.dataIn_of_more hact hw hrx hmore.ne bs false).trans ?_)
    simp only [Bool.or_false]
  case stomp =>
    intro s p r hc hact hw hrx hlast
    refine next_run_eq hc ((Mach.dataIn_of_last hact hw hrx hlast (zeros 64) true).trans ?_)
    simp only [Bool.or_true]
  case idle =>
    intro s p
    exact congrArg Host.Outcome.next (State.run_of_unchanged rfl)
  case slot =>
    intro s p c u hc hp hact hw
    exact next_run_eq hc (Mach.rowSlotInError_of_active hp hact hw)
  case resend =>
    intro s p hc hact hw hlimit hsent
    exact next_run_eq hc ((Mach.rowResendIntervalExpiry_of_awaiting hact hw).trans (Mach.sendRetry_of_again hlimit hsent))
  case replay =>
    intro s p hc hact hw
    exact next_run_eq hc (if_pos ⟨Mach.numberedState_of_active hact, hw, rfl, rfl⟩)

end Sys2Proof.Machine
end

section
/-! What a Ridgeline port sends, its acknowledgements and its intervals (05_ridgeline_links.md R133-R138; 06_ridgeline_memory.md
R187). -/

namespace Sys2Proof.Machine

/-! ## Acknowledgements and retries -/

/-- An ACK within the flits in flight, no frame waiting for one: the flits up to ACKFN freed and the limits taken (R133, R137). -/
theorem Mach.rowAckFlit_of_inFlight {m : Mach} {p ackfn : Nat} (h : m.pState p = 7) (hnone : (m.port p).unacked = [])
    (hflight : (ackfn + 1 + 65536 - (m.port p).ackedTo) % 65536 ≤ ((m.port p).nextNum + 65536 - (m.port p).ackedTo) % 65536)
    (limits : List Nat) :
    m.rowAckFlit p ackfn limits = m.setPort p { m.port p with ackedTo := (ackfn + 1) % 65536, limit := limits.take 6 } := by
  simp only [Mach.rowAckFlit, Mach.numberedState_of_active h, hnone, if_pos hflight, List.filter_nil, List.getLast?_nil,
    Bool.not_true, Bool.false_eq_true, if_false]

/-- A RETRY not answered yet whose EFN the replay buffer holds: answered, and the flits from EFN on counted and sent again
(R135). -/
theorem Mach.rowRetryFlit_of_held {m : Mach} {p efn num : Nat} (h : m.pState p = 7) (hnew : (m.port p).lastAnswered ≠ some num)
    (hheld : (efn + 65536 - (m.port p).ackedTo) % 65536 < ((m.port p).nextNum + 65536 - (m.port p).ackedTo) % 65536) :
    m.rowRetryFlit p efn num =
      (((m.setPort p { m.port p with lastAnswered := some num }).bumpBy 0x7050 5 p
        (((m.port p).nextNum + 65536 - (m.port p).ackedTo) % 65536 - (efn + 65536 - (m.port p).ackedTo) % 65536)).emit
          (.replayStart p efn num)).resend p efn := by
  have hanswers : ¬((!m.numberedState p || (m.port p).lastAnswered == some num) = true) := by
    simp [Mach.numberedState_of_active h, hnew]
  simp only [Mach.rowRetryFlit, if_neg hanswers, if_neg (Nat.not_le.mpr hheld)]

/-! ## Recovery -/

/-- An ACTIVE port enters RECOVERY, to return to ACTIVE (R136). -/
theorem Mach.enterRecovery_of_active {m : Mach} {p : Nat} (h : m.pState p = 7) :
    m.enterRecovery p = ((m.setPort p { m.port p with left := 7 }).setPState p 10).bumpPort p 6 := by
  simp [Mach.enterRecovery, h]

/-! ## Frames -/

/-- The next frame in turn: stamped where it is a beacon, sent whole with its credit taken, and kept until it is acknowledged
(R130, R134, R137, R187). -/
theorem Mach.rowFrameTransmitStart_of_next {m m1 : Mach} {p : Nat} {q : QFrame} {f : RFrame} (hq : m.nextFrame p = some q)
    (hstamp : m.stampBeacon p { q.frame with hops := q.frame.hops + 1 } = (f, m1)) :
    m.rowFrameTransmitStart p = ((((m1.setPort p { m1.port p with
        queue := (m1.port p).queue.erase q
        unacked := (m1.port p).unacked ++ [⟨(m1.port p).nextNum, { q with frame := f }, m1.now⟩]
        nextNum := ((m1.port p).nextNum + (f.len + 1)) % 65536
        sent := if 3 ≤ f.cls then (m1.port p).sent
          else (m1.port p).sent.set (2 * f.cls + f.vc) (((m1.port p).sent.getD (2 * f.cls + f.vc) 0 + (f.len + 1)) % 65536) }).bumpBy
        0x7050 1 p (f.len + 1)).emit (.frame p f)).releaseCredit q.input q.frame).mirrorFrame p 2 f := by
  simp only [Mach.rowFrameTransmitStart, hq, hstamp]

/-- Settles O19: the port's state opens each row, and the flit or the interval does what its lemma says. -/
theorem portTransmission : Obligations.PortTransmission := by
  refine ⟨?ack, ?retry, ?ackInterval, ?keepalive, ?retrained, ?recoveryBound, ?laneLost, ?transmit⟩
  case ack =>
    intro s p ackfn limits hc hact hnone hflight
    exact next_run_eq hc (Mach.rowAckFlit_of_inFlight hact hnone hflight limits)
  case retry =>
    intro s p efn num hc hact hnew hheld
    exact next_run_eq hc (Mach.rowRetryFlit_of_held hact hnew hheld)
  case ackInterval =>
    intro s p hc hact
    exact next_run_eq hc (if_pos (Mach.digestState_of_active hact))
  case keepalive =>
    intro s p hc hact
    exact next_run_eq hc (Mach.enterRecovery_of_active hact)
  case retrained =>
    intro s p hc hrecovers
    exact next_run_eq hc (if_pos hrecovers)
  case recoveryBound =>
    intro s p hc hrecovers
    exact next_run_eq hc (if_pos (.inl hrecovers))
  case laneLost =>
    intro s p lane hc hlane hgood
    exact next_run_eq hc (if_pos ⟨hlane, hgood⟩)
  case transmit =>
    intro s p q m1 f hc hq hm1 hf
    exact next_run_eq hc (Mach.rowFrameTransmitStart_of_next hq (Prod.ext hf.symm hm1.symm))

end Sys2Proof.Machine
end

section
/-! How a Ridgeline port trains (05_ridgeline_links.md R140-R142, R144). -/

namespace Sys2Proof.Machine

/-- DETECT's time-out, its cause not 12 and its notice not raised yet: cause 1, and the notice names it (R144). -/
theorem Mach.rowDetectTimeout_of_unnoticed {m : Mach} {p : Nat} (h : m.pState p = 2) (hsuited : m.reg 0x4011 8 p ≠ 12)
    (hfirst : (m.port p).signalNoticed = false) :
    m.rowDetectTimeout p =
      ((m.setCause p 1).setPort p { m.port p with signalNoticed := true }).notice 0x8050 [byteOf p, 2, 2, byteOf 1] := by
  have hcause : (m.setCause p 1).reg 0x4011 8 p = 1 := Mach.reg_setReg_same m 0x4011 8 p 1
  simp only [Mach.rowDetectTimeout, if_pos h, if_neg hsuited, hfirst, hcause, Bool.false_eq_true, if_false]

/-- Lanes in an order that can be corrected: recorded, then HELLO (R140). -/
theorem Mach.rowAlignDone_of_correctable {m : Mach} {p : Nat} (h : m.pState p = 4) (reversed : Bool) (inverted good : Nat) :
    m.rowAlignDone p true reversed inverted good =
      ((((m.setReg 0x4011 4 p (b2n reversed)).setReg 0x4011 5 p (inverted % 2 ^ 32)).setReg 0x4011 3 p
        (good % 2 ^ 32)).setPState p 5).sendHello p := by
  simp only [Mach.rowAlignDone, if_neg (not_not.mpr h), Bool.not_true, Bool.false_eq_true, if_false]

/-- A HELLO with no width in common: the peer recorded, and back to DETECT with cause 4 (R141). -/
theorem Mach.rowHelloFlit_of_noWidth {m : Mach} {p widths lanes : Nat} (h : m.pState p = 5)
    (hw : agreeWidth (Nat.land widths (m.reg 0x4010 3 p)) (Nat.land lanes (m.reg 0x4011 3 p)) = 0) (node port : Nat) :
    m.rowHelloFlit p node port widths lanes =
      (((m.setReg 0x4011 6 p node).setReg 0x4011 7 p port).setCause p 4).setPState p 2 := by
  have hawaited : ¬(m.pState p ≠ 5 ∧ m.pState p ≠ 10) := by omega
  have hnew : ¬m.pState p = 10 := by omega
  exact (if_neg hawaited).trans ((if_neg hnew).trans (if_pos hw))

/-- The machine of a port whose HELLO agreed a width: the peer, the usable lanes and the width recorded (R141). -/
def Mach.helloAgreed (m : Mach) (p node port lanes w : Nat) : Mach :=
  (((m.setReg 0x4011 6 p node).setReg 0x4011 7 p port).setReg 0x4011 3 p (Nat.land lanes (m.reg 0x4011 3 p))).setWidth p w

/-- The port's own state when flit numbering starts (R141): only what outlives the training is kept. -/
def Port.numberingStarts (v : Port) : Port :=
  { Port.fresh with numbered := true, fromLost := v.fromLost, queue := v.queue }

/-- A HELLO that agrees a width on a port that is no edge port and whose peer is not checked: on to DIGEST (R141, R142). -/
theorem Mach.rowHelloFlit_of_width {m m2 : Mach} {p node port widths lanes w : Nat} (h : m.pState p = 5)
    (hw : agreeWidth (Nat.land widths (m.reg 0x4010 3 p)) (Nat.land lanes (m.reg 0x4011 3 p)) = w) (hne : w ≠ 0)
    (hm2 : m2 = m.helloAgreed p node port lanes w)
    (hedge : (m2.setPort p (m.port p).numberingStarts).edgePort p = false)
    (hcheck : (m2.setPort p (m.port p).numberingStarts).reg 0x4010 7 p = 0) :
    m.rowHelloFlit p node port widths lanes =
      ((m2.setPort p (m.port p).numberingStarts).setPState p 6).sendDigest p false := by
  have hawaited : ¬(m.pState p ≠ 5 ∧ m.pState p ≠ 10) := by omega
  have hnew : ¬m.pState p = 10 := by omega
  have hunchecked : ¬(m2.setPort p (m.port p).numberingStarts).reg 0x4010 7 p = 1 := by omega
  subst hm2
  simp only [Mach.rowHelloFlit, hw]
  exact (if_neg hawaited).trans ((if_neg hnew).trans ((if_neg hne).trans
    ((if_neg (not_and_of_not_left _ hunchecked)).trans (if_neg (Bool.eq_false_iff.mp hedge)))))

/-- Settles O20: each event finds the port in the state whose end it is; ALIGN and HELLO do what their lemmas say. -/
theorem portTraining : Obligations.PortTraining := by
  refine ⟨?signal, ?detectTimeout, ?equalised, ?equaliseTimeout, ?aligned, ?noWidth, ?width, ?helloTimeout, ?digestTimeout, ?digest,
    ?autoRestore⟩
  case signal =>
    intro s p hc hdetect hsuited
    exact next_run_eq hc (if_pos ⟨hdetect, hsuited⟩)
  case detectTimeout =>
    intro s p hc hdetect hsuited hfirst
    exact next_run_eq hc (Mach.rowDetectTimeout_of_unnoticed hdetect hsuited hfirst)
  case equalised =>
    intro s p hc hequalise
    exact next_run_eq hc (if_pos hequalise)
  case equaliseTimeout =>
    intro s p hc hequalise
    exact next_run_eq hc (if_pos hequalise)
  case aligned =>
    intro s p inverted good reversed hc halign
    exact next_run_eq hc (Mach.rowAlignDone_of_correctable halign reversed inverted good)
  case noWidth =>
    intro s p node port widths lanes hc hhello hnone
    exact next_run_eq hc (Mach.rowHelloFlit_of_noWidth hhello hnone node port)
  case width =>
    intro s p node port widths lanes w m2 hc hhello hw hne hm2 hedge hcheck hkept
    rw [hkept] at hedge hcheck ⊢
    exact next_run_eq hc (Mach.rowHelloFlit_of_width hhello hw hne hm2 hedge hcheck)
  case helloTimeout =>
    intro s p hc hhello
    exact next_run_eq hc (if_pos hhello)
  case digestTimeout =>
    intro s p hc hdigest
    exact next_run_eq hc (if_pos hdigest)
  case digest =>
    intro s p bs hc
    exact next_run_eq hc (by rw [Mach.rowDigestFlit])
  case autoRestore =>
    intro s p hc hlost hauto hactive hundrained
    exact next_run_eq hc (if_pos ⟨hlost, hauto, hactive, by simp [hundrained]⟩)

end Sys2Proof.Machine
end

section
/-! The Steward's commands to a Ridgeline port and the end of a drain (05_ridgeline_links.md R136, R144, R153, R159). -/

namespace Sys2Proof.Machine

/-! ## Drains and their end -/

/-- An ACTIVE port is disabled: it drains toward DISABLED with cause 9 (R159). -/
theorem Mach.disablePort_of_active {m : Mach} {p : Nat} (h : ((m.setReg 0x4010 2 p 0).setCause p 9).pState p = 7) :
    m.disablePort p = ((m.setReg 0x4010 2 p 0).setCause p 9).drainPort p 1 := by
  simp only [Mach.disablePort, h, OfNat.ofNat_ne_zero, OfNat.ofNat_ne_one, or_self, if_false]

/-- A drain with every flit acknowledged is done (R159). -/
theorem Mach.rowPortDrainDone_of_acked {m : Mach} {p t : Nat} (hdrain : (m.port p).drainTo = some t)
    (hacked : (m.port p).unacked = []) : m.rowPortDrainDone p = m.drained p t := by
  simp only [Mach.rowPortDrainDone, hdrain, hacked, if_true]

/-- The bound of a drain with no frame in reception: the frames not acknowledged are treated by R157 (R159). -/
theorem Mach.rowPortDrainBoundExpiry_of_draining {m : Mach} {p t : Nat} (hdrain : (m.port p).drainTo = some t)
    (hsusp : (m.port p).suspended = none) (hrx : (m.port p).rx = none) :
    m.rowPortDrainBoundExpiry p = ((m.port p).unacked.foldl (fun m x => m.lostFrame p x.frame) m).drained p t := by
  simp only [Mach.rowPortDrainBoundExpiry, hdrain, hsusp, hrx, Option.elim_none]

/-- Settles O21: each command is admitted and its entry's own rule succeeds by the port's state (`dictWrite_ok`); a drain ends with
every flit acknowledged or at its bound. -/
theorem portCommands : Obligations.PortCommands := by
  refine ⟨?enable, ?disable, ?fastRetrain, ?fullRetrain, ?drained, ?drainBound, ?release, ?routes⟩
  case enable =>
    intro s w p m2 hc hadm hrow hm2 hoff hactive hthere
    have hpowers : m2.pState p = 1 ∧ m2.dieActive p = true ∧ (!m2.offPort p) = true := ⟨hoff, hactive, by simp [hthere]⟩
    subst hrow hm2
    exact next_run_eq hc (dictWrite_ok hadm (congrArg Except.ok (if_pos hpowers)))
  case disable =>
    intro s w p hc hadm hrow hact
    subst hrow
    exact next_run_eq hc (dictWrite_ok hadm (congrArg Except.ok (Mach.disablePort_of_active hact)))
  case fastRetrain =>
    intro s w p hc hadm hrow hact
    subst hrow
    exact next_run_eq hc (dictWrite_ok hadm (if_pos hact))
  case fullRetrain =>
    intro s w p hc hadm hrow hact
    subst hrow
    exact next_run_eq hc (dictWrite_ok hadm (if_pos hact))
  case drained =>
    intro s p t hc hdrain hacked
    exact next_run_eq hc (Mach.rowPortDrainDone_of_acked hdrain hacked)
  case drainBound =>
    intro s p t hc hdrain hsusp hrx
    exact next_run_eq hc (Mach.rowPortDrainBoundExpiry_of_draining hdrain hsusp hrx)
  case release =>
    intro s w p hc hadm hrow hrestored
    subst hrow
    exact next_run_eq hc (dictWrite_ok hadm (if_pos hrestored))
  case routes =>
    intro s w hc hadm
    exact next_run_eq hc (dictWrite_ok hadm rfl)

end Sys2Proof.Machine
end

section
/-! What the fabric's frames do at their target: the checks that open their rows (06_ridgeline_memory.md R163, R174) and the streams
that hold them (R166-R172, R181). -/

namespace Sys2Proof.Machine

/-! ## Frames taken off those that have arrived -/

@[simp] theorem Mach.releaseCredit_store (m : Mach) (inp : Nat) (f : RFrame) : (m.releaseCredit inp f).store = m.store := by
  unfold Mach.releaseCredit; split <;> rfl

@[simp] theorem Mach.takeArrived_store (m : Mach) (port : Nat) (f : RFrame) : (m.takeArrived port f).store = m.store := by
  unfold Mach.takeArrived; split
  · exact Mach.releaseCredit_store ..
  · rfl

/-! ## Frames that are refused (R163) -/

theorem Mach.refuseFrame_of_request {f : RFrame} (h : f.cls = 2) (m : Mach) :
    m.refuseFrame f = m.sendFrame (m.respFrame f stInvalDesc 0 0 []) := if_pos h

theorem Mach.refuseFrame_of_other {f : RFrame} (h : f.cls ≠ 2) (m : Mach) : m.refuseFrame f = m.bump 0x7060 0x0F := if_neg h

/-- A stream row refuses a frame of the wrong form, whether its opcode is the row's or not. -/
theorem Mach.streamRow_of_badForm {f : RFrame} (h : RFrameFormOk f = false) (m : Mach) (op port : Nat) :
    m.streamRow op port f = (m.takeArrived port f).refuseFrame f := by
  simp [Mach.streamRow, Mach.streamRequest, h]

/-- Settles O59: every row of the fabric's frames refuses a frame of the wrong form, and `refuseFrame` has the two answers. -/
theorem refusedFrames : Obligations.RefusedFrames := by
  intro s port f hc hlow hform c hmem
  have hbad : (!RFrameFormOk f) = true := by simp [hform]
  have hstream (op : Nat) := Mach.streamRow_of_badForm hform s.m op port
  have hexec : exec c s = .next (s.after fun m => (m.takeArrived port f).refuseFrame f) := by
    simp only [List.mem_cons, List.not_mem_nil, or_false] at hmem
    rcases hmem with rfl | rfl | rfl | rfl | rfl | rfl | rfl | rfl | rfl | rfl | rfl | rfl | rfl
    · exact next_run_eq hc (if_pos (.inl hbad))
    · exact next_run_eq hc (hstream opWrite)
    · exact next_run_eq hc (hstream opWritePosted)
    · exact next_run_eq hc (hstream opAtomic)
    · exact next_run_eq hc (hstream opFence)
    · exact next_run_eq hc (hstream opPublish)
    · exact next_run_eq hc (hstream opPublishFwd)
    · exact next_run_eq hc (if_pos (.inr hbad))
    · exact next_run_eq hc (if_pos (.inr hbad))
    · exact next_run_eq hc (if_pos (.inr hbad))
    · exact next_run_eq hc (if_pos (.inr hbad))
    · exact next_run_eq hc (if_pos (.inr hbad))
    · exact next_run_eq hc (if_neg (by omega))
  exact ⟨fun hreq => hexec.trans (congrArg _ (State.after_congr (Mach.refuseFrame_of_request hreq _))),
    fun hother => hexec.trans (congrArg _ (State.after_congr (Mach.refuseFrame_of_other hother _)))⟩

/-! ## The checks of a request (R174) -/

/-- The key check counts nothing of a frame that it lets pass. -/
theorem Mach.keyCheck_of_ok {m : Mach} {f : RFrame} (h : (m.keyCheck f).1 = 0) : m.keyCheck f = (0, m) := by
  simp only [Mach.keyCheck] at h ⊢
  split at h
  case isTrue hstale => exact absurd h (show stMapStale ≠ 0 by decide)
  case isFalse hepoch =>
    split at h
    case isTrue hfault => exact absurd h (show stKeyFault ≠ 0 by decide)
    case isFalse hpass => rw [if_neg hepoch, if_neg hpass]

/-- A COLL frame that passes the key check and is of another group epoch: discarded and counted (R195). -/
theorem Mach.rowFrameColl_of_stale {m : Mach} {f : RFrame} (hop : f.opcode = opColl) (hform : RFrameFormOk f = true)
    (hkey : (m.keyCheck f).1 = 0) (hstale : bits (f.word 5) 23 16 ≠ m.reg 0x4510 9 (f.word 5 % 65536)) (port : Nat) :
    m.rowFrameColl port f = (m.takeArrived port f).bump 0x7060 0x0C := by
  simp [Mach.rowFrameColl, hop, hform, Mach.keyCheck_of_ok hkey, hstale]

/-- Settles O60: the frame is counted, and a counter is no part of the store. -/
theorem staleCollFrames : Obligations.StaleCollFrames := by
  intro s port f hc hop hform hkey hstale
  exact ⟨next_run_eq hc (Mach.rowFrameColl_of_stale hop hform hkey hstale port), s.m.takeArrived_store port f⟩

/-! ## Streams (R167, R172) -/

/-- A frame within its stream's window and not held yet: held, and what is in turn applied (R167). -/
theorem Mach.streamArrive_of_new {m : Mach} {key sequence : Nat}
    (hwindow : (sequence + 65536 - (m.stream key).n) % 65536 < 1024) (hnew : tget (m.stream key).held sequence = none)
    (h : HeldFrame) :
    m.streamArrive key sequence h =
      (m.setStream key { m.stream key with held := tput (m.stream key).held sequence h }).runStream key := by
  have hunseen : ¬(32768 ≤ (sequence + 65536 - (m.stream key).n) % 65536 ∨
      (tget (m.stream key).held sequence).isSome = true) := by
    simp only [hnew, Option.isSome_none, Bool.false_eq_true, or_false]
    omega
  exact (if_neg hunseen).trans (if_neg (Nat.not_le.mpr hwindow))

/-- A stream request that passes the checks, its window not moved, joins its source's stream (R174). -/
theorem Mach.streamRow_of_checked {m m2 : Mach} {op port : Nat} {f : RFrame} (hop : f.opcode = op)
    (hform : RFrameFormOk f = true) (hst : ((m.takeArrived port f).targetCheck f).1 = 0)
    (hm2 : m2 = ((m.takeArrived port f).targetCheck f).2) (hstay : m2.forwarded f = none) :
    m.streamRow op port f = m2.streamArrive (streamKey f.src f.cls) f.sequence ⟨f, port, 0, m2.targetDpa f⟩ := by
  have hcheck : (m.takeArrived port f).targetCheck f = (0, m2) := Prod.ext hst hm2.symm
  simp [Mach.streamRow, Mach.streamRequest, hop, hform, hcheck, hstay]

/-- Settles O22: a stream row holds the frame in its source's stream (`streamRow_of_checked`, `streamArrive_of_new`); a poison marker
goes to the stream of the source it stands for. -/
theorem fabricStreams : Obligations.FabricStreams := by
  refine ⟨?write, ?writePosted, ?atomic, ?fence, ?publish, ?publishFwd, ?poisonMark⟩
  case poisonMark =>
    intro s port f m2 src hc hop hform hst hm2 hsrc hreq
    have hcheck : (s.m.takeArrived port f).targetCheck f = (0, m2) := Prod.ext hst hm2.symm
    subst hsrc
    exact next_run_eq hc (by simp [Mach.rowFramePoisonMark, hop, hform, hcheck, hreq])
  all_goals
    intro s port f m2 hc hop hform hst hm2 hstay hwindow hnew
    exact next_run_eq hc ((Mach.streamRow_of_checked hop hform hst hm2 hstay).trans (Mach.streamArrive_of_new hwindow hnew _))

end Sys2Proof.Machine
end

section
/-! The other frames of the fabric: reads, responses, acknowledgements and frames that no row knows (06_ridgeline_memory.md R163-R165,
R171, R190). -/

namespace Sys2Proof.Machine

/-! ## Reads (R165) -/

theorem lineOf_lineEnd {a : Nat} (h : a % 64 = 0) : lineOf (a + 63) = lineOf a := by
  unfold lineOf; omega

/-- A READ of one aligned line that passes the checks, its window not moved and no host's copy in the way: answered with the
coherent value, none of it poisoned. -/
theorem Mach.rowFrameRead_of_line {m m1 m2 : Mach} {port : Nat} {f : RFrame} {bs : List Byte} (hop : f.opcode = opRead)
    (hform : RFrameFormOk f = true) (hcheck : m.targetCheck f = (0, m1)) (hstay : m1.forwarded f = none) (hn : f.nbytes = 64)
    (halign : m1.targetDpa f % 64 = 0) (hfree : m1.recall (m1.targetDpa f) 64 false = none)
    (hm2 : m2 = (m1.takeArrived port f).accessed
      (if port < (m1.takeArrived port f).dies then port else (m1.takeArrived port f).homeOf (m1.targetDpa f))
      (granuleOfLine (lineOf (m1.targetDpa f))))
    (hval : m2.coherentLine (lineOf (m1.targetDpa f)) = .data bs) :
    m.rowFrameRead port f = m2.sendFrame (m2.respFrame f 0 0 0 (slice (slice bs 0 64) 0 64)) := by
  have hflits : ceilDiv 64 64 = 1 := rfl
  have hone := lineOf_lineEnd halign
  simp [Mach.rowFrameRead, hop, hform, hcheck, hstay, hn, hfree, hflits, hone, ← hm2, hval, halign, sumL]

/-! ## Responses (R164) -/

/-- The first response for a TAG, neither a REDIRECT nor TARGET_DEAD, ends its request. -/
theorem Mach.rowFrameResp_of_request {m : Mach} {port : Nat} {f : RFrame} {r : OutReq} (hop : f.opcode = opResp)
    (hform : RFrameFormOk f = true) (hreq : tget (m.takeArrived port f).fab.reqs f.tag = some r)
    (hdirect : f.status ≠ stRedirect) (hlive : f.status ≠ stTargetDead) :
    m.rowFrameResp port f = (m.takeArrived port f).endReq f.tag f.status (f.word 6 ≠ 0) f.payload := by
  simp [Mach.rowFrameResp, hop, hform, hreq, hdirect, hlive]

/-- A response for no TAG, no REDIRECT of a posted write: dropped and counted. -/
theorem Mach.rowFrameResp_of_stray {m : Mach} {port : Nat} {f : RFrame} (hop : f.opcode = opResp)
    (hform : RFrameFormOk f = true) (hreq : tget (m.takeArrived port f).fab.reqs f.tag = none)
    (hdirect : f.status ≠ stRedirect) : m.rowFrameResp port f = (m.takeArrived port f).bump 0x7060 3 := by
  simp [Mach.rowFrameResp, hop, hform, hreq, hdirect]

/-- Settles O23: a read, a response and an acknowledgement are their rows with the frame's form and the checks known; an opcode that
no row knows is counted or refused. -/
theorem fabricFrames : Obligations.FabricFrames := by
  refine ⟨?read, ?response, ?stray, ?seqAck, ?mirrorCopy, ?unknown⟩
  case read =>
    intro s port f m1 m2 bs hc hop hform hst hm1 hstay hn halign hfree hm2 hval
    exact next_run_eq hc
      (Mach.rowFrameRead_of_line hop hform (Prod.ext hst hm1.symm) hstay hn halign hfree hm2 hval)
  case response =>
    intro s port f r hc hop hform hreq hdirect hlive
    exact next_run_eq hc (Mach.rowFrameResp_of_request hop hform hreq hdirect hlive)
  case stray =>
    intro s port f hc hop hform hreq hdirect
    exact next_run_eq hc (Mach.rowFrameResp_of_stray hop hform hreq hdirect)
  case seqAck =>
    intro s port f hc hop hform hbulk
    exact next_run_eq hc (by simp [Mach.rowFrameSeqAck, hop, hform, hbulk])
  case mirrorCopy =>
    intro s port f hc hop hform
    exact next_run_eq hc (if_neg (by simp [hop, hform]))
  case unknown =>
    intro s port f hc
    exact next_run_eq hc rfl

end Sys2Proof.Machine
end

section
/-! The end-to-end bounds of the fabric, its epochs, dead nodes and jobs (06_ridgeline_memory.md R169, R171, R173, R179, R196-R202). -/

namespace Sys2Proof.Machine

@[simp] theorem Mach.heard_fab (m : Mach) : m.heard.fab = m.fab := rfl

/-! ## Bounds -/

/-- A stream that holds frames but not the one in turn: that one is declared lost, and the stream goes on (R169). -/
theorem Mach.rowGapBoundExpiry_of_gap {m : Mach} {src : Nat} {bulk : Bool} (hheld : (m.stream (src * 2 + b2n bulk)).held ≠ [])
    (hgap : tget (m.stream (src * 2 + b2n bulk)).held (m.stream (src * 2 + b2n bulk)).n = none) :
    m.rowGapBoundExpiry src bulk =
      (((m.setSource src { m.source src with lost := true }).bump 0x7060 6).advance (src * 2 + b2n bulk)).runStream
        (src * 2 + b2n bulk) :=
  if_neg (by simp [hheld, hgap])

/-- A BULK write not covered in time, below the limit: counted and sent again (R171). -/
theorem Mach.rowBulkRetransmit_of_again {m : Mach} {dst sequence : Nat} {r : Retained}
    (hr : m.fab.retained.find? (fun r => r.frame.dst == dst && r.frame.cls == 3 && r.frame.sequence == sequence) = some r)
    (hlimit : r.resends < m.reg 0x4200 3 0) :
    m.rowBulkRetransmit dst sequence = (({ m with fab := { m.fab with retained := m.fab.retained.map fun x =>
      if x = r then { x with resends := x.resends + 1 } else x } } : Mach).bump 0x7060 7).sendFrame r.frame := by
  simp only [Mach.rowBulkRetransmit, hr, if_neg (Nat.not_le.mpr hlimit)]

/-- A request without its response, no COLL frame: it ends with TIMEOUT (R173). -/
theorem Mach.rowResponseBound_of_request {m : Mach} {tag : Nat} {r : OutReq} (hr : tget m.fab.reqs tag = some r)
    (hop : r.frame.opcode ≠ opColl) : m.rowResponseBound tag = m.endReq tag stTimeout false [] := by
  simp only [Mach.rowResponseBound, hr, if_neg hop]

/-- Settles O24: a bound finds the stream, the write or the request that it ends; the writes pass their entries' own rules
(`dictWrite_ok`). -/
theorem fabricBounds : Obligations.FabricBounds := by
  refine ⟨?gap, ?seqAcks, ?resent, ?noResponse, ?retired, ?keyBump, ?epoch, ?deadNode, ?teardown⟩
  case gap =>
    intro s src bulk hc hheld hgap
    exact next_run_eq hc (Mach.rowGapBoundExpiry_of_gap hheld hgap)
  case seqAcks =>
    intro s hc
    exact next_run_eq hc rfl
  case resent =>
    intro s dst sequence r hc hr hlimit
    exact next_run_eq hc (Mach.rowBulkRetransmit_of_again hr hlimit)
  case noResponse =>
    intro s tag r hc hr hop
    exact next_run_eq hc (Mach.rowResponseBound_of_request hr hop)
  case retired =>
    intro s tags posted hc hdraining htags hposted
    subst htags hposted
    exact next_run_eq hc (if_neg (not_not.mpr hdraining))
  case keyBump =>
    intro s w region hc hadm hregion
    exact next_run_eq hc (dictWrite_ok hadm (if_neg (Nat.not_le.mpr hregion)))
  case epoch =>
    intro s w v hc hadm hnext hretired
    exact next_run_eq hc (dictWrite_ok hadm ((if_neg (not_not.mpr hnext)).trans (if_neg hretired)))
  case deadNode =>
    intro s w node hc hadm hnode
    exact next_run_eq hc (dictWrite_ok hadm (if_neg (Nat.not_le.mpr hnode)))
  case teardown =>
    intro s w job hc hadm hjob
    exact next_run_eq hc (dictWrite_ok hadm (if_neg (Nat.not_le.mpr hjob)))

/-! ## Relocations (R200) -/

/-- A copy without failure, every WRITE of it answered and nothing left to send: the final pass, another pass, or after eight of
them the end, by how much is dirty. -/
theorem Mach.rowRelocationCopyDone_of_copied {m : Mach} {r : Relocation} (hr : m.fab.reloc = some r)
    (hbulk : m.reg 0x4481 7 0 ≠ 3) (hok : r.failed = 0) (hanswered : r.outstanding = 0) (hsent : r.todo = [])
    (hall : m.reg 0x4410 3 r.window ≤ r.next) :
    m.rowRelocationCopyDone = if r.dirty.length ≤ 262144 then m.relocPass 3
      else if 8 ≤ r.passes then m.relocEnd 5 stTimeout else m.relocPass 2 := by
  have hleft : ¬(r.outstanding ≠ 0 ∨ r.next < m.reg 0x4410 3 r.window ∨ r.todo ≠ []) := by
    simp [hanswered, hsent, hall]
  simp only [Mach.rowRelocationCopyDone, hr, if_neg hbulk, if_neg (not_not.mpr hok), if_neg hleft]

/-- The final pass without failure, every WRITE of it answered: the relocation ends FORWARDED. -/
theorem Mach.rowRelocationFinalPassDone_of_copied {m : Mach} {r : Relocation} (hr : m.fab.reloc = some r)
    (hfinal : m.reg 0x4481 7 0 = 3) (hok : r.failed = 0) (hanswered : r.outstanding = 0) (hsent : r.todo = []) :
    m.rowRelocationFinalPassDone = m.relocEnd 4 0 := by
  simp [Mach.rowRelocationFinalPassDone, hr, hfinal, hok, hanswered, hsent]

/-- A relocation that ends FORWARDED: its window names the new place, the notice says success, and the requests it held go on. -/
theorem Mach.relocEnd_forwarded {m : Mach} {r : Relocation} (hr : m.fab.reloc = some r) :
    m.relocEnd 4 0 =
      let n := { m with fab := { m.fab with reloc := none } }
      let n := ((n.setReg 0x4411 1 r.window 2).setReg 0x4411 2 r.window (n.reg 0x4481 2 0)).setReg 0x4411 3 r.window (n.reg 0x4481 3 0)
      (((n.setReg 0x4481 7 0 4).setReg 0x4481 6 0 1000).notice 0x8060 (leBytes 2 r.window ++ leBytes 2 0)).runStreams := by
  simp only [Mach.relocEnd, hr, if_true]

/-- Settles O25: the window passes the entry's own rule; a copy and the final pass end as their lemmas say, and the hold bound only
in the final pass. -/
theorem relocations : Obligations.Relocations := by
  refine ⟨?start, ?littleDirty, ?muchDirty, ?finalPass, ?holdBound⟩
  case start =>
    intro s w k hc hadm hk hvalid hnone hidle hnode
    have hwindow : ¬(4096 ≤ k ∨ s.m.heard.reg 0x4410 6 k = 0) := by omega
    have hfree : ¬s.m.heard.fab.reloc.isSome = true := by simp [hnone]
    exact next_run_eq hc (dictWrite_ok hadm ((if_neg hwindow).trans ((if_neg hfree).trans ((if_neg (not_not.mpr hidle)).trans
      (if_neg (not_and_of_not_left _ hnode))))))
  case littleDirty =>
    intro s r hc hr hbulk hok hanswered hsent hall hdirty
    exact next_run_eq hc ((Mach.rowRelocationCopyDone_of_copied hr hbulk hok hanswered hsent hall).trans (if_pos hdirty))
  case muchDirty =>
    intro s r hc hr hbulk hok hanswered hsent hall hdirty
    exact next_run_eq hc
      ((Mach.rowRelocationCopyDone_of_copied hr hbulk hok hanswered hsent hall).trans (if_neg (Nat.not_le.mpr hdirty)))
  case finalPass =>
    intro s r hc hr hfinal hok hanswered hsent
    exact next_run_eq hc
      ((Mach.rowRelocationFinalPassDone_of_copied hr hfinal hok hanswered hsent).trans (Mach.relocEnd_forwarded hr))
  case holdBound =>
    intro s hc hfinal
    exact next_run_eq hc (if_pos hfinal)

end Sys2Proof.Machine
end

section
/-! ATOMIC, PUBLISH and COLLECTIVE on their own device, and the frames that serve them (06_ridgeline_memory.md R175-R183, R193-R195;
13_acting_as_one.md R370; 14_cairn.md R391). -/

namespace Sys2Proof.Machine

/-! ## ATOMIC and PUBLISH (R177, R183) -/

theorem eq_ok_of_toOption_eq_some {ε α : Type} {x : Except ε α} {a : α} (h : x.toOption = some a) : x = .ok a := by
  cases x with
  | error e => cases h
  | ok b => exact congrArg Except.ok (Option.some.inj h)

/-- An ATOMIC without a result, its operands in the descriptor, on a LOCAL word that no host holds: applied at the word's home, and
done (R177). -/
theorem Mach.rowAtomic_of_local {m m1 m2 : Mach} {slot dpa span old : Nat} {c : Cmd} (hcmd : m.cmd? slot = some c)
    (hop : descOp c.desc = 0x42) (hdone : c.done = false) (hast : m.astOk c.queue (fld c.desc 16 2) = true)
    (hok : atomicOk c.desc = true) (hnoresult : bit (fld c.desc 19 1) 0 = true) (hnarrow : fld c.desc 18 1 ≠ 0x24)
    (hlocal : m.xlate (slotDie slot) engOther (fld c.desc 16 2) (fld c.desc 24 8) .atomic = (.local dpa span, m1))
    (hfree : m1.recall dpa (atomicWidth (fld c.desc 18 1)) true = none)
    (hold : m1.atomicAt (m1.homeOf dpa) dpa (fld c.desc 18 1)
      (fld (leBytes 16 (fld c.desc 40 8) ++ leBytes 16 (fld c.desc 48 8)) 0 16)
      (fld (leBytes 16 (fld c.desc 40 8) ++ leBytes 16 (fld c.desc 48 8)) 16 16) (.cmd slot) = (.ok old, m2)) :
    m.rowAtomic slot = m2.finish slot 0 0 := by
  have hops : m1.atomicOperands slot c.desc = (.ok (leBytes 16 (fld c.desc 40 8) ++ leBytes 16 (fld c.desc 48 8)), m1) :=
    if_neg hnarrow
  have hready : m1.atomicReady slot c.desc = (.ok [], m1) := if_pos hnoresult
  simp [Mach.rowAtomic, hcmd, hop, hdone, hast, hok, hlocal, hops, hready, hfree, hold, Mach.atomicResult, hnoresult]

/-- A PUBLISH without a channel yet, its fields valid, its source LOCAL and its destination of replica sets: it asks for one. -/
theorem Mach.rowPublish_of_ready {m m1 m2 : Mach} {slot : Nat} {c : Cmd} {bs cs : List Byte} (hcmd : m.cmd? slot = some c)
    (hop : descOp c.desc = 0x43) (hdone : c.done = false) (hast : m.astOk c.queue (fld c.desc 16 2) = true)
    (hok : publishOk c.desc = true) (hchan : m.chanOf slot = none)
    (hread : m.localReady (slotDie slot) engOther (fld c.desc 16 2) (fld c.desc 24 8) (fld c.desc 40 8) .read = (.ok bs, m1))
    (hmember : Mach.memberRange (fld c.desc 40 8 / 65536 + 4) m1 (slotDie slot) (fld c.desc 16 2) (fld c.desc 32 8)
      (fld c.desc 40 8) = (.ok cs, m2)) : m.rowPublish slot = m2.askChan slot 0xFF := by
  simp [Mach.rowPublish, hcmd, hop, hdone, hast, hok, hchan, hread, hmember]

/-! ## COLLECTIVE (R194, R195, R370) -/

/-- A COLLECTIVE in which every member's data is a source, of a group of p members that is READY, and that nothing keeps from
starting: its fields and its AST valid, and no COLLECTIVE running. -/
structure Mach.CollStarts (m : Mach) (slot p : Nat) (c : Cmd) : Prop where
  cmd : m.cmd? slot = some c
  op : descOp c.desc = 0x60
  unfinished : c.done = false
  idle : m.hall.colls = []
  ast : m.astOk c.queue (fld c.desc 16 2) = true
  group : fld c.desc 22 2 < 1024
  members : (m.groupMembers (fld c.desc 22 2)).length = p
  member : (m.ownBlock (fld c.desc 22 2)).isSome = true
  fields : collFail c.desc p = 0
  ready : m.reg 0x4510 0x0A (fld c.desc 22 2) = 1
  kind : fld c.desc 18 1 ≠ 3

/-- Such a COLLECTIVE whose destination can be written and whose source has been read: a group of one copies, a larger one begins once
there is a TAG. -/
theorem Mach.rowCollective_of_starts {m m1 m2 : Mach} {slot p : Nat} {c : Cmd} {bs src : List Byte} (h : m.CollStarts slot p c)
    (hwrite : m.localReady (slotDie slot) engOther (fld c.desc 16 2) (fld c.desc 32 8) (collSpans c.desc p).2 .write = (.ok bs, m1))
    (hread : m1.loadLocal slot (slotDie slot) engOther (fld c.desc 16 2) (fld c.desc 24 8) (collSpans c.desc p).1 = (.ok src, m2)) :
    m.rowCollective slot =
      if p = 1 then (m2.storeDva slot engOther (fld c.desc 16 2) (fld c.desc 32 8) src).finish slot 0 0
      else (m2.newTag (slotDie slot) false).elim m2 fun tag => m2.collBegin slot (fld c.desc 22 2) tag c.desc src := by
  obtain ⟨hcmd, hop, hdone, hidle, hast, hgroup, hmembers, hmember, hfields, hready, hkind⟩ := h
  simp [Mach.rowCollective, hcmd, hop, hdone, hidle, hast, Nat.not_le.mpr hgroup, Option.isSome_iff_ne_none.mp hmember, hmembers,
    hfields, hready, hkind, hwrite, hread]
  cases m2.newTag (slotDie slot) false <;> rfl

/-- A COLL frame of the group's epoch that passes the key check joins the group's running COLLECTIVE (R195). -/
theorem Mach.rowFrameColl_of_running {m m1 : Mach} {f : RFrame} {c : Coll} (hop : f.opcode = opColl) (hform : RFrameFormOk f = true)
    (hkey : m.keyCheck f = (0, m1)) (hepoch : bits (f.word 5) 23 16 = m1.reg 0x4510 9 (f.word 5 % 65536))
    (hmember : (m1.ownBlock (f.word 5 % 65536)).isSome = true)
    (hcoll : m1.hall.colls.find? (·.group == f.word 5 % 65536) = some c) (port : Nat) :
    m.rowFrameColl port f = (m1.takeArrived port f).collWork { c with inbox := c.inbox ++
      [⟨bits (f.word 5) 33 32, bits (f.word 5) 31 24, bits (f.word 7) 51 36, f.word 7 % 2 ^ 36,
        elemsOf (c.wire (bits (f.word 5) 33 32)) (f.nbytes / c.wire (bits (f.word 5) 33 32)) f.payload⟩] } := by
  simp [Mach.rowFrameColl, hop, hform, hkey, hepoch, Option.isSome_iff_ne_none.mp hmember, hcoll]

/-- Settles O30: a command is its row's one case that its checks, its ranges and its data leave; a frame is served or ends its relay by
its form. -/
theorem acrossDevices : Obligations.AcrossDevices := by
  refine ⟨?atomic, ?publish, ?alone, ?member, ?coll, ?mgmtReq, ?mgmtRsp⟩
  case atomic =>
    intro s slot c dpa span old m1 m2 hc hcmd hop hdone hast hok hnoresult hnarrow hlocal hm1 hfree hold hm2
    exact next_run_eq hc (Mach.rowAtomic_of_local hcmd hop hdone hast hok hnoresult hnarrow (Prod.ext hlocal hm1.symm) hfree
      (Prod.ext (eq_ok_of_toOption_eq_some hold) hm2.symm))
  case publish =>
    intro s slot c bs cs m1 m2 hc hcmd hop hdone hast hok hchan hread hm1 hmember hm2
    exact next_run_eq hc (Mach.rowPublish_of_ready hcmd hop hdone hast hok hchan (Prod.ext hread hm1.symm)
      (Prod.ext hmember hm2.symm))
  case alone =>
    intro s slot c bs src m1 m2 hc hcmd hop hdone hidle hast hgroup hmembers hown hfields hready hkind hwrite hm1 hread hm2
    have hstarts : s.m.CollStarts slot 1 c :=
      ⟨hcmd, hop, hdone, hidle, hast, hgroup, by simp [hmembers], by simp [hown], hfields, hready, hkind⟩
    exact next_run_eq hc ((Mach.rowCollective_of_starts hstarts (Prod.ext hwrite hm1.symm) (Prod.ext hread hm2.symm)).trans
      (if_pos rfl))
  case member =>
    intro s slot p tag c bs src m1 m2 hc hcmd hop hdone hidle hast hgroup hmembers hmany hown hfields hready hkind hwrite hm1 hread hm2
      htag
    have hstarts : s.m.CollStarts slot p c :=
      ⟨hcmd, hop, hdone, hidle, hast, hgroup, hmembers, hown, hfields, hready, hkind⟩
    exact next_run_eq hc ((Mach.rowCollective_of_starts hstarts (Prod.ext hwrite hm1.symm) (Prod.ext hread hm2.symm)).trans
      ((if_neg hmany.ne').trans (by rw [htag]; rfl)))
  case coll =>
    intro s port f c m1 hc hop hform hkey hm1 hepoch hmember hcoll
    exact next_run_eq hc (Mach.rowFrameColl_of_running hop hform (Prod.ext hkey hm1.symm) hepoch hmember hcoll port)
  case mgmtReq =>
    intro s port f n k hc hform
    have hformed : ¬(!mgmtFormOk f 0xE0 2) = true := by simp [hform]
    exact next_run_eq hc ((if_neg hformed).trans (if_pos rfl))
  case mgmtRsp =>
    intro s port address txn f r hc hform hreq hpurpose
    exact next_run_eq hc (by simp [Mach.rowFrameMgmtRsp, hform, hreq, hpurpose])

end Sys2Proof.Machine
end

section
/-! Control of a queue, its fetches and its re-reads of CQ_HEAD (07_command_queues.md R204-R210). -/

namespace Sys2Proof.Machine

/-! ## Control -/

/-- QUEUE_ENABLE of a queue whose pointer block no host's copy is in the way of: the write itself (R204). -/
theorem Mach.rowQueueEnable_of_unheld {m : Mach} {w : Src}
    (h : m.recall (m.reg 0x5401 0x0A (m.rowOf w.q 0x5401 0x0F)) 24 true = none) :
    m.rowQueueEnable w = m.dictWrite w 0x5401 0x0F fun n =>
      if n.qState (m.rowOf w.q 0x5401 0x0F) ≠ 0 then .error abBusy
      else if !n.ringsOk (m.rowOf w.q 0x5401 0x0F) then .error abRange
      else .ok ((n.setReg 0x5401 0x0F (m.rowOf w.q 0x5401 0x0F) 1).startQueue (m.rowOf w.q 0x5401 0x0F)) := by
  simp only [Mach.rowQueueEnable, h, ite_self]

/-! ## Heads -/

/-- A queue none of whose heads failed its checks has none to end (R210). -/
theorem Mach.endFailed_of_noFailed {m : Mach} {q : Nat} (h : (m.queue q).heads.find? (·.fail.isSome) = none) (fuel : Nat) :
    Mach.endFailed fuel m q = m := by
  cases fuel with
  | zero => rfl
  | succ fuel => simp only [Mach.endFailed, h]

/-- A queue without heads that runs, its die taking commands and a descriptor posted, no host's copy in the way of the descriptor or
of SQ_HEAD: the descriptor read becomes a head with what its header's checks gave (R206, R210). -/
theorem Mach.rowDescriptorFetchDone_of_read {m m2 : Mach} {q : Nat} {d : List Byte} (hheads : (m.queue q).heads = [])
    (hrun : m.qState q = 1) (htakes : m.dieTakes (queueDie q) = true) (hposted : (m.queue q).sqHead ≠ (m.queue q).tail)
    (hring : m.recall (m.reg 0x5401 6 q + 64 * (m.queue q).sqHead) 64 false = none)
    (hblock : m.recall (m.reg 0x5401 0x0A q) 4 true = none)
    (hread : m.loadDpa (queueDie q) (m.reg 0x5401 6 q + 64 * (m.queue q).sqHead) 64 = (.ok d, m2)) :
    m.rowDescriptorFetchDone q = Mach.endFailed 65536 ((m2.setQueue q { m2.queue q with
      sqHead := ((m.queue q).sqHead + 1) % m2.sqSize q
      heads := (m2.queue q).heads ++ [⟨(m.queue q).sqHead, d, m2.now, !descFlag d 0 || m2.reached (fld d 2 2) (fld d 4 4),
        m2.headerFail q d⟩] }).writeSqHead q) q := by
  have hnone : Mach.endFailed 65536 m q = m := Mach.endFailed_of_noFailed (by rw [hheads, List.find?_nil]) 65536
  have hfetches : ¬(m.qState q ≠ 1 ∨ (!m.dieTakes (queueDie q)) = true ∨ (m.queue q).sqHead = (m.queue q).tail) := by
    simp [hrun, htakes, hposted]
  simp only [Mach.rowDescriptorFetchDone, hnone, if_neg hfetches, hring, hblock, Option.orElse_none, hread]

/-- CQ_HEAD read by a RUNNING queue and in range of the records not taken: it is the queue's (R208). -/
theorem Mach.readCqHead_of_inRange {m m2 : Mach} {q : Nat} {bs : List Byte} (hrun : m.qState q = 1)
    (hfree : m.recall (m.reg 0x5401 0x0A q + 8) 4 false = none)
    (hread : m.loadDpa (queueDie q) (m.reg 0x5401 0x0A q + 8) 4 = (.ok bs, m2)) (hring : leNat bs < m2.cqSize q)
    (htaken : ((m2.queue q).cqTail + m2.cqSize q - leNat bs) % m2.cqSize q ≤
      ((m2.queue q).cqTail + m2.cqSize q - (m2.queue q).cqHead) % m2.cqSize q) :
    m.readCqHead q = m2.setQueue q { m2.queue q with cqHead := leNat bs } := by
  have hreads : ¬(m.qState q ≠ 1 ∧ m.qState q ≠ 2) := not_and_of_not_left _ (not_not.mpr hrun)
  simp only [Mach.readCqHead, if_neg hreads, hfree, hread, if_pos (And.intro hring htaken)]

/-- Settles O26: each write passes its entry's own rule by the queue's state (`dictWrite_ok`); a fetch and a re-read of CQ_HEAD find
no host's copy in their way. -/
theorem queueControl : Obligations.QueueControl := by
  refine ⟨?enable, ?disable, ?stop, ?restart, ?doorbell, ?fetch, ?cqHead⟩
  case enable =>
    intro s w q hc hadm hrow _ hfree hdisabled hrings
    subst hrow
    have hringed : ¬(!s.m.heard.ringsOk (s.m.rowOf w.q 0x5401 0x0F)) = true := by simp [hrings]
    exact next_run_eq hc ((Mach.rowQueueEnable_of_unheld hfree).trans
      (dictWrite_ok hadm ((if_neg (not_not.mpr hdisabled)).trans (if_neg hringed))))
  case disable =>
    intro s w q hc hadm hrow hrun hidle
    subst hrow
    exact next_run_eq hc (dictWrite_ok hadm (by simp [hrun, hidle]))
  case stop =>
    intro s w q hc hadm hown hq hrun
    exact next_run_eq hc (dictWrite_ok hadm (by simp [hown, hq, hrun]))
  case restart =>
    intro s w q hc hadm hown hq hstate hgranted
    exact next_run_eq hc (dictWrite_ok hadm (by simp [hown, hq, hstate, hgranted]))
  case doorbell =>
    intro s w v hc hadm hv hq hactive
    have hinRange : ¬(v / 2 ^ 28 ≠ 0 ∨ 512 * s.m.heard.dies ≤ bits v 27 16) :=
      not_or.mpr ⟨not_not.mpr (Nat.div_eq_of_lt hv), Nat.not_le.mpr hq⟩
    exact next_run_eq hc (dictWrite_ok hadm ((if_neg hinRange).trans (if_neg (not_not.mpr hactive))))
  case fetch =>
    intro s q d m2 hc hheads hrun htakes hposted hring hblock hread hm2
    exact next_run_eq hc (Mach.rowDescriptorFetchDone_of_read hheads hrun htakes hposted hring hblock (Prod.ext hread hm2.symm))
  case cqHead =>
    intro s q bs m2 hc hrun hfree hread hm2 hring htaken
    have htake : s.m.rowCqHeadReadDone q = Mach.endFailed 65536 (m2.setQueue q { m2.queue q with cqHead := leNat bs }) q :=
      congrArg (Mach.endFailed 65536 · q) (Mach.readCqHead_of_inRange hrun hfree (Prod.ext hread hm2.symm) hring htaken)
    exact ⟨next_run_eq hc htake, next_run_eq hc htake⟩

end Sys2Proof.Machine
end

section
/-! The life of a command: its admission, its flush reads, its end and its time bound (07_command_queues.md R212, R216, R218, R254;
12_visibility.md R331-R333). -/

namespace Sys2Proof.Machine

/-- A flush read of a command that it waits for ends: one less to wait for, and BUSERR noted where it failed (R332). -/
theorem Mach.rowHostFlushReadDone_of_awaited {m : Mach} {slot path : Nat} {c : Cmd} (hcmd : m.cmd? slot = some c)
    (hout : c.flushOut.contains path = true) (ok : Bool) :
    m.rowHostFlushReadDone slot path ok =
      if ok then m.setCmd slot { c with flushOut := c.flushOut.erase path }
      else (m.setCmd slot { c with flushOut := c.flushOut.erase path }).noteFail slot stBusErr := by
  simp only [Mach.rowHostFlushReadDone, hcmd, hout, Bool.not_true, Bool.false_eq_true, if_false]

/-- A command with nothing left to wait for: its crags settled, its writes visible, its host and fabric writes answered and no
migration of it running (R331, R332). -/
structure Mach.CmdSettled (m : Mach) (slot : Nat) (c : Cmd) : Prop where
  cmd : m.cmd? slot = some c
  crags : m.cragsSettled slot = true
  visible : m.writesPending slot = false
  flushed : c.flushOut = []
  answered : c.fabricOut = 0
  migrated : (m.xl.migrations.any (·.slot == slot)) = false

/-- A command whose work is done and that is settled once its crags are stopped and its flush reads sent: with the index lock
released and its record free to be written it is counted, its engines released and its record written (R300, R333). -/
theorem Mach.rowCommandEnd_of_settled {m m2 : Mach} {slot : Nat} {c : Cmd} (hcmd : m.cmd? slot = some c) (hdone : c.done = true)
    (hdests : c.fabricDests = []) (h : ((m.stopCrags slot).sendFlushes slot).CmdSettled slot c)
    (hlock : ((m.stopCrags slot).sendFlushes slot).releaseLock slot = (true, m2)) (hrecord : m2.recordBlocked c.queue = none) :
    m.rowCommandEnd slot = ((((endedCounter (descOp c.desc)).elim m2 fun e => m2.bump e.1 e.2).enginesGone slot).endSlot
      slot).teardownCheck := by
  obtain ⟨hcmd', hcrags, hvisible, hflushed, hanswered, hmigrated⟩ := h
  simp only [Mach.rowCommandEnd, hcmd, hdone, hdests, hcmd', hcrags, hvisible, hflushed, hanswered, hmigrated, hlock, hrecord,
    Bool.not_true, Bool.false_eq_true, ne_eq, not_true_eq_false, false_and, or_self, if_false]
  cases endedCounter (descOp c.desc) <;> rfl

/-- A running SEARCH, no work of Talus on its slot, passes its time bound: it ends with TIMEOUT (R254). -/
theorem Mach.rowCommandTimeBoundExpiry_of_search {m : Mach} {slot : Nat} {c : Cmd} (hcmd : m.cmd? slot = some c)
    (hdone : c.done = false) (hop : descOp c.desc = 0x20) (hbound : m.timeBound c.desc ≠ 0) (htalus : m.talus? slot = none) :
    m.rowCommandTimeBoundExpiry slot = m.failCmd slot stTimeout := by
  simp [Mach.rowCommandTimeBoundExpiry, hcmd, hdone, hop, hbound, htalus]

/-- Settles O27: an admission passes the checks of the die, of confidential mode and of the ENG domain; the other events find the
command or the queue in the state that they end. -/
theorem commandLife : Obligations.CommandLife := by
  refine ⟨?admission, ?flushed, ?flushFailed, ?ended, ?coalesced, ?timeBound⟩
  case admission =>
    intro s die q k h m1 hc hm1 htakes hready hchoose hslot hconf hengine hbarred
    have hadmits : ¬((!m1.dieTakes die) = true ∨ m1.reg 0x2200 3 0 ≠ 1) := by simp [htakes, hready]
    have htenant : ¬(m1.confState ≠ 0 ∧ m1.confState ≠ 3 ∧ m1.qOwner q ≠ m1.tenant) :=
      not_and_of_not_left _ (not_not.mpr hconf)
    exact next_run_eq hc (by
      simp only [Mach.rowCommandAdmit, ← hm1, if_neg hadmits, hchoose, hslot, if_neg htenant, hbarred, hengine, Bool.false_and,
        Bool.false_eq_true, if_false])
  case flushed =>
    intro s slot path c hc hcmd hout
    exact next_run_eq hc (Mach.rowHostFlushReadDone_of_awaited hcmd hout true)
  case flushFailed =>
    intro s slot path c hc hcmd hout
    exact next_run_eq hc (Mach.rowHostFlushReadDone_of_awaited hcmd hout false)
  case ended =>
    intro s slot c m1 m2 hc hcmd hdone hdests hm1 hcrags hvisible hcmd' hflushed hanswered hmigrated hlock hm2 hrecord
    subst hm1
    refine next_run_eq hc ((Mach.rowCommandEnd_of_settled hcmd hdone hdests
      ⟨hcmd', hcrags, hvisible, hflushed, hanswered, hmigrated⟩ (Prod.ext hlock hm2.symm) hrecord).trans ?_)
    cases endedCounter (descOp c.desc) <;> rfl
  case coalesced =>
    intro s q hc hheld
    exact next_run_eq hc (by simp only [Mach.rowCoalescingExpiry, hheld, Bool.not_true, Bool.false_eq_true, if_false])
  case timeBound =>
    intro s slot c hc hcmd hdone hop hbound htalus
    exact next_run_eq hc (Mach.rowCommandTimeBoundExpiry_of_search hcmd hdone hop hbound htalus)

end Sys2Proof.Machine
end

section
/-! Events, SIGNAL and WAIT (07_command_queues.md R214-R218) and FENCE (12_visibility.md R336-R339). -/

namespace Sys2Proof.Machine

/-! ## SIGNAL and WAIT -/

/-- A SIGNAL of a valid form on an event that its queue may name sets the event or adds to it, and is done (R217). -/
theorem Mach.rowSignal_of_valid {m : Mach} {slot : Nat} {c : Cmd} (hcmd : m.cmd? slot = some c) (hop : descOp c.desc = 0x51)
    (hdone : c.done = false) (hevent : m.eventOk (m.qOwner c.queue) (fld c.desc 16 2) = true) (hkind : fld c.desc 18 1 ≤ 1)
    (hmode : fld c.desc 19 1 = 0) (hzero : allZero (slice c.desc 24 40) = true) :
    m.rowSignal slot = (m.setEvent (fld c.desc 16 2) (if fld c.desc 18 1 = 1 then fld c.desc 20 4
      else m.eventCount (fld c.desc 16 2) + fld c.desc 20 4)).finish slot 0 0 := by
  have hopen : ¬(descOp c.desc ≠ 0x51 ∨ c.done = true) := by simp [hop, hdone]
  have hformed : ¬(1 < fld c.desc 18 1 ∨ fld c.desc 19 1 ≠ 0 ∨ (!allZero (slice c.desc 24 40)) = true) := by
    simp [Nat.not_lt.mpr hkind, hmode, hzero]
  simp only [Mach.rowSignal, hcmd, if_neg hopen, hevent, if_neg hformed, Bool.not_true, Bool.false_eq_true, if_false]

/-- A WAIT of kind EVENT whose event is reached is done (R218). -/
theorem Mach.rowWaitEvent_of_reached {m : Mach} {slot : Nat} {c : Cmd} (hcmd : m.cmd? slot = some c) (hop : descOp c.desc = 0x52)
    (hkind : fld c.desc 18 1 ≠ 1) (hdone : c.done = false) (hform : m.waitFail c = 0)
    (hreached : m.reached (fld c.desc 24 2) (fld c.desc 32 4) = true) : m.rowWaitEvent slot = m.finish slot 0 0 := by
  have hopen : ¬(descOp c.desc ≠ 0x52 ∨ fld c.desc 18 1 = 1 ∨ c.done = true) := by simp [hop, hkind, hdone]
  simp only [Mach.rowWaitEvent, hcmd, if_neg hopen, if_neg (not_not.mpr hform), if_pos hreached]

/-- A WAIT of kind MEMORY just admitted reads its word (R218). -/
theorem Mach.rowWaitMemory_of_new {m : Mach} {slot : Nat} {c : Cmd} (hcmd : m.cmd? slot = some c) (hop : descOp c.desc = 0x52)
    (hkind : fld c.desc 18 1 = 1) (hdone : c.done = false) (hnew : c.started = false) (hform : m.waitFail c = 0) :
    m.rowWaitMemory slot = m.pollWait slot c := by
  have hopen : ¬(descOp c.desc ≠ 0x52 ∨ fld c.desc 18 1 ≠ 1 ∨ c.done = true ∨ c.started = true) := by
    simp [hop, hkind, hdone, hnew]
  simp only [Mach.rowWaitMemory, hcmd, if_neg hopen, if_neg (not_not.mpr hform)]

/-- The word of a MEMORY wait, LOCAL and read, for which the condition holds: the wait is done. -/
theorem Mach.pollWait_of_holds {m m1 m2 : Mach} {slot dpa span : Nat} {c : Cmd} {bs : List Byte}
    (hlocal : m.xlate (slotDie slot) engOther (fld c.desc 16 2) (fld c.desc 24 8) .read = (.local dpa span, m1))
    (hread : m1.loadDva slot engOther (fld c.desc 16 2) (fld c.desc 24 8) 8 = (.ok bs, m2))
    (hholds : waitHolds c.desc (leNat bs) = true) :
    m.pollWait slot c =
      ({ m2 with xl := { m2.xl with fetches := m2.xl.fetches.filter fun f => f.slot ≠ slot } } : Mach).finish slot 0 0 := by
  simp only [Mach.pollWait, hlocal, hread, if_pos hholds]

/-! ## FENCE -/

/-- A running FENCE of a kind of Table 12-2, its form valid: what its kind does (R336). -/
theorem Mach.fenceOf_of_kind {m : Mach} {slot kind : Nat} {c : Cmd} (hcmd : m.cmd? slot = some c) (hop : descOp c.desc = 0x50)
    (hdone : c.done = false) (hkind : fld c.desc 18 1 = kind) (hknown : kind ≤ 2) (hform : m.fenceFail c = 0)
    (go : Mach → Cmd → Mach) : m.fenceOf slot kind go = go m c := by
  subst hkind
  have hopen : ¬(descOp c.desc ≠ 0x50 ∨ c.done = true) := by simp [hop, hdone]
  simp only [Mach.fenceOf, hcmd, if_neg hopen, if_neg (Nat.not_lt.mpr hknown), ne_eq, not_true_eq_false, if_false,
    if_neg (not_not.mpr hform)]

/-- Settles O28: a SIGNAL and a WAIT pass their forms' checks, and the three kinds of FENCE share theirs (`fenceOf_of_kind`). -/
theorem eventsAndFences : Obligations.EventsAndFences := by
  refine ⟨?count, ?signal, ?waitEvent, ?waitMemory, ?poll, ?timeout, ?fenceQueue, ?fenceAcquire, ?fenceOwner, ?fenceTimeout⟩
  case count =>
    intro s w v hc hadm
    exact next_run_eq hc (dictWrite_ok hadm rfl)
  case signal =>
    intro s slot c hc hcmd hop hdone hevent hkind hmode hzero
    exact next_run_eq hc (Mach.rowSignal_of_valid hcmd hop hdone hevent hkind hmode hzero)
  case waitEvent =>
    intro s slot c hc hcmd hop hkind hdone hform hreached
    exact next_run_eq hc (Mach.rowWaitEvent_of_reached hcmd hop hkind hdone hform hreached)
  case waitMemory =>
    intro s slot c dpa span bs m1 m2 hc hcmd hop hkind hdone hnew hform hlocal hm1 hread hm2 hholds
    exact next_run_eq hc ((Mach.rowWaitMemory_of_new hcmd hop hkind hdone hnew hform).trans
      (Mach.pollWait_of_holds (Prod.ext hlocal hm1.symm) (Prod.ext hread hm2.symm) hholds))
  case poll =>
    intro s slot c hc hcmd hmemory hdone hstarted
    exact next_run_eq hc (by simp [Mach.rowWaitPollExpiry, hcmd, hmemory, hdone, hstarted])
  case timeout =>
    intro s slot c hc hcmd hop htimeout hdone
    exact next_run_eq hc (by simp [Mach.rowWaitTimeout, hcmd, hop, htimeout, hdone])
  case fenceQueue =>
    intro s slot c hc hcmd hop hkind hdone hform
    exact next_run_eq hc (Mach.fenceOf_of_kind hcmd hop hdone hkind (by decide) hform _)
  case fenceAcquire =>
    intro s slot c hc hcmd hop hkind hdone hform hsets hfree hset
    refine next_run_eq hc ((Mach.fenceOf_of_kind hcmd hop hdone hkind (by decide) hform _).trans ?_)
    simp only [hfree, hsets, List.map_nil, hset, List.filter_nil, List.length_nil, Nat.add_zero]
  case fenceOwner =>
    intro s slot c hc hcmd hop hkind hdone hform hnone
    exact next_run_eq hc ((Mach.fenceOf_of_kind hcmd hop hdone hkind (by decide) hform _).trans (if_pos hnone))
  case fenceTimeout =>
    intro s slot c hc hcmd hop hkind hdone hform hwaits
    exact next_run_eq hc ((Mach.fenceOf_of_kind hcmd hop hdone hkind (by decide) hform _).trans (if_neg hwaits))

end Sys2Proof.Machine
end

section
/-! The arbiters of the scratchpad banks (07_command_queues.md R220-R224). -/

namespace Sys2Proof.Machine

/-- A waiting request of an input, not reported yet, passes the report level: the wait is kept where it is the greatest, and
reported (R223). -/
theorem Mach.rowStarvationReport_of_waiting {m : Mach} {die crag bank input : Nat}
    (hfirst : (m.bank (bankKey die crag bank)).starved = false)
    (hwaits : ((m.bank (bankKey die crag bank)).parked ++ (m.bank (bankKey die crag bank)).stalled ++
      (m.bank (bankKey die crag bank)).backing).any (·.input == input) = true) :
    m.rowStarvationReport die crag bank input =
      ((((m.fresh (2 ^ 32)).2.setReg 0x7070 9 0 (max (m.fresh (2 ^ 32)).1 ((m.fresh (2 ^ 32)).2.reg 0x7070 9 0))).tracePass
        (bankKey die crag bank) input 2).setBank (bankKey die crag bank)
          { m.bank (bankKey die crag bank) with starved := true }).notice 0x8072
        [byteOf die, byteOf crag, byteOf bank, byteOf input] := by
  simp only [Mach.rowStarvationReport, hfirst, hwaits, Bool.not_true, Bool.false_eq_true, or_self, if_false]

/-- Settles O29: each interval finds the request, the holder or the reset whose time it is. -/
theorem bankArbiters : Obligations.BankArbiters := by
  refine ⟨?backoff, ?starved, ?bitten, ?reset⟩
  case backoff =>
    intro s die crag bank input r hc hfind
    exact next_run_eq hc (by simp only [Mach.rowPassBackoffExpiry, hfind])
  case starved =>
    intro s die crag bank input hc hfirst hwaits
    exact next_run_eq hc (Mach.rowStarvationReport_of_waiting hfirst hwaits)
  case bitten =>
    intro s die crag bank h hc hholds
    exact next_run_eq hc (by simp only [Mach.rowBankWatchdogBite, hholds])
  case reset =>
    intro s die crag bank hc hresets
    exact next_run_eq hc (by simp only [Mach.rowBankResetDone, hresets, Bool.not_true, Bool.false_eq_true, if_false])

end Sys2Proof.Machine
end

section
/-! Tile instructions: what a crag issues, and what completes of it (08_crag_arrays.md R233-R240, R243, R247, R248). -/

namespace Sys2Proof.Machine

/-! ## Issue (R236) -/

section
variable {m : Mach} {op die n : Nat} {i : TileInstr}

/-- A synchronous instruction that issues and does not fault: the crag is what the instruction makes of it. -/
theorem Mach.issueSync_of_ok {f : Crag → TileInstr → Except Nat Crag} {c : Crag} (h : m.issues op die n i = true)
    (hf : f (m.crag (cragKey die n)) i = .ok c) : m.issueSync op die n f = m.setCrag (cragKey die n) c := by
  simp only [Mach.issueSync, issue_ok h, hf]

theorem Mach.issueScalar_of_issues {f : Nat → Nat → Nat} (h : m.issues op die n i = true) :
    m.issueScalar op die n f = m.setCrag (cragKey die n) ((m.crag (cragKey die n)).setS i.d
      (f ((m.crag (cragKey die n)).s i.ra) (i.op2 (m.crag (cragKey die n))))).stepPc :=
  Mach.issueSync_of_ok h rfl

theorem Mach.issueVector_of_issues {f : Nat → Nat → Nat → Nat} (h : m.issues op die n i = true) :
    m.issueVector op die n f = m.vectorOut (cragKey die n) (m.crag (cragKey die n)) i.vd ((List.range 64).map fun x =>
      f (lane ((m.crag (cragKey die n)).v i.va) x) (lane ((m.crag (cragKey die n)).v i.vb) x)
        (lane ((m.crag (cragKey die n)).v i.vc) x)) :=
  issue_ok h

/-- An asynchronous instruction that issues and whose operands break no rule: in flight, its banks asked for (R237, R229). -/
theorem Mach.issueAsync_of_allowed {sx sy sz : TileInstr → Crag → Nat} (h : m.issues op die n i = true)
    (hok : asyncFault i (sx i (m.crag (cragKey die n))) (sy i (m.crag (cragKey die n))) = none) :
    m.issueAsync op die n sx sy sz =
      let c := m.crag (cragKey die n)
      let o : AsyncOp := ⟨op, i.a, i.b, i.c, if i.s then some i.tok else none, sx i c, sy i c, sz i c, c.pc⟩
      ((asyncTraffic o).foldl (fun x t => (spanBanks t.2.1 t.2.2).foldl (fun x b =>
        x.presentBank (bankKey die n b) ⟨t.1, min 64 (ceilDiv t.2.2 64), 0, c.slot.getD 0⟩) x) m).setCrag (cragKey die n)
        ({ c with asyncs := c.asyncs ++ [o] } : Crag).stepPc := by
  simp only [Mach.issueAsync, issue_ok h, hok]

end

/-! ## Control instructions (R240, R244) -/

/-- The iterations that a LOOP asks for: its immediate, or the low half of s[a]. -/
def TileInstr.loopCount (i : TileInstr) (c : Crag) : Nat := if bit i.a 16 then i.b else c.s i.ra % 2 ^ 32

/-- A LOOP whose last index lies after it in the program, with room on the stack inside the loop that it stands in: skipped at count 0,
entered otherwise (R240). -/
theorem Mach.rowLoop_of_room {m : Mach} {die n : Nat} {i : TileInstr} (h : m.issues 0x04 die n i = true)
    (hafter : (m.crag (cragKey die n)).pc < i.c % 4096) (hlast : 16 * (i.c % 4096) < (m.crag (cragKey die n)).prog.length)
    (hroom : ¬(4 ≤ (m.crag (cragKey die n)).loops.length ∨
      ((m.crag (cragKey die n)).loops.head?.any fun l => decide (l.last < i.c % 4096)) = true)) :
    m.rowLoop die n =
      let c := m.crag (cragKey die n)
      m.setCrag (cragKey die n) (if i.loopCount c = 0 then ({ c with pc := i.c % 4096 } : Crag).stepPc
        else { c with pc := c.pc + 1, loops := ⟨c.pc + 1, i.c % 4096, i.loopCount c⟩ :: c.loops }) := by
  have hbody : ¬(i.c % 4096 ≤ (m.crag (cragKey die n)).pc ∨ (m.crag (cragKey die n)).prog.length ≤ 16 * (i.c % 4096)) :=
    not_or.mpr ⟨Nat.not_le.mpr hafter, Nat.not_le.mpr hlast⟩
  exact Mach.issueSync_of_ok h ((if_neg hbody).trans ((if_neg hroom).trans (apply_ite Except.ok ..).symm))

/-- Settles O33: an instruction that issues is its row's operation on the crag (`issue_ok`), and the branch that it takes is named by
what the statement asks. -/
theorem tileControl : Obligations.TileControl := by
  refine ⟨?nop, ?endFree, ?endKernel, ?trap, ?br, ?loop, ?wait⟩
  case nop =>
    intro s die n i hc h
    exact next_run_eq hc (Mach.issueSync_of_ok h rfl)
  case endFree =>
    intro s die n i hc h hidle hfree
    exact next_run_eq hc ((issue_ok h).trans (by simp only [hidle, hfree, List.isEmpty_nil, if_true]))
  case endKernel =>
    intro s die n i k hc h hidle hslot
    exact next_run_eq hc ((issue_ok h).trans (by simp only [hidle, hslot, List.isEmpty_nil, if_true]))
  case trap =>
    intro s die n i hc h
    exact next_run_eq hc (issue_ok h)
  case br =>
    intro s die n i hc h htarget
    exact next_run_eq hc (Mach.issueSync_of_ok h ((if_neg (Nat.not_le.mpr htarget)).trans (apply_ite Except.ok ..).symm))
  case loop =>
    intro s die n i hc h hafter hlast hloops
    exact next_run_eq hc ((Mach.rowLoop_of_room h hafter hlast (by simp [hloops])).trans (by simp only [hloops, TileInstr.loopCount]))
  case wait =>
    intro s die n i hc h hdone
    exact next_run_eq hc (Mach.issueSync_of_ok h (if_neg (by simp [hdone])))

/-! ## Scalar instructions (R237) -/

/-- Settles O34: SMOV and SMOVH change the crag alone, the operations of two operands share one row (`issueScalar_of_issues`), and SLD
and SST have their address. -/
theorem tileScalar : Obligations.TileScalar := by
  refine ⟨?smov, ?smovh, ?sadd, ?ssub, ?smul, ?sand, ?sor, ?sshl, ?sshr, ?sld, ?sst⟩
  case smov | smovh =>
    intro s die n i hc h
    exact next_run_eq hc (Mach.issueSync_of_ok h rfl)
  case sadd | ssub | smul | sand | sor | sshl | sshr =>
    intro s die n i hc h
    exact next_run_eq hc (Mach.issueScalar_of_issues h)
  case sld | sst =>
    intro s die n i a hc h haddr
    exact next_run_eq hc ((issue_ok h).trans (by simp only [haddr]))

/-! ## Vector instructions (R247, R248) -/

/-- Settles O35: the lane-wise instructions share one row (`issueVector_of_issues`); the others are their own row's operation. -/
theorem tileVector : Obligations.TileVector := by
  refine ⟨?vld, ?vst, ?vsplat, ?vadd, ?vsub, ?vmul, ?vfma, ?vmin, ?vmax, ?vdiv, ?vsqrt, ?vexp, ?widen, ?narrow, ?vred, ?vsgn⟩
  case vld | vst =>
    intro s die n i a hc h haddr
    exact next_run_eq hc ((issue_ok h).trans (by simp only [haddr]))
  case vsplat =>
    intro s die n i hc h
    exact next_run_eq hc (Mach.issueSync_of_ok h rfl)
  case vadd | vsub | vmul | vfma | vmin | vmax | vdiv | vsqrt | vsgn =>
    intro s die n i hc h
    exact next_run_eq hc (Mach.issueVector_of_issues h)
  case vexp =>
    intro s die n i v m1 hc h hv hm1
    subst hv hm1
    exact next_run_eq hc (issue_ok h)
  case widen =>
    intro s die n i hc h hdir
    exact next_run_eq hc ((issue_ok h).trans (by simp only [hdir, if_true]))
  case narrow =>
    intro s die n i hc h hdir
    exact next_run_eq hc ((issue_ok h).trans (by simp only [hdir, Bool.false_eq_true, if_false]))
  case vred =>
    intro s die n i hc h
    exact next_run_eq hc (issue_ok h)

/-! ## Asynchronous instructions (R237-R239) -/

/-- A TLOAD that nothing earlier orders before it, its rows read: they are in the scratchpad, and it is over. -/
theorem Mach.rowAsyncComplete_of_tload {m m2 : Mach} {die n idx slot : Nat} {o : AsyncOp} {bs : List Byte}
    (hplace : (m.crag (cragKey die n)).asyncs[idx]? = some o) (hslot : (m.crag (cragKey die n)).slot = some slot)
    (hfirst : ((m.crag (cragKey die n)).asyncs.take idx).any (fun e => asyncBefore e o) = false) (hop : o.op = 0x20)
    (hread : m.loadRows slot die n (((m.cmd? slot).map fun d => fld d.desc 16 2).getD 0) o.x o.y (tLen o.b) (tRows o.b) =
      (.ok bs, m2)) :
    m.rowAsyncComplete die n idx = (m2.setCrag (cragKey die n) ((m2.crag (cragKey die n)).writeRows (o.a % 2 ^ 21) (tStride o.c)
      (tLen o.b) bs (tRows o.b))).asyncOver (cragKey die n) o := by
  simp only [Mach.rowAsyncComplete, hplace, hslot, hfirst, hop, hread, Bool.false_eq_true, if_false, if_true]

/-- Settles O36: the ten instructions issue alike (`issueAsync_of_allowed`), and one that completes does so by its opcode.
The name `tileAsync` is the model's own. -/
theorem tileAsync_holds : Obligations.TileAsync := by
  refine ⟨?tload, ?tloadx, ?tstore, ?tcopy, ?tfill, ?wload, ?mma, ?accz, ?accrd, ?accwr,
    ?tloadDone, ?tcopyDone, ?tfillDone, ?wloadDone, ?mmaDone, ?acczDone, ?accrdDone, ?accwrDone⟩
  case tload | tloadx | tstore | tcopy | tfill | wload | mma | accz | accrd | accwr =>
    intro s die n i hc h hok
    exact next_run_eq hc (Mach.issueAsync_of_allowed h hok)
  case tloadDone =>
    intro s die n idx slot o bs m2 hc hplace hslot hfirst hop hread hm2
    exact next_run_eq hc (Mach.rowAsyncComplete_of_tload hplace hslot hfirst hop (Prod.ext hread hm2.symm))
  case mmaDone =>
    intro s die n idx slot o hc hplace hslot hfirst hop hpair
    exact next_run_eq hc (by simp [Mach.rowAsyncComplete, hplace, hslot, hfirst, hop, hpair])
  case tcopyDone | tfillDone | wloadDone | acczDone | accrdDone | accwrDone =>
    intro s die n idx slot o hc hplace hslot hfirst hop
    exact next_run_eq hc (by simp [Mach.rowAsyncComplete, hplace, hslot, hfirst, hop])

end Sys2Proof.Machine
end

section
/-! The commands of the crags, from their descriptors to their chunks (08_crag_arrays.md R241-R243, R249-R252). -/

namespace Sys2Proof.Machine

/-! ## Descriptors (R241, R249) -/

/-- A KERNEL without crags, its fields valid and its die ACTIVE, asks for its crags (R241, R242). -/
theorem Mach.rowKernel_of_valid {m : Mach} {slot : Nat} {c : Cmd} (hcmd : m.cmd? slot = some c) (hop : descOp c.desc = 0x30)
    (hdone : c.done = false) (hnone : m.hasCrags slot = false) (hast : m.astOk c.queue (fld c.desc 16 2) = true)
    (hok : kernelOk c.desc = true) (hdie : kernelDie slot c.desc < m.dies) (hactive : m.dieActive (kernelDie slot c.desc) = true) :
    m.rowKernel slot = m.askCrags slot (kernelDie slot c.desc) (fld c.desc 19 1) (fld c.desc 18 1) := by
  have hopen : ¬(descOp c.desc ≠ 0x30 ∨ c.done = true ∨ m.hasCrags slot = true) := by simp [hop, hdone, hnone]
  have hvalid : ¬((!kernelOk c.desc) = true ∨ m.dies ≤ kernelDie slot c.desc) := by simp [hok, hdie]
  simp only [Mach.rowKernel, hcmd, if_neg hopen, hast, if_neg hvalid, hactive, Bool.not_true, Bool.false_eq_true, if_false]

/-- An OPTIM not begun, its fields valid. -/
structure Mach.OptimBegins (m : Mach) (slot : Nat) (c : Cmd) : Prop where
  cmd : m.cmd? slot = some c
  op : descOp c.desc = 0x31
  unfinished : c.done = false
  unbegun : (tget m.eng.crag.optims slot).isSome = false
  ast : m.astOk c.queue (fld c.desc 16 2) = true
  fields : optimOk c.desc = true

/-- Such an OPTIM with its three ranges LOCAL and its hyperparameters read and usable: it is begun and asks for its crags (R250). -/
theorem Mach.rowOptim_of_read {m m1 m2 m3 m4 : Mach} {slot : Nat} {c : Cmd} {b1 b2 b3 h : List Byte} (hbegins : m.OptimBegins slot c)
    (hp : m.localReady (slotDie slot) (fld c.desc 21 1) (fld c.desc 16 2) (fld c.desc 24 8) 1 .write = (.ok b1, m1))
    (hg : m1.localReady (slotDie slot) (fld c.desc 21 1) (fld c.desc 16 2) (fld c.desc 32 8) 1 .read = (.ok b2, m2))
    (hst : m2.localReady (slotDie slot) (fld c.desc 21 1) (fld c.desc 16 2) (fld c.desc 40 8) 1 .write = (.ok b3, m3))
    (hh : m3.loadDva slot (fld c.desc 21 1) (fld c.desc 16 2) (fld c.desc 48 8) 64 = (.ok h, m4))
    (hhyper : hyperOk (fld c.desc 18 1) h = true) :
    m.rowOptim slot = ({ m4 with eng := { m4.eng with crag := { m4.eng.crag with
      optims := tput m4.eng.crag.optims slot
        { hyper := h, started := List.range (min (fld c.desc 20 1) (ceilDiv (fld c.desc 56 8) 4096)), written := 0 } } } } :
      Mach).askCrags slot (slotDie slot) (fld c.desc 21 1) (fld c.desc 20 1) := by
  obtain ⟨hcmd, hop, hdone, hnone, hast, hfields⟩ := hbegins
  have hopen : ¬(descOp c.desc ≠ 0x31 ∨ c.done = true ∨ (tget m.eng.crag.optims slot).isSome = true) := by simp [hop, hdone, hnone]
  simp only [Mach.rowOptim, hcmd, if_neg hopen, hast, hfields, optimOf, hp, hg, hst, hh, hhyper, Bool.not_true, Bool.false_eq_true,
    if_false]

/-! ## Crags (R242, R243) -/

/-- A waiting request that may be granted, its command on its slot: the command starts, and a command other than KERNEL takes the crags
for its writes (R267). -/
theorem Mach.rowCragGrant_of_waiting {m : Mach} {slot : Nat} {r : CragReq} {c : Cmd}
    (hwaits : m.eng.crag.reqs.find? (·.slot == slot) = some r) (hmay : m.mayGrant r = true)
    (hcmd : (m.grantCrags r).cmd? slot = some c) :
    m.rowCragGrant slot =
      let n := (m.grantCrags r).setCmd slot { c with started := true, progress := (m.grantCrags r).now }
      if descOp c.desc = 0x30 then n
      else r.keys.foldl (fun x k => x.takeCrag (x.qOwner c.queue) (descOp c.desc == 0x31) k) n := by
  simp only [Mach.rowCragGrant, hwaits, hmay, hcmd, Bool.not_true, Bool.false_eq_true, if_false]

/-- A KERNEL's first crag granted and idle, its program and its argument block read: its crags start one by one (R243). -/
theorem Mach.rowProgramLoadDone_of_read {m m1 m2 : Mach} {slot : Nat} {c : Cmd} {r : CragReq} {prog args : List Byte}
    (hcmd : m.cmd? slot = some c) (hgranted : tget m.eng.crag.granted slot = some r) (hop : descOp c.desc = 0x30)
    (hdone : c.done = false) (hidle : (m.crag (cragKey r.die r.first)).phase = .idle)
    (hprog : m.loadDvaOn slot r.die r.first (fld c.desc 16 2) (fld c.desc 24 8) (fld c.desc 32 4) = (.ok prog, m1))
    (hargs : m1.loadDvaOn slot r.die r.first (fld c.desc 16 2) (fld c.desc 40 8) 64 = (.ok args, m2)) :
    m.rowProgramLoadDone slot = (List.range r.count).foldl (fun x i =>
      let k := cragKey r.die (r.first + i)
      let g := x.crag k
      let keep := bit (fld c.desc 21 1) 0 && x.reg 0x5000 2 0 == 1 && g.lastOwner == m2.qOwner c.queue && !g.confChanged
      (if keep then x else x.bump 0x7080 8).setCrag k (g.start (m2.qOwner c.queue) keep prog args i r.count)) m2 := by
  have hopen : ¬(descOp c.desc ≠ 0x30 ∨ c.done = true ∨ (m.crag (cragKey r.die r.first)).phase ≠ .idle) := by
    simp [hop, hdone, hidle]
  simp only [Mach.rowProgramLoadDone, hcmd, hgranted, if_neg hopen, hprog, hargs]

/-! ## Chunks of an OPTIM (R251, R252) -/

/-- A chunk in flight whose reads succeed and whose writes fail the command nowhere: written, and its crag goes on. -/
theorem Mach.rowOptimChunkReadsDone_of_written {m m1 : Mach} {slot j : Nat} {c : Cmd} {r : OptimRun} {ps gs ms vs : List Byte}
    (hcmd : m.cmd? slot = some c) (hrun : tget m.eng.crag.optims slot = some r) (hstarted : r.started.contains j = true)
    (hcrags : m.hasCrags slot = true) (hread : m.chunkIn slot j c = (.ok (ps, gs, ms, vs), m1))
    (hwritten : ((m1.chunkOut slot j c r.hyper ps gs ms vs).cmd? slot).bind (·.fail) = none) :
    m.rowOptimChunkReadsDone slot j =
      (m1.chunkOut slot j c r.hyper ps gs ms vs).chunkOver slot j (min 4096 ((optimOf c.desc).n - 4096 * j)) := by
  simp only [Mach.rowOptimChunkReadsDone, hcmd, hrun, hstarted, hcrags, hread, hwritten, Bool.not_true, Bool.false_eq_true, or_self,
    if_false]
  cases c.fail.isSome <;> rfl

/-- Settles O37: a KERNEL and an OPTIM pass their descriptors' checks and their reads, and a grant is one lemma for both. -/
theorem cragCommands : Obligations.CragCommands := by
  refine ⟨?kernel, ?optim, ?grantKernel, ?grantOther, ?load, ?chunk⟩
  case kernel =>
    intro s slot c hc hcmd hop hdone hnone hast hok hdie hactive
    exact next_run_eq hc (Mach.rowKernel_of_valid hcmd hop hdone hnone hast hok hdie hactive)
  case optim =>
    intro s slot c b1 b2 b3 h m1 m2 m3 m4 hc hcmd hop hdone hnone hast hok hp hm1 hg hm2 hst hm3 hh hm4 hhyper
    exact next_run_eq hc (Mach.rowOptim_of_read ⟨hcmd, hop, hdone, hnone, hast, hok⟩ (Prod.ext hp hm1.symm) (Prod.ext hg hm2.symm)
      (Prod.ext hst hm3.symm) (Prod.ext hh hm4.symm) hhyper)
  case grantKernel =>
    intro s slot r c hc hwaits hmay hcmd hop
    exact next_run_eq hc ((Mach.rowCragGrant_of_waiting hwaits hmay hcmd).trans (if_pos hop))
  case grantOther =>
    intro s slot r c hc hwaits hmay hcmd hop
    exact next_run_eq hc ((Mach.rowCragGrant_of_waiting hwaits hmay hcmd).trans (if_neg hop))
  case load =>
    intro s slot c r prog args m1 m2 hc hcmd hgranted hop hdone hidle hprog hm1 hargs hm2
    exact next_run_eq hc (Mach.rowProgramLoadDone_of_read hcmd hgranted hop hdone hidle (Prod.ext hprog hm1.symm)
      (Prod.ext hargs hm2.symm))
  case chunk =>
    intro s slot j c r x m1 hc hcmd hrun hstarted hcrags hread hm1 hwritten
    exact next_run_eq hc (Mach.rowOptimChunkReadsDone_of_written hcmd hrun hstarted hcrags
      (Prod.ext (eq_ok_of_toOption_eq_some hread) hm1.symm) hwritten)

end Sys2Proof.Machine
end

section
/-! The commands of Talus, from their places to their rows (09_talus.md R257, R258, R264-R276), and the counters of its slots (R280). -/

namespace Sys2Proof.Machine

/-! ## Places (R257, R258, R269) -/

/-- With no prefetch set, replacing the sets by none changes nothing. -/
theorem Mach.setSets_nil_of_nil {m : Mach} (h : m.eng.talus.sets = []) : m.setSets [] = m :=
  congrArg m.setSets h.symm

/-- With no prefetch set none is freed, and no read made for one is forgotten. -/
theorem Mach.freeSets_of_nil {m : Mach} (h : m.eng.talus.sets = []) (pick : PrefetchSet → Bool) : m.freeSets pick = m := by
  simp [Mach.freeSets, h, Mach.setSets_nil_of_nil h]

@[simp] theorem Mach.talusPlace_sets (m : Mach) (slot : Nat) (c : Cmd) :
    (m.talusPlace slot c).eng.talus.sets = m.eng.talus.sets := rfl

/-- A SCATTER has no destination in a scratchpad. -/
theorem talusScratch_of_scatter {d : List Byte} (h : descOp d = 0x11) : talusScratch d = false := by
  simp [talusScratch, h]

section
variable {m : Mach} {slot op : Nat} {c : Cmd} {r : TalusRun} {ok : List Byte → Bool} {go : Mach → Cmd → TalusRun → Mach}

/-- A command without a place, its fields valid and its turn come, with no prefetch set to free or to take and no scratchpad to write:
it takes its place and no more. -/
theorem Mach.talusStart_of_valid (hcmd : m.cmd? slot = some c) (hop : descOp c.desc = op) (hdone : c.done = false)
    (hnone : m.talus? slot = none) (hast : m.astOk c.queue (fld c.desc 16 2) = true) (hok : ok c.desc = true)
    (hturn : m.talusTurn slot = true) (hscratch : talusScratch c.desc = false) (hsets : m.eng.talus.sets = []) :
    m.talusStart slot op ok go = m.talusPlace slot c := by
  have hopen : ¬(descOp c.desc ≠ op ∨ c.done = true) := by simp [hop, hdone]
  have hplaced := (m.talusPlace_sets slot c).trans hsets
  have hfree := Mach.freeSets_of_nil hplaced
  have hkept := Mach.setSets_nil_of_nil hplaced
  simp only [Mach.talusPlace] at hplaced hfree hkept ⊢
  simp only [Mach.talusStart, hcmd, if_neg hopen, hnone, hast, hok, hturn, hscratch, hfree, hplaced, List.map_nil, hkept,
    Bool.not_true, Bool.false_eq_true, if_false, ite_self]

/-- A command delivered again, its table read and no scratchpad to write, is carried on. -/
theorem Mach.talusStart_of_table (hcmd : m.cmd? slot = some c) (hop : descOp c.desc = op) (hdone : c.done = false)
    (hrun : m.talus? slot = some r) (hscratch : talusScratch c.desc = false) (htable : r.table ≠ []) :
    m.talusStart slot op ok go = go m c r := by
  have hopen : ¬(descOp c.desc ≠ op ∨ c.done = true) := by simp [hop, hdone]
  simp only [Mach.talusStart, hcmd, if_neg hopen, hrun, hscratch, if_pos htable, Bool.false_eq_true, false_and, if_false]

end

/-! ## Rows (R265, R266, R272, R273) -/

section
variable {m m1 m2 : Mach} {slot pos : Nat} {c : Cmd} {r : TalusRun} {ref : RowRef} {bs : List Byte}

/-- The row of a list position of a GATHER, read and written to its destination: no longer asked for. -/
theorem Mach.rowRowReadDone_of_gather {r2 : TalusRun} (hcmd : m.cmd? slot = some c) (hrun : m.talus? slot = some r)
    (hdone : c.done = false) (hop : descOp c.desc = 0x10) (hasked : r.todo.find? (·.pos == pos) = some ref)
    (hread : m.loadRow slot c r.table ref = (.ok bs, m1))
    (hwritten : m1.outRow slot c.desc (fld c.desc 40 8 + pos * fld c.desc 48 4) (tabRowBytes r.table) (some bs) = (true, m2))
    (hrun2 : m2.talus? slot = some r2) :
    m.rowRowReadDone slot pos = (m2.setTalus slot { r2 with todo := r2.todo.erase ref }).gatherCheck slot c := by
  simp only [Mach.rowRowReadDone, Mach.gatherRow, hcmd, hrun, hdone, hop, hasked, hread, hwritten, hrun2, Bool.false_eq_true, if_false,
    if_true]

/-- The row that an unweighted POOL waits for, read: added to its bag with weight 1, and the list carried on. -/
theorem Mach.rowRowReadDone_of_pool (hcmd : m.cmd? slot = some c) (hrun : m.talus? slot = some r) (hdone : c.done = false)
    (hop : descOp c.desc = 0x12) (hunweighted : bit (fld c.desc 18 1) 2 = false) (hwaits : r.waiting = some ref)
    (hpos : ref.pos = pos) (hread : m.loadRow slot c r.table ref = (.ok bs, m1)) :
    m.rowRowReadDone slot pos = Mach.poolRun 65536 (m1.setTalus slot { r with
      acc := poolAdd r.table bs 0x3F800000 r.acc, waiting := none, next := r.next + 1 }) slot c := by
  have hnotGather : descOp c.desc ≠ 0x10 := by simp [hop]
  simp only [Mach.rowRowReadDone, Mach.poolRow, hcmd, hrun, hdone, if_neg hnotGather, if_pos hop, hwaits, if_neg (not_not.mpr hpos),
    hread, hunweighted, Bool.not_false, Bool.false_eq_true, if_false, if_true]

end

/-! ## Prefetched rows (R268) -/

/-- A row read for a queue's set that is not its last: kept in the set. -/
theorem Mach.rowPrefetchReadDone_of_read {m m1 : Mach} {q idx : Nat} {p : PrefetchSet} {r : RowRef} {bs : List Byte}
    (hset : m.prefetchSet q = some p) (hasked : p.todo.find? (·.idx == idx) = some r) (hmore : p.todo.erase r ≠ [])
    (hread : m.loadDvaOn (prefetchSlot q) (queueDie q) engTalus p.ast r.dva p.rowBytes = (.ok bs, m1)) :
    m.rowPrefetchReadDone q idx = m1.setSets (m1.eng.talus.sets.map fun x => if x = p then
      { p with todo := p.todo.erase r, rows := p.rows ++ [(idx, bs)] } else x) := by
  simp only [Mach.rowPrefetchReadDone, hset, hasked, hread, if_neg hmore]

/-- Settles O38: one lemma for the places of the three commands (`talusStart_of_valid`) and one for their tables
(`talusStart_of_table`); each read's end is its row's. -/
theorem talusWork : Obligations.TalusWork := by
  refine ⟨?gather, ?scatter, ?pool, ?place, ?gatherRow, ?poolRow, ?prefetch, ?clear⟩
  case gather =>
    intro s slot c r hc hcmd hop hdone hrun hscratch htable hbegun
    exact next_run_eq hc ((Mach.talusStart_of_table hcmd hop hdone hrun hscratch htable).trans (if_pos hbegun))
  case scatter =>
    intro s slot c r hc hcmd hop hdone hrun htable
    exact next_run_eq hc (Mach.talusStart_of_table hcmd hop hdone hrun (talusScratch_of_scatter hop) htable)
  case pool =>
    intro s slot c r hc hcmd hop hdone hrun hscratch htable
    exact next_run_eq hc (Mach.talusStart_of_table hcmd hop hdone hrun hscratch htable)
  case place =>
    intro s slot c hc hcmd hdone hnone hast hturn hscratch hsets
    have hplace {op : Nat} {ok : List Byte → Bool} {go : Mach → Cmd → TalusRun → Mach}
        (hvalid : descOp c.desc = op ∧ ok c.desc = true) : s.m.talusStart slot op ok go = s.m.talusPlace slot c :=
      Mach.talusStart_of_valid hcmd hvalid.1 hdone hnone hast hvalid.2 hturn hscratch hsets
    exact ⟨fun h => next_run_eq hc (hplace h), fun h => next_run_eq hc (hplace h), fun h => next_run_eq hc (hplace h)⟩
  case gatherRow =>
    intro s slot pos c r ref bs m1 m2 r2 hc hcmd hrun hdone hop hasked hread hm1 hwritten hm2 hrun2
    exact next_run_eq hc (Mach.rowRowReadDone_of_gather hcmd hrun hdone hop hasked (Prod.ext hread hm1.symm)
      (Prod.ext hwritten hm2.symm) hrun2)
  case poolRow =>
    intro s slot pos c r ref row m1 hc hcmd hrun hdone hop hunweighted hwaits hpos hread hm1
    exact next_run_eq hc (Mach.rowRowReadDone_of_pool hcmd hrun hdone hop hunweighted hwaits hpos (Prod.ext hread hm1.symm))
  case prefetch =>
    intro s q idx p r bs m1 hc hset hasked hmore hread hm1
    exact next_run_eq hc (Mach.rowPrefetchReadDone_of_read hset hasked hmore (Prod.ext hread hm1.symm))
  case clear =>
    intro s w hc hadm
    exact next_run_eq hc (dictWrite_ok hadm rfl)

end Sys2Proof.Machine
end

section
/-! COPY, TRANSFORM and the work of a channel (11_couloir.md R311-R315, R321-R323). -/

namespace Sys2Proof.Machine

/-! ## COPY and TRANSFORM (R312-R314) -/

/-- A COPY without a channel, its fields valid and its ranges apart, asks for its channel (R313, R317). -/
theorem Mach.rowCopy_of_valid {m : Mach} {slot : Nat} {c : Cmd} (hcmd : m.cmd? slot = some c) (hop : descOp c.desc = 0x01)
    (hdone : c.done = false) (hnone : m.chanOf slot = none) (hast : m.astOk c.queue (fld c.desc 16 2) = true)
    (hok : copyOk c.desc = true) (hgeometry : (xferCopy c.desc).geometryOk = true) :
    m.rowCopy slot = m.askChan slot (fld c.desc 18 1) := by
  have hopen : ¬(descOp c.desc ≠ 0x01 ∨ c.done = true ∨ (m.chanOf slot).isSome = true) := by simp [hop, hdone, hnone]
  simp only [Mach.rowCopy, hcmd, if_neg hopen, hast, hok, hgeometry, Bool.not_true, Bool.false_eq_true, if_false]

/-- The crag of a TRANSFORM: what its byte 20 names, none for 0xFF (Table 11-2). -/
theorem couloirCrag_of_transform {d : List Byte} (hop : descOp d = 0x02) :
    couloirCrag d = if fld d 20 1 = 0xFF then none else some (fld d 20 1) := by
  by_cases hnone : fld d 20 1 = 0xFF <;> simp [couloirCrag, hop, hnone]

/-- A TRANSFORM without a channel, its fields valid, asks for the crag that it names, then for its channel (R314). -/
theorem Mach.rowTransform_of_valid {m : Mach} {slot : Nat} {c : Cmd} (hcmd : m.cmd? slot = some c) (hop : descOp c.desc = 0x02)
    (hdone : c.done = false) (hnone : m.chanOf slot = none) (hast : m.astOk c.queue (fld c.desc 16 2) = true)
    (hok : transformOk c.desc = true) :
    m.rowTransform slot =
      (if fld c.desc 20 1 = 0xFF then m else m.askCrags slot (slotDie slot) (fld c.desc 20 1) 1).askChan slot (fld c.desc 18 1) := by
  have hopen : ¬(descOp c.desc ≠ 0x02 ∨ c.done = true ∨ (m.chanOf slot).isSome = true) := by simp [hop, hdone, hnone]
  simp only [Mach.rowTransform, hcmd, if_neg hopen, hast, hok, couloirCrag_of_transform hop, Bool.not_true, Bool.false_eq_true,
    if_false]
  by_cases hcrag : fld c.desc 20 1 = 0xFF
  · simp only [if_pos hcrag]
  · simp only [if_neg hcrag]

/-! ## Elements and slices (R315, R321) -/

section
variable {m m2 : Mach} {die ch : Nat} {r : ChanRun} {c : Cmd}

/-- The next element of a chain, within its limit, read and valid: it is the element in progress, at its first beat (R315). -/
theorem Mach.rowElementReadDone_of_read {e : List Byte} (hready : m.chanReady (chanKey die ch) = some (r, c))
    (hop : descOp c.desc = 0x02) (hnext : r.elem = none) (hlimit : r.index < fld c.desc 32 4)
    (hread : m.loadLocal r.slot die engCouloir (fld c.desc 16 2) r.elemDva 64 = (.ok e, m2))
    (hvalid : m2.elementOk e (couloirCrag c.desc).isSome = true) :
    m.rowElementReadDone die ch = m2.setChan (chanKey die ch) { r with elem := some e, beat := 0 } := by
  have hreads : ¬(descOp c.desc ≠ 0x02 ∨ r.elem.isSome = true) := by simp [hop, hnext]
  simp only [Mach.rowElementReadDone, hready, if_neg hreads, if_neg (Nat.not_le.mpr hlimit), hread, if_pos hvalid]

/-- A slice that leaves its command at work is counted: as full after 256 steps, as ended by a stall otherwise (R321). -/
theorem Mach.rowSliceEnd_of_unfinished {steps taken : Nat} (hready : m.chanReady (chanKey die ch) = some (r, c))
    (hslice : Mach.sliceSteps (min steps 256) m (chanKey die ch) 0 = (taken, m2))
    (hgoesOn : (m2.cmd? r.slot).map (·.done) = some false) :
    m.rowSliceEnd die ch steps = m2.bump 0x70B0 (if taken = 256 then 0x0B else 0x0A) := by
  simp only [Mach.rowSliceEnd, hready, hslice, hgoesOn, Option.getD_some, Bool.false_eq_true, if_false]
  by_cases hfull : taken = 256
  · simp only [if_pos hfull]
  · simp only [if_neg hfull]

/-! ## Failed accesses (R322, R323) -/

/-- A RUNNING channel's TRANSFORM at work, between two elements of its chain and within its limit. -/
structure Mach.ReadsNext (m : Mach) (k : Nat) (r : ChanRun) (c : Cmd) : Prop where
  chan : m.chan? k = some r
  cmd : m.cmd? r.slot = some c
  op : descOp c.desc = 0x02
  crag : couloirCrag c.desc = none
  unfinished : c.done = false
  running : m.channel k = 1
  between : r.elem = none
  limit : r.index < fld c.desc 32 4

/-- A channel between two elements has none in progress: a TRANSFORM has no other. -/
theorem ChanRun.xfer?_of_between {d : List Byte} (hop : descOp d = 0x02) (hnone : r.elem = none) : r.xfer? d = none := by
  simp [ChanRun.xfer?, hop, hnone]

/-- The read of its next element failed with a status that is the access's own: the channel meets the failure at the element's
address, direction 2 (R323). -/
theorem Mach.rowChannelAccessFailed_of_element {st : Nat} (hreads : m.ReadsNext (chanKey die ch) r c)
    (hfailed : m.loadLocal r.slot die engCouloir (fld c.desc 16 2) r.elemDva 64 = (.failed st, m2)) (hformat : st ≠ stBadFormat)
    (hpoison : st ≠ stPoison) :
    m.rowChannelAccessFailed die ch = m2.chanFailed (chanKey die ch) r c r.elemDva 2 st 0 := by
  obtain ⟨hchan, hcmd, hop, hcrag, hdone, hrunning, hbetween, hlimit⟩ := hreads
  have hwork : ¬(c.done = true ∨ (descOp c.desc ≠ 0x01 ∧ descOp c.desc ≠ 0x02) ∨
      ((couloirCrag c.desc).isSome = true ∧ (!m.hasCrags r.slot) = true)) := by simp [hop, hcrag, hdone]
  have hown : ¬(st = stBadFormat ∨ st = stPoison) := not_or.mpr ⟨hformat, hpoison⟩
  simp only [Mach.rowChannelAccessFailed, hchan, hcmd, if_neg hwork, hrunning, true_or, decide_true, Bool.not_true,
    Bool.false_eq_true, if_false, ChanRun.xfer?_of_between hop hbetween, if_neg (Nat.not_le.mpr hlimit), hfailed, if_neg hown]

end

/-- Settles O31: a COPY and a TRANSFORM pass their descriptors' checks; an element's read, a slice and a failed read end as their
rows say of a channel that may work. -/
theorem transfers : Obligations.Transfers := by
  refine ⟨?copy, ?transform, ?element, ?slice, ?failed⟩
  case copy =>
    intro s slot c hc hcmd hop hdone hnone hast hok hgeometry
    exact next_run_eq hc (Mach.rowCopy_of_valid hcmd hop hdone hnone hast hok hgeometry)
  case transform =>
    intro s slot c hc hcmd hop hdone hnone hast hok
    exact next_run_eq hc (Mach.rowTransform_of_valid hcmd hop hdone hnone hast hok)
  case element =>
    intro s die ch r c e m2 hc hready hop hnext hlimit hread hm2 hvalid
    exact next_run_eq hc (Mach.rowElementReadDone_of_read hready hop hnext hlimit (Prod.ext hread hm2.symm) hvalid)
  case slice =>
    intro s die ch steps taken r c m2 hc hready htaken hm2 hgoesOn
    exact next_run_eq hc (Mach.rowSliceEnd_of_unfinished hready (Prod.ext htaken hm2.symm) hgoesOn)
  case failed =>
    intro s die ch st r c m2 hc hchan hcmd hop hcrag hdone hrunning hbetween hlimit hfailed hm2 hformat hpoison
    exact next_run_eq hc (Mach.rowChannelAccessFailed_of_element ⟨hchan, hcmd, hop, hcrag, hdone, hrunning, hbetween, hlimit⟩
      (Prod.ext hfailed hm2.symm) hformat hpoison)

end Sys2Proof.Machine
end

section
/-! The controls of a channel and the halt bound (11_couloir.md R322, R325-R327). -/

namespace Sys2Proof.Machine

/-- A control by a requester without an identity in band, its rule satisfied: the rule's effect, then the answer (R327). -/
theorem Mach.control_ok {m m' : Mach} {w : Src} {f : Nat → Mach → Except Nat Mach} (hadm : m.admits w 0x5301 4 = true)
    (hid : m.heard.identOf w.q = none) (hrule : f (m.heard.rowOf w.q 0x5301 4) m.heard = .ok m') :
    m.control w f = m'.answerWrite w 0x5301 4 0 :=
  dictWrite_ok hadm (by simp only [hid, hrule])

/-- A HALTED channel's command is aborted with its latch's status kept (R326). -/
theorem Mach.abortChan_of_halted {m : Mach} {k : Nat} {r : ChanRun} (hhalted : m.channel k = 3) (hchan : m.chan? k = some r) :
    m.abortChan k = ((m.bump 0x70B0 7).setChan k { r with last := m.reg 0x5302 3 k }).chanEnd k (some stBusErr) := by
  simp only [Mach.abortChan, hchan, if_pos hhalted]

/-- Settles O32: each control passes R327 (`Mach.control_ok`) and its own rule by the channel's state; the halt bound finds its
channel HALTED. -/
theorem channelControls : Obligations.ChannelControls := by
  refine ⟨?start, ?stop, ?clear, ?resume, ?abort, ?haltBound⟩
  case start =>
    intro s w k hc hadm hrow hid hup hstopped
    subst hrow
    exact next_run_eq hc (Mach.control_ok hadm hid (by simp only [hup, hstopped, Bool.false_eq_true, if_false, if_true]))
  case stop =>
    intro s w k hc hadm hrow hid hrunning
    subst hrow
    exact next_run_eq hc (Mach.control_ok hadm hid (by simp only [hrunning, if_true]))
  case clear =>
    intro s w k r c hc hadm hrow hid hhalted hchan hcmd
    subst hrow
    exact next_run_eq hc (Mach.control_ok hadm hid (by simp only [hhalted, hchan, hcmd, Option.map_some, Option.getD_some]))
  case resume =>
    intro s w k r hc hadm hrow hid hhalted hchan hup
    subst hrow
    exact next_run_eq hc (Mach.control_ok hadm hid (by simp only [hhalted, hchan, hup, Bool.false_eq_true, if_false]))
  case abort =>
    intro s w k hc hadm hrow hid hhalted
    subst hrow
    exact next_run_eq hc (Mach.control_ok hadm hid (if_pos (.inr (.inr hhalted))))
  case haltBound =>
    intro s die ch r hc hhalted hbound hchan
    exact next_run_eq hc ((if_pos ⟨hhalted, hbound⟩).trans (Mach.abortChan_of_halted hhalted hchan))

end Sys2Proof.Machine
end

section
/-! The pins and a trip through every command and every step (15_clocks_power.md R428, R430, R440; 18_electrical.md R491, R499). -/

namespace Sys2Proof.Machine

/-! ## What stops without a supply and in a trip -/

theorem Mach.unclocked_of_tripped {m : Mach} (h : m.clk.tripped = true) : m.clocked = false := by
  simp [Mach.clocked, h]

theorem Mach.unpowered_of_tripped {m : Mach} (h : m.clk.tripped = true) : m.powered = false := by
  simp [Mach.powered, h]

theorem Mach.unclocked_of_vauxLow {m : Mach} (h : m.elec.vauxOk = false) : m.clocked = false := by
  simp [Mach.clocked, h]

theorem Mach.unpowered_of_vauxLow {m : Mach} (h : m.elec.vauxOk = false) : m.powered = false := by
  simp [Mach.powered, h]

/-! ## What each way of acting leaves of the pins -/

@[simp] theorem State.run_elec (s : State) (f : Mach → Mach) : (s.run f).m.elec = s.m.elec := by
  unfold State.run; split <;> rfl

@[simp] theorem State.powered_elec (s : State) (f : Mach → Mach) : (s.powered f).m.elec = s.m.elec := by
  unfold State.powered; split <;> rfl

@[simp] theorem State.onAux_elec (s : State) (f : Mach → Mach) : (s.onAux f).m.elec = s.m.elec := by
  unfold State.onAux; split <;> rfl

@[simp] theorem State.atPort_elec (s : State) (f : Mach → Mach) : (s.atPort f).m.elec = s.m.elec := rfl

@[simp] theorem Mach.tick_elec (m : Mach) : m.tick.elec = m.elec := by
  unfold Mach.tick; split <;> rfl

/-- A tick needs the root clock: of a tripped machine it changes nothing. -/
theorem Mach.tick_of_unclocked {m : Mach} (h : m.clocked = false) : m.tick = m := by
  simp [Mach.tick, h]

/-- Only a command of the pins changes the pins. -/
theorem exec_elec_of_not_pinCommand {c : Instr} (hp : pinCommand c = false) {s t : State} (he : exec c s = .next t) :
    t.m.elec = s.m.elec := by
  obtain ⟨f, hf⟩ | ⟨f, hf⟩ | ⟨f, hf, -⟩ | ⟨-, f, hf⟩ := exec_shape c s hp <;>
    obtain rfl := Host.Outcome.next.inj (hf.symm.trans he)
  · exact s.run_elec f
  · exact s.powered_elec f
  · exact s.onAux_elec f
  · exact s.atPort_elec f

/-! ## A trip (R440) -/

/-- Nothing but the loss of 3.3 V ends a trip: what the clock runs does not happen, the ALWAYS domain's commands keep it, and so
does each command of the pins. -/
theorem exec_tripped {c : Instr} (hc : c ≠ .vauxUndervoltage) {s t : State} (ht : s.m.clk.tripped = true)
    (he : exec c s = .next t) : t.m.clk.tripped = true := by
  cases hp : pinCommand c with
  | true =>
    obtain ⟨ns, rfl⟩ | ⟨segid, refqual, rfl⟩ | ⟨up, down, rfl⟩ | rfl | rfl | rfl | rfl := pinCommand_cases c hp <;>
      obtain rfl := Host.Outcome.next.inj he
    · obtain ⟨-, -, hclk⟩ := s.m.rowResetInAssert_pins ns
      exact (congrArg Clocks.tripped (hclk ht)).trans ht
    · obtain ⟨-, -, hclk⟩ := s.m.rowResetInRelease_pins segid refqual
      exact hclk.trans ht
    · obtain ⟨-, -, hclk⟩ := s.m.rowStrapCheckDone_pins up down
      exact (congrArg Clocks.tripped hclk).trans ht
    · obtain ⟨-, -, hclk⟩ := s.m.rowSuppliesInRange_pins
      exact hclk.trans ht
    · obtain ⟨-, -, hclk⟩ := s.m.rowVinUndervoltage_pins
      exact (congrArg Clocks.tripped hclk).trans ht
    · obtain ⟨-, -, hclk⟩ := s.m.rowVinReturn_pins
      exact (congrArg Clocks.tripped (hclk ht)).trans ht
    · exact absurd rfl hc
  | false =>
    obtain ⟨f, hf⟩ | ⟨f, hf⟩ | ⟨f, hf, hkeeps⟩ | ⟨-, f, hf⟩ := exec_shape c s hp <;>
      obtain rfl := Host.Outcome.next.inj (hf.symm.trans he)
    · rwa [State.run_unclocked (Mach.unclocked_of_tripped ht)]
    · rwa [State.powered_off (Mach.unpowered_of_tripped ht)]
    · cases haux : s.m.elec.vauxOk with
      | true => rw [State.onAux_on haux]; exact hkeeps s.m ht
      | false => rwa [State.onAux_off haux]
    · exact ht

/-- Settles O56: a tick needs the clock that a trip stops, and no other command than the loss of 3.3 V ends a trip
(`exec_tripped`). -/
theorem tripHolds : Obligations.TripHolds := by
  intro s t ht hfront he
  have hkept : t.m.clk.tripped = true := by
    cases hq : s.pending with
    | nil =>
      obtain rfl := Host.Outcome.next.inj ((step_nil hq).symm.trans he)
      exact (congrArg (·.clk.tripped) (Mach.tick_of_unclocked (Mach.unclocked_of_tripped ht))).trans ht
    | cons c rest =>
      have hc : c ≠ .vauxUndervoltage := fun h => hfront (by rw [hq, h, List.head?_cons])
      exact exec_tripped hc (s := { s with pending := rest }) ht ((step_cons hq).symm.trans he)
  exact ⟨hkept, Mach.unclocked_of_tripped hkept⟩

/-! ## Supplies and straps (R428, R430, R499) -/

theorem Mach.pinsConsistent_iff (m : Mach) :
    m.pinsConsistent = true ↔ (m.elec.suppliesOk = true → m.elec.vauxOk = true) ∧
      (m.elec.vinLow = true → m.elec.suppliesOk = true) ∧ m.elec.segid < 16 ∧ m.elec.refqual < 8 := by
  simp [Mach.pinsConsistent, and_assoc, ← imp_iff_not_or, ← Bool.not_eq_true]

/-- What a command may do to the pins: the commands of the supplies, RESET_IN_L and the strap check each one thing, every other
nothing. -/
inductive PinStep (e : Electrical) : Instr → Electrical → Prop
  | kept (c : Instr) : PinStep e c e
  | asserted (ns : Nat) : PinStep e (.resetInLAssert ns) { e with resetLow := true }
  | released (segid refqual : Nat) : PinStep e (.resetInLRelease segid refqual) { e with resetLow := false }
  | sampled (segid refqual : Nat) : PinStep e (.resetInLRelease segid refqual)
      { e with resetLow := false, segid := segid % 16, refqual := refqual % 8, strapCheck := true }
  | strapsChecked (up down : Nat) : PinStep e (.strapCheckDone up down) { e with strapCheck := false }
  | inRange : PinStep e .suppliesInRange { e with suppliesOk := true, vauxOk := true, vinLow := false }
  | vinLow (h : e.suppliesOk = true) : PinStep e .vinUndervoltage { e with vinLow := true }
  | vinReturned : PinStep e .vinReturnExpiry { e with vinLow := false }
  | vauxLow : PinStep e .vauxUndervoltage
      { e with vauxOk := false, suppliesOk := false, vinLow := false, resetLow := true }

/-- A command of the pins makes its own step of them. -/
theorem exec_pinStep_of_pinCommand {c : Instr} (hp : pinCommand c = true) {s t : State} (he : exec c s = .next t) :
    PinStep s.m.elec c t.m.elec := by
  obtain ⟨ns, rfl⟩ | ⟨segid, refqual, rfl⟩ | ⟨up, down, rfl⟩ | rfl | rfl | rfl | rfl := pinCommand_cases c hp <;>
    obtain rfl := Host.Outcome.next.inj he
  · obtain ⟨h | h, -, -⟩ := s.m.rowResetInAssert_pins ns
    · exact h ▸ .kept _
    · exact h ▸ .asserted ns
  · obtain ⟨h | h | h, -, -⟩ := s.m.rowResetInRelease_pins segid refqual
    · exact h ▸ .kept _
    · exact h ▸ .released segid refqual
    · exact h ▸ .sampled segid refqual
  · obtain ⟨h, -, -⟩ := s.m.rowStrapCheckDone_pins up down
    exact h ▸ .strapsChecked up down
  · obtain ⟨h | h, -, -⟩ := s.m.rowSuppliesInRange_pins
    · exact h ▸ .kept _
    · exact h ▸ .inRange
  · obtain ⟨h | ⟨hok, h⟩, -, -⟩ := s.m.rowVinUndervoltage_pins
    · exact h ▸ .kept _
    · exact h ▸ .vinLow hok
  · obtain ⟨h | h, -, -⟩ := s.m.rowVinReturn_pins
    · exact h ▸ .kept _
    · exact h ▸ .vinReturned
  · obtain ⟨h | h, -⟩ := s.m.rowVauxUndervoltage_pins
    · exact h ▸ .kept _
    · exact h ▸ .vauxLow

/-- Every command makes a step of the pins. -/
theorem exec_pinStep {c : Instr} {s t : State} (he : exec c s = .next t) : PinStep s.m.elec c t.m.elec := by
  cases hp : pinCommand c with
  | true => exact exec_pinStep_of_pinCommand hp he
  | false => exact exec_elec_of_not_pinCommand hp he ▸ .kept c

/-- Each step of the pins keeps them consistent: 12 V is reported low only of supplies in range, and a sample is of the straps'
width. -/
theorem PinStep.pinsConsistent {m n : Mach} {c : Instr} (h : PinStep m.elec c n.elec) (hm : m.pinsConsistent = true) :
    n.pinsConsistent = true := by
  obtain ⟨haux, hvin, hsegid, hrefqual⟩ := m.pinsConsistent_iff.mp hm
  rw [Mach.pinsConsistent_iff]
  generalize n.elec = e at h
  cases h with
  | kept | asserted | released | strapsChecked => exact ⟨haux, hvin, hsegid, hrefqual⟩
  | sampled segid refqual =>
    exact ⟨haux, hvin, Nat.mod_lt segid (by decide), Nat.mod_lt refqual (by decide)⟩
  | inRange => exact ⟨fun _ => rfl, fun _ => rfl, hsegid, hrefqual⟩
  | vinLow hok => exact ⟨haux, fun _ => hok, hsegid, hrefqual⟩
  | vinReturned => exact ⟨haux, nofun, hsegid, hrefqual⟩
  | vauxLow => exact ⟨nofun, nofun, hsegid, hrefqual⟩

/-- A machine with the pins of a consistent one is consistent. -/
theorem Mach.pinsConsistent_of_elec {m n : Mach} (h : n.elec = m.elec) (hm : m.pinsConsistent = true) : n.pinsConsistent = true := by
  rwa [Mach.pinsConsistent, h]

/-- Settles O57: a tick leaves the pins alone, and every command makes a step of them that keeps them consistent. -/
theorem pinsStayConsistent : Obligations.PinsStayConsistent := by
  intro s t hs he
  cases hq : s.pending with
  | nil =>
    obtain rfl := Host.Outcome.next.inj ((step_nil hq).symm.trans he)
    exact Mach.pinsConsistent_of_elec s.m.tick_elec hs
  | cons c rest => exact (exec_pinStep ((step_cons hq).symm.trans he)).pinsConsistent hs

/-- Without 3.3 V, only the commands of the pins and those at a pin of a port or of a module act. -/
theorem exec_of_vauxLow {c : Instr} (hp : pinCommand c = false) (hport : portPinCommand c = false) {s : State}
    (haux : s.m.elec.vauxOk = false) : exec c s = .next s := by
  obtain ⟨f, hf⟩ | ⟨f, hf⟩ | ⟨f, hf, -⟩ | ⟨hpin, -⟩ := exec_shape c s hp
  · rw [hf, State.run_unclocked (Mach.unclocked_of_vauxLow haux)]
  · rw [hf, State.powered_off (Mach.unpowered_of_vauxLow haux)]
  · rw [hf, State.onAux_off haux]
  · simp [hport] at hpin

/-- Settles O55: only a command of the pins changes them, of those only the release of RESET_IN_L the samples, and the rest needs
3.3 V. -/
theorem pinsAlone : Obligations.PinsAlone := by
  refine ⟨?pins, ?samples, ?unpowered⟩
  case pins =>
    intro c s t hp he
    exact exec_elec_of_not_pinCommand hp he
  case samples =>
    intro c s t hrelease he
    have hstep := exec_pinStep he
    generalize t.m.elec = e at hstep
    cases hstep with
    | released segid refqual | sampled segid refqual => exact absurd rfl (hrelease segid refqual)
    | kept | asserted | strapsChecked | inRange | vinLow | vinReturned | vauxLow => exact ⟨rfl, rfl⟩
  case unpowered =>
    intro c s hp hport haux
    exact exec_of_vauxLow hp hport haux

/-- Settles O52: the equations of `step`, for a queue with a command at its front (`step_front`) and for an empty one. -/
theorem stepTakesFront : Obligations.StepTakesFront :=
  ⟨step_front, fun _ => step_nil rfl⟩

end Sys2Proof.Machine
end

section
/-! Beacons, PTP and the timebase's states (13_acting_as_one.md R363-R367). -/

namespace Sys2Proof.Machine

/-! ## Beacons (R363, R364) -/

/-- A BEACON at a port of the torus that has sent none awaiting an echo: kept, counted, and the root chosen again. -/
theorem Mach.rowBeacon_of_unechoed {m : Mach} {p : Nat} {f : RFrame} (hop : f.opcode = 0xC0)
    (htorus : (m.takeArrived p f).torusPort p = true) (hup : (m.takeArrived p f).digestState p = true)
    (hnone : ((m.takeArrived p f).portHall p).sentAt = []) :
    m.rowBeacon p f =
      let n := ((m.takeArrived p f).fresh 65536).2
      let b : BeaconIn := { number := f.sequence, arrived := n.now * 65536 + ((m.takeArrived p f).fresh 65536).1
                            dist := bits (f.word 5) 47 40, root := bits (f.word 5) 39 31, forced := bit (f.word 5) 30
                            locked := bit (f.word 5) 29, synced := bit (f.word 5) 27 }
      ((n.setPortHall p { n.portHall p with beacon := some b }).bumpBy 0x4501 9 p 1).chooseRoot := by
  have hheard : ¬(f.opcode ≠ 0xC0 ∨ (!(m.takeArrived p f).torusPort p) = true ∨ (!(m.takeArrived p f).digestState p) = true) := by
    simp [hop, htorus, hup]
  have hsent : (((m.takeArrived p f).fresh 65536).2.portHall p).sentAt = [] := hnone
  simp only [Mach.rowBeacon, if_neg hheard, hsent, List.find?_nil]

@[simp] theorem Mach.urgent_cls (m : Mach) (opcode dst src hops sequence w4 w5 w6 w7 : Nat) :
    (m.urgent opcode dst src hops sequence w4 w5 w6 w7).cls = 0 := rfl

/-- A frame of class URGENT needs no room of its class: it is queued. -/
theorem Mach.enqueue_of_urgent {f : RFrame} (h : f.cls = 0) (m : Mach) (p inp : Nat) (stomped detour : Bool) :
    m.enqueue p inp stomped detour f = m.queueFrame p inp stomped detour f := by
  simp [Mach.enqueue, Mach.roomFor, h]

@[simp] theorem Mach.queueFrame_hall (m : Mach) (p inp : Nat) (stomped detour : Bool) (f : RFrame) :
    (m.queueFrame p inp stomped detour f).hall = m.hall := rfl

/-- Settles O41: a beacon is heard and sent as its row says of the ports that may, and each change of the timebase's state passes its
row's conditions. -/
theorem timebase : Obligations.Timebase := by
  refine ⟨?heard, ?unlinked, ?sent, ?error, ?announced, ?lost, ?held, ?resynced⟩
  case heard =>
    intro s p f hc hop htorus hup hnone
    exact next_run_eq hc (Mach.rowBeacon_of_unechoed hop htorus hup hnone)
  case unlinked =>
    intro s hc hself hports
    exact next_run_eq hc (by simp only [Mach.rowBeaconInterval, hports, List.foldl_nil, if_pos hself])
  case sent =>
    intro s p hc hself hports hnone
    exact next_run_eq hc (by
      simp only [Mach.rowBeaconInterval, hports, List.foldl_cons, List.foldl_nil, hnone, Mach.enqueue_of_urgent (Mach.urgent_cls ..),
        Mach.queueFrame_hall]
      exact if_neg (ne_true_of_eq_false hself))
  case error =>
    intro s domain e m1 hc hon hdomain hup hm1 hroot
    subst hm1
    have hours : ¬(s.m.reg 0x1320 3 0 ≠ 1 ∨ s.m.reg 0x1320 2 0 ≠ domain ∨ (!s.m.cairnUp) = true) := by simp [hon, hdomain, hup]
    exact next_run_eq hc ((if_neg hours).trans (if_pos hroot))
  case announced =>
    intro s domain utc hc hon hdomain hup
    exact next_run_eq hc (by simp [Mach.rowPtpMessage, hon, hdomain, hup])
  case lost =>
    intro s m1 hc hroot hm1 hlocked
    exact next_run_eq hc (by simp [Mach.rowReferenceLoss, hroot, ← hm1, hlocked])
  case held =>
    intro s t hc hstate hsmall
    exact next_run_eq hc (by simp [Mach.rowHoldoverExit, hstate, hsmall])
  case resynced =>
    intro s w hc hadm hstate
    exact next_run_eq hc (dictWrite_ok hadm (by simp [hstate]))

end Sys2Proof.Machine
end

section
/-! Snapshots, spans, eyes, margins and the trace (17_telemetry.md R471-R477, R483; 13_acting_as_one.md R379-R381). -/

namespace Sys2Proof.Machine

/-- The events of the lowest stamp leave the queue and are applied to every unit (R474). -/
theorem Mach.rowSpanSettleExpiry_of_lowest {m : Mach} {t : Nat} (h : (m.tele.events.map (·.stamp)).min? = some t) :
    m.rowSpanSettleExpiry = (List.range 16).foldl (fun x u => x.applySpan (m.tele.events.partition fun e => e.stamp == t).1 u)
      (m.setTele { m.tele with events := (m.tele.events.partition fun e => e.stamp == t).2 }) := by
  simp only [Mach.rowSpanSettleExpiry, h]

/-- An eye of a port in a numbered state, its next lane among the lanes that it uses: kept for that lane, and the lane after it is
next (R477). -/
theorem Mach.rowEyeMeasurementDone_of_lane {m : Mach} {p height width first : Nat} {rest : List Nat}
    (hlanes : m.lanesUsed p = first :: rest) (hp : p < 8) (hstate : m.numberedState p = true)
    (hnext : (first :: rest).contains (tgetD m.tele.eyeLane p first) = true) :
    m.rowEyeMeasurementDone p height width = m.setTele { m.tele with
      eyes := tput m.tele.eyes (p * 32 + tgetD m.tele.eyeLane p first) (height % 65536, width % 65536, m.now)
      eyeLane := tput m.tele.eyeLane p
        (((first :: rest).find? fun l => decide (tgetD m.tele.eyeLane p first < l)).getD first) } := by
  have hmeasures : ¬(8 ≤ p ∨ (!m.numberedState p) = true) := by simp [hp, hstate]
  simp only [Mach.rowEyeMeasurementDone, hlanes, if_neg hmeasures, if_pos hnext]

/-- Settles O50: each write of the dictionary passes its entry's own rule; an event finds the window, the lane or the trigger that it
ends. -/
theorem telemetry : Obligations.Telemetry := by
  refine ⟨?snapshot, ?clear, ?span, ?start, ?stop, ?settled, ?clearSpan, ?eye, ?margin, ?traceStart, ?traceStop, ?traced⟩
  case snapshot | clear | start | stop | clearSpan | traceStop =>
    intro s w hc hadm
    exact next_run_eq hc (dictWrite_ok hadm rfl)
  case span =>
    intro s w u hc hadm hrow
    subst hrow
    exact ⟨fun hidle => next_run_eq hc (dictWrite_ok hadm (congrArg Except.ok (if_pos hidle))),
      next_run_eq hc (dictWrite_ok hadm rfl)⟩
  case settled =>
    intro s t hc hlowest
    exact next_run_eq hc (Mach.rowSpanSettleExpiry_of_lowest hlowest)
  case eye =>
    intro s p height width first rest hc hlanes hp hstate hnext
    exact next_run_eq hc (Mach.rowEyeMeasurementDone_of_lane hlanes hp hstate hnext)
  case margin =>
    intro s rails slacks hc
    exact next_run_eq hc rfl
  case traceStart =>
    intro s w hc hadm hidle
    exact next_run_eq hc (dictWrite_ok hadm (if_neg (ne_true_of_eq_false hidle)))
  case traced =>
    intro s hc htriggered hleft
    exact next_run_eq hc (if_pos ⟨htriggered, hleft⟩)

end Sys2Proof.Machine
end

section
/-! Requests of the dictionary, commits and the frames of the Cairn port (14_cairn.md R389-R400; 16_security.md R454). -/

namespace Sys2Proof.Machine

/-! ## Requests (R392, R393) -/

section
variable {m : Mach} {q : Requester} {r : Request}

/-- A request that reaches the dictionary, is no repetition and has a session or a path to its sender is served by its OP. -/
theorem Mach.serveRequest_of_new (hreach : m.reaches q = true) (hnew : m.kept? q r.txn = none) (hq : q ≠ .bare) :
    m.serveRequest q { r with op := 1 } = m.serveRead q { r with op := 1 } ∧
    m.serveRequest q { r with op := 2 } = m.serveWrite q { r with op := 2 } ∧
    m.serveRequest q { r with op := 3 } = m.serveSegRead q { r with op := 3 } ∧
    m.serveRequest q { r with op := 4 } = m.serveSegWrite q { r with op := 4 } := by
  simp [Mach.serveRequest, hreach, hnew, hq]

/-- A READ of an entry whose value fits one frame and whose reading is no row of its own (R392). -/
theorem Mach.serveRead_of_ok (hgate : m.openGate q r.index r.sub = none) (hform : reqFaults r = [])
    (hfits : (m.entryBytes q r.index r.sub (bit r.flags 1)).length ≤ 992)
    (hown : ¬(r.index = 0x3051 ∧ 1 ≤ r.sub) ∧ ¬(r.index = 0x9010 ∧ r.sub = 5) ∧ ¬(r.index = 0x7150 ∧ r.sub = 0x0B)) :
    m.serveRead q r = (m.heard.readClear q r.index r.sub).answerReq q r 0
      (m.entryBytes q r.index r.sub (bit r.flags 1)).length (m.entryBytes q r.index r.sub (bit r.flags 1)) := by
  obtain ⟨hwatermark, hscratch, hmodule⟩ := hown
  simp only [Mach.serveRead, hgate, hform, if_neg (Nat.not_lt.mpr hfits), firstAbort, minBy, List.append_nil, if_neg hwatermark,
    if_neg hscratch, if_neg hmodule, Mach.heard]

/-- A WRITE whose gate is passed, to an entry that no module's map stands behind, is a write of its value. -/
theorem Mach.serveWrite_of_gate (hgate : m.gate q r.index r.sub = none) (hmodule : ¬(r.index = 0x7150 ∧ r.sub = 0x0B)) :
    m.serveWrite q r = m.writeValue ⟨q, r.txn, false⟩ r.index r.sub r.ty r.data (reqFaults r) := by
  simp only [Mach.serveWrite, hgate, if_neg hmodule]

/-- A SEG_READ at offset 0: the copy taken, the entry cleared if reading clears it, the first bytes answered (R393). -/
theorem Mach.serveSegRead_of_first (hown : ¬(r.index = 0x7150 ∧ r.sub = 0x0B ∨ r.index = 0x9010 ∧ r.sub = 5))
    (hgate : m.heard.readGate q r.index r.sub = none) (hform : reqFaults r = []) (hoff : r.off = 0) :
    m.serveSegRead q r =
      let bs := m.heard.entryBytes q r.index r.sub false
      let n := m.heard.readClear q r.index r.sub
      (n.setReq q { n.req q with segRead := some ⟨r.index, r.sub, bs⟩ }).answerReq q r 0 bs.length (bs.take 992) := by
  simp only [Mach.heard] at hgate
  simp only [Mach.serveSegRead, if_neg hown, hgate, hform, firstAbort, minBy, if_pos hoff, Mach.heard]

/-- A SEG_WRITE that leaves its value unfinished (R393). -/
theorem Mach.serveSegWrite_of_unfinished {m1 : Mach} (hown : ¬(r.index = 0x6010 ∧ r.sub = 3) ∧ ¬(r.index = 0x7150 ∧ r.sub = 0x0B))
    (hgate : m.gate q r.index r.sub = none)
    (hform : firstAbort (reqFaults r ++ (if r.ty ≠ typeCode r.index r.sub then [abType] else [])) = none)
    (htake : m.takeSegment q r = (.ok none, m1)) : m.serveSegWrite q r = m1.heard.answerReq q r 0 0 [] := by
  obtain ⟨himage, hmodule⟩ := hown
  simp only [Mach.serveSegWrite, if_neg himage, if_neg hmodule, hgate, hform, htake, Mach.heard]

end

/-! ## Values written (R395, R396) -/

section
variable {m : Mach} {w : Src} {idx sub ty : Nat} {bs : List Byte} {pre : List Nat} {e : DEntry}

/-- A number written to an entry of class RW within its range while the entry may be written: applied (R395). -/
theorem Mach.writeValue_of_rw (hentry : dictLine idx sub = some e) (hlocked : m.spanLocked w.q idx sub (leNat bs) = false)
    (hform : firstAbort (pre ++ valueFaults idx sub ty e bs) = none) (hacc : e.acc = .rw) (hnumber : e.ty.isBytes = false)
    (hown : (m.ownWrite w idx sub (leNat bs) bs).isNone = true) (hrange : m.writeRange w.q idx sub (leNat bs) = false)
    (hbusy : m.writeBusy w.q idx sub = false) :
    m.writeValue w idx sub ty bs pre = (m.applyEntry w.q idx sub (leNat bs)).heard.answerWrite w idx sub 0 := by
  rw [Option.isNone_iff_eq_none] at hown
  simp only [Mach.writeValue, Mach.writeRule, hentry, hlocked, hform, hacc, hnumber, hown, hrange, hbusy, Mach.heard, reduceCtorEq,
    Bool.false_eq_true, false_and, or_self, if_false]

/-- A staged write that nothing refuses puts its value into the writer's set. -/
theorem Mach.stageWrite_of_isOk {q : Requester} {v : DVal} (h : (m.stageWrite q idx sub v).isOk = true) :
    m.stageWrite q idx sub v = .ok (m.stagePut q idx sub (m.rowOf q idx sub) v) := by
  simp only [Mach.stageWrite] at h ⊢
  split_ifs at h ⊢
  · cases h
  · cases h
  · cases h
  · rfl

/-- A value written to a staged entry that the writer's set may take: kept there (R396). -/
theorem Mach.writeValue_of_rws (hentry : dictLine idx sub = some e) (hlocked : m.spanLocked w.q idx sub (leNat bs) = false)
    (hform : firstAbort (pre ++ valueFaults idx sub ty e bs) = none) (hacc : e.acc = .rws)
    (hown : (m.ownWrite w idx sub (leNat bs) bs).isNone = true) (hstage : (m.stageWrite w.q idx sub (e.parse bs)).isOk = true) :
    m.writeValue w idx sub ty bs pre =
      (m.stagePut w.q idx sub (m.rowOf w.q idx sub) (e.parse bs)).heard.answerWrite w idx sub 0 := by
  rw [Option.isNone_iff_eq_none] at hown
  simp only [Mach.writeValue, hentry, hlocked, hform, hacc, hown, Mach.stageWrite_of_isOk hstage, Mach.heard, reduceCtorEq,
    Bool.false_eq_true, false_and, true_or, if_false, if_true]

end

/-! ## Commits (R396, R454) -/

/-- A COMMIT with no other one waiting, no check against it and no fuse to burn: its writer's set waits to be applied. -/
theorem Mach.rowCommit_of_clean {m : Mach} {w : Src} (hreach : m.reaches w.q = true) (hnew : m.kept? w.q w.txn = none)
    (hgate : m.gate w.q 0x1110 1 = none) (hfree : m.cairn.commit = none)
    (hchecks : m.heard.commitChecks (m.heard.req w.q).stage = [])
    (hfuses : fusesOf m.heard (m.heard.putAll (m.heard.req w.q).stage) = []) :
    m.rowCommit w none =
      let v := m.heard.putAll (m.heard.req w.q).stage
      let n := ({ m.heard with sec := { m.heard.sec with flash := { m.heard.sec.flash with
        recorded := m.heard.sec.flash.burnt } } } : Mach).noticeLow
      let n := n.setReq w.q { n.req w.q with stage := [] }
      let c : PendingCommit :=
        { src := w, stage := (m.heard.req w.q).stage
          remap := (List.range 8).any fun k => n.reg 0x3381 (1 + k) 0 != v.reg 0x3381 (1 + k) 0, scrub := hrtRemoved n v }
      ({ n with cairn := { n.cairn with commit := some c } } : Mach).finishCommit := by
  simp only [Mach.heard] at hchecks hfuses
  simp only [Mach.rowCommit, hreach, hnew, hgate, hfree, hchecks, hfuses, minBy, Mach.burnAll, List.foldl_nil, Mach.heard,
    Option.isSome_none, Bool.not_true, Bool.false_eq_true, if_false]

/-! ## Frames (R391) -/

/-- A sealed SPDM message for another node that is not dead, a tag free: sent on to it (R391). -/
theorem Mach.rowCairnRelay_of_spdm {m : Mach} {address txn node tag : Nat} {bs : List Byte} {msg : SpdmMsg} (hup : m.cairnUp = true)
    (hother : node ≠ (m.bump 0x7110 0x0A).node) (hnode : node < 512)
    (halive : ((m.bump 0x7110 0x0A).bump 0x7110 1).nodeDead node = false)
    (htag : ((m.bump 0x7110 0x0A).bump 0x7110 1).newTag 0 false = some tag) :
    m.rowCairnRelay address txn node bs (.spdm msg) =
      let n := (m.bump 0x7110 0x0A).bump 0x7110 1
      n.sendReq 0 { n.reqFrame 0xE0 2 0 (node * 2 ^ 50) 0 tag bs.length 0 0 0 false false
        (bs ++ zeros ((64 - bs.length % 64) % 64)) with mg := true } (.relay address txn) := by
  simp only [Mach.rowCairnRelay, hup, if_neg hother, halive, Nat.not_le.mpr hnode, htag, Bool.not_true, Bool.false_eq_true, or_self,
    if_false]

/-- Settles O42: a request is served by its OP (`serveRequest_of_new`), each as its own lemma says; a commit passes its checks, and a
frame comes in through its port. -/
theorem cairnRequests : Obligations.CairnRequests := by
  refine ⟨?read, ?write, ?staged, ?segRead, ?segWrite, ?lapse, ?commit, ?discard, ?spdm, ?secured, ?relay, ?malformed⟩
  case read =>
    intro s q r hc hreach hnew hq hgate hform hfits hown
    obtain ⟨hserve, -⟩ := Mach.serveRequest_of_new hreach hnew hq
    exact next_run_eq hc (hserve.trans (Mach.serveRead_of_ok hgate hform hfits hown))
  case write =>
    intro s q r e hc hreach hnew hq hgate hentry hlocked hform hacc hnumber hown hmodule hrange hbusy
    obtain ⟨-, hserve, -⟩ := Mach.serveRequest_of_new hreach hnew hq
    exact next_run_eq hc (hserve.trans ((Mach.serveWrite_of_gate (r := { r with op := 2 }) hgate hmodule).trans
      (Mach.writeValue_of_rw hentry hlocked hform hacc hnumber hown hrange hbusy)))
  case staged =>
    intro s q r e hc hreach hnew hq hgate hentry hlocked hform hacc hown hmodule hstage
    obtain ⟨-, hserve, -⟩ := Mach.serveRequest_of_new hreach hnew hq
    have hstaged : ((dictLine r.index r.sub).any fun e => e.acc == .rws || e.acc == .tal) = true := by
      simp [hentry, hacc]
    exact next_run_eq hc ((if_pos hstaged).trans (hserve.trans ((Mach.serveWrite_of_gate (r := { r with op := 2 }) hgate hmodule).trans
      (Mach.writeValue_of_rws hentry hlocked hform hacc hown hstage))))
  case segRead =>
    intro s q r hc hreach hnew hq hown hgate hform hoff
    obtain ⟨-, -, hserve, -⟩ := Mach.serveRequest_of_new hreach hnew hq
    exact next_run_eq hc (hserve.trans (Mach.serveSegRead_of_first hown hgate hform hoff))
  case segWrite =>
    intro s q r m1 hc hreach hnew hq hown hgate hform htake hm1
    obtain ⟨-, -, -, hserve⟩ := Mach.serveRequest_of_new hreach hnew hq
    exact next_run_eq hc (hserve.trans (Mach.serveSegWrite_of_unfinished hown hgate hform
      (Prod.ext (eq_ok_of_toOption_eq_some htake) hm1.symm)))
  case lapse =>
    intro s q x write hc hx
    exact next_run_eq hc (by simp only [Mach.rowSegmentLapseExpiry, hx])
  case commit =>
    intro s w hc hreach hnew hgate hfree hchecks hfuses
    exact next_run_eq hc (Mach.rowCommit_of_clean hreach hnew hgate hfree hchecks hfuses)
  case discard =>
    intro s w hc hadm
    exact next_run_eq hc (dictWrite_ok hadm rfl)
  case spdm =>
    intro s address msg hc
    exact next_run_eq hc rfl
  case secured =>
    intro s n r x hc hx hn hridge hup
    have hheard (p : PlainFrame) : s.m.rowCairnSecuredMessage n p = s.m.servePlain n p := by
      simp [Mach.rowCairnSecuredMessage, hx, hn, hridge, hup]
    exact ⟨next_run_eq hc (hheard _), next_run_eq hc (hheard _)⟩
  case relay =>
    intro s address txn node bs msg tag hc hup hother hnode halive htag
    exact next_run_eq hc (Mach.rowCairnRelay_of_spdm hup hother hnode halive htag)
  case malformed =>
    intro s txn hc hup
    exact next_run_eq hc (if_pos hup)

end Sys2Proof.Machine
end

section
/-! Subscriptions to notices, their acknowledgement and their retransmission (14_cairn.md R403, R404). -/

namespace Sys2Proof.Machine

section
variable {m : Mach} {slot sequence : Nat} {x : Subscriber} {n : QueuedNotice}

/-- A notice sent fewer than five times, its subscriber within reach, is sent again (R404). -/
theorem Mach.rowNoticeRetransmitExpiry_of_reach (hslot : tget m.cairn.subs slot = some x)
    (hsent : x.queue.find? (fun n => n.sequence == sequence && n.sends != 0) = some n) (hsends : n.sends < 5)
    (hreach : m.subReach x = true) : m.rowNoticeRetransmitExpiry slot sequence = m.sendNotice slot x n := by
  simp only [Mach.rowNoticeRetransmitExpiry, hslot, hsent, if_pos hsends, if_pos hreach]

/-- A notice sent five times is the third in a row that its subscriber loses: the subscription is dropped with notice 0x8112
(R404). -/
theorem Mach.rowNoticeRetransmitExpiry_of_third (hslot : tget m.cairn.subs slot = some x)
    (hsent : x.queue.find? (fun n => n.sequence == sequence && n.sends != 0) = some n) (hsends : 5 ≤ n.sends)
    (hthird : x.discards = 2) :
    m.rowNoticeRetransmitExpiry slot sequence =
      ({ m.bump 0x7110 8 with cairn := { (m.bump 0x7110 8).cairn with subs := tdel (m.bump 0x7110 8).cairn.subs slot } } :
        Mach).notice 0x8112 [byteOf slot, byteOf x.owner] := by
  have hlast : ¬(x.discards + 1 < 3) := by omega
  simp only [Mach.rowNoticeRetransmitExpiry, hslot, hsent, if_neg (Nat.not_lt.mpr hsends), if_neg hlast]

end

/-- Settles O43: a subscription's record and a slot to free pass their entries' rules; a retransmission's end is by how often the notice
was sent. -/
theorem notices : Obligations.Notices := by
  refine ⟨?subscribe, ?unsubscribe, ?ack, ?ackInBand, ?again, ?dropped⟩
  case subscribe =>
    intro s w bs k n hc hadm hkey hlength hreserved hring hslot
    exact next_run_eq hc (dictWrite_ok hadm (by simp [hkey, hlength, hreserved, hring, hslot]))
  case unsubscribe =>
    intro s w slot hc hadm hslot hsteward
    have hknown : ¬3 < slot := by omega
    exact next_run_eq hc (dictWrite_ok hadm (by simp [hknown, hsteward]))
  case ack =>
    intro s n sequence hc hreach
    exact next_run_eq hc (by simp only [Mach.rowNoticeAck, hreach, Bool.not_true, Bool.false_eq_true, if_false, Mach.heard])
  case ackInBand =>
    intro s w sequence hc hadm
    exact next_run_eq hc (dictWrite_ok hadm rfl)
  case again =>
    intro s slot sequence x n hc hslot hsent hsends hreach
    exact next_run_eq hc (Mach.rowNoticeRetransmitExpiry_of_reach hslot hsent hsends hreach)
  case dropped =>
    intro s slot sequence x n hc hslot hsent hsends hthird
    exact next_run_eq hc (Mach.rowNoticeRetransmitExpiry_of_third hslot hsent hsends hthird)

end Sys2Proof.Machine
end

section
/-! Enumeration, duplicate address detection and the calendar (14_cairn.md R385-R388, R406-R408). -/

namespace Sys2Proof.Machine

/-! ## Position pulses (R387, R388) -/

section
variable {m : Mach} {k : Nat}

/-- A pulse that no node drives is counted (R388). -/
theorem Mach.rowEnumPulse_of_badLength (hon : m.managed = true) (h : k = 0 ∨ 31 < k) : m.rowEnumPulse k = m.bump 0x7110 9 := by
  simp only [Mach.rowEnumPulse, hon, if_pos h, Bool.not_true, Bool.false_eq_true, if_false]

/-- A pulse in WAITING: the second equal one in a row gives the node ID, another is remembered. -/
theorem Mach.rowEnumPulse_of_waiting (hon : m.managed = true) (h : ¬(k = 0 ∨ 31 < k)) (hstate : m.reg 0x1100 6 0 = 0) :
    m.rowEnumPulse k =
      let n := m.setEnum { m.cairn.enum with lastPulse := some k }
      if m.cairn.enum.lastPulse = some k then n.takeNodeId k 1 else n := by
  simp only [Mach.rowEnumPulse, hon, if_neg h, hstate, Bool.not_true, Bool.false_eq_true, if_false]

/-- A pulse while a node ID is held. -/
theorem Mach.rowEnumPulse_of_held (hon : m.managed = true) (h : ¬(k = 0 ∨ 31 < k))
    (hstate : m.reg 0x1100 6 0 = 1 ∨ m.reg 0x1100 6 0 = 3) : m.rowEnumPulse k = m.heldPulse k := by
  obtain hstate | hstate := hstate <;>
    simp only [Mach.rowEnumPulse, hon, if_neg h, hstate, Bool.not_true, Bool.false_eq_true, if_false]

end

/-- Settles O44: a pulse is taken by the state of the enumeration, the other events ask for a managed port, and each write of the
calendar passes its entry's own rule. -/
theorem nodeAndCalendar : Obligations.NodeAndCalendar := by
  refine ⟨?pulse, ?timeout, ?period, ?inBand, ?dad, ?plca, ?icmp, ?date, ?timeOfDay, ?dateAndTime, ?source⟩
  case pulse =>
    intro s k hc hon
    exact ⟨fun h => next_run_eq hc (Mach.rowEnumPulse_of_badLength hon h),
      fun h hstate hsecond => next_run_eq hc ((Mach.rowEnumPulse_of_waiting hon h hstate).trans (if_pos hsecond)),
      fun h hstate hfirst => next_run_eq hc ((Mach.rowEnumPulse_of_waiting hon h hstate).trans (if_neg hfirst)),
      fun h hstate => next_run_eq hc (Mach.rowEnumPulse_of_held hon h hstate)⟩
  case timeout =>
    intro s hc hon hwaiting
    exact next_run_eq hc (if_pos ⟨hon, hwaiting⟩)
  case period =>
    intro s hc hon hnode
    exact next_run_eq hc (if_pos ⟨hon, hnode⟩)
  case inBand =>
    intro s w v hc hadm hv hband hwaiting
    have hvalid : ¬(v < 1 ∨ 31 < v) := by omega
    exact next_run_eq hc (dictWrite_ok hadm ((if_neg hvalid).trans (if_neg (by simp [hband, hwaiting]))))
  case dad =>
    intro s hc hon hrunning
    exact ⟨next_run_eq hc (if_pos ⟨hon, hrunning⟩), next_run_eq hc (if_pos ⟨hon, hrunning⟩)⟩
  case plca =>
    intro s ok hc hon hnode
    exact next_run_eq hc (if_pos ⟨hon, hnode⟩)
  case icmp =>
    intro s hc hup
    exact ⟨next_run_eq hc (by simp [Mach.rowIcmpv6Message, hup]), next_run_eq hc (by simp [Mach.rowIcmpv6Message, hup])⟩
  case date =>
    intro s w v hc hadm hok
    exact next_run_eq hc (dictWrite_ok hadm (by simp [hok]))
  case timeOfDay =>
    intro s w v hc hadm hok
    exact next_run_eq hc (dictWrite_ok hadm (by simp [hok]))
  case dateAndTime =>
    intro s w bs hc hadm hlength hdate htime
    exact next_run_eq hc (dictWrite_ok hadm (by simp [hlength, hdate, htime]))
  case source =>
    intro s w hc hadm
    exact next_run_eq hc (dictWrite_ok hadm rfl)

end Sys2Proof.Machine
end

section
/-! The reference inputs, CCLK's loop, its divisor and spread, the frequency counter (15_clocks_power.md R411-R423). -/

namespace Sys2Proof.Machine

/-- A command of the clock loop whose operation gives what g gives on the machine at hand: its answer. -/
theorem next_powered_eq {s : State} {f g : Mach → Mach} (hp : s.m.powered = true) (h : f s.m = g s.m) :
    (.next (s.powered f) : Host.Outcome State Fault Refusal) = .next (s.after g) := by
  rw [State.powered_on hp, State.after_congr h]

/-- A command of the ALWAYS domain whose operation gives what g gives on the machine at hand: its answer. -/
theorem next_onAux_eq {s : State} {f g : Mach → Mach} (haux : s.m.elec.vauxOk = true) (h : f s.m = g s.m) :
    (.next (s.onAux f) : Host.Outcome State Fault Refusal) = .next (s.after g) := by
  rw [State.onAux_on haux, State.after_congr h]

/-- The root clock runs from step 5 of the power-up on, with both supplies. -/
theorem Mach.stage_and_vaux_of_clocked {m : Mach} (h : m.clocked = true) : 5 ≤ m.clk.stage ∧ m.elec.vauxOk = true := by
  simp only [Mach.clocked, Bool.and_eq_true, decide_eq_true_eq] at h
  obtain ⟨⟨⟨⟨⟨hstage, -⟩, haux⟩, -⟩, -⟩, -⟩ := h
  exact ⟨hstage, haux⟩

/-! ## Inputs (R411-R413, R417, R418) -/

/-- The active input of a clocked machine lost outside a coast: a switch to the other one, if it is qualified, else a coast. -/
theorem Mach.rowReferenceAbsent_of_active {m : Mach} {i : Nat} (hc : m.clocked = true) (hi : i < 2) (hpresent : m.refState i ≠ 0)
    (hsteady : (m.setRef i 0).reg 0x2000 0x0A 0 = 0) (hactive : (m.setRef i 0).activeRef = i) :
    m.rowReferenceAbsent i = if (m.setRef i 0).refState (1 - i) = 2 then
      ((m.setRef i 0).setClk { (m.setRef i 0).clk with locking := false }).startSwitch (1 - i) else (m.setRef i 0).startCoast := by
  have hlost : ¬(2 ≤ i ∨ m.refState i = 0) := by simp [hi, hpresent]
  have hrunning : ¬(m.setRef i 0).clk.stage < 5 := Nat.not_lt.mpr (Mach.stage_and_vaux_of_clocked hc).1
  have hclocked : (m.setRef i 0).clocked = true := hc
  have hnoCoast : ¬(m.setRef i 0).reg 0x2000 0x0A 0 = 1 := by simp [hsteady]
  simp only [Mach.rowReferenceAbsent, if_neg hlost, if_neg hrunning, hclocked, if_neg hnoCoast, if_pos hactive, Bool.not_true,
    Bool.false_eq_true, if_false]

/-- An input present at step 3 with none active: taken, and the loop locks to it (R428). -/
theorem Mach.rowReferenceQualified_of_powerUp {m : Mach} {i : Nat} (hi : i < 2) (hstage : m.clk.stage = 3)
    (hpresent : m.refState i = 1) (hnone : (m.setRef i 2).activeRef = 0xFF) :
    m.rowReferenceQualified i =
      ((m.setRef i 2).setReg 0x2000 3 0 i).setClk { (m.setRef i 2).clk with stage := 4, locking := true } := by
  have hqualifies : ¬(2 ≤ i ∨ m.clk.stage < 3 ∨ (m.refState i ≠ 1 ∧ m.refState i ≠ 3)) := by simp [hi, hstage, hpresent]
  exact (if_neg hqualifies).trans (if_pos ⟨hstage, hnone⟩)

/-- A change of an input's state noticed leaves the clocks' own state alone. -/
theorem Mach.refNotice_clk (m : Mach) (i old v : Nat) : (m.refNotice i old v).clk = m.clk := Mach.notice_clk ..

/-- The inactive input disagrees by more than the limit, and no switch to it is under way: refused (R412). -/
theorem Mach.rowReferenceCompare_of_disagree {m : Mach} {a b : Nat} (hactive : m.activeRef = 0) (h0 : m.refState 0 = 2)
    (h1 : m.refState 1 = 2) (hno : m.clk.switchTo = none)
    (hlimit : m.reg 0x2000 9 0 * ((m.corrected 0 a).1 * (m.corrected 1 b).2) <
      (if (m.corrected 0 a).1 * (m.corrected 1 b).2 ≤ (m.corrected 1 b).1 * (m.corrected 0 a).2 then
        (m.corrected 1 b).1 * (m.corrected 0 a).2 - (m.corrected 0 a).1 * (m.corrected 1 b).2
      else (m.corrected 0 a).1 * (m.corrected 1 b).2 - (m.corrected 1 b).1 * (m.corrected 0 a).2) * 1000000) :
    m.rowReferenceCompare a b = ((m.setRef 1 3).bump 0x7120 2).refNotice 1 2 3 := by
  have hswitch : ¬(((m.setRef 1 3).bump 0x7120 2).refNotice 1 2 3).clk.switchTo = some 1 := by
    rw [Mach.refNotice_clk]
    exact fun h => nomatch hno.symm.trans h
  have hcompares : ¬(2 ≤ 0 ∨ m.refState 0 ≠ 2 ∨ m.refState 1 ≠ 2) := by simp [h0, h1]
  simp only [Mach.rowReferenceCompare, hactive, if_neg hcompares, if_true, Nat.sub_zero, if_neg (Nat.not_le.mpr hlimit),
    if_neg hswitch]

/-! ## The spread (R420) -/

/-- The spread below its goal rises to it by at most 0.05% a period, and no notice says that it fell (R420). -/
theorem Mach.rowSpreadPeriodEnd_of_below {m : Mach}
    (h : m.reg 0x2002 3 0 < min (m.reg 0x2002 1 0) (50 - if m.activeRef < 2 then m.reg 0x2000 (7 + m.activeRef) 0 else 0)) :
    m.rowSpreadPeriodEnd = m.setReg 0x2002 3 0
      (min (min (m.reg 0x2002 1 0) (50 - if m.activeRef < 2 then m.reg 0x2000 (7 + m.activeRef) 0 else 0)) (m.reg 0x2002 3 0 + 5)) := by
  have hrises : m.reg 0x2002 3 0 < min (min (m.reg 0x2002 1 0)
      (50 - if m.activeRef < 2 then m.reg 0x2000 (7 + m.activeRef) 0 else 0)) (m.reg 0x2002 3 0 + 5) :=
    lt_min h (Nat.lt_add_of_pos_right (by decide))
  simp only [Mach.rowSpreadPeriodEnd, if_pos h, Nat.not_lt.mpr hrises.le, false_and, if_false]

/-- Settles O45: an event of the inputs or of the loop finds the state of the clocks that it acts on, and each write of the dictionary
passes its entry's own rule. -/
theorem references : Obligations.References := by
  refine ⟨?present, ?switched, ?coasts, ?qualified, ?refused, ?preferred, ?dwelt, ?locked, ?coastEnds, ?ceiling, ?spread, ?countStart,
    ?counted⟩
  case present =>
    intro s i haux hi habsent hstage
    have hnew : ¬(2 ≤ i ∨ s.m.refState i ≠ 0 ∨ (!s.m.elec.vauxOk) = true) := by simp [hi, habsent, haux]
    exact next_onAux_eq haux ((if_neg hnew).trans (if_neg hstage))
  case switched =>
    intro s i hc hi hpresent hsteady hactive hother
    exact next_onAux_eq (Mach.stage_and_vaux_of_clocked hc).2
      ((Mach.rowReferenceAbsent_of_active hc hi hpresent hsteady hactive).trans (if_pos hother))
  case coasts =>
    intro s i hc hi hpresent hsteady hactive hother
    exact next_onAux_eq (Mach.stage_and_vaux_of_clocked hc).2
      ((Mach.rowReferenceAbsent_of_active hc hi hpresent hsteady hactive).trans (if_neg hother))
  case qualified =>
    intro s i hp hi hstage hpresent hnone
    exact next_powered_eq hp (Mach.rowReferenceQualified_of_powerUp hi hstage hpresent hnone)
  case refused =>
    intro s a b hc hactive h0 h1 hno hlimit
    exact next_run_eq hc (Mach.rowReferenceCompare_of_disagree hactive h0 h1 hno hlimit)
  case preferred =>
    intro s w v hc hadm hv hunsteady
    exact next_run_eq hc (dictWrite_ok hadm ((if_neg (by omega)).trans (congrArg Except.ok (if_neg (by simp [hunsteady])))))
  case dwelt =>
    intro s hc hdwelling
    exact next_run_eq hc (if_pos hdwelling)
  case locked =>
    intro s hp hlocking hstage
    exact next_powered_eq hp (by simp [Mach.rowPllLocked, hlocking, hstage, Mach.setClk])
  case coastEnds =>
    intro s hp hlocking hstage hcoast
    have hlocks : ¬(!s.m.clk.locking) = true := by simp [hlocking]
    exact next_powered_eq hp ((if_neg hlocks).trans ((if_neg (Nat.not_lt.mpr hstage)).trans (if_pos hcoast)))
  case ceiling =>
    intro s w v hc hadm hv
    exact next_run_eq hc (dictWrite_ok hadm (if_neg (by rw [hv]; exact Bool.false_ne_true)))
  case spread =>
    intro s r hc hr hbelow
    subst hr
    exact next_run_eq hc (Mach.rowSpreadPeriodEnd_of_below hbelow)
  case countStart =>
    intro s w hc hadm hidle
    exact next_run_eq hc (dictWrite_ok hadm (if_neg hidle))
  case counted =>
    intro s count hc hrunning
    exact ⟨next_run_eq hc (if_neg (not_not.mpr hrunning)), next_run_eq hc (if_pos hrunning)⟩

end Sys2Proof.Machine
end

section
/-! RESET_IN_L and the supplies, the steps of a power-up, resets (15_clocks_power.md R424-R430; 18_electrical.md R491, R499). -/

namespace Sys2Proof.Machine

/-- An event of the pins whose operation gives what g gives on the machine at hand: its answer. -/
theorem next_pinEvent_eq {s : State} {f g : Mach → Mach} (h : f s.m = g s.m) :
    (.next (s.pinEvent f) : Host.Outcome State Fault Refusal) = .next (s.pinEvent g) := by
  simp only [State.pinEvent, h]

/-- An event of the pins that changes nothing. -/
theorem next_pinEvent_unchanged {s : State} {f : Mach → Mach} (h : f s.m = s.m) :
    (.next (s.pinEvent f) : Host.Outcome State Fault Refusal) = .next s := by
  simp only [State.pinEvent, h]

/-! ## RESET_IN_L (R424, R491) -/

/-- RESET_IN_L low for 1 µs: the package is reset with cause 1, but a tripped one only holds the line. -/
theorem Mach.rowResetInAssert_of_long {m : Mach} {ns : Nat} (h : 1000 ≤ ns) :
    m.rowResetInAssert ns = if m.clk.tripped then { m with elec := { m.elec with resetLow := true } }
      else ({ m with elec := { m.elec with resetLow := true } } : Mach).coldReset 1 := by
  have hlong : ¬ns < 100 := by omega
  exact (if_neg hlong).trans (if_pos h)

/-! ## Resets (R425-R427) -/

/-- A cold reset asked of a device that is ready: answered, audited and done. -/
theorem Mach.rowColdResetRequest_of_ready {m : Mach} {w : Src} (hadm : m.admits w 0x2200 1 = true) (hready : m.ready = true)
    (hnew : m.kept? w.q w.txn = none) (hgate : m.gate w.q 0x2200 1 = none) (hready' : m.heard.ready = true) :
    m.rowColdResetRequest w = ((m.heard.auditReq w.q 0x0035 [2]).answerWrite w 0x2200 1 0).coldReset 2 := by
  have hgo : ((m.gate w.q 0x2200 1).isNone && (m.kept? w.q w.txn).isNone && m.ready) = true := by simp [hgate, hnew, hready]
  exact (if_pos hgo).trans (congrArg (Mach.coldReset · 2) (dictWrite_ok hadm (if_neg (by simp [hready']))))

/-- Settles O46: RESET_IN_L and the supplies act as their rows say of the pins at hand, each step of the power-up is the row's own
case, and a reset finds the device ready for it. -/
theorem resets : Obligations.Resets := by
  refine ⟨?assert, ?release, ?straps, ?supplies, ?vinLow, ?vinReturn, ?vauxLow, ?stages, ?warmOrShutdown, ?cold, ?entry, ?exit, ?engine,
    ?engineDone⟩
  case assert =>
    intro s ns
    refine ⟨fun h => ?short, fun h ht => ?untripped, fun h ht => ?tripped⟩
    case short => exact next_pinEvent_unchanged (if_pos h)
    case untripped => exact next_pinEvent_eq ((Mach.rowResetInAssert_of_long h).trans (if_neg (by simp [ht])))
    case tripped => exact next_pinEvent_eq ((Mach.rowResetInAssert_of_long h).trans (if_pos ht))
  case release =>
    intro s segid refqual hlow ht
    exact next_pinEvent_eq ((if_neg (by simp [hlow])).trans (if_neg (by simp [ht])))
  case straps =>
    intro s up down hcheck
    exact next_pinEvent_eq (if_neg (by simp [hcheck]))
  case supplies =>
    intro s hoff hstage
    exact next_pinEvent_eq ((if_neg (by simp [hoff])).trans (if_pos hstage))
  case vinLow =>
    intro s hok hin
    exact next_pinEvent_eq (if_neg (by simp [hok, hin]))
  case vinReturn =>
    intro s hlow ht
    exact next_pinEvent_eq ((if_neg (by simp [hlow])).trans (if_neg (by simp [ht])))
  case vauxLow =>
    intro s haux
    exact next_pinEvent_eq (if_neg (by simp [haux]))
  case stages =>
    intro s hc
    refine ⟨fun h hshort => ?straps, fun h hbooted => ?firmware, fun h => ?store, fun h => ?engines, fun h hidle hdivisor => ?ramped,
      fun h => ?ready⟩ <;> refine next_run_eq hc ?_ <;>
      simp only [Mach.rowPowerUpStageDone, hc, h, Bool.not_true, Bool.false_eq_true, if_false]
    case straps => exact if_pos hshort
    case firmware => exact if_pos hbooted
    case ramped => exact if_pos ⟨by simp [hidle], hdivisor⟩
  case warmOrShutdown =>
    intro s w hc hadm hready
    have hgo : ¬(!s.m.heard.ready) = true := by simp [hready]
    exact ⟨next_run_eq hc (dictWrite_ok hadm (if_neg hgo)), next_run_eq hc (dictWrite_ok hadm (if_neg hgo))⟩
  case cold =>
    intro s w hc hadm hready hnew hgate hready'
    exact next_run_eq hc (Mach.rowColdResetRequest_of_ready hadm hready hnew hgate hready')
  case entry =>
    intro s hc hstate hentered hcoast
    exact next_run_eq hc (by simp [Mach.rowWarmResetEntryDone, hstate, hentered, hcoast])
  case exit =>
    intro s hc hstate hentered hlocking hidle hdivisor
    have hleaves : ¬(s.m.reg 0x2200 3 0 ≠ 2 ∨ (!s.m.clk.entered) = true ∨ s.m.clk.locking = true) := by
      simp [hstate, hentered, hlocking]
    have hramped : ¬(s.m.clk.dwelling = true ∨ s.m.reg 0x2001 2 0 ≠ s.m.divisorInForce) := by simp [hidle, hdivisor]
    exact next_run_eq hc ((if_neg hleaves).trans (if_neg hramped))
  case engine =>
    intro s w hc hadm hon heng
    have hcrag : ¬16 ≤ s.m.heard.reg 0x2201 2 0 := by omega
    exact next_run_eq hc (dictWrite_ok hadm (by simp only [hon, if_neg hcrag, ne_eq, not_true_eq_false, if_false]))
  case engineDone =>
    intro s die eng hc
    exact next_run_eq hc rfl

end Sys2Proof.Machine
end

section
/-! Power domains, the power controller and the thermal limits (15_clocks_power.md R431-R440). -/

namespace Sys2Proof.Machine

/-! ## Domains (R431-R434) -/

section
variable {m : Mach} {die dom : Nat}

/-- A request that may name its domain, ON or OFF: the request's own rule, audited (R434). -/
theorem Mach.domainRequest_ok {w : Src} {go : Nat → Nat → Mach → Except Nat Mach} {m' : Mach} (hadm : m.admits w 0x2220 4 = true)
    (hrow : m.rowOf w.q 0x2220 4 = die * 16 + dom) (hdom : 1 ≤ dom ∧ dom < 7)
    (hstate : m.heard.domain die dom = 1 ∨ m.heard.domain die dom = 3) (hgo : go die dom m.heard = .ok m') :
    m.domainRequest w go = (m'.auditReq w.q 0x0035 [byteOf die, byteOf dom]).answerWrite w 0x2220 4 0 := by
  have hdie : (die * 16 + dom) / 16 = die := by omega
  have hsub : (die * 16 + dom) % 16 = dom := by omega
  have hnotAlways : dom ≠ 7 := by omega
  have hswitched : ¬(dom = 0 ∨ m.heard.domain die dom = 0) := by omega
  have hsettled : ¬(m.heard.domain die dom = 2 ∨ m.heard.domain die dom = 4) := by omega
  simp only [Mach.domainRequest, hrow, hdie, hsub, hnotAlways, false_and, if_false]
  exact dictWrite_ok hadm ((if_neg hswitched).trans ((if_neg hsettled).trans (congrArg (Except.map _) hgo)))

/-- A domain that goes down is OFF, the commands of the engines settled first if it is theirs (R432, R433). -/
theorem Mach.domainOff_of_goingDown (h : m.domain die dom = 2) :
    m.domainOff die dom = (if dom = 1 then m.settleEng die else m).setDomain die dom 3 :=
  if_neg (not_not.mpr h)

end

/-! ## Power (R435, R437) -/

/-- A mean above the cap, no ramp under way: the controller goes down a level, and the cap's alert is judged (R435, R437). -/
theorem Mach.rowPowerEvaluation_of_above {m m1 : Mach} {watts mA vin vaux vauxMa : Nat}
    (hm1 : m1 = ((((m.setReg 0x2232 1 0 (vin % 65536)).setReg 0x2232 2 0 (vaux % 65536)).setReg 0x2232 3 0 (vauxMa % 65536)).setReg
      0x2100 3 0 watts).setReg 0x2100 4 0 mA)
    (habove : m1.reg 0x2100 1 0 < watts) (hsteady : (m1.setClk { m1.clk with below := 0 }).ramping = false)
    (hwarm : 98 * m1.reg 0x2100 1 0 ≤ watts * 100) :
    m.rowPowerEvaluation watts mA vin vaux vauxMa =
      (((m1.setClk { m1.clk with below := 0 }).levelDown).capCheck watts).showPower true := by
  have hnotCool : (decide (watts * 100 < 98 * m1.reg 0x2100 1 0) && m1.coolBy 20) = false := by simp [hwarm]
  simp only [Mach.rowPowerEvaluation, ← hm1, hnotCool, decide_eq_true habove, hsteady, Bool.false_eq_true, if_false, true_or, if_true]

/-! ## Temperature (R439, R440) -/

@[simp] theorem Mach.setClk_clk (m : Mach) (c : Clocks) : (m.setClk c).clk = c := rfl
@[simp] theorem Mach.setClk_reg (m : Mach) (c : Clocks) (i s r : Nat) : (m.setClk c).reg i s r = m.reg i s r := by
  simp only [Mach.reg, Mach.setClk]

/-- The machine with a die's highest junction temperature, and with the highest of all dies and of all stacks (R439). -/
def Mach.dieSampled (m : Mach) (n : Nat) (t : Int) : Mach :=
  let x := m.setReg 0x2101 2 n (ofSigned 32 t)
  (x.setReg 0x2100 0x0B 0 (ofSigned 32 (maxInt ((List.range x.dies).map fun d => toSigned 32 (x.reg 0x2101 2 d))))).setReg 0x2100 0x0C 0
    (ofSigned 32 (maxInt ((List.range (2 * x.dies)).map fun k => toSigned 32 (x.reg 0x2101 (3 + k % 2) (k / 2)))))

section
variable {m : Mach} {n : Nat} {readings : List Int}

/-- Readings of a die, some of them at the trip level: the device trips (R440). -/
theorem Mach.rowThermalSample_of_trip (hn : n < m.dies) (hread : readings ≠ []) (htrip : 1150 ≤ maxInt readings) :
    m.rowThermalSample false n readings = (m.dieSampled n (maxInt readings)).trip := by
  have hsamples : (decide (m.dies ≤ n) || readings.isEmpty) = false := by simp [hn, hread]
  simp only [Mach.rowThermalSample, Mach.dieSampled, hsamples, if_pos htrip, Bool.false_eq_true, if_false]

/-- Readings of a die below its critical level that leave every die at most as hot as the throttle level: no limit is met (R440). -/
theorem Mach.rowThermalSample_of_cool (hn : n < m.dies) (hread : readings ≠ []) (hcool : maxInt readings < 1050)
    (hcalm : m.clk.critical = false)
    (hdies : maxInt ((List.range m.dies).map fun d =>
        toSigned 32 ((m.setReg 0x2101 2 n (ofSigned 32 (maxInt readings))).reg 0x2101 2 d)) ≤
      ((10 * (m.dieSampled n (maxInt readings)).reg 0x2100 8 0 : Nat) : Int)) :
    m.rowThermalSample false n readings =
      ((m.dieSampled n (maxInt readings)).setClk { (m.dieSampled n (maxInt readings)).clk with hotDie := false }).showPower
        (bit ((m.dieSampled n (maxInt readings)).reg 0x2100 7 0) 0) := by
  have hsamples : (decide (m.dies ≤ n) || readings.isEmpty) = false := by simp [hn, hread]
  have hnoTrip : ¬1150 ≤ maxInt readings := by omega
  have hnotCritical : ¬1050 ≤ maxInt readings := by omega
  have hnotHot := Int.not_lt.mpr hdies
  simp only [Mach.dieSampled, Mach.setReg_dies] at hnotHot ⊢
  simp only [Mach.rowThermalSample, Mach.setReg_dies, Mach.setReg_clk, Mach.setClk_clk, Mach.setClk_reg, hsamples, hnoTrip, hnotCritical,
    hnotHot, hcalm, decide_false, Bool.false_and, false_and, Bool.false_eq_true, if_false]

end

/-- Settles O47: a request of a domain passes its rule (`domainRequest_ok`), a domain's and the current cut's events find the state that
they end, and a reading is judged by the limits. -/
theorem powerAndHeat : Obligations.PowerAndHeat := by
  refine ⟨?down, ?up, ?off, ?offEng, ?upDone, ?evaluated, ?cut, ?cutEnd, ?trips, ?cool⟩
  case down =>
    intro s w die dom hc hadm hrow hdom hon hbar
    exact next_run_eq hc (Mach.domainRequest_ok hadm hrow hdom (.inl hon) ((if_neg (not_not.mpr hon)).trans (by simp only [hbar])))
  case up =>
    intro s w die dom hc hadm hrow hdom hoff
    exact next_run_eq hc (Mach.domainRequest_ok hadm hrow hdom (.inr hoff) (congrArg Except.ok (if_pos hoff)))
  case off =>
    intro s die dom hc hdown hdom
    exact ⟨next_run_eq hc ((Mach.domainOff_of_goingDown hdown).trans (by rw [if_neg hdom])),
      next_run_eq hc ((if_neg (not_not.mpr hdown)).trans (by rw [if_neg hdom]))⟩
  case offEng =>
    intro s die hc hdown
    exact next_run_eq hc (Mach.domainOff_of_goingDown hdown)
  case upDone =>
    intro s die dom hc hup
    exact next_run_eq hc (if_pos hup)
  case evaluated =>
    intro s watts mA vin vaux vauxMa m1 hc hm1 habove hsteady hwarm
    exact next_run_eq hc (Mach.rowPowerEvaluation_of_above hm1 habove hsteady hwarm)
  case cut =>
    intro s hc hcut
    exact next_run_eq hc (if_neg (by simp [hcut]))
  case cutEnd =>
    intro s hc hcut
    exact next_run_eq hc (if_pos hcut)
  case trips =>
    intro s n readings hc hn hread htrip
    exact next_run_eq hc (Mach.rowThermalSample_of_trip hn hread htrip)
  case cool =>
    intro s n readings m1 hc hn hread hcool hcalm hm1 hdies
    subst hm1
    exact next_run_eq hc (Mach.rowThermalSample_of_cool hn hread hcool hcalm hdies)

end Sys2Proof.Machine
end

section
/-! The choice of an image, its upload and its activation, the handover, and the audit log's flash (16_security.md R444-R447, R452, R455,
R468). -/

namespace Sys2Proof.Machine

/-! ## The boot (R444, R455) -/

section
variable {m : Mach}

/-- A valid image chosen while the tallies' record counts what is burnt: started, with the tallies rejected if no copy of the record
qualifies (R444, R455). -/
theorem Mach.rowBootChoose_of_valid {k : Nat} (hstage : m.clk.stage = 6) (hbooted : m.clk.booted = false)
    (hslot : m.chooseSlot = (some k, 0))
    (hcounts : (m.bumpBy 0x7130 3 0 0).sec.flash.recorded = (m.bumpBy 0x7130 3 0 0).sec.flash.burnt) (ok : Bool) :
    m.rowBootChoose ok = (if ok then m.bumpBy 0x7130 3 0 0 else (m.bumpBy 0x7130 3 0 0).tallyRejected).startImage k := by
  simp [Mach.rowBootChoose, hstage, hbooted, hslot, hcounts]

/-- No image is valid: the device waits (R444). -/
theorem Mach.rowBootChoose_of_none (hstage : m.clk.stage = 6) (hbooted : m.clk.booted = false) (hslot : m.chooseSlot = (none, 2))
    (ok : Bool) :
    m.rowBootChoose ok = (m.bumpBy 0x7130 3 0 2).setClk { (m.bumpBy 0x7130 3 0 2).clk with noImage := true } := by
  simp [Mach.rowBootChoose, hstage, hbooted, hslot]

/-! ## Updates (R446, R447) -/

/-- A segment that does not end its image, no update under way: the other slot is emptied and the upload begins (R446). -/
theorem Mach.rowImageUpload_of_unfinished {m1 : Mach} {q : Requester} {r : Request} (hop : r.op = 4) (hindex : r.index = 0x6010)
    (hsub : r.sub = 3) (hfresh : m.fresh? q r.txn = true) (hgate : m.heard.gate q 0x6010 3 = none)
    (hform : firstAbort (reqFaults r ++ (if r.ty ≠ typeCode 0x6010 3 then [abType] else []) ++
      (if [2, 3, 4].contains (m.heard.reg 0x6010 5 0) then some abBusy else none).toList) = none)
    (htake : m.heard.takeSegment q r = (.ok none, m1)) :
    m.rowImageUpload q r = ((m1.setFlash (m1.sec.flash.setSlot m1.otherSlot none)).setReg 0x6010 5 0 1).answerReq q r 0 0 [] := by
  have huploads : ¬(r.op ≠ 4 ∨ r.index ≠ 0x6010 ∨ r.sub ≠ 3) := by simp [hop, hindex, hsub]
  refine (if_neg huploads).trans ?_
  simp only [Mach.serveSegment, once_new hfresh, hindex, hsub, hgate, hform, htake]

/-- Activation of a valid image while no update is under way and both dies of a handover are there: preferred in trial (R446). -/
theorem Mach.activate_of_valid {w : Src} (hadm : m.admits w 0x6010 4 = true)
    (hvalid : m.heard.imageValid (m.heard.sec.flash.slot m.heard.otherSlot) = true)
    (hidle : [2, 3, 4].contains (m.heard.reg 0x6010 5 0) = false) (hstandby : m.heard.hasStandby = true) (live : Bool) :
    m.activate w live =
      let n := (m.heard.prefer m.heard.otherSlot true).setReg 0x6010 5 0 (if live then 3 else 4)
      ((if live then n.setReg 0x6010 6 0 2 else n).auditReq w.q 0x0002
        [byteOf (if live then 1 else 2), byteOf m.heard.otherSlot]).answerWrite w 0x6010 4 0 :=
  dictWrite_ok hadm (by simp only [hvalid, hidle, hstandby, Bool.not_true, Bool.false_eq_true, and_false, or_self, if_false])

end

/-- Settles O48: the boot ROM's choice decides the boot, an upload and an activation pass their rules, and the oldest entry's write ends
by its outcome. -/
theorem bootAndUpdate : Obligations.BootAndUpdate := by
  refine ⟨?chosen, ?waits, ?segment, ?activated, ?tookOver, ?timedOut, ?claim, ?audit⟩
  case chosen =>
    intro s ok k hc hstage hbooted hslot hcounts
    exact next_run_eq hc (Mach.rowBootChoose_of_valid hstage hbooted hslot hcounts ok)
  case waits =>
    intro s ok hc hstage hbooted hslot
    have hwaits := Mach.rowBootChoose_of_none hstage hbooted hslot ok
    exact ⟨next_run_eq hc hwaits, fun hnone => next_run_eq hc ((if_pos hnone).trans hwaits)⟩
  case segment =>
    intro s q r m1 hc hop hindex hsub hfresh hgate hform htake hm1
    exact next_run_eq hc (Mach.rowImageUpload_of_unfinished hop hindex hsub hfresh hgate hform
      (Prod.ext (eq_ok_of_toOption_eq_some htake) hm1.symm))
  case activated =>
    intro s w hc hadm hvalid hidle hstandby
    have hactivate := Mach.activate_of_valid hadm hvalid hidle hstandby
    exact ⟨next_run_eq hc (hactivate true), next_run_eq hc (hactivate false)⟩
  case tookOver =>
    intro s hc hstate hstandby
    exact next_run_eq hc (if_neg (by simp [hstate, hstandby]))
  case timedOut =>
    intro s hc hstate
    exact next_run_eq hc (if_neg (not_not.mpr hstate))
  case claim =>
    intro s hc
    exact next_run_eq hc rfl
  case audit =>
    intro s n rest hc holdest
    exact ⟨next_run_eq hc (by simp [Mach.rowAuditFlashWriteDone, holdest]),
      fun hfirst => next_run_eq hc (by simp [Mach.rowAuditFlashWriteDone, holdest, hfirst]),
      fun hagain => next_run_eq hc (by simp [Mach.rowAuditFlashWriteDone, holdest, hagain])⟩

end Sys2Proof.Machine
end

section
/-! Confidential mode and the binding of weights (16_security.md R456-R459, R463-R466). -/

namespace Sys2Proof.Machine

/-! ## Weight binding (R465, R466) -/

/-- A region in whole 2 MiB pages within its owner's grants, while nothing is bound: registered, undecided (R465). -/
theorem Mach.rowWeightBind_of_free {m : Mach} {w : Src} {k base len who : Nat} (hadm : m.admits w 0x6031 6 = true)
    (hslot : m.heard.sel w.q 0x6031 1 = k) (hbase : m.heard.reg 0x6031 4 k = base) (hlen : m.heard.reg 0x6031 5 k = len)
    (hwho : m.heard.bindOwner w.q = who) (haligned : base % 2 ^ 21 = 0 ∧ len % 2 ^ 21 = 0 ∧ len ≠ 0) (hfree : m.heard.sec.bound = [])
    (hpackage : m.heard.inGrant who (m.heard.reg 0x6031 2 k) (m.heard.reg 0x6031 3 k) = true)
    (hregion : m.heard.inGrant who base len = true) :
    m.rowWeightBind w = (((({ m.heard with sec := { m.heard.sec with
      bound := tput m.heard.sec.bound k { base := base, len := len, key := [] } } } : Mach).setReg 0x6031 7 k 0).setReg 0x6031 8 k
        0).setReg 0x6031 9 k who).answerWrite w 0x6031 6 0 := by
  obtain ⟨hbaseAligned, hlenAligned, hnonempty⟩ := haligned
  exact dictWrite_ok hadm (by
    simp only [hslot, hbase, hlen, hwho, hbaseAligned, hlenAligned, hnonempty, hfree, hpackage, hregion, List.any_nil, tget,
      Option.isSome_none, ne_eq, not_true_eq_false, Bool.not_true, Bool.false_eq_true, or_self, if_false])

section
variable {m m1 : Mach} {slot : Nat} {b : BoundRegion} {p : List Byte}

/-- An undecided region whose package no host holds back and is read: it is bound under the key that the package unwraps, or
refused for the reason that the package fails (R466). -/
theorem Mach.rowBindingDecision_of_read (hbound : tget m.sec.bound slot = some b) (hopen : m.reg 0x6031 7 slot = 0)
    (hhosts : m.recall (m.reg 0x6031 2 slot) (m.reg 0x6031 3 slot) false = none)
    (hread : m.loadDpa 0 (m.reg 0x6031 2 slot) (m.reg 0x6031 3 slot) = (.ok p, m1)) :
    (∀ key, m1.checkPackage p = .ok key → m.rowBindingDecision slot =
      (((({ m1 with sec := { m1.sec with bound := tput m1.sec.bound slot { b with key := key } } } : Mach).setReg 0x6031 7 slot 1).setReg
        0x6031 8 slot 0).notice 0x8134 [byteOf slot, 1, 0]).audit 0x0021 [byteOf slot, 1, 0]) ∧
    (∀ why, m1.checkPackage p = .error why → m.rowBindingDecision slot =
      ((((m1.bump 0x7130 7).setReg 0x6031 7 slot 2).setReg 0x6031 8 slot why).notice 0x8134 [byteOf slot, 2, byteOf why]).audit 0x0021
        [byteOf slot, 2, byteOf why]) := by
  have hundecided : ¬m.reg 0x6031 7 slot ≠ 0 := not_not.mpr hopen
  constructor
  · intro key hkey
    simp only [Mach.rowBindingDecision, hbound, if_neg hundecided, hhosts, hread, hkey]
    rfl
  · intro why hwhy
    simp only [Mach.rowBindingDecision, hbound, if_neg hundecided, hhosts, hread, hwhy]
    rfl

end

/-- Settles O49: entry and exit pass their rules and end once nothing waits, and a package decides the binding of its region
(`rowBindingDecision_of_read`). -/
theorem confidentialMode : Obligations.ConfidentialMode := by
  refine ⟨?enter, ?exit, ?bound, ?entered, ?exited, ?pathLoss, ?bind, ?unbind, ?decided⟩
  case enter =>
    intro s w hc hadm hallowed hrole hbounce hpaths hoff
    exact next_run_eq hc (dictWrite_ok hadm (by simp [hallowed, hrole, hbounce, hpaths, hoff]))
  case exit =>
    intro s w hc hadm hon
    exact next_run_eq hc (dictWrite_ok hadm (if_pos hon))
  case bound =>
    intro s hc
    exact next_run_eq hc rfl
  case entered =>
    intro s key hc hstate hwaits
    exact next_run_eq hc (if_neg (by simp [hstate, hwaits]))
  case exited =>
    intro s hc hstate hwaits
    exact next_run_eq hc (if_neg (by simp [hstate, hwaits]))
  case pathLoss =>
    intro s hc hon hpaths hexits
    exact next_run_eq hc (if_pos ⟨hon, by simp [hpaths], hexits⟩)
  case bind =>
    intro s w k base len who hc hadm hslot hbase hlen hwho hbaseAligned hlenAligned hnonempty hfree hpackage hregion
    exact next_run_eq hc (Mach.rowWeightBind_of_free hadm hslot hbase hlen hwho ⟨hbaseAligned, hlenAligned, hnonempty⟩ hfree hpackage
      hregion)
  case unbind =>
    intro s w k hc hadm hslot
    subst hslot
    exact next_run_eq hc (dictWrite_ok hadm rfl)
  case decided =>
    intro s slot b p m1 hc hbound hopen hhosts hread hm1
    obtain ⟨hok, hrefused⟩ := Mach.rowBindingDecision_of_read hbound hopen hhosts (Prod.ext hread hm1.symm)
    exact ⟨fun key hkey => next_run_eq hc (hok key hkey), fun why hwhy => next_run_eq hc (hrefused why hwhy)⟩

end Sys2Proof.Machine
end

section
/-! Optical modules, the TAP, the access to a scratchpad and the lines that are read back (17_telemetry.md R478-R481, R484-R487;
18_electrical.md R501). -/

namespace Sys2Proof.Machine

/-- An event at a port's or a module's pin whose operation gives what g gives on the machine at hand: its answer. -/
theorem next_atPort_eq {s : State} {f g : Mach → Mach} (h : f s.m = g s.m) :
    (.next (s.atPort f) : Host.Outcome State Fault Refusal) = .next (s.atPort g) := by
  rw [State.atPort_congr h]

/-! ## Modules (R479-R481) -/

/-- A module's map read by its checks, the bus having answered: the bytes asked for, and the bus's failures forgotten (R481). -/
theorem Mach.rowModuleMapRead_of_answered {m : Mach} {w : Src} {bs : List Byte} (hfresh : m.fresh? w.q w.txn = true)
    (hgate : m.heard.readGate w.q 0x7150 0x0B = none)
    (hmap : m.heard.mapFault w.q (m.heard.sel w.q 0x7150 0x0A) false = none) :
    m.rowModuleMapRead w (some bs) =
      let i := m.heard.sel w.q 0x7150 1
      let d := slice bs 0 (m.heard.sel w.q 0x7150 0x0A)
      (m.heard.setModule i { m.heard.module i with busFails := 0 }).answer w.q
        ⟨w.txn, 1, 0x7150, 0x0B, typeCode 0x7150 0x0B, 0, d.length, d⟩ := by
  simp only [Mach.rowModuleMapRead, once_new hfresh, hgate, hmap]

/-- A module's map written by its checks, the bus having taken it (R481). -/
theorem Mach.rowModuleMapWrite_of_taken {m : Mach} {w : Src} {bs : List Byte} (hadm : m.admits w 0x7150 0x0B = true)
    (hlength : bs.length = m.heard.sel w.q 0x7150 0x0A) (hmap : m.heard.mapFault w.q bs.length true = none) :
    m.rowModuleMapWrite w bs true =
      let i := m.heard.sel w.q 0x7150 1
      ((m.heard.setModule i { m.heard.module i with busFails := 0 }).emit (.moduleWrite i (m.heard.sel w.q 0x7150 8)
        (m.heard.sel w.q 0x7150 9) bs)).answerWrite w 0x7150 0x0B 0 := by
  simp only [Mach.rowModuleMapWrite, Bool.not_true, Bool.and_false, Bool.false_eq_true, if_false]
  exact dictWrite_ok hadm (by simp only [if_neg (not_not.mpr hlength), hmap, if_true])

/-! ## Scratchpad access (R486) -/

/-- An access to a scratchpad with none waiting, its checks passed and its bank free: made at once and answered (R486). -/
theorem Mach.scratchAccess_of_free {m : Mach} {w : Src} {op : Nat} {gate : Mach → Option Nat} {go : Mach → Mach × List Byte}
    (hnone : m.tele.scratchAsk = none) (hfresh : m.fresh? w.q w.txn = true) (hgate : gate m.heard = none)
    (hfree : m.heard.scratchFree w.q = true) :
    m.scratchAccess w op gate go =
      let r := go (m.heard.setTele { m.heard.tele with scratchAsk := none })
      r.1.answer w.q ⟨w.txn, op, 0x9010, 5, typeCode 0x9010 5, 0, if op = 1 then r.2.length else 0, r.2⟩ := by
  simp only [Mach.scratchAccess, hnone, reduceCtorEq, Option.isSome_none, once_new hfresh, hgate, hfree, Bool.not_true,
    Bool.false_eq_true, if_false]

/-! ## The TAP and the lines (R484, R485, R501) -/

/-- An instruction that drives pins is loaded if the device accepts it, BYPASS otherwise (R485). -/
theorem Mach.rowTapInstructionUpdate_of_pins {m : Mach} {code : Nat} (h : 3 ≤ code ∧ code ≤ 7) :
    m.rowTapInstructionUpdate code = if m.pinsAccepted then m.setTele { m.tele with tapInstr := code, tapRefused := false }
      else m.setTele { m.tele with tapInstr := 0xFF, tapRefused := true } := by
  have hsample : ¬code = 1 := by omega
  have hscan : ¬code = 2 := by omega
  exact (if_neg hsample).trans ((if_neg hscan).trans (if_pos h))

/-- A new state of ALERT_L that its drive allows is kept, and no notice is raised (R501). -/
theorem Mach.rowSidebandLineCheck_of_alert {m : Mach} {st : Nat} (hst : st < 3)
    (hstands : (st == 0 || (st == 1 && !m.lineDriven 0) || (st == 2 && m.lineDriven 0)) = true) (hnew : m.lineState 0 ≠ st) :
    m.rowSidebandLineCheck 0 st = m.setReg 0x2231 1 0 st := by
  simp [Mach.rowSidebandLineCheck, hst, hnew, hstands]

/-- Settles O51: a module's events find its state, an access of a map or of a scratchpad passes its checks, and the TAP and ALERT_L are
by their cases. -/
theorem modulesAndDebug : Obligations.ModulesAndDebug := by
  refine ⟨?inserted, ?removed, ?ready, ?timeout, ?retry, ?poll, ?mapRead, ?mapWrite, ?tap, ?scratchRead, ?scratchWrite, ?scratchTimeout,
    ?line⟩
  case inserted =>
    intro s i hpos habsent
    exact next_atPort_eq (if_neg (by simp [hpos, habsent]))
  case removed =>
    intro s i hpos
    exact next_atPort_eq (if_neg (by simp [hpos]))
  case ready =>
    intro s i app a b c d hc hpos hinit
    have hready : ¬(s.m.moduleState i ≠ 1 ∨ (!s.m.position i) = true) := by simp [hinit, hpos]
    exact ⟨fun hnone => next_run_eq hc ((if_neg hready).trans (if_pos hnone)),
      fun happ => next_run_eq hc ((if_neg hready).trans (if_neg happ))⟩
  case timeout =>
    intro s i hc hinit
    exact next_run_eq hc (if_pos hinit)
  case retry =>
    intro s i hc hfault
    exact next_run_eq hc (if_pos hfault)
  case poll =>
    intro s i lanes fault hc hready
    exact ⟨next_run_eq hc (if_pos (.inr hready)), next_run_eq hc (if_neg (not_not.mpr hready))⟩
  case mapRead =>
    intro s w bs hc hfresh hgate hmap
    exact next_run_eq hc (Mach.rowModuleMapRead_of_answered hfresh hgate hmap)
  case mapWrite =>
    intro s w bs hc hadm hlength hmap
    exact next_run_eq hc (Mach.rowModuleMapWrite_of_taken hadm hlength hmap)
  case tap =>
    intro s code haux
    refine ⟨fun h => ?sample, fun h hopen hoff => ?scan, fun h hlocked => ?scanRefused, fun h hpins => ?pins,
      fun h hpins => ?pinsRefused⟩
    case sample =>
      subst h
      exact next_onAux_eq haux rfl
    case scan =>
      subst h
      exact next_onAux_eq haux (if_neg (by simp [hopen, hoff]))
    case scanRefused =>
      subst h
      exact next_onAux_eq haux (if_pos (.inl hlocked))
    case pins => exact next_onAux_eq haux ((Mach.rowTapInstructionUpdate_of_pins h).trans (if_pos hpins))
    case pinsRefused => exact next_onAux_eq haux ((Mach.rowTapInstructionUpdate_of_pins h).trans (if_neg (by simp [hpins])))
  case scratchRead =>
    intro s w bs m1 hc hnone hfresh hgate hfault hfree hbs hm1
    subst hbs hm1
    exact next_run_eq hc (Mach.scratchAccess_of_free hnone hfresh (by simp only [hgate, hfault, Option.or_none]) hfree)
  case scratchWrite =>
    intro s w bs hc hnone hfresh hgate hlength hfault hfree
    exact next_run_eq hc (Mach.scratchAccess_of_free hnone hfresh
      (by simp only [hgate, if_neg (not_not.mpr hlength), hfault, Option.or_none]) hfree)
  case scratchTimeout =>
    intro s d hc hwaits
    exact next_run_eq hc (by simp only [Mach.rowDebugScratchGrantTimeout, hwaits])
  case line =>
    intro s st haux
    refine ⟨fun h hdriven hnew => ?held, fun h hdriven hnew => ?stuck, fun h hnew => ?follows⟩ <;> subst h
    case held => exact next_onAux_eq haux (Mach.rowSidebandLineCheck_of_alert (by decide) (by simp [hdriven]) hnew)
    case stuck => exact next_onAux_eq haux (Mach.rowSidebandLineCheck_of_alert (by decide) (by simp [hdriven]) hnew)
    case follows => exact next_onAux_eq haux (Mach.rowSidebandLineCheck_of_alert (by decide) rfl hnew)

end Sys2Proof.Machine
end
